-- ==== Sys2Proof/Word.lean ====
section
/-! DEFINITION. The word types of the model: bytes and the widths the tables of the spec use (00_scope.md R9:
multi-byte values are little-endian; bit 0 is the least significant bit). -/

namespace Sys2Proof

/-- A byte of memory. -/
abbrev Byte := BitVec 8

/-- A 64-bit register, fence value or counter image. -/
abbrev Word64 := BitVec 64

/-- A 128-byte ring descriptor as one number, byte 0 lowest (R9, R289). -/
abbrev RingDesc := BitVec 1024

/-- A 64-byte op descriptor as one number, byte 0 lowest (R85). -/
abbrev OpDesc := BitVec 512

/-- One byte at an address, as the host's interface has it. -/
abbrev Cells := List (Nat × Byte)

end Sys2Proof
end

