-- ==== Sys2Proof/Syntax.lean ====
section
/-! DEFINITION. The commands of the block: one constructor of `Instr` per row of spec/opcode_table.json, in the
table's order. A command is an event at the device's boundary or a step of one of its engines. Its operands say WHERE
it happens (a ring, a partition, a tile, a port, a stack) and carry the FACTS OF THE WORLD that the device meets and no
rule of the spec computes (a tag verifies, a picture decodes, a sensor reads). Everything else comes from the state. -/

namespace Sys2Proof

/-- One coded picture of a stream, as its container and headers declare it (02 R46, R47): presentation time in 90 kHz
ticks from the stream's first, duration, random access point, references by decode index, coded size. -/
structure Frame where
  pts : Nat
  dur : Nat
  rap : Bool
  refs : List Nat
  width : Nat
  height : Nat
  /-- 0 a frame, 1 a top field, 2 a bottom field; a field counts as half a frame (R42) -/
  field : Nat
  /-- decode index of the other field of its pair; its own for a frame -/
  mate : Nat
  /-- the byte of the container stream at which it ends -/
  stop : Nat
  deriving DecidableEq, Repr

/-- A decoded picture as the codec's standard gives it (02 R40, R52): bit depth, full range, matrix signalled (0 absent, else
as `MATRIX`), chroma subsampling across and down (0 for monochrome), the place of the first chroma sample across and down in
half luma samples from the first luma sample when the stream signals it (0 with it, 1 midway, 2 with the next), and the three
planes, row by row. -/
structure Picture where
  depth : Nat
  full : Bool
  matrix : Nat
  subX : Nat
  subY : Nat
  site : Option (Nat × Nat)
  y : List (List Nat)
  cb : List (List Nat)
  cr : List (List Nat)
  deriving DecidableEq, Repr

/-- One audio frame as the container declares it (02 R49, R56): first tick, duration in ticks, the byte of the container
stream at which it ends. -/
structure AudioFrame where
  pts : Nat
  dur : Nat
  stop : Nat
  deriving DecidableEq, Repr

/-- The profiles that Table 02-4 names, and any other. -/
inductive VideoProfile where
  | constrainedBaseline | main | high | p422 | high10 | high422 | main10 | main42210 | other
  deriving DecidableEq, Repr

/-- A video track as its headers declare it (02 R39 to R41, R45): track selector, program, whether it is scrambled, encrypted or
compressed by the container, codec (a `VCODEC` code; any other number for another codec), profile, level in tenths (MPEG-2: 1
Low, 2 Main, 3 High 1440, 4 High), chroma format (0 monochrome, 1 4:2:0, 2 4:2:2, 3 4:4:4), bit depth, picture size, pictures of
the decoded picture buffer, and its frames in decode order. -/
structure VideoTrack where
  id : Nat
  program : Nat
  covered : Bool
  codec : Nat
  profile : VideoProfile
  level : Nat
  chroma : Nat
  depth : Nat
  width : Nat
  height : Nat
  buffer : Nat
  frames : List Frame
  deriving DecidableEq, Repr

/-- An audio track as its headers declare it (02 R39 to R41, R56): track selector, program, whether the container covers it, codec
(an `ACODEC` code; any other number for another codec), whether it is a form that Table 02-4 leaves out (a multichannel
extension, an object type other than LC), bit rate in kb/s, sample rate, channels, and its frames. -/
structure AudioTrack where
  id : Nat
  program : Nat
  covered : Bool
  codec : Nat
  extended : Bool
  kbps : Nat
  rate : Nat
  channels : Nat
  frames : List AudioFrame
  deriving DecidableEq, Repr

/-- What the demultiplexer finds in a sample's stream (02 R39, R41): the bytes of a transport packet, the byte at which the
structure can be parsed no further, if there is one, and the tracks in the order of the container. -/
structure StreamFacts where
  packet : Nat
  breaks : Option Nat
  video : List VideoTrack
  audio : List AudioTrack
  deriving DecidableEq, Repr

/-- A message on a link: the route word, the header of Table 07-5, the payload as it stands there, encrypted under the sender's
traffic key, and the tag (07 R191, R193, R214). -/
structure Msg where
  route : Nat
  typ : Nat
  ch : Nat
  dest : Nat
  src : Nat
  slice : Nat
  eng : Bool
  addr : Nat
  key : Nat
  tile : Nat
  ctr : Nat
  len : Nat
  serial : Nat
  epoch : Nat
  cseq : Nat
  /-- `REQ_CTR` of GETR and REJECT (bytes 8-15) -/
  reqCtr : Nat
  /-- `STATUS` of GETR and REJECT (bytes 8-15) -/
  status : Nat
  payload : List Byte
  tag : List Byte
  deriving DecidableEq, Repr

/-- How a phase of link training ends (07 Table 07-2, Table 07-4): it completes, it completes with the lane tests that these
fenced lanes of the port have passed (09 Table 09-3), it times out, or, in the identity phase, a signature fails or both
verify for the neighbour's coordinate and port. -/
inductive PhaseResult where
  | completed
  | tested (lanes : List Nat)
  | timedOut
  | unverified
  | verified (coord port : Nat)
  deriving DecidableEq, Repr

/-- A hardware error in Batten's work on an update block (09 R260, R261): bits `flip` of byte `byte` of what the run gives for slot
`slot` come out inverted, in run `run` (0 the first, 1 and 2 the re-runs) or, with `lane`, in that run's checking lane. -/
structure BlockError where
  run : Nat
  lane : Bool
  slot : Nat
  byte : Nat
  flip : BitVec 8
  deriving DecidableEq, Repr

/-- What a link layer does in an interval (07 R185): frames sent again, codewords that FEC corrected. -/
structure FrameCounts where
  again : Nat
  corrected : Nat
  deriving DecidableEq, Repr

/-- The fields of an update-program instruction beside its opcode (06 Table 06-6). -/
structure ProgFields where
  d : BitVec 4
  a : BitVec 4
  b : BitVec 4
  c : BitVec 4
  g : Bool
  n : Bool
  p : BitVec 2
  x : BitVec 6
  deriving DecidableEq, Repr

/-- What a read of a stored line finds (12 R374, R375). -/
inductive LineFound where
  | good
  /-- ECC corrected this many bytes and the MAC passed -/
  | corrected (bytes : Nat)
  /-- the second read passed -/
  | retried
  | badEcc
  | badMac
  deriving DecidableEq, Repr

/-- The unit types of Table 09-8 (09 R283). -/
inductive UnitType where
  | device | tile | batten | stack | videoEngine | audioEngine | port | lane | selvedge | die | register | context
  | hub | peer
  deriving DecidableEq, Repr

/-- The cause of an error as its source reports it (09 Table 09-6). -/
inductive ErrorCause where
  /-- single-bit SRAM error corrected, at this line address (0x0304) -/
  | corrected (line : Nat)
  /-- an uncorrectable error in state the unit needs (R275) -/
  | uncorrectable
  deriving DecidableEq, Repr

/-- The two wires of a signal pair, E and Ē, on one edge of the always-on clock (09 R279). -/
structure PairSample where
  e : Bool
  n : Bool
  deriving DecidableEq, Repr

/-- What Coppice reads of a pair outside the strobe: two successive samples, and the cause the source gives for an error. -/
structure PairReading where
  first : PairSample
  second : PairSample
  cause : ErrorCause
  deriving DecidableEq, Repr

/-- What Coppice reads of a source's pair at a tick (09 R280): the two samples of the strobe window, the two after it, and the
cause the source gives for an error. -/
structure StrobeReading where
  unit : UnitType
  id : Nat
  in1 : PairSample
  in2 : PairSample
  after1 : PairSample
  after2 : PairSample
  cause : ErrorCause
  deriving DecidableEq, Repr

/-- Bits `mask` of copy `copy` (0 to 2) of the hardened fields in the register at `off` have flipped (09 R269). -/
structure CopyFlip where
  off : Nat
  copy : Nat
  mask : Word64
  deriving DecidableEq, Repr

/-- A hardware error in the run of a pick, by the check that can see it (09 R262): in the array of an `MMUL`, in row `row` of a
result or of a reduction's panel, in one of the two conversion units, in a signal pair of the tile, in a stored line that the
pick read. -/
inductive PickError where
  | checksum
  | spot (row : Nat)
  | conversion
  | pair
  | store
  deriving DecidableEq, Repr

/-- What goes wrong in the hardware during a replay run (09 R263): nothing, an error that one of its checks can see, or one that
no check sees: bits `flip` of byte `byte` of its output `out` come out inverted. -/
inductive RunFault where
  | none
  | seen (e : PickError)
  | silent (out byte : Nat) (flip : BitVec 8)
  deriving DecidableEq, Repr

/-- A job manifest (13 Table 13-4), as far as the device uses it, and its hash; `rsvd` is its reserved bits as one number. -/
structure Manifest where
  magic : Nat := 0x10B34D01
  rsvd : Nat := 0
  mh : Nat
  jobNonce : Nat
  n : Nat
  t : Nat
  slice : Nat
  openOut : Bool
  fwMeas : List Nat
  minSvn : Nat
  expires : Nat
  floorSamples : Nat
  floorOwners : Nat
  floorShare : Nat
  /-- owner tags whose two signatures over `mh` verify -/
  signed : List Nat
  deriving DecidableEq, Repr

/-- The evidence block of a peer, as far as admission reads it (13 Table 13-6, R398): `tpX` and `tpM` are its transport keys. -/
structure Evidence where
  sigOk : Bool
  fresh : Bool
  lifecycle : Nat
  flags : Nat
  idh : Nat
  fwMeas : Nat
  fwSvn : Nat
  mh : Nat
  slice : Nat
  tpX : Nat
  tpM : Nat
  deriving DecidableEq, Repr

/-- A data key as an admission or a transport carries it (13 R399, R402): the key, owner, uses. -/
structure DataKey where
  dk : Nat
  owner : Nat
  uses : Nat
  expireRst : Bool
  deriving DecidableEq, Repr

/-- A dual signature: which of the two verifies (13 R392). -/
structure DualSig where
  ed : Bool
  mldsa : Bool
  deriving DecidableEq, Repr

/-- What goes to a transport key pair (13 R401): ephemeral public key, ML-KEM-768 ciphertext, and bytes encrypted under the hybrid
key with their tag. -/
structure Envelope where
  eph : Nat
  ct : Nat
  body : List Byte
  deriving DecidableEq, Repr

/-- The first twelve bytes of a key transport (13 Table 13-7); `rsvd` is all its reserved bits as one number. -/
structure TransportHead where
  magic : Nat
  owner : Nat
  expireRst : Bool
  rsvd : Nat
  uses : Nat
  deriving DecidableEq, Repr

/-- A key transport (13 Table 13-7). -/
structure Transport extends TransportHead where
  mh : Nat
  idh : Nat
  env : Envelope
  deriving DecidableEq, Repr

/-- The first bytes of a key-update message (13 Table 13-8). -/
structure UpdateHead where
  magic : Nat
  op : Nat
  owner : Nat
  rsvd : Nat
  deriving DecidableEq, Repr

/-- A key-update message (13 Table 13-8). -/
structure KeyUpdate extends UpdateHead where
  mh : Nat
  idh : Nat
  counter : Nat
  keyId : Nat
  uses : Nat
  deriving DecidableEq, Repr

/-- Of a quorum release (13 Table 13-9) the magic, the reserved bits, and the recipient's keys. -/
structure ReleaseForm where
  magic : Nat
  rsvd : Nat
  rX : Nat
  rM : Nat
  deriving DecidableEq, Repr

/-- A quorum release (13 Table 13-9); an entry is an owner tag and what verifies of its signatures. -/
structure Release extends ReleaseForm where
  kind : Nat
  mh : Nat
  release : Nat
  step : Nat
  notAfter : Nat
  entries : List (Nat × DualSig)
  deriving DecidableEq, Repr

/-- A firmware image header and what boot verification finds of it (14 R418, R419). -/
structure FwImage where
  version : Nat
  svn : Nat
  measurement : Nat
  readable : Bool
  hashOk : Bool
  sig : DualSig
  deriving DecidableEq, Repr

/-- A debug certificate (14 Table 14-4); `rsvd` is its reserved bytes and bits as one number. -/
structure DebugCert where
  magic : Nat := 0xDB6C0001
  rsvd : Nat := 0
  idh : Nat
  nonce : Nat
  states : Nat
  rights : Nat
  notAfter : Nat
  sig : DualSig
  deriving DecidableEq, Repr

/-- The commands, one per row of spec/opcode_table.json. -/
inductive Instr where
  -- rings and descriptors (10)
  | doorbellWrite (ring : Nat) (tail : Nat) (host : Cells)
  | descriptorAccept (ring : Nat)
  | completionRecord (ring : Nat)
  | ringNop (ring : Nat)
  | dispatch (ring : Nat)
  | fenceSignal (ring : Nat)
  | fenceCreate (ring : Nat)
  | fenceDestroy (ring : Nat)
  | fenceShare (ring : Nat)
  | fenceUnshare (ring : Nat)
  | fenceRead (ring : Nat)
  | query (ring : Nat)
  -- Weft (02)
  | streamDescriptor (ring : Nat)
  | epochDescriptor (ring : Nat)
  | epochTakeEffect (p : Nat)
  | chunkArrival (p sample : Nat) (host : Cells) (facts : Option StreamFacts)
  | pictureDecode (p sample idx : Nat) (pic : Option Picture)
  | windowFillStart (p : Nat)
  | samplePlace (p sample : Nat)
  | sequenceClose (p : Nat)
  -- landing zones (07)
  | landing (ring : Nat)
  | landingMerge (p group unit : Nat)
  -- Batten (06)
  | update (ring : Nat)
  | normGate (p : Nat)
  | updateBlock (n : Nat) (errs again : List BlockError)
  | logSeal (n : Nat)
  | workingCopyWrite (n : Nat)
  | battenLogRecovery (n : Nat) (byBatten : Nat) (readable : Bool)
  -- Pleach (08)
  | restore (ring : Nat) (lostUnits : List Nat) (others : Nat) (unreadable : Bool)
  | drain (ring : Nat)
  | reload (ring : Nat) (host : Cells)
  | pleachExport (ring : Nat)
  | stripeRowCopy (p : Nat)
  | forcedRowCopy (p addr : Nat)
  | readyRecord (p slot step member : Nat)
  | commitRecord (p slot step member : Nat)
  | pleachDue (p : Nat)
  | arm (p : Nat)
  | disarm (p : Nat)
  -- picks (03, 09, 10)
  | pickStart (l : Nat)
  | writeAsideReserve (l : Nat)
  | pickCommit (l : Nat) (err : Option PickError)
  | pickReplayEnd (l : Nat) (fault : RunFault)
  | tileReplace (t : Nat) (readable : Bool)
  -- ops (03, 04)
  | opNop (l : Nat)
  | mmul (l : Nat)
  | vec2 (l : Nat)
  | vec1 (l : Nat)
  | vfma (l : Nat)
  | tfwd (l : Nat)
  | tslope (l : Nat)
  | tload (l : Nat)
  | rrow (l : Nat)
  | rcol (l : Nat)
  | rall (l : Nat)
  | move (l : Nat)
  | fill (l : Nat)
  | rput (l : Nat)
  | racc (l : Nat)
  | rget (l : Nat)
  | rsig (l : Nat)
  | fwait (l : Nat)
  | fsig (l : Nat)
  | setrng (l : Nat)
  | opEnd (l : Nat)
  -- update-program instructions (06)
  | progEnd (n : Nat) (f : ProgFields)
  | progLd (n : Nat) (f : ProgFields)
  | progLdc (n : Nat) (f : ProgFields)
  | progMov (n : Nat) (f : ProgFields)
  | progSt (n : Nat) (f : ProgFields)
  | progStz (n : Nat) (f : ProgFields)
  | progSts (n : Nat) (f : ProgFields)
  | progAdd (n : Nat) (f : ProgFields)
  | progSub (n : Nat) (f : ProgFields)
  | progMul (n : Nat) (f : ProgFields)
  | progDiv (n : Nat) (f : ProgFields)
  | progFma (n : Nat) (f : ProgFields)
  | progMax (n : Nat) (f : ProgFields)
  | progMin (n : Nat) (f : ProgFields)
  | progSqrt (n : Nat) (f : ProgFields)
  | progRsqrt (n : Nat) (f : ProgFields)
  | progRecip (n : Nat) (f : ProgFields)
  | progAbs (n : Nat) (f : ProgFields)
  | progNeg (n : Nat) (f : ProgFields)
  | progRndn (n : Nat) (f : ProgFields)
  | progSrnd (n : Nat) (f : ProgFields)
  | progCmplt (n : Nat) (f : ProgFields)
  | progCmple (n : Nat) (f : ProgFields)
  | progCmpeq (n : Nat) (f : ProgFields)
  | progIsnan (n : Nat) (f : ProgFields)
  | progPnot (n : Nat) (f : ProgFields)
  | progPand (n : Nat) (f : ProgFields)
  | progPor (n : Nat) (f : ProgFields)
  -- messages (07)
  | put (port : Nat) (m : Msg)
  | acc (port : Nat) (m : Msg)
  | get (port : Nat) (m : Msg)
  | getr (port : Nat) (m : Msg)
  | signal (port : Nat) (m : Msg)
  | commit (port : Nat) (m : Msg)
  | retract (port : Nat) (m : Msg)
  | reject (port : Nat) (m : Msg)
  | messageForward (port : Nat) (m : Msg)
  | trafficEpochRoll (p : Nat)
  -- links (07)
  | linkRetransmit (port : Nat) (frames : FrameCounts)
  | portEnable (port : Nat)
  | portTrainingPhase (port : Nat) (r : PhaseResult)
  | trainingRetry (port : Nat)
  | mgmtHeartbeat (port : Nat)
  | mgmtFrame (port : Nat) (ctr : Nat)
  | neighbourLost (port : Nat)
  | mgmtRekey (port : Nat)
  | holeListWrite (idx : Nat) (v : BitVec 32)
  | substitutionWrite (p idx : Nat) (v : BitVec 32)
  | sliceEntryWrite (p off : Nat) (v : Word64)
  -- contexts (10)
  | ctxOpen (p : Nat)
  | teardown (p : Nat)
  | teardownBreakFences (c : Nat)
  | teardownClose (c : Nat)
  | stop (p : Nat)
  | resume (p : Nat)
  | sendingEpochWrite (p : Nat) (v : BitVec 32)
  | p8Open (c image : Nat)
  | makeResident (c : Nat)
  | p8Stop (c : Nat)
  | p8Resume (c : Nat)
  | p8Teardown (c : Nat)
  | ringEnable (ring : Nat)
  | ringDisable (ring : Nat)
  | stagingCopy (p c : Nat)
  | stagingDone (p c : Nat) (hostErrAfter : Option Nat)
  -- Selvedge (12)
  | regionOpen (sig : Bool) (fence : BitVec 14)
  | regionOpenDone (num : Nat)
  | regionClose (sig : Bool) (fence : BitVec 14)
  | regionCloseDone (num : Nat)
  | reencrypt (sig : Bool) (fence : BitVec 14)
  | reencryptStep (num stack : Nat)
  | forcedStep (addr : Nat)
  | stepBufferRecovery (stack : Nat)
  | patrolRead (addr : Nat) (found : LineFound)
  | journalRecovery (p : Nat) (readable : Bool)
  -- Coppice (09)
  | errorSignal (u : UnitType) (id : Nat) (r : PairReading)
  | inFieldTestStart (u : UnitType) (id : Nat)
  | inFieldTestEnd (u : UnitType) (id : Nat) (passed : Bool)
  | iftOverdue (u : UnitType) (id : Nat)
  | fencedUnitRetest (u : UnitType) (id : Nat) (passed : Bool)
  | clearAll
  | unpin
  | cpClear (idx : Nat)
  | injectArm (v : Word64)
  | tlOvfClear (p : Nat)
  | btOvfClear (p : Nat)
  | mbTimingEnable (p : Nat) (v : BitVec 32)
  | partitionCountChange (v : BitVec 2)
  | registerWrite (bar2 : Bool) (off size : Nat) (v : Word64)
  -- host port and power states (11, 15)
  | cxlLinkDown
  | cxlLinkUp (width rate : Nat) (flit256 cache : Bool)
  | ideFailure (cacheStream : Bool) (stream : Nat)
  | d3hotEntry
  | d0Return
  -- RTP (13)
  | mailboxChunk (v : BitVec 32)
  | nextReplyChunk
  | manifestLoad (p : Nat) (m : Manifest) (sig : DualSig)
  | jobCreate (p slot : Nat) (secret : Nat)
  | jobJoin (p coord slot : Nat) (dataSlots : List Nat)
  | admissionRequest (p port : Nat) (from_ : Nat) (e : Evidence)
  | admission (p : Nat) (e : Evidence) (env : Option Envelope) (secret : Nat) (keys : List DataKey)
  | rtpMessageRelay (port : Nat) (dest : Nat) (body : List Byte)
  | jobResume (p slot : Nat) (dataSlots : List Nat) (tagOk : Bool)
  | jobForget (p : Nat)
  | jobExpire (p : Nat)
  | slotAlloc (p slot job : Nat) (expireRst : Bool)
  | slotFree (p slot : Nat)
  | keyTransport (p slot : Nat) (len : Nat) (head : TransportHead) (mh idh : Nat) (env : Envelope) (sig : DualSig)
  | keyUpdate (p : Nat) (len : Nat) (head : UpdateHead) (mh idh counter keyId uses : Nat) (sig : DualSig)
  | quorumRelease (p kind mh release step notAfter : Nat) (form : ReleaseForm) (entries : List (Nat × DualSig))
  | evidence (p : Nat) (nonce : Nat)
  -- SPDM (13)
  | getVersion
  | getCapabilities
  | negotiateAlgorithms
  | getDigests
  | getCertificate
  | challenge (nonce : Nat)
  | getMeasurements (nonce : Nat)
  | keyExchange
  | finish (ok : Bool)
  | endSession
  | ideKm (cacheStream : Bool) (stream : Nat) (install : Bool)
  -- tamper and VBAT (13, 16)
  | tamper (sensor : Nat)
  | vbatLow (mv : Nat)
  -- life cycle, firmware, debug (14)
  | lcAdvance (target : Nat) (authOk : Bool) (cert : Option DebugCert)
  | eolArm (v : Word64)
  | eolConfirm (v : Word64)
  | certStore (sig : DualSig) (matchesKeys : Bool)
  | fwBegin
  | fwData (bytes : Nat) (offset : Nat) (programmed : Bool)
  | fwCommit (img : FwImage)
  | svnLock
  | debugChallenge (nonce : Nat)
  | debugOpen (c : DebugCert)
  | debugClose
  | debugRightsExpire
  | lifelogRead (index count : Nat)
  | flashInfo
  -- TAP and trace (14, 15)
  | idcode
  | bypass
  | samplePreload (captured : List Bool) (preload : List Bool)
  | extest (drive : List Bool)
  | traceFull
  -- supply, resets, bring-up (15, 16)
  | powerOn
  | powerLoss
  | perstN
  | hotReset
  | linkDisable
  | keepingRegisterReset
  | clearingRegisterReset
  | bootVerify (img : FwImage)
  | bringupReduced (badUnits : List (UnitType × Nat))
  | bringupFull (badUnits : List (UnitType × Nat))
  | bringupTimeout
  | privetTick (strobes : List StrobeReading) (flips : List CopyFlip)
  | powerSample (watts : Nat)
  | thermalThreshold (u : UnitType) (id : Nat) (celsius : Nat)
  | thermNInput
  | powerControlWrite (v : BitVec 32)
  | refclkLost
  | syncEdge
  | syncLost
  | syncEnable (v : BitVec 32)
  | uartRequest (v : BitVec 32)
  | calendarAdjust (v : Word64)
  | reservedMessageType (port : Nat) (m : Msg)
  | holderUnreachable (p : Nat)
  | clockDomainGate (u : UnitType) (id : Nat)
  | perstNRelease
  | refclkReturn
  | thermNRelease
  | thermalThrottleStep (die hub hbm : Nat)
  | portDisable (port : Nat)
  | audioFrameDecode (p sample idx : Nat) (pcm : Option (List (List Nat)))
  | debugMasterAccess (addr : Nat) (write : Bool) (data : List Byte)
  | sequencerHalt (l : Nat) (singleStep : Bool)
  | internalScan (die : Nat) (bits : List Bool)
  deriving DecidableEq, Repr

end Sys2Proof
end

