-- ==== Sys2Proof/WellFormed.lean ====
section
/-! DEFINITION. Commands whose operands name something the device has: a ring, a partition, a tile, a port, a unit, a field that
fits its width. A meaning answers for any operands; one that names nothing changes nothing (assumption log 1). -/

namespace Sys2Proof

/-- Rings 0-63 of each native context, 4 of each P8 context (10 R289, R310). -/
def ringOk (r : Nat) : Bool := r < 256 + 4 * 4096

/-- A unit of Table 09-8. -/
def unitOk (u : UnitType) (id : Nat) : Bool :=
  match u with
  | .device => id = 0
  | .tile => id < 1088
  | .batten => id < 16
  | .stack => id < 16
  | .videoEngine => id < 32
  | .audioEngine => id < 4
  | .port => id < 8
  | .lane => id < 64
  | .selvedge => id ≤ 16
  | .die => id < 4
  | .register => id < 65536
  | .context => id < 4
  | .hub => id < 6
  | .peer => id < 65536

/-- The fields of a message fit the header (07 Table 07-5). -/
def msgOk (m : Msg) : Bool :=
  m.typ < 256 && m.ch < 16 && m.dest < 2 ^ 19 && m.src < 2 ^ 19 && m.slice < 4096 && m.addr < 2 ^ 41 && m.key < 4096 &&
    m.tile < 1024 && m.ctr < 2 ^ 36 && m.serial < 2 ^ 16 && m.epoch < 2 ^ 32 && m.cseq < 2 ^ 32 && m.payload.length ≤ 4096

/-- The fields of a manifest fit Table 13-4. -/
def manifestOk (m : Manifest) : Bool :=
  m.mh < 2 ^ 384 && m.slice < 4096 && m.minSvn < 2 ^ 32 && m.fwMeas.length ≤ 8

/-- Well-formed commands. -/
def WellFormed : Instr → Bool
  | .doorbellWrite ring tail _ => ringOk ring && tail < 2 ^ 64
  | .descriptorAccept ring => ringOk ring
  | .completionRecord ring => ringOk ring
  | .ringNop ring => ringOk ring
  | .dispatch ring => ringOk ring
  | .fenceSignal ring => ringOk ring
  | .fenceCreate ring => ringOk ring
  | .fenceDestroy ring => ringOk ring
  | .fenceShare ring => ringOk ring
  | .fenceUnshare ring => ringOk ring
  | .fenceRead ring => ringOk ring
  | .query ring => ringOk ring
  | .streamDescriptor ring => ringOk ring
  | .epochDescriptor ring => ringOk ring
  | .epochTakeEffect p => p < 4
  | .chunkArrival p sample _ _ => p < 4 && sample < 2 ^ 32
  | .pictureDecode p sample _ _ => p < 4 && sample < 2 ^ 32
  | .windowFillStart p => p < 4
  | .samplePlace p sample => p < 4 && sample < 2 ^ 32
  | .sequenceClose p => p < 4
  | .landing ring => ringOk ring
  | .landingMerge p _ _ => p < 4
  | .update ring => ringOk ring
  | .normGate p => p < 4
  | .updateBlock n es fs => n < 16 && (es.all fun e => e.run = 0 && e.slot < 8) && fs.all fun e => 1 ≤ e.run && e.run < 3 && e.slot < 8
  | .logSeal n => n < 16
  | .workingCopyWrite n => n < 16
  | .battenLogRecovery n byBatten _ => n < 16 && byBatten < 16
  | .restore ring _ _ _ => ringOk ring
  | .drain ring => ringOk ring
  | .reload ring _ => ringOk ring
  | .pleachExport ring => ringOk ring
  | .stripeRowCopy p => p < 4
  | .forcedRowCopy p addr => p < 4 && addr < 2 ^ 41
  | .readyRecord p slot step member => p < 4 && slot < 2 && step < 2 ^ 32 && member < 8
  | .commitRecord p slot step member => p < 4 && slot < 2 && step < 2 ^ 32 && member < 8
  | .pleachDue p => p < 4
  | .arm p => p < 4
  | .disarm p => p < 4
  | .pickStart l => l < 1024
  | .writeAsideReserve l => l < 1024
  | .pickCommit l _ => l < 1024
  | .pickReplayEnd l _ => l < 1024
  | .tileReplace t _ => t < 1088
  | .opNop l => l < 1024
  | .mmul l => l < 1024
  | .vec2 l => l < 1024
  | .vec1 l => l < 1024
  | .vfma l => l < 1024
  | .tfwd l => l < 1024
  | .tslope l => l < 1024
  | .tload l => l < 1024
  | .rrow l => l < 1024
  | .rcol l => l < 1024
  | .rall l => l < 1024
  | .move l => l < 1024
  | .fill l => l < 1024
  | .rput l => l < 1024
  | .racc l => l < 1024
  | .rget l => l < 1024
  | .rsig l => l < 1024
  | .fwait l => l < 1024
  | .fsig l => l < 1024
  | .setrng l => l < 1024
  | .opEnd l => l < 1024
  | .progEnd n _ => n < 16
  | .progLd n _ => n < 16
  | .progLdc n _ => n < 16
  | .progMov n _ => n < 16
  | .progSt n _ => n < 16
  | .progStz n _ => n < 16
  | .progSts n _ => n < 16
  | .progAdd n _ => n < 16
  | .progSub n _ => n < 16
  | .progMul n _ => n < 16
  | .progDiv n _ => n < 16
  | .progFma n _ => n < 16
  | .progMax n _ => n < 16
  | .progMin n _ => n < 16
  | .progSqrt n _ => n < 16
  | .progRsqrt n _ => n < 16
  | .progRecip n _ => n < 16
  | .progAbs n _ => n < 16
  | .progNeg n _ => n < 16
  | .progRndn n _ => n < 16
  | .progSrnd n _ => n < 16
  | .progCmplt n _ => n < 16
  | .progCmple n _ => n < 16
  | .progCmpeq n _ => n < 16
  | .progIsnan n _ => n < 16
  | .progPnot n _ => n < 16
  | .progPand n _ => n < 16
  | .progPor n _ => n < 16
  | .put port m => port ≤ 8 && msgOk m
  | .acc port m => port ≤ 8 && msgOk m
  | .get port m => port ≤ 8 && msgOk m
  | .getr port m => port ≤ 8 && msgOk m
  | .signal port m => port ≤ 8 && msgOk m
  | .commit port m => port ≤ 8 && msgOk m
  | .retract port m => port ≤ 8 && msgOk m
  | .reject port m => port ≤ 8 && msgOk m
  | .messageForward port m => port ≤ 8 && msgOk m
  | .trafficEpochRoll p => p < 4
  | .linkRetransmit port _ => port < 8
  | .portEnable port => port < 8
  | .portTrainingPhase port _ => port < 8
  | .trainingRetry port => port < 8
  | .mgmtHeartbeat port => port < 8
  | .mgmtFrame port _ => port < 8
  | .neighbourLost port => port < 8
  | .mgmtRekey port => port < 8
  | .holeListWrite _ _ => true
  | .substitutionWrite p _ _ => p < 4
  | .sliceEntryWrite p off _ => p < 4 && (off < 16 || off = 16)
  | .ctxOpen p => p < 4
  | .teardown p => p < 4
  | .teardownBreakFences c => c < 4100
  | .teardownClose c => c < 4100
  | .stop p => p < 4
  | .resume p => p < 4
  | .sendingEpochWrite p _ => p < 4
  | .p8Open c image => c < 4096 && (image < 2 ^ 64 && image % 2 ^ 15 = 0)
  | .makeResident c => c < 4096
  | .p8Stop c => c < 4096
  | .p8Resume c => c < 4096
  | .p8Teardown c => c < 4096
  | .ringEnable ring => ringOk ring
  | .ringDisable ring => ringOk ring
  | .stagingCopy p c => p < 4 && c < 2
  | .stagingDone p c _ => p < 4 && c < 2
  | .regionOpen _ _ => true
  | .regionOpenDone num => num < 4096
  | .regionClose _ _ => true
  | .regionCloseDone num => num < 4096
  | .reencrypt _ _ => true
  | .reencryptStep num stack => num < 4096 && stack < 16
  | .forcedStep addr => addr < 2 ^ 41
  | .stepBufferRecovery stack => stack < 16
  | .patrolRead addr _ => addr < 2 ^ 41
  | .journalRecovery p _ => p < 4
  | .errorSignal u id _ => unitOk u id
  | .inFieldTestStart u id => unitOk u id
  | .inFieldTestEnd u id _ => unitOk u id
  | .iftOverdue u id => unitOk u id
  | .fencedUnitRetest u id _ => unitOk u id
  | .clearAll => true
  | .unpin => true
  | .cpClear _ => true
  | .injectArm _ => true
  | .tlOvfClear p => p < 4
  | .btOvfClear p => p < 4
  | .mbTimingEnable p _ => p < 4
  | .partitionCountChange _ => true
  | .registerWrite bar2 off size _ => (if bar2 then off < 0x10000 else off < 0x40000) && (size = 4 || size = 8)
  | .cxlLinkDown => true
  | .cxlLinkUp width rate _ _ => [1, 2, 4, 8].contains width && (rate = 5 || rate = 6)
  | .ideFailure _ stream => stream < 256
  | .d3hotEntry => true
  | .d0Return => true
  | .mailboxChunk _ => true
  | .nextReplyChunk => true
  | .manifestLoad p m _ => p < 4 && manifestOk m
  | .jobCreate p slot _ => p < 4 && slot < 4096
  | .jobJoin p coord slot _ => p < 4 && coord < 2 ^ 17 && slot < 4096
  | .admissionRequest p port from_ _ => p < 4 && port < 8 && from_ < 2 ^ 17
  | .admission p _ _ _ _ => p < 4
  | .rtpMessageRelay port dest _ => port < 8 && dest < 2 ^ 17
  | .jobResume p slot _ _ => p < 4 && slot < 4096
  | .jobForget p => p < 4
  | .jobExpire p => p < 4
  | .slotAlloc p slot job _ => p < 4 && slot < 4096 && job < 4096
  | .slotFree p slot => p < 4 && slot < 4096
  | .keyTransport p slot _ x _ _ _ _ => p < 4 && slot < 4096 && x.owner < 256
  | .keyUpdate p _ x _ _ _ _ _ _ => p < 4 && x.owner < 256
  | .quorumRelease p _ _ _ step _ _ _ => p < 4 && step < 2 ^ 32
  | .evidence p _ => p < 4
  | .getVersion => true
  | .getCapabilities => true
  | .negotiateAlgorithms => true
  | .getDigests => true
  | .getCertificate => true
  | .challenge _ => true
  | .getMeasurements _ => true
  | .keyExchange => true
  | .finish _ => true
  | .endSession => true
  | .ideKm _ stream _ => stream < 256
  | .tamper sensor => (1 ≤ sensor && sensor ≤ 5)
  | .vbatLow _ => true
  | .lcAdvance target _ _ => target < 5
  | .eolArm _ => true
  | .eolConfirm _ => true
  | .certStore _ _ => true
  | .fwBegin => true
  | .fwData _ _ _ => true
  | .fwCommit _ => true
  | .svnLock => true
  | .debugChallenge _ => true
  | .debugOpen _ => true
  | .debugClose => true
  | .debugRightsExpire => true
  | .lifelogRead _ _ => true
  | .flashInfo => true
  | .idcode => true
  | .bypass => true
  | .samplePreload _ _ => true
  | .extest _ => true
  | .traceFull => true
  | .powerOn => true
  | .powerLoss => true
  | .perstN => true
  | .hotReset => true
  | .linkDisable => true
  | .keepingRegisterReset => true
  | .clearingRegisterReset => true
  | .bootVerify _ => true
  | .bringupReduced _ => true
  | .bringupFull _ => true
  | .bringupTimeout => true
  | .privetTick _ _ => true
  | .powerSample watts => watts < 65536
  | .thermalThreshold u id _ => unitOk u id
  | .thermNInput => true
  | .powerControlWrite _ => true
  | .refclkLost => true
  | .syncEdge => true
  | .syncLost => true
  | .syncEnable _ => true
  | .uartRequest _ => true
  | .calendarAdjust _ => true
  | .reservedMessageType port m => port ≤ 8 && msgOk m
  | .holderUnreachable p => p < 4
  | .clockDomainGate u id => unitOk u id
  | .perstNRelease => true
  | .refclkReturn => true
  | .thermNRelease => true
  | .thermalThrottleStep _ _ _ => true
  | .portDisable port => port < 8
  | .audioFrameDecode p sample _ _ => p < 4 && sample < 2 ^ 32
  | .debugMasterAccess addr _ _ => addr < 2 ^ 41
  | .sequencerHalt l _ => l < 1024
  | .internalScan die _ => die < 5

end Sys2Proof
end

