-- ==== Sys2Proof/Decode.lean ====
section
/-! DEFINITION. Commands as words. spec/opcode_table.json gives no row of this block any bits, so no word spells a command. -/

namespace Sys2Proof

/-- The command that a word spells: none (assumption log 7). -/
def decodeTableWord (_nbits _w : Nat) : Option Instr := none

end Sys2Proof
end

