-- ==== Sys2Proof/Machine/Sparse.lean ====
section
/-! DEFINITION. Sparse tables: a list of (key, value) pairs with keys strictly rising and no entry equal to what an
unlisted key reads as. The one canonical form makes equal tables equal data. -/

namespace Sys2Proof.Machine

/-- A table from natural keys to values, in canonical form (see `Sparse.wf`). -/
abbrev Sparse (α : Type) := List (Nat × α)

/-- What key `k` reads as; `d` gives the value of every unlisted key. -/
def Sparse.get {α : Type} (d : Nat → α) : Sparse α → Nat → α
  | [], k => d k
  | (j, v) :: m, k => if k = j then v else Sparse.get d m k

/-- The table without key `k`. -/
def Sparse.erase {α : Type} : Sparse α → Nat → Sparse α
  | [], _ => []
  | (j, v) :: m, k => if k = j then Sparse.erase m k else (j, v) :: Sparse.erase m k

/-- The table with key `k` listed as `v`, whatever the default. -/
def Sparse.insert {α : Type} : Sparse α → Nat → α → Sparse α
  | [], k, v => [(k, v)]
  | (j, u) :: m, k, v =>
    if k < j then (k, v) :: (j, u) :: m
    else if k = j then (k, v) :: m
    else (j, u) :: Sparse.insert m k v

/-- The table in which key `k` reads as `v`; a value equal to the default removes the entry. -/
def Sparse.set {α : Type} [DecidableEq α] (d : Nat → α) (m : Sparse α) (k : Nat) (v : α) : Sparse α :=
  if v = d k then Sparse.erase m k else Sparse.insert m k v

/-- The table with every key from `lo` up to, not including, `hi` back at its default. -/
def Sparse.clear {α : Type} (m : Sparse α) (lo hi : Nat) : Sparse α :=
  m.filter fun e => !(decide (lo ≤ e.1) && decide (e.1 < hi))

/-- The table with those keys from `lo` up to, not including, `hi` back at their defaults for which `p` holds. -/
def Sparse.clearIf {α : Type} (m : Sparse α) (lo hi : Nat) (p : Nat → Bool) : Sparse α :=
  m.filter fun e => !(decide (lo ≤ e.1) && decide (e.1 < hi) && p e.1)

/-- Every listed value changed by `f`; an entry that becomes its key's default leaves. -/
def Sparse.alter {α : Type} [DecidableEq α] (d : Nat → α) (m : Sparse α) (f : Nat → α → α) : Sparse α :=
  (m.map fun e => (e.1, f e.1 e.2)).filter fun e => decide (e.2 ≠ d e.1)

/-- Keys strictly above `b`, when there is a bound, and rising. -/
def Sparse.sortedFrom {α : Type} : Option Nat → Sparse α → Bool
  | _, [] => true
  | none, (j, _) :: m => Sparse.sortedFrom (some j) m
  | some b, (j, _) :: m => decide (b < j) && Sparse.sortedFrom (some j) m

/-- The canonical form: keys strictly rising, no entry equal to the default of its key. -/
def Sparse.wf {α : Type} [DecidableEq α] (d : Nat → α) (m : Sparse α) : Bool :=
  Sparse.sortedFrom none m && m.all fun e => decide (e.2 ≠ d e.1)

end Sys2Proof.Machine
end

