-- ==== Sys2Proof/Machine/Bits.lean ====
section
/-! DEFINITION. Bit fields, little-endian byte strings (00 R9) and small list helpers. -/

namespace Sys2Proof.Machine

/-- Bits `[lo + w - 1 : lo]` of `v` (R9). -/
def bits (v lo w : Nat) : Nat := (v >>> lo) % 2 ^ w

/-- Bit `i` of `v`. -/
def bit (v i : Nat) : Bool := v.testBit i

/-- `v` with bits `[lo + w - 1 : lo]` replaced by `x`. -/
def setBits (v lo w x : Nat) : Nat :=
  v - (bits v lo w) * 2 ^ lo + (x % 2 ^ w) * 2 ^ lo

/-- Bits `[lo + w - 1 : lo]` of a register. -/
def rbits (v : Word64) (lo w : Nat) : Nat := bits v.toNat lo w

/-- The number of a byte string, byte 0 lowest (R9). -/
def leNat : List Byte → Nat
  | [] => 0
  | b :: bs => b.toNat + 256 * leNat bs

/-- The `n` bytes of `v`, byte 0 lowest (R9). -/
def leBytes : Nat → Nat → List Byte
  | 0, _ => []
  | n + 1, v => BitVec.ofNat 8 v :: leBytes n (v / 256)

/-- One number as a Bool field. -/
def b2n (b : Bool) : Nat := if b then 1 else 0

/-- `n / m` rounded up. -/
def ceilDiv (n m : Nat) : Nat := if m = 0 then 0 else (n + m - 1) / m

/-- The list with its element `i` changed; unchanged where there is none. -/
def modifyAt {α : Type} (f : α → α) : List α → Nat → List α
  | [], _ => []
  | x :: xs, 0 => f x :: xs
  | x :: xs, i + 1 => x :: modifyAt f xs i

/-- `xs` in groups of `n`. -/
def chunksOf {α : Type} (n : Nat) : Nat → List α → List (List α)
  | 0, _ => []
  | fuel + 1, xs => if xs.isEmpty then [] else xs.take n :: chunksOf n fuel (xs.drop n)

/-- Numbers of `n` bytes, one after the other. -/
def leWords (n : Nat) (bs : List Byte) : List Nat := (chunksOf n bs.length bs).map leNat

/-- `k` consecutive numbers from `lo`. -/
def rangeFrom (lo k : Nat) : List Nat := (List.range k).map (lo + ·)

/-- Insert a number into a rising list of distinct numbers. -/
def insNat (x : Nat) : List Nat → List Nat
  | [] => [x]
  | y :: ys => if x < y then x :: y :: ys else if x = y then y :: ys else y :: insNat x ys

end Sys2Proof.Machine
end

