-- ==== Sys2Proof/Machine/Float.lean ====
section
/-! DEFINITION. Exact values and the one rounding step: the element formats of 04 Table 04-1, decoding, the rounding modes
of R125, encoding with overflow and special values (R126 to R131), and the arithmetic that FP32 operations are built from.
Every operation is computed exactly and rounded once. -/

namespace Sys2Proof.Machine

/-! ### Values -/

/-- A value: NaN, an infinity, or (−1)^neg × m × 2^e exactly; a zero keeps its sign. -/
inductive FV where
  | nan
  | inf (neg : Bool)
  | fin (neg : Bool) (m : Nat) (e : Int)
  deriving DecidableEq, Repr

def FV.zero : FV := .fin false 0 0

def FV.isZero : FV → Bool
  | .fin _ 0 _ => true
  | _ => false

def FV.isNan : FV → Bool
  | .nan => true
  | _ => false

def FV.neg : FV → FV
  | .nan => .nan
  | .inf s => .inf !s
  | .fin s m e => .fin (!s) m e

def FV.abs : FV → FV
  | .nan => .nan
  | .inf _ => .inf false
  | .fin _ m e => .fin false m e

def FV.sign : FV → Bool
  | .nan => false
  | .inf s => s
  | .fin s _ _ => s

/-- The integer as a value. -/
def FV.ofInt (z : Int) : FV := .fin (z < 0) z.natAbs 0

/-- `m × 2^e` as an integer on the grid `2^q` (`q ≤ e`). -/
def scaleTo (m : Nat) (e q : Int) : Nat := m * 2 ^ (e - q).toNat

/-- The signed integer of a finite value on the grid `2^q`. -/
def signedOn (s : Bool) (m : Nat) (e q : Int) : Int :=
  if s then - (scaleTo m e q : Int) else (scaleTo m e q : Int)

/-- The exact sum; an exact zero is +0 but for (−0) + (−0) (Table 04-5). -/
def FV.add : FV → FV → FV
  | .nan, _ => .nan
  | _, .nan => .nan
  | .inf s, .inf t => if s = t then .inf s else .nan
  | .inf s, _ => .inf s
  | _, .inf t => .inf t
  | .fin s m e, .fin t n f =>
    if m = 0 ∧ n = 0 then .fin (s && t) 0 0
    else
      let q := min e f
      let z := signedOn s m e q + signedOn t n f q
      if z = 0 then .fin false 0 0 else .fin (z < 0) z.natAbs q

def FV.sub (a b : FV) : FV := a.add b.neg

/-- The exact product (Table 04-5). -/
def FV.mul : FV → FV → FV
  | .nan, _ => .nan
  | _, .nan => .nan
  | .inf s, .inf t => .inf (s != t)
  | .inf s, .fin t n _ => if n = 0 then .nan else .inf (s != t)
  | .fin s m _, .inf t => if m = 0 then .nan else .inf (s != t)
  | .fin s m e, .fin t n f => .fin (s != t) (m * n) (e + f)

/-- Bits of `m`. -/
def bitLen (m : Nat) : Nat := if m = 0 then 0 else Nat.log2 m + 1

/-- The quotient, exact or with a sticky last bit far below any rounding point (Table 04-5). -/
def FV.div : FV → FV → FV
  | .nan, _ => .nan
  | _, .nan => .nan
  | .inf _, .inf _ => .nan
  | .inf s, .fin t _ _ => .inf (s != t)
  | .fin s _ _, .inf t => .fin (s != t) 0 0
  | .fin s m e, .fin t n f =>
    if n = 0 then (if m = 0 then .nan else .inf (s != t))
    else if m = 0 then .fin (s != t) 0 0
    else
      let k := bitLen n + 40
      let q := m * 2 ^ k / n
      .fin (s != t) (2 * q + b2n (q * n != m * 2 ^ k)) (e - f - k - 1)

/-- Integer square root, bit by bit from bit `k - 1` down. -/
def isqrtBits (n : Nat) : Nat → Nat → Nat
  | 0, r => r
  | k + 1, r => isqrtBits n k (if (r + 2 ^ k) * (r + 2 ^ k) ≤ n then r + 2 ^ k else r)

def isqrt (n : Nat) : Nat := isqrtBits n (bitLen n / 2 + 1) 0

/-- The exponent made even. -/
def evenExp (m : Nat) (e : Int) : Nat × Int := if e % 2 = 0 then (m, e) else (2 * m, e - 1)

/-- The square root, exact or with a sticky last bit (Table 04-5). -/
def FV.sqrt : FV → FV
  | .nan => .nan
  | .inf s => if s then .nan else .inf false
  | .fin s m e =>
    if m = 0 then .fin s 0 0
    else if s then .nan
    else
      let (m, e) := evenExp m e
      let x := m * 2 ^ 128
      let r := isqrt x
      .fin false (2 * r + b2n (r * r != x)) (e / 2 - 64 - 1)

/-- The reciprocal square root (Table 04-5: ±0 gives ±INF). -/
def FV.rsqrt : FV → FV
  | .nan => .nan
  | .inf s => if s then .nan else .fin false 0 0
  | .fin s m e =>
    if m = 0 then .inf s
    else if s then .nan
    else
      let (m, e) := evenExp m e
      let k := bitLen m + 64
      let r := isqrt (2 ^ (2 * k) / m)
      .fin false (2 * r + b2n (r * r * m != 2 ^ (2 * k))) (- (e / 2) - k - 1)

/-- Exact comparison of two values that are not NaN: −1, 0 or 1 as a is below, equal to, above b; zeros are equal. -/
def FV.cmp : FV → FV → Int
  | .nan, _ => 0
  | _, .nan => 0
  | .inf s, .inf t => if s = t then 0 else if s then -1 else 1
  | .inf s, _ => if s then -1 else 1
  | _, .inf t => if t then 1 else -1
  | .fin s m e, .fin t n f =>
    let q := min e f
    let a := signedOn s m e q
    let b := signedOn t n f q
    if a < b then -1 else if a = b then 0 else 1

/-! ### EXP2 and LOG2 (03 Table 03-11: correctly rounded), carried to about 2⁻¹²⁰ with a sticky last bit -/

/-- Fixed-point product with `k` fraction bits. -/
def fixMul (k a b : Nat) : Nat := (a * b) >>> k

/-- 2^f for the fraction f whose bits, from the first down, are `bs`; `c` is 2^(2^-i) for the bit in hand; 192 fraction bits. -/
def pow2Bits : List Bool → Nat → Nat → Nat
  | [], _, r => r
  | b :: bs, c, r => pow2Bits bs (isqrt (c * 2 ^ 192)) (if b then fixMul 192 r c else r)

/-- 2 to the power of a value (Table 04-5). -/
def FV.exp2 : FV → FV
  | .nan => .nan
  | .inf s => if s then .fin false 0 0 else .inf false
  | .fin s m e =>
    if m = 0 then .fin false 1 0
    else if 9 < e + bitLen m then (if s then .fin false 1 (-400) else .inf false)
    else
      let z := signedOn s m e (-160)
      let n := z / 2 ^ 160
      let f := (z % 2 ^ 160).toNat
      let r := pow2Bits ((List.range 160).map fun i => f.testBit (159 - i)) (isqrt (2 * 2 ^ 384)) (2 ^ 192)
      .fin false (if f = 0 then 2 * 2 ^ 192 else 2 * r + 1) (n - 193)

/-- Bits of the fraction of a base-2 logarithm of `y` in [1, 2), `y` with 300 fraction bits. -/
def log2Bits : Nat → Nat → Nat → Nat
  | 0, _, r => r
  | k + 1, y, r =>
    let y := fixMul 300 y y
    if 2 ^ 301 ≤ y then log2Bits k (y / 2) (2 * r + 1) else log2Bits k y (2 * r)

/-- The base-2 logarithm of a value (Table 04-5). -/
def FV.log2 : FV → FV
  | .nan => .nan
  | .inf s => if s then .nan else .inf false
  | .fin s m e =>
    if m = 0 then .inf true
    else if s then .nan
    else
      let n : Int := e + bitLen m - 1
      let y := m * 2 ^ (301 - bitLen m)
      if y = 2 ^ 300 then FV.ofInt n
      else
        let z : Int := 2 * (n * 2 ^ 120 + log2Bits 120 y 0) + 1
        .fin (z < 0) z.natAbs (-121)

/-- `MAX` ignores a NaN operand and orders +0 above −0 (R132). -/
def FV.max (a b : FV) : FV :=
  if a.isNan then b else if b.isNan then a
  else if a.isZero && b.isZero then (if a.sign then b else a)
  else if a.cmp b < 0 then b else a

/-- `MIN`, likewise. -/
def FV.min (a b : FV) : FV :=
  if a.isNan then b else if b.isNan then a
  else if a.isZero && b.isZero then (if a.sign then a else b)
  else if b.cmp a < 0 then b else a

/-! ### Rounding (R125) -/

/-- A rounding: to nearest, toward zero, stochastic with the 24 bits [63:40] of its draw, and upward for the bounds of
09 R255. -/
inductive Rounding where
  | nearest | zero | stochastic (u : Nat) | up
  deriving DecidableEq, Repr

/-- Whether the upper neighbour is taken: `lo` the lower magnitude, `rem / 2^s` the fraction of the step, `s > 0`. -/
def roundsUp (r : Rounding) (neg : Bool) (lo rem s : Nat) : Bool :=
  match r with
  | .nearest => decide (2 ^ s < 2 * rem) || (2 * rem == 2 ^ s && lo % 2 == 1)
  | .zero => false
  | .stochastic u => decide (u < rem * 2 ^ 24 / 2 ^ s)
  | .up => !neg && rem != 0

/-- Round `m × 2^e` to `f` fraction bits with no step below `2^emin`; the magnitude as an integer and its exponent. -/
def roundMag (f : Nat) (emin : Int) (r : Rounding) (neg : Bool) (m : Nat) (e : Int) : Nat × Int :=
  let q := Max.max (e + bitLen m - 1 - f) emin
  if q ≤ e then (m * 2 ^ (e - q).toNat, q)
  else
    let s := (q - e).toNat
    let lo := m >>> s
    let rem := m % 2 ^ s
    (if roundsUp r neg lo rem s then lo + 1 else lo, q)

/-- The value rounded to a binary format whose largest finite value is `mx × 2^mxe`; beyond it, infinity. -/
def roundF (f : Nat) (emin : Int) (mx : Nat) (mxe : Int) (r : Rounding) : FV → FV
  | .nan => .nan
  | .inf s => .inf s
  | .fin s m e =>
    if m = 0 then .fin s 0 0
    else
      let (n, q) := roundMag f emin r s m e
      if n = 0 then .fin s 0 0
      else if FV.cmp (.fin false n q) (.fin false mx mxe) > 0 then .inf s
      else .fin s n q

/-- Round to FP32 (R120, and one rounding per FP32 operation). -/
def round32 (r : Rounding) (v : FV) : FV := roundF 23 (-149) (2 ^ 24 - 1) 104 r v

def rn32 (v : FV) : FV := round32 .nearest v

/-- Round to binary64 (09 R254, R255). -/
def round64 (r : Rounding) (v : FV) : FV := roundF 52 (-1074) (2 ^ 53 - 1) 971 r v

/-! ### Formats (Table 04-1) -/

inductive Fmt where
  | fp32 | bf16 | fp16 | e4m3 | e5m2 | fp4 | int8 | int4 | int32
  deriving DecidableEq, Repr

/-- The format of a code of 03 Table 03-8. -/
def Fmt.ofCode : Nat → Option Fmt
  | 0 => some .fp32
  | 1 => some .bf16
  | 2 => some .fp16
  | 3 => some .e4m3
  | 4 => some .e5m2
  | 5 => some .fp4
  | 6 => some .int8
  | 7 => some .int4
  | 8 => some .int32
  | _ => none

/-- Bits of an element. -/
def Fmt.width : Fmt → Nat
  | .fp32 => 32
  | .bf16 => 16
  | .fp16 => 16
  | .e4m3 => 8
  | .e5m2 => 8
  | .fp4 => 4
  | .int8 => 8
  | .int4 => 4
  | .int32 => 32

def Fmt.isInt : Fmt → Bool
  | .int8 => true
  | .int4 => true
  | .int32 => true
  | _ => false

/-- Fraction bits of a floating-point format. -/
def Fmt.frac : Fmt → Nat
  | .fp32 => 23
  | .bf16 => 7
  | .fp16 => 10
  | .e4m3 => 3
  | .e5m2 => 2
  | .fp4 => 1
  | _ => 0

def Fmt.bias : Fmt → Nat
  | .fp32 => 127
  | .bf16 => 127
  | .fp16 => 15
  | .e4m3 => 7
  | .e5m2 => 15
  | .fp4 => 1
  | _ => 0

def Fmt.hasInf : Fmt → Bool
  | .fp32 => true
  | .bf16 => true
  | .fp16 => true
  | .e5m2 => true
  | _ => false

/-- Exponent bits. -/
def Fmt.ebits (t : Fmt) : Nat := t.width - 1 - t.frac

/-- Exponent of the last place of the subnormals. -/
def Fmt.emin (t : Fmt) : Int := 1 - t.bias - t.frac

/-- The largest finite magnitude, as its encoding. -/
def Fmt.maxBits : Fmt → Nat
  | .fp32 => 0x7F7FFFFF
  | .bf16 => 0x7F7F
  | .fp16 => 0x7BFF
  | .e4m3 => 0x7E
  | .e5m2 => 0x7B
  | .fp4 => 0x7
  | .int8 => 127
  | .int4 => 7
  | .int32 => 2 ^ 31 - 1

/-- The canonical NaN (R110). -/
def Fmt.nanBits : Fmt → Nat
  | .fp32 => 0x7FC00000
  | .bf16 => 0x7FC0
  | .fp16 => 0x7E00
  | .e4m3 => 0x7F
  | .e5m2 => 0x7E
  | _ => 0

/-- Infinity of a format that has one. -/
def Fmt.infBits : Fmt → Nat
  | .fp32 => 0x7F800000
  | .bf16 => 0x7F80
  | .fp16 => 0x7C00
  | .e5m2 => 0x7C
  | _ => 0

/-- Two's complement of `w` bits. -/
def toSigned (w v : Nat) : Int := if v < 2 ^ (w - 1) then (v : Int) else (v : Int) - 2 ^ w

/-- The value of an encoding (R107, R109). -/
def Fmt.decode (t : Fmt) (v : Nat) : FV :=
  if t.isInt then .ofInt (toSigned t.width (v % 2 ^ t.width))
  else
    let s := bit v (t.width - 1)
    let x := bits v t.frac t.ebits
    let f := bits v 0 t.frac
    if t.hasInf ∧ x = 2 ^ t.ebits - 1 then (if f = 0 then .inf s else .nan)
    else if t = .e4m3 ∧ x = 15 ∧ f = 7 then .nan
    else if x = 0 then .fin s f t.emin
    else .fin s (2 ^ t.frac + f) (t.emin + x - 1)

/-- The encoding of a magnitude already rounded to the format: `n × 2^q` with at most frac + 2 bits. -/
def Fmt.encodeMag (t : Fmt) (n : Nat) (q : Int) : Nat :=
  let (n, q) := if 2 ^ (t.frac + 1) ≤ n then (n / 2, q + 1) else (n, q)
  if n < 2 ^ t.frac then n
  else ((q - t.emin).toNat + 1) * 2 ^ t.frac + (n - 2 ^ t.frac)

/-- The sign bit in place. -/
def Fmt.signBit (t : Fmt) (s : Bool) : Nat := b2n s * 2 ^ (t.width - 1)

/-- A converted element: its bits, whether it counts in `SAT`, whether it counts in `NANINT`. -/
structure Conv where
  bits : Nat
  sat : Bool
  nanint : Bool
  deriving DecidableEq, Repr

/-- Convert to a floating-point format (R126 to R131). -/
def Fmt.encodeFloat (t : Fmt) (r : Rounding) (sat : Bool) : FV → Conv
  | .nan => if t = .fp4 then ⟨0, false, true⟩ else ⟨t.nanBits, false, false⟩
  | .inf s => if t.hasInf then ⟨t.signBit s + t.infBits, false, false⟩ else ⟨t.signBit s + t.maxBits, true, false⟩
  | .fin s m e =>
    if m = 0 then ⟨t.signBit s, false, false⟩
    else
      let (n, q) := roundMag t.frac t.emin r s m e
      if n = 0 then ⟨t.signBit s, false, false⟩
      else
        let isOver := FV.cmp (.fin false n q) (t.decode t.maxBits) > 0
        if isOver then
          if sat && t.hasInf then ⟨t.signBit s + t.infBits, false, false⟩
          else ⟨t.signBit s + t.maxBits, true, false⟩
        else ⟨t.signBit s + t.encodeMag n q, false, false⟩

/-- Convert to an integer format, saturating at its limits (R127 to R129, R131); `low` is the lower limit. -/
def encodeInt (w : Nat) (low : Int) (r : Rounding) : FV → Conv
  | .nan => ⟨0, false, true⟩
  | .inf s => ⟨(if s then low % 2 ^ w else 2 ^ (w - 1) - 1).toNat, true, false⟩
  | .fin s m e =>
    let n := if 0 ≤ e then m * 2 ^ e.toNat
      else
        let k := (-e).toNat
        let lo := m >>> k
        if roundsUp r s lo (m % 2 ^ k) k then lo + 1 else lo
    let z : Int := if s then - (n : Int) else n
    if z < low then ⟨(low % 2 ^ w).toNat, true, false⟩
    else if 2 ^ (w - 1) - 1 < z then ⟨2 ^ (w - 1) - 1, true, false⟩
    else ⟨(z % 2 ^ w).toNat, false, false⟩

/-- Convert one element without a block scale. -/
def Fmt.encode (t : Fmt) (r : Rounding) (sat : Bool) (v : FV) : Conv :=
  if t.isInt then encodeInt t.width (- 2 ^ (t.width - 1)) r v else t.encodeFloat r sat v

/-- The FP32 encoding of a value already rounded to FP32. -/
def enc32 (v : FV) : Nat := (Fmt.fp32.encode .nearest true v).bits

def dec32 (v : Nat) : FV := Fmt.fp32.decode v

/-! ### The counter hash (R124) -/

def hashMul1 : BitVec 64 := 0xBF58476D1CE4E5B9

def hashMul2 : BitVec 64 := 0x94D049BB133111EB

def hashStep : BitVec 64 := 0x9E3779B97F4A7C15

/-- One round. -/
def hashRound (k : BitVec 64) (i : Nat) (x : BitVec 64) : BitVec 64 :=
  let x := x ^^^ (k + BitVec.ofNat 64 (i + 1) * hashStep)
  let x := (x ^^^ (x >>> 30)) * hashMul1
  let x := (x ^^^ (x >>> 27)) * hashMul2
  x ^^^ (x >>> 31)

def counterHash (seed step index stream : Nat) : BitVec 64 :=
  let x := BitVec.ofNat 64 (0xA5 * 2 ^ 56 + stream % 256 * 2 ^ 48 + index % 2 ^ 48)
  let k := BitVec.ofNat 64 seed ^^^ (BitVec.ofNat 64 step * hashStep)
  hashRound k 3 (hashRound k 2 (hashRound k 1 (hashRound k 0 x)))

/-- The bits of a draw that stochastic rounding uses: [63:40]. -/
def drawBits (h : BitVec 64) : Nat := bits h.toNat 40 24

end Sys2Proof.Machine
end

