-- ==== Sys2Proof/Machine/Crypt.lean ====
section
/-! DEFINITION. The published algorithms that the spec names for stored lines, chunks, messages and keys: AES-256, its GCM, SHA-512,
HKDF over it and X25519 (12 R355, 13 R384, R401). Their definitions are those of FIPS 197, SP 800-38D, FIPS 180-4, RFC 5869 and RFC
7748, which the spec restates nowhere; what it states of their inputs stands with the operations that call them. Byte strings are
lists of numbers below 256 here. -/

namespace Sys2Proof.Machine.Crypt

/-! ### AES-256 -/

/-- The S-box, 32 entries to a number, entry 0 lowest. -/
def sbox : List Nat :=
  [0xc072a49cafa2d4adf04759fa7dc982ca76abd7fe2b670130c56f6bf27b777c63,
   0x75b227ebe28012079a059618c323c7041531d871f1e5a534ccf73f362693fdb7,
   0xcf584c4a39becb6a5bb1fc20ed00d153842fe329b3d63b52a05a6e1b1a2c8309,
   0xd2f3ff1021dab6bcf5389d928f40a351a89f3c507f02f94585334d43fbaaefd0,
   0xdb0b5ede14b8ee4688902a22dc4f816073195d643d7ea7c41744975fec130ccd,
   0x08ae7a65eaf4566ca94ed58d6d37c8e779e4959162acd3c25c2406490a3a32e0,
   0x9e1dc186b95735610ef6034866b53e708a8bbd4b1f74dde8c6b4a61c2e2578ba,
   0x16bb54b00f2d99416842e6bf0d89a18cdf2855cee9871e9b948ed9691198f8e1]

def subByte (b : Nat) : Nat := bits ((sbox.getD (b / 32) 0) >>> (8 * (b % 32))) 0 8

/-- Multiplication by x in the field of AES. -/
def xtime (b : Nat) : Nat := if 128 ≤ b then (2 * b - 256) ^^^ 0x1B else 2 * b

/-- Bytes of a 32-bit word, first byte highest. -/
def wordBytes (w : Nat) : List Nat := [w / 2 ^ 24 % 256, w / 2 ^ 16 % 256, w / 2 ^ 8 % 256, w % 256]

/-- The number of a byte string, first byte highest. -/
def beNat (bs : List Nat) : Nat := bs.foldl (fun n b => 256 * n + b) 0

/-- The `n` bytes of `v`, first byte highest. -/
def beBytes : Nat → Nat → List Nat
  | 0, _ => []
  | n + 1, v => v / 256 ^ n % 256 :: beBytes n v

def subWord (w : Nat) : Nat := beNat ((wordBytes w).map subByte)

def rotWord (w : Nat) : Nat := w % 2 ^ 24 * 256 + w / 2 ^ 24

/-- The next word of the key schedule; `ws` lists the words so far, latest first, `i` of them. -/
def nextWord (ws : List Nat) (i : Nat) : Nat :=
  let t := ws.getD 0 0
  let u := if i % 8 = 0 then subWord (rotWord t) ^^^ (2 ^ (i / 8 - 1) * 2 ^ 24) else if i % 8 = 4 then subWord t else t
  u ^^^ ws.getD 7 0

/-- The 60 words of the key schedule of a 32-byte key. -/
def schedule (key : List Nat) : List Nat :=
  let first := ((chunksOf 4 8 key).map beNat).reverse
  (((rangeFrom 8 52).foldl (fun ws i => nextWord ws i :: ws) first)).reverse

def shiftRows (s : List Nat) : List Nat := (List.range 16).map fun i => s.getD (i % 4 + 4 * ((i / 4 + i % 4) % 4)) 0

def mixColumn (c : List Nat) : List Nat :=
  let t := c.foldl (· ^^^ ·) 0
  (List.range 4).map fun i => c.getD i 0 ^^^ t ^^^ xtime (c.getD i 0 ^^^ c.getD ((i + 1) % 4) 0)

def mixColumns (s : List Nat) : List Nat := (chunksOf 4 4 s).flatMap mixColumn

def xorList (a b : List Nat) : List Nat := List.zipWith (· ^^^ ·) a b

/-- AES-256 of a 16-byte block under round keys of 16 bytes each. -/
def cipher (rks : List (List Nat)) (block : List Nat) : List Nat :=
  let s := xorList block (rks.getD 0 [])
  let s := ((rks.drop 1).take 13).foldl (fun s rk => xorList (mixColumns (shiftRows (s.map subByte))) rk) s
  xorList (shiftRows (s.map subByte)) (rks.getD 14 [])

def roundKeys (key : List Nat) : List (List Nat) := (chunksOf 4 15 (schedule key)).map fun ws => ws.flatMap wordBytes

/-- AES-256 of one block. -/
def aes256 (key block : List Nat) : List Nat := cipher (roundKeys key) block

/-! ### The field of GCM: blocks as numbers, first byte highest -/

/-- Product in GF(2¹²⁸) with the polynomial and bit order of GCM; `n` bits of `x` are left. -/
def gfStep : Nat → Nat → Nat → Nat → Nat
  | 0, _, _, z => z
  | n + 1, x, v, z =>
    gfStep n x (if v % 2 = 1 then (v / 2) ^^^ (0xE1 * 2 ^ 120) else v / 2) (if x.testBit n then z ^^^ v else z)

def gfMul (x y : Nat) : Nat := gfStep 128 x y 0

/-- `bs` with zeros to a multiple of 16 bytes. -/
def padBlock (bs : List Nat) : List Nat := bs ++ List.replicate ((16 - bs.length % 16) % 16) 0

def ghash (h : Nat) (bs : List Nat) : Nat :=
  (chunksOf 16 bs.length bs).foldl (fun y b => gfMul (y ^^^ beNat b) h) 0

/-- Counter-mode bytes: blocks from the one after `j`, a block with its last four bytes counting. -/
def ctrStream (rks : List (List Nat)) (nonce : List Nat) (n : Nat) : List Nat :=
  (List.range (ceilDiv n 16)).flatMap fun i => cipher rks (nonce ++ beBytes 4 ((i + 2) % 2 ^ 32))

/-- `bs` under AES-256 in counter mode, as GCM encrypts and decrypts; `nonce` is 12 bytes. -/
def gcmCrypt (key nonce bs : List Nat) : List Nat := xorList bs (ctrStream (roundKeys key) nonce bs.length)

/-- The 16-byte GCM tag over associated data and ciphertext. -/
def gcmTag (key nonce aad ct : List Nat) : List Nat :=
  let rks := roundKeys key
  let h := beNat (cipher rks (List.replicate 16 0))
  let s := ghash h (padBlock aad ++ padBlock ct ++ beBytes 8 (8 * aad.length) ++ beBytes 8 (8 * ct.length))
  xorList (beBytes 16 s) (cipher rks (nonce ++ [0, 0, 0, 1]))

/-! ### SHA-512, HMAC, HKDF -/

/-- The round constants. -/
def shaK : List Nat :=
  [0x428a2f98d728ae22, 0x7137449123ef65cd, 0xb5c0fbcfec4d3b2f, 0xe9b5dba58189dbbc,
   0x3956c25bf348b538, 0x59f111f1b605d019, 0x923f82a4af194f9b, 0xab1c5ed5da6d8118,
   0xd807aa98a3030242, 0x12835b0145706fbe, 0x243185be4ee4b28c, 0x550c7dc3d5ffb4e2,
   0x72be5d74f27b896f, 0x80deb1fe3b1696b1, 0x9bdc06a725c71235, 0xc19bf174cf692694] ++
  [0xe49b69c19ef14ad2, 0xefbe4786384f25e3, 0x0fc19dc68b8cd5b5, 0x240ca1cc77ac9c65,
   0x2de92c6f592b0275, 0x4a7484aa6ea6e483, 0x5cb0a9dcbd41fbd4, 0x76f988da831153b5,
   0x983e5152ee66dfab, 0xa831c66d2db43210, 0xb00327c898fb213f, 0xbf597fc7beef0ee4,
   0xc6e00bf33da88fc2, 0xd5a79147930aa725, 0x06ca6351e003826f, 0x142929670a0e6e70] ++
  [0x27b70a8546d22ffc, 0x2e1b21385c26c926, 0x4d2c6dfc5ac42aed, 0x53380d139d95b3df,
   0x650a73548baf63de, 0x766a0abb3c77b2a8, 0x81c2c92e47edaee6, 0x92722c851482353b,
   0xa2bfe8a14cf10364, 0xa81a664bbc423001, 0xc24b8b70d0f89791, 0xc76c51a30654be30,
   0xd192e819d6ef5218, 0xd69906245565a910, 0xf40e35855771202a, 0x106aa07032bbd1b8] ++
  [0x19a4c116b8d2d0c8, 0x1e376c085141ab53, 0x2748774cdf8eeb99, 0x34b0bcb5e19b48a8,
   0x391c0cb3c5c95a63, 0x4ed8aa4ae3418acb, 0x5b9cca4f7763e373, 0x682e6ff3d6b2b8a3,
   0x748f82ee5defb2fc, 0x78a5636f43172f60, 0x84c87814a1f0ab72, 0x8cc702081a6439ec,
   0x90befffa23631e28, 0xa4506cebde82bde9, 0xbef9a3f7b2c67915, 0xc67178f2e372532b] ++
  [0xca273eceea26619c, 0xd186b8c721c0c207, 0xeada7dd6cde0eb1e, 0xf57d4f7fee6ed178,
   0x06f067aa72176fba, 0x0a637dc5a2c898a6, 0x113f9804bef90dae, 0x1b710b35131c471b,
   0x28db77f523047d84, 0x32caab7b40c72493, 0x3c9ebe0a15c9bebc, 0x431d67c49c100d4c,
   0x4cc5d4becb3e42b6, 0x597f299cfc657e2a, 0x5fcb6fab3ad6faec, 0x6c44198c4a475817]

def shaH : List Nat :=
  [0x6a09e667f3bcc908, 0xbb67ae8584caa73b, 0x3c6ef372fe94f82b, 0xa54ff53a5f1d36f1,
   0x510e527fade682d1, 0x9b05688c2b3e6c1f, 0x1f83d9abfb41bd6b, 0x5be0cd19137e2179]

def rotr (w n : Nat) : Nat := w / 2 ^ n + w % 2 ^ n * 2 ^ (64 - n)

def add64 (a b : Nat) : Nat := (a + b) % 2 ^ 64

/-- The next word of the message schedule, latest first. -/
def shaWord (ws : List Nat) : Nat :=
  let a := ws.getD 14 0
  let b := ws.getD 1 0
  let s0 := rotr a 1 ^^^ rotr a 8 ^^^ (a / 2 ^ 7)
  let s1 := rotr b 19 ^^^ rotr b 61 ^^^ (b / 2 ^ 6)
  add64 (add64 (ws.getD 15 0) s0) (add64 (ws.getD 6 0) s1)

def shaRound (s : List Nat) (kw : Nat) : List Nat :=
  match s with
  | [a, b, c, d, e, f, g, h] =>
    let s1 := rotr e 14 ^^^ rotr e 18 ^^^ rotr e 41
    let ch := (e &&& f) ^^^ ((2 ^ 64 - 1 - e) &&& g)
    let t1 := add64 (add64 h s1) (add64 ch kw)
    let s0 := rotr a 28 ^^^ rotr a 34 ^^^ rotr a 39
    let maj := (a &&& b) ^^^ (a &&& c) ^^^ (b &&& c)
    [add64 t1 (add64 s0 maj), a, b, c, add64 d t1, e, f, g]
  | _ => s

def shaBlock (s block : List Nat) : List Nat :=
  let first := ((chunksOf 8 16 block).map beNat).reverse
  let ws := ((List.range 64).foldl (fun ws _ => shaWord ws :: ws) first).reverse
  List.zipWith add64 s ((List.zipWith add64 shaK ws).foldl shaRound s)

/-- SHA-512 of a byte string, 64 bytes. -/
def sha512 (bs : List Nat) : List Nat :=
  let padded := bs ++ [0x80] ++ List.replicate ((112 + 128 - (bs.length + 1) % 128) % 128) 0 ++ beBytes 16 (8 * bs.length)
  ((chunksOf 128 padded.length padded).foldl shaBlock shaH).flatMap (beBytes 8)

def hmac512 (key msg : List Nat) : List Nat :=
  let k := if 128 < key.length then sha512 key else key
  let k := k ++ List.replicate (128 - k.length) 0
  sha512 (k.map (· ^^^ 0x5C) ++ sha512 (k.map (· ^^^ 0x36) ++ msg))

/-- Block `i` + 1 and the `n` after it of the expansion; `prev` is the block before. -/
def hkdfBlocks (prk info : List Nat) : Nat → Nat → List Nat → List Nat
  | 0, _, _ => []
  | n + 1, i, prev =>
    let t := hmac512 prk (prev ++ info ++ [i + 1])
    t ++ hkdfBlocks prk info n (i + 1) t

/-- HKDF-SHA-512 with an empty salt. -/
def hkdf (ikm info : List Nat) (len : Nat) : List Nat :=
  (hkdfBlocks (hmac512 (List.replicate 64 0) ikm) info (ceilDiv len 64) 0 []).take len

/-! ### X25519 -/

/-- The field of Curve25519. -/
def fieldP : Nat := 2 ^ 255 - 19

def fieldSub (a b : Nat) : Nat := (a + fieldP - b) % fieldP

/-- `b` to the power of the low `n` bits of `e`. -/
def fieldPow (b e : Nat) : Nat → Nat
  | 0 => 1
  | n + 1 => let r := fieldPow b (e / 2) n
             let r := r * r % fieldP
             if e % 2 = 1 then r * b % fieldP else r

/-- One step of the Montgomery ladder on the points `x2 : z2` and `x3 : z3`, whose difference is `x1`: the first doubled, the sum. -/
def ladderStep (x1 x2 z2 x3 z3 : Nat) : Nat × Nat × Nat × Nat :=
  let a := x2 + z2
  let aa := a * a % fieldP
  let b := fieldSub x2 z2
  let bb := b * b % fieldP
  let e := fieldSub aa bb
  let da := fieldSub x3 z3 * a % fieldP
  let cb := (x3 + z3) * b % fieldP
  let s := da + cb
  let t := fieldSub da cb
  (aa * bb % fieldP, e * (aa + 121665 * e) % fieldP, s * s % fieldP, x1 * (t * t) % fieldP)

/-- The ladder over the low `n` bits of `k`, highest first. -/
def ladder (k x1 : Nat) : Nat → Nat × Nat × Nat × Nat → Nat × Nat × Nat × Nat
  | 0, s => s
  | n + 1, (x2, z2, x3, z3) =>
    if k.testBit n then
      let (x3, z3, x2, z2) := ladderStep x1 x3 z3 x2 z2
      ladder k x1 n (x2, z2, x3, z3)
    else ladder k x1 n (ladderStep x1 x2 z2 x3 z3)

/-- X25519 of a scalar and a point, byte 0 of each lowest. -/
def x25519 (k u : Nat) : Nat :=
  let k := k % 2 ^ 254 / 8 * 8 + 2 ^ 254
  let u := u % 2 ^ 255
  let (x, z, _, _) := ladder k u 255 (1, 0, u, 1)
  x * fieldPow z (fieldP - 2) 255 % fieldP

/-- The bytes of a name in ASCII. -/
def ascii (s : String) : List Nat := s.toList.map Char.toNat

/-- The 32 bytes of a secret, which the model holds as a number, byte 0 lowest. -/
def secretBytes (s : Nat) : List Nat := (leBytes 32 s).map BitVec.toNat

def ofBytes (bs : List Byte) : List Nat := bs.map BitVec.toNat

def toBytes (bs : List Nat) : List Byte := bs.map (BitVec.ofNat 8)

end Sys2Proof.Machine.Crypt
end

