-- ==== Sys2Proof/Config.lean ====
section
/-! DEFINITION. What an implementation fixes and what the spec leaves open: constants without a body, so that no proof
can use a value of one. SHA3-384 and ML-KEM-768 stand here too: the spec names the public algorithm and restates none of it
(00_scope.md, Written forms), so the model takes them as uninterpreted functions. AES-256-GCM, SHA-512, HKDF and X25519 are written
out (Machine/Crypt.lean). -/

namespace Sys2Proof

/-- A value the spec leaves open, one for each number drawn (assumption log 2). -/
opaque Config.freeValue : Nat → Nat

/-- The picoseconds by which `PV_TIME` is slewed in one 10 ns advance, before the 100 ppm bound of 15 R453 is applied. -/
opaque Config.slew : Nat → Int

/-- The input voltage that the module measures, in mV, over time (15 Table 15-10 `PV_INPUT`). -/
opaque Config.millivolts : Nat → Nat

/-- First 16 bytes of the SHA3-384 of a life-log entry's 64 bytes (14 R430). -/
opaque Config.lifeHash : List Byte → Nat

/-- SHA3-384 of the hardened fields as measurement index 2 (13 Table 13-5) of this image of them. -/
opaque Config.hardenedDigest : List Nat → Nat

/-- Check symbol `i` of the Reed–Solomon code over the 137 bytes before it (12 Table 12-1): the spec names no generator. -/
opaque Config.eccSymbol : List Byte → Nat → Byte

/-- Stored byte `i` of a line that no live region holds or whose bits have gone bad (12 R351, R375). -/
opaque Config.strayByte : Nat → Nat → Byte

/-- Encapsulation key of ML-KEM-768 for the random bytes that generate its pair (13 Table 13-2). -/
opaque Config.mlkemPublic : Nat → Nat

/-- Ciphertext of ML-KEM-768: encapsulation key, random bytes (13 R401). -/
opaque Config.mlkemCiphertext : Nat → Nat → Nat

/-- Shared secret of that encapsulation. -/
opaque Config.mlkemShared : Nat → Nat → Nat

/-- Shared secret that the pair of these random bytes opens from a ciphertext. -/
opaque Config.mlkemOpen : Nat → Nat → Nat

/-- The text of an admission: job key, data keys with owner tag, use count and `EXPIRE_RST`. The spec gives no layout (13 R399). -/
opaque Config.admissionText : Nat → List (Nat × Nat × Nat × Bool) → List Byte

/-- The identity public keys, 1,984 bytes, that derive from RS (13 Table 13-2, 14 R416). -/
opaque Config.identityKeys : Nat

/-- Identity hash `IDH` of this device's identity key pair (13 R384). -/
opaque Config.identityHash : Nat

/-- The dateline class of a message at this physical coordinate, for a destination, on a port: Reed sets it so that the routing is
free of deadlock, and the spec gives no rule for it (07 R193). -/
opaque Config.dateline : Nat → Nat → Nat → Bool

/-- Byte `i` of the 8 bytes in which the ingress table keeps an accepted `CSEQ` and `EPOCH`: the spec gives no layout (07 R195). -/
opaque Config.ingressEntry : Nat → Nat → Nat → BitVec 8

/-- Byte `i` of the 4 bytes in which a zone's state keeps a granule's state (0 empty, 1 held, 2 committed), tile and serial: the spec
gives the 1,024 bytes per unit and no layout (07 R203). -/
opaque Config.granuleState : Nat → Nat → Nat → Nat → BitVec 8

/-- Bytes of a redo entry's payload that slot `s` of its header takes, where no descriptor in progress gives the slots' formats
(06 R172; log 119). -/
opaque Config.entryBytes : List (BitVec 8) → Nat → Nat

/-- `GEN` of another member's records: its cut count at the cut of a step, by source ID and step (08 Table 08-5). -/
opaque Config.ownerGen : Nat → Nat → Nat

/-- Byte `i` of a slot record in the control granule of a holdings area: step, `COUNTED` (08 R230, R235, Table 08-2). -/
opaque Config.slotRecord : Nat → Bool → Nat → Byte

/-- Byte `i` of a READY or COMMIT record: step, slot, member, 0 READY or 1 COMMIT (08 R235). -/
opaque Config.groupRecord : Nat → Nat → Nat → Nat → Nat → Byte

/-- A random secret of the RTP's random source, one for each number drawn (13 Table 13-2). -/
opaque Config.randomSecret : Nat → Nat

/-- The FP32 value to which step 4 of 02 R52 maps an exact ratio: numerator, denominator. The rule gives the interval [0, 1] and
neither the rounding nor what lies outside it. -/
opaque Config.toUnit : Int → Nat → Nat

/-- The luma weights of red and blue, in units of 1/10000, of a matrix that a stream signals and Table 02-6 does not name. -/
opaque Config.matrixWeights : Nat → Nat × Nat

/-- Alignment of the audio decimation filter: tap i of output n multiplies source sample q n + delay - i (02 R56). -/
opaque Config.firDelay : Int

/-- An audio source sample that no decoded frame holds, which the decimation filter meets at an edge (02 R56). -/
opaque Config.pcmEdge : Int → Nat

/-- Byte of the CXL component registers at BAR0 0x7000: offset, values drawn so far. CXL 3.1 gives their layout, the spec nothing of
what they hold (11 Table 11-3). -/
opaque Config.cxlComponent : Nat → Nat → BitVec 8

/-- Line of a context's write-aside area that takes the copy of an in-place line: context, logical tile, line (10 R303; the spec
does not say how the area is laid out). -/
opaque Config.asidePlace : Nat → Nat → Nat → Nat

/-- Number that entries 0x0301 and 0x0302 give a cause of suspicion of 09 R262, by its place in the rule's list; 5 stands for a
tile fenced for another reason while its pick runs (09 Table 09-3). -/
opaque Config.suspectCause : Nat → Nat

end Sys2Proof
end

