-- ==== Sys2Proof/Machine/State.lean ====
section
/-! DEFINITION. The state of the block as plain data, the reasons a step can stop, and the state right after reset. -/

namespace Sys2Proof.Machine

/-- The machine stops with a fault. No command of this block does: every meaning answers a next state, so the type is
empty and a fault is excluded by construction (safe). -/
inductive Fault where
  deriving DecidableEq, Repr

/-- A command without a meaning. -/
inductive Refusal where
  /-- Raised by the dispatcher alone, for a row not reached yet; none is left. Safe: the machine stops. -/
  | notModelled (mnemonic : String)
  deriving DecidableEq, Repr

/-! ### Selvedge (12) -/

/-- What the model keeps of a stored line beside its plaintext (R351, R355): the key index it was written under, the secret
that slot held then, the epoch, the minor counter, and whether its stored bits fail their check (R375): `ecc` then tells an
uncorrectable ECC from a MAC that fails. The 144 stored bytes follow from these (`Dev.storedLine`, assumption log 104). -/
structure LineMeta where
  key : Nat
  secret : Nat
  epoch : Nat
  ctr : Nat
  bad : Bool
  ecc : Bool
  deriving DecidableEq, Repr

/-- Region states (Table 12-9 `SV_REG_STATE`). -/
inductive RegionState where
  | closed | opening | live | reencrypting | closing | lost
  deriving DecidableEq, Repr

/-- A region (R359 to R372). `secret` is what the slot of `key` held when it opened, under which its lines were zeroed; `prior`
the epoch that the re-encryption in progress leaves. `taken` lists the 64 KiB steps already under the new epoch. `sig` is the
fence and value of the command in progress (R367). -/
structure Region where
  st : RegionState
  base : Nat
  granules : Nat
  key : Nat
  multi : Bool
  fval : Nat
  secret : Nat
  epoch : Nat
  prior : Nat
  hw : Nat
  due : Bool
  taken : List Nat
  bad : Nat
  sig : Option (Nat × Nat)
  deriving DecidableEq, Repr

def Region.reset : Region :=
  { st := .closed, base := 0, granules := 0, key := 0, multi := false, fval := 0, secret := 0, epoch := 0, prior := 0,
    hw := 0, due := false, taken := [], bad := 0, sig := none }

/-- A valid step buffer of a state area (R350, R368, R370): region, step, and the listed lines of the step as re-encrypted. -/
structure StepBuf where
  num : Nat
  step : Nat
  lines : Sparse (Option LineMeta)
  deriving DecidableEq, Repr

/-- Selvedge beside regions and lines. `latent` is what the next read of a stored line finds (R374, R375): errors that storage has
brought about and no read has met yet, which no row of the table brings about; `bufs` the valid step buffers of each stack's
state area; `errs` the stacks against which a corrected line of this step is still to be counted (09 R275). -/
structure Selvedge where
  latent : Sparse LineFound
  bufs : Sparse (List StepBuf)
  errs : List Nat
  deriving DecidableEq, Repr

def Selvedge.reset : Selvedge := { latent := [], bufs := [], errs := [] }

/-! ### Key table (12 Table 12-2, 13 Table 13-3) -/

/-- A key slot: type code of Table 13-3, attributes, and the identity of its secret. `uses0` is the use count of a data
key's original transport; `link`, `step` and `notAfter` are those of an export slot's release. -/
structure KeySlot where
  typ : Nat
  valid : Bool
  job : Nat
  owner : Nat
  openOut : Bool
  uses : Nat
  uses0 : Nat
  expireRst : Bool
  secret : Nat
  link : Nat
  step : Nat
  notAfter : Nat
  deriving DecidableEq, Repr

/-- Slot 0 is the open slot: always `VALID`, `JOB` 0 (R357); every other slot is free. -/
def KeySlot.reset (k : Nat) : KeySlot :=
  { typ := if k = 0 then 1 else 0, valid := k = 0, job := 0, owner := 0, openOut := false, uses := 0,
    uses0 := 0, expireRst := false, secret := 0, link := 0, step := 0, notAfter := 0 }

/-! ### Coppice (09) -/

/-- A fault-log entry (Table 09-7). -/
structure LogEntry where
  time : Nat
  seq : Nat
  cls : Nat
  cleared : Bool
  part : Option Nat
  unit : Nat
  unitId : Nat
  cause : Nat
  detail : Nat
  deriving DecidableEq, Repr

/-- The fault log (R283, R285): positions 0–63 pinned, 64–1,023 a ring. `lost` counts the uncleared entries that were
overwritten, by class C2, C3, C4. -/
structure FaultLog where
  entries : Sparse (Option LogEntry)
  pinned : Nat
  next : Nat
  seq : Nat
  uncleared : Nat
  lostTop : Nat
  deriving DecidableEq, Repr

/-- What Coppice holds of one unit (R271 to R277): fenced and why, fencings in life, consecutive passes, stamps of the
last test and of the fencing, corrected errors of the current hour, test in progress, overdue test recorded. -/
structure UnitRec where
  fenced : Bool
  permanent : Bool
  reason : Nat
  fencings : Nat
  passes : Nat
  lastTest : Nat
  hour : Nat
  corrected : Nat
  testing : Bool
  overdue : Bool
  deriving DecidableEq, Repr

def UnitRec.reset : UnitRec :=
  { fenced := false, permanent := false, reason := 0, fencings := 0, passes := 0, lastTest := 0, hour := 0,
    corrected := 0, testing := false, overdue := false }

/-! ### Interrupts (11 R343, R344) -/

/-- An MSI-X table entry: message address, data, mask bit. -/
structure MsixEntry where
  addr : Nat
  data : Nat
  mask : Bool
  deriving DecidableEq, Repr

def MsixEntry.reset : MsixEntry := { addr := 0, data := 0, mask := true }

/-! ### Rings, contexts, fences (10) -/

inductive RingState where
  | disabled | active | error | draining
  deriving DecidableEq, Repr

/-- What a completion record says beside its sequence number, tag and opcode (Table 10-3). -/
structure Verdict where
  code : Nat
  nfail : Nat
  aux : Nat
  info : Nat
  deriving DecidableEq, Repr

/-- Progress of an accepted descriptor (R293, R294): not started, started, finished with its record held. -/
inductive Phase where
  | waiting | started | done (v : Verdict)
  deriving DecidableEq, Repr

/-- An accepted descriptor; of a stream descriptor the epoch it belongs to, by serial and number of samples (02 R31). -/
structure Accepted where
  seq : Nat
  desc : RingDesc
  phase : Phase
  epoch : Option (Nat × Nat) := none
  deriving DecidableEq, Repr

/-- A ring: state, last `TAIL` read, `ACCEPTED`, `COMPLETED`, accepted and uncompleted descriptors in order, whether a status line
waits for the link or for budget (11 R332, 10 R321). -/
structure Ring where
  st : RingState
  tail : Nat
  accepted : Nat
  completed : Nat
  pend : List Accepted
  owed : Bool := false
  deriving DecidableEq, Repr

def Ring.reset : Ring := { st := .disabled, tail := 0, accepted := 0, completed := 0, pend := [] }

inductive CtxState where
  | closed | opened | stopped | tearing
  deriving DecidableEq, Repr

/-- A context (R309 to R323): state, seed written, teardown row reached, accounting counters. The P8 fields: it is
resident, tiles of its image, save, journal and write-aside words, stamp of its last activity, the `HX_P8_CMD` that waits (the
image of an `OPEN`, 0 of a `MAKE_RESIDENT`). -/
structure Ctx where
  st : CtxState
  seedSet : Bool
  phase : Nat
  acc : List Nat
  resident : Bool
  ntiles : Nat
  seed : Nat
  save : Nat
  journal : Nat
  waside : Nat
  lastUse : Nat
  asked : Option Nat
  deriving DecidableEq, Repr

def Ctx.reset : Ctx :=
  { st := .closed, seedSet := false, phase := 0, acc := [0, 0, 0, 0, 0, 0, 0, 0], resident := false, ntiles := 0,
    seed := 0, save := 0, journal := 0, waside := 0, lastUse := 0, asked := none }

inductive FenceState where
  | free | live | broken
  deriving DecidableEq, Repr

/-- A share-list entry (R312). -/
structure Share where
  ctx : Nat
  wait : Bool
  sig : Bool
  deriving DecidableEq, Repr

/-- A fence (R311, R312). Its journal mirror holds the same value and state (R306). -/
structure Fence where
  value : Nat
  st : FenceState
  owner : Nat
  remote : Bool
  shares : List Share
  deriving DecidableEq, Repr

def Fence.reset : Fence := { value := 0, st := .free, owner := 0, remote := false, shares := [] }

/-- How a part of a dispatch stands (R302, R104): failed with a status, the first op without effect, the op that failed. -/
inductive PartOutcome where
  | queued | begun | ended | failed (status first op : Nat)
  deriving DecidableEq, Repr

/-- A part: what a dispatch gives one logical tile (R299). -/
structure DPart where
  tile : Nat
  list : Nat
  key : Nat
  out : PartOutcome
  deriving DecidableEq, Repr

/-- A dispatch in progress. -/
structure Dispatch where
  ring : Nat
  seq : Nat
  ctx : Nat
  parts : List DPart
  deriving DecidableEq, Repr

/-- A staging channel's result and progress (11 Table 11-9): state code, status code, lines copied. -/
structure Staging where
  st : Nat
  status : Nat
  copied : Nat
  deriving DecidableEq, Repr

def Staging.reset : Staging := { st := 0, status := 0, copied := 0 }

/-! ### Root-of-trust processor (13) -/

/-- A sealed job record in user flash (R397). -/
structure Sealed where
  mh : Nat
  secret : Nat
  keys : List (Nat × KeySlot)
  ctrs : Sparse Nat
  tpX : Nat
  tpM : Nat
  deriving DecidableEq, Repr

/-- What the RTP holds for a partition: manifest, job, sealed record, update counters, releases accepted, floor counts
by owner tag, whether the floor held at the last step commit, the private halves of the transport key pair. -/
structure RtpPart where
  manifest : Option Manifest
  held : Bool
  slot : Nat
  secret : Nat
  origin : Nat
  admitter : Nat
  sealedRec : Option Sealed
  ctrs : Sparse Nat
  lastRelease : Option Nat
  counts : Sparse Nat
  floorOpen : Bool
  /-- a `JOB_JOIN` under way: holder coordinate, job slot, data slots -/
  joining : Option (Nat × Nat × List Nat)
  tpX : Nat
  tpM : Nat
  deriving DecidableEq, Repr

def RtpPart.reset : RtpPart :=
  { manifest := none, held := false, slot := 0, secret := 0, origin := 0, admitter := 0, sealedRec := none, ctrs := [],
    lastRelease := none, counts := [], floorOpen := false, joining := none, tpX := 0, tpM := 0 }

/-- A mailbox command delivered whole (R410): opcode, partition, bytes. -/
structure MailCmd where
  op : Nat
  part : Nat
  bytes : List Byte
  deriving DecidableEq, Repr

/-- An RTP message over the management links (R399): a joiner's request, a holder's admission, encrypted toward the joiner's
transport keys, a holder's refusal, or a message of other RTPs, whose bytes this one cannot read. -/
inductive RtpBody where
  | request (mh : Nat)
  | admission (mh : Nat) (env : Envelope)
  | refusal (mh : Nat)
  | relay (bytes : List Byte)
  deriving DecidableEq, Repr

/-- The RTP: root secret present, erased by a tamper, `NEXT_EPOCH` store, partitions, manifests revoked, mailbox, SPDM,
count of secrets drawn, RTP messages sent over the management links (port, destination, body). -/
structure Rtp where
  rsPresent : Bool
  tampered : Bool
  vbatLow : Bool
  nextEpoch : Sparse Nat
  parts : Sparse RtpPart
  revoked : List Nat
  asm : List Byte
  cmd : Option MailCmd
  busy : Bool
  status : Nat
  replyLen : Nat
  more : List Byte
  drawn : Nat
  dieKeyGen : Nat
  spdmVersion : Bool
  spdmNegotiated : Bool
  spdmKex : Bool
  spdmSession : Bool
  spdmOut : List (Nat × List Nat)
  relayed : List (Nat × Nat × RtpBody)
  deriving DecidableEq, Repr

/-! ### Life cycle, firmware, debug (14) -/

inductive LifeCycle where
  | blank | test | production | endOfLife | analysis
  deriving DecidableEq, Repr

/-- The one-time fuses (R414, R423): life-cycle state and number of SVN fuses blown. -/
structure Fuses where
  lc : LifeCycle
  svn : Nat
  deriving DecidableEq, Repr

/-- A life-log entry (Table 14-10); `prev` is the hash of the entry before. -/
structure LifeEntry where
  calendar : Nat
  typ : Nat
  time : Nat
  prev : Nat
  detail : List Byte
  deriving DecidableEq, Repr

/-- Flash, firmware and debug state: identity certificate held, armed end-of-life value and stamp, debug nonce, rights
open; image area state code (Table 14-9 `RT_FWUPD`), bytes programmed and the end of the last chunk, the complete image if any,
the running image; spare blocks, life log and how many entries after the first 65,536 were erased; firmware recovery; test
secret generated. -/
structure Life where
  cert : Bool
  eolArm : Option (Nat × Nat)
  nonce : Option Nat
  rights : Nat
  invasive : Bool
  notAfter : Nat
  fwState : Nat
  fwBytes : Nat
  fwEnd : Nat
  image : Option FwImage
  running : Option FwImage
  spare : Nat
  log : List LifeEntry
  logFirst : Nat
  recovery : Bool
  testSecret : Bool
  tamperNote : Option Nat
  deriving DecidableEq, Repr

/-! ### Power, clocks, pins (15, 16) -/

inductive PowerState where
  | off | bringup | reduced | full | held | standby
  deriving DecidableEq, Repr

/-- Power, clock and pin state (15 R436 to R464, 16). `before` is the state `STANDBY` was entered from; `booted` says
that firmware was verified since the last reset; `loopMhz`, `tempMhz` are the clocks that the power loop and the thermal
throttle ask for; `isOver` says that the last complete window exceeded the limit, `idle16` counts windows at or below 97%;
`tripped` that the last sample read at least 1.25 times the limit, `tripWindow` is 1 + the window of the last trip, 0 for
none; `hot` lists the sensors at or above their throttle temperature; `sampleSum`, `sampleCount` gather the 10 µs samples of
the window, `sampleNo` the next sample's index, `thermStep` the next 100 µs index; `energy` is the fraction below a joule
in 10⁻⁵ J; `resetDue` is a `PV_RESET` written and not yet begun, `resetNote` the reset not yet recorded (type, kept HBM, kept
acted as clearing); `edge` is the whole-period number of the last sync edge; `calPs` the part of a second that
`PV_CALENDAR` has run; `recover` and `stepBufs` list partitions and stacks whose journals and step buffers wait for recovery
after a keeping reset; `notReady` lists the units not ready in `REDUCED`. -/
structure Power where
  st : PowerState
  before : PowerState
  booted : Bool
  d3 : Bool
  perst : Bool
  fatal : Bool
  loopMhz : Nat
  tempMhz : Nat
  idle16 : Nat
  isOver : Bool
  tripped : Bool
  tripWindow : Nat
  thermIn : Bool
  hot : List (Nat × Nat)
  sampleSum : Nat
  sampleCount : Nat
  sampleNo : Nat
  thermStep : Nat
  energy : Nat
  lastOver : Bool
  refclk : Bool
  edge : Option Nat
  edges : Nat
  slewing : Bool
  timeSet : Option Nat
  backward : List (Nat × Nat)
  calPs : Nat
  resetDue : Option Bool
  resetNote : Option (Nat × Bool × Bool)
  recover : List Nat
  stepBufs : List Nat
  notReady : List (Nat × Nat)
  uart : Bool
  ticks : Nat
  deriving DecidableEq, Repr

/-- The CXL port (11): link trained, width, rate code, 256 B flits, CXL.cache, IDE streams secure, host physical addresses of the
doorbell lines held in the Shared state (R328). -/
structure Cxl where
  up : Bool
  width : Nat
  rate : Nat
  flit256 : Bool
  cache : Bool
  ideIo : List Nat
  ideCache : List Nat
  lines : List Nat
  deriving DecidableEq, Repr

/-- The TAP and trace (14 R425, 15 R460): instruction (0 IDCODE, 1 BYPASS, 2 SAMPLE/PRELOAD, 3 EXTEST), data register as
captured, boundary register, pins driven, halted sequencers, scan-chain shifts, trace events, dropped count. -/
structure Tap where
  ir : Nat
  dr : List Bool
  bscan : List Bool
  drive : List Bool
  extest : Bool
  halted : List Nat
  scan : List (Nat × List Bool)
  trace : List (Nat × Nat)
  full : Bool
  dropped : Nat
  deriving DecidableEq, Repr

/-! ### Tiles (03, 05, 09) -/

/-- Header of a loaded table set (Table 03-2), FP32 fields as their encodings. -/
structure TableSet where
  lo : Nat
  hi : Nat
  invW : Nat
  base : Nat
  count : Nat
  mode : Nat
  deriving DecidableEq, Repr

/-- A table entry (R71). -/
structure Segment where
  x0 : Nat
  a : Nat
  b : Nat
  deriving DecidableEq, Repr

/-- What the sequencer and the array keep of an op between two of its units, in the system area of the store (Table 03-3):
accumulators, bounds, saturation and checksums of the `MMUL` D panel in hand (R89, R121, R254 to R256), the results of an
even column panel whose 128-element blocks wait for the odd one (R82), partial results of a reduction (R93). -/
structure Carry where
  acc : List (List FV)
  d0 : List (List FV)
  tau : List (List FV)
  satEl : List (List Bool)
  refRow : List FV
  refCol : List FV
  absRow : List FV
  absCol : List FV
  openRow : List Bool
  openCol : List Bool
  even : List (List FV)
  part : List FV
  tot : List FV
  deriving DecidableEq, Repr

def Carry.blank : Carry :=
  { acc := [], d0 := [], tau := [], satEl := [], refRow := [], refCol := [], absRow := [], absCol := [], openRow := [],
    openCol := [], even := [], part := [], tot := [] }

/-- A part in a dispatch slot (R301): its dispatch, op list, the op and unit with which its next pick begins, the fence and
value it waits for under R96. -/
structure Slot where
  ring : Nat
  seq : Nat
  ctx : Nat
  list : Nat
  key : Nat
  op : Nat
  unit : Nat
  wait : Option (Nat × Nat)
  carry : Carry
  deriving DecidableEq, Repr

/-- Consecutive units of one op within a pick. -/
structure Piece where
  op : Nat
  desc : OpDesc
  first : Nat
  count : Nat
  deriving DecidableEq, Repr

/-- How a pick closes beyond its last unit: at a bound, at `FSIG`, before an `FWAIT`, at `END`, before an invalid op or at
the end of a list that has none (R98, R88, Table 03-12). -/
inductive Close where
  | bound | fsig | fwait (fence value : Nat) | atEnd | bad (op status : Nat)
  deriving DecidableEq, Repr

/-- An output of a replay run, held until its pick commits (R263): bytes for device memory under a key index, bytes for another
tile's store, a message with its header fields, a fence signal. -/
inductive Held where
  | line (key addr : Nat) (bs : List Byte)
  | store (tile addr : Nat) (bs : List Byte)
  | msg (typ ch dest addr key len : Nat) (payload : List Byte)
  | sig (fence value : Nat)
  deriving DecidableEq, Repr

/-- A running pick: what is left of it and what its commit or abandonment needs (R98 to R104, R303). `saved` holds the
write-aside copies: line, key index, bytes. `shadow` holds the shadow lines: tile, line of its store, bytes. `sent` lists
the destinations and channels that carried its messages; `all16` the destinations of its SIGNALs. -/
structure Pick where
  slot : Nat
  serial : Nat
  op : Nat
  unit : Nat
  pieces : List Piece
  /-- the pieces as the pick was cut -/
  whole : List Piece
  close : Close
  nextOp : Nat
  nextUnit : Nat
  inPlace : List (Nat × Nat)
  reserved : Bool
  saved : List (Nat × Nat × List Byte)
  shadow : List (Nat × Nat × List Byte)
  sets0 : Sparse (Option TableSet)
  segs0 : Sparse Segment
  base0 : Nat
  step0 : Nat
  carry0 : Carry
  sigs : List (Nat × Nat)
  sent : List (Nat × Nat)
  all16 : List Nat
  sat : Nat
  nanint : Nat
  steps : Nat
  unchecked : Nat
  suspect : Option Nat
  start : Nat
  askedAt : Nat
  /-- in a replay run: the op under way and the outputs held so far, each with its op, latest last -/
  held : Option (Nat × List (Nat × Held))
  deriving DecidableEq, Repr

/-- How a replay run of a pick ends (R263): its checks passed or one failed, with the digest of its outputs, or it was refused at
an op. -/
inductive RunEnd where
  | passed (digest : BitVec 64)
  | failed (digest : BitVec 64)
  | refusedAt (op status : Nat)
  deriving DecidableEq, Repr

/-- What a replay run has computed, ready to take effect: the pick with its held outputs, and the tile's state after it. -/
structure Ran where
  pick : Pick
  store : Sparse Byte
  sets : Sparse (Option TableSet)
  segs : Sparse Segment
  base : Nat
  step : Nat
  carry : Carry
  deriving DecidableEq, Repr

/-- A replay run that has ended: its tile, its serial, how it ended, and what it computed when it was not refused. -/
structure Run where
  tile : Nat
  serial : Nat
  fin : RunEnd
  ran : Option Ran
  deriving DecidableEq, Repr

/-- The answer to a GET of a replay run: the run's serial, op and destination, status, data. -/
structure GotData where
  serial : Nat
  op : Nat
  addr : Nat
  status : Nat
  data : List Byte
  deriving DecidableEq, Repr

/-- A suspect pick being resolved (R263 to R266): the pick as it was cut, the first tile, the runs under way by tile and serial,
the runs ended so far, what the runs' GETs brought. -/
structure Replay where
  pick : Pick
  first : Nat
  on : List (Nat × Nat)
  runs : List Run
  got : List GotData
  deriving DecidableEq, Repr

/-- In-place lines of an abandoned pick still to be restored from write-aside (10 R304): its context, the bytes its reservation
holds, the copies left. -/
structure Undo where
  ctx : Nat
  space : Nat
  lines : List (Nat × Nat × List Byte)
  deriving DecidableEq, Repr

/-- A logical tile: slots, in round-robin order, and queue (R301), store, table sets, committed sequencer state (R79, R97),
overflow counters (R130), running pick, suspect pick; the P8 context whose state the store holds and since when (R76);
since when it waits; a restore from write-aside that waits. -/
structure LTile where
  slots : List Slot
  queue : List Slot
  store : Sparse Byte
  sets : Sparse (Option TableSet)
  segs : Sparse Segment
  base : Nat
  step : Nat
  serial : Nat
  sat : Nat
  nanint : Nat
  pick : Option Pick
  replay : Option Replay
  cur : Nat
  since : Nat
  waitFrom : Option Nat
  undo : Option Undo
  deriving DecidableEq, Repr

def LTile.reset : LTile :=
  { slots := [], queue := [], store := [], sets := [], segs := [], base := 0, step := 0, serial := 0,
    sat := 0, nanint := 0, pick := none, replay := none, cur := 0, since := 0, waitFrom := none, undo := none }

/-- What a P8 context's save area holds of a logical tile beside the bytes of the working area (R76): its table sets and committed
sequencer state, which lie in the 64 KiB of the image that the system area takes. -/
structure SavedTile where
  sets : Sparse (Option TableSet)
  segs : Sparse Segment
  base : Nat
  step : Nat
  deriving DecidableEq, Repr

/-- Stage balance of a partition (R148): the last stamp and the up to 16 latest durations, latest first. -/
structure MbPart where
  origin : Option Nat
  durations : List Nat
  deriving DecidableEq, Repr

/-- The tiles: map from logical to physical (R77), none when unbacked; state code of each physical tile (Table 03-4);
logical tiles; save areas by P8 context × 1,024 + tile; stage balance; write-aside bytes in use by context (R305); stamps of
suspect picks by physical tile (R265); tiles due for test or fencing at their boundary. -/
structure Tiles where
  map : Sparse (Option Nat)
  phys : Sparse Nat
  logical : Sparse LTile
  saved : Sparse (Option SavedTile)
  mb : Sparse MbPart
  aside : Sparse Nat
  suspects : Sparse (List Nat)
  leaving : Sparse Nat
  deriving DecidableEq, Repr

def Tiles.reset : Tiles :=
  { map := [], phys := [], logical := [], saved := [], mb := [], aside := [], suspects := [], leaving := [] }

/-! ### Weft (02) -/

/-- What became of a picture that Weft has tried to decode (R47): dropped, decoded as a reference, kept. -/
inductive PicOut where
  | dropped | decoded | kept (pic : Picture)
  deriving DecidableEq, Repr

/-- An entry of a sequence record (Table 02-7), with the padded tokens and the half its panels lie in. -/
structure SeqEntry where
  sample : Nat
  owner : Nat
  key : Nat
  omitted : Nat
  vtokens : Nat
  atokens : Nat
  pad : Nat
  offset : Nat
  panels : Nat
  half : Nat
  deriving DecidableEq, Repr

/-- How a sample stands: fetched and decoded, waiting for its space, ended with a status other than `OK`, in the window. -/
inductive SampleState where
  | decoding | ready | ended (code : Nat) | placed (e : SeqEntry)
  deriving DecidableEq, Repr

/-- A sample of the epoch in effect: its descriptor, chunks authenticated and the container stream they hold (02 R34), what its
headers say, pictures by decode index, audio frames (none when dropped, else per-channel FP32 samples). -/
structure Sample where
  ring : Nat
  seq : Nat
  desc : RingDesc
  chunks : Nat
  stream : List Byte
  facts : Option StreamFacts
  pics : List (Nat × PicOut)
  audio : List (Nat × Option (List (List Nat)))
  st : SampleState
  deriving DecidableEq, Repr

/-- An accepted epoch (R36, R37): whether it is in effect, its snapshots, the window filling or to fill next in emission
order, bytes used in its half, samples, the packer's place (window, position), the open sequence, sequences closed. -/
structure WfEpoch where
  serial : Nat
  ring : Nat
  desc : RingDesc
  active : Bool
  profiles : List Nat
  fir2 : List Nat
  fir3 : List Nat
  base : Nat
  halfBytes : Nat
  work : Nat
  firstHalf : Nat
  fill : Nat
  filling : Bool
  used : Nat
  samples : Sparse (Option Sample)
  pj : Nat
  pi : Nat
  cur : List SeqEntry
  tokens : Nat
  k : Nat
  finished : Bool
  deriving DecidableEq, Repr

/-- A sequence ready and not retired: the value of the retire fence that frees it, owner tags of its entries, halves that
hold its samples. -/
structure SeqOut where
  fence : Nat
  value : Nat
  owners : List Nat
  halves : List Nat
  deriving DecidableEq, Repr

/-- Weft of a partition: ingest ring, epochs from the one in effect on, outstanding sequences, the latest window of each
half (epoch serial, window), the half that the next window fills, epochs accepted, since when the packer
waits. -/
structure WfPart where
  ingest : Option Nat
  epochs : List WfEpoch
  out : List SeqOut
  half0 : Option (Nat × Nat)
  half1 : Option (Nat × Nat)
  nextHalf : Nat
  serial : Nat
  waitFrom : Option Nat
  deriving DecidableEq, Repr

def WfPart.reset : WfPart :=
  { ingest := none, epochs := [], out := [], half0 := none, half1 := none, nextHalf := 0, serial := 0, waitFrom := none }


/-! ### Batten (06) -/

/-- A stream slot of the update record (Table 06-4). -/
structure StreamSlot where
  addr : Nat
  key : Nat
  fmt : Nat
  role : Nat
  bsz : Nat
  deriving DecidableEq, Repr

/-- The norm gate of a descriptor (R158): not reached, passed, the step skipped. -/
inductive Gate where
  | waiting | passed | skipped
  deriving DecidableEq, Repr

/-- A store of a run to a slot (R164): its element as stored, whether it saturated, whether it stored a NaN. -/
structure SlotStore where
  slot : Nat
  bits : Nat
  sat : Bool
  nan : Bool
  deriving DecidableEq, Repr

/-- A run of the update program (R161): the element within its block, the next instruction, f0–f15, p0–p3, stores in order. -/
structure ProgRun where
  el : Nat
  pc : Nat
  f : List FV
  p : List Bool
  stores : List SlotStore
  deriving DecidableEq, Repr

/-- The update block a Batten has read and not finished (R168): its slots' panels, the runs ended, the run in hand. -/
structure Hand where
  block : Nat
  data : List (List Byte)
  ran : List (Nat × List SlotStore)
  run : Option ProgRun
  deriving DecidableEq, Repr

/-- A block whose results have passed the spot check: new panels of the logged slots and of the derived slots, with slot,
address and key index; its log sequence number once sealed; overflow counts. -/
structure BlockOut where
  block : Nat
  seq : Nat
  stored : List (Nat × Nat × Nat × List Byte)
  derived : List (Nat × Nat × Nat × List Byte)
  sat : Nat
  nan : Nat
  deriving DecidableEq, Repr

/-- An `UPDATE` in progress. `taken` lists the blocks that a Batten has begun, `finished` those wholly written. -/
structure Update where
  ring : Nat
  seq : Nat
  ctx : Nat
  desc : RingDesc
  slots : List StreamSlot
  consts : List Nat
  prog : List Nat
  mask : List Byte
  gate : Gate
  clip : Nat
  norm : Nat
  taken : List Nat
  finished : List Nat
  stash : Bool
  stashFrom : Option Nat
  nanNoted : Bool
  deriving DecidableEq, Repr

/-- A Batten: whether its log has been looked at since it started with it (R172), whether the payloads of its sealed entries
are in place and the rest of the recovery waits for `STASH_FENCE` (R174), the block in hand, blocks checked and not
sealed, blocks sealed whose working copy is not written. -/
structure Batten where
  started : Bool
  placed : Bool
  hand : Option Hand
  checked : List BlockOut
  logged : List BlockOut
  deriving DecidableEq, Repr

def Batten.reset : Batten := { started := false, placed := false, hand := none, checked := [], logged := [] }

/-- Batten's state of a partition: the `UPDATE` in progress, and fence, value and step of the latest step's commit. -/
structure BtPart where
  update : Option Update
  commit : Option (Nat × Nat × Nat)
  deriving DecidableEq, Repr

def BtPart.reset : BtPart := { update := none, commit := none }


/-! ### Shuttle and Reed (07) -/

inductive PortState where
  | down | training | up | quarantined | fenced
  deriving DecidableEq, Repr

/-- A link port (Table 07-12): state, lanes in use, cable code, partner, neighbour seen, training phases completed, stamp
of the last frame received, management link key agreed, frame counters, stamp from which training may start again. -/
structure Port where
  st : PortState
  lanes : Nat
  cable : Nat
  partner : Nat
  seen : Option (Nat × Nat)
  phase : Nat
  lastFrame : Nat
  lastSent : Nat
  mgmtKey : Nat
  keyed : Bool
  txCtr : Nat
  rxCtr : Option Nat
  retryAt : Option Nat
  deriving DecidableEq, Repr

def Port.reset : Port :=
  { st := .down, lanes := 0, cable := 0, partner := 0, seen := none, phase := 0, lastFrame := 0, lastSent := 0,
    mgmtKey := 0, keyed := false, txCtr := 0, rxCtr := none, retryAt := none }

/-- A pick of a remote tile as the receiver knows it (R196 to R199): source, tile, serial, channels whose COMMIT has
arrived, SIGNALs held in order. -/
structure PickRx where
  src : Nat
  tile : Nat
  serial : Nat
  chans : List Nat
  sigs : List (Nat × Nat)
  deriving DecidableEq, Repr

/-- State of a granule of a zone (R203). -/
inductive Granule where
  | empty | held (tile serial : Nat) | committed
  deriving DecidableEq, Repr

/-- An open landing group (Table 07-7). `gran` is keyed by (source index × units + unit) × 256 + granule. -/
structure LzGroup where
  ctx : Nat
  target : Nat
  tkey : Nat
  units : Nat
  mode : Nat
  fence : Nat
  fval : Nat
  zone : Nat
  zkey : Nat
  sources : List Nat
  gran : Sparse Granule
  merged : List Nat
  deriving DecidableEq, Repr

/-- A GET sent and not answered: its counter, the tile, the part's slot, the destination and length in bytes, and whether
the destination is the tile's store. -/
structure RGet where
  ctr : Nat
  tile : Nat
  serial : Nat
  store : Bool
  addr : Nat
  key : Nat
  len : Nat
  ring : Nat
  seq : Nat
  op : Nat
  deriving DecidableEq, Repr

/-- Sender and receiver side of a partition (R191, R195, R203, R215, R317). `cseq` is keyed by destination × 16 + channel
and holds the next number; `ingress` by source × 16 + channel and holds the last number and epoch accepted. -/
structure ShPart where
  ctr : Nat
  epoch : Nat
  cseq : Sparse Nat
  ingress : Sparse (Option (Nat × Nat))
  floor : Nat
  rx : List PickRx
  groups : List LzGroup
  rgets : List RGet
  deriving DecidableEq, Repr

def ShPart.reset : ShPart :=
  { ctr := 0, epoch := 0, cseq := [], ingress := [], floor := 0, rx := [], groups := [], rgets := [] }

/-- Reed and the Shuttles: ports, partitions, messages sent on the links in order (port encoding, or 8 for the way inside
the device), messages held for want of a usable next hop, and messages that wait for their port's budget (10 R321, R322), each with
the partition that sends it, none for transit. -/
structure Shuttle where
  ports : Sparse Port
  parts : Sparse ShPart
  tx : List (Nat × Msg)
  held : List (Option Nat × Msg)
  queue : List (Nat × Option Nat × Msg)
  deriving DecidableEq, Repr

/-! ### Pleach (08) -/

/-- A source range (Table 08-1). -/
structure SrcRange where
  addr : Nat
  key : Nat
  units : Nat
  tensor : Nat
  elemBase : Nat
  fmt : Nat
  cols : Nat
  deriving DecidableEq, Repr

/-- A generation slot (R230, R235): step, cut, counted, members whose READY and whose COMMIT is held, own READYs sent. -/
structure Gen where
  step : Nat
  valid : Bool
  counted : Bool
  ready : List Nat
  commit : List Nat
  sent : Bool
  /-- `PL_CUTS` as this generation's cut left it: the `GEN` of its records (08 Table 08-5) -/
  cuts : Nat
  deriving DecidableEq, Repr

def Gen.reset : Gen := { step := 0, valid := false, counted := false, ready := [], commit := [], sent := false, cuts := 0 }

/-- A `RESTORE` in progress (R239): ring, sequence number, slot restored (2: a rebuilding spare, either), step, units of the
image not yet written, fence and value, the lost member, whether this is the spare that takes its place. -/
structure PlOp where
  ring : Nat
  seq : Nat
  slot : Nat
  step : Nat
  left : List Nat
  fence : Nat
  fval : Nat
  lost : Option Nat
  rebuild : Bool
  deriving DecidableEq, Repr

/-- Pleach of one partition. `cur` is the slot being copied, `taken` its rows taken. `evaluated` is the last step whose
triggers were evaluated, `owed` a step-count trigger deferred, `kept` the generation kept after a restore (R242);
`msStep` milliseconds of stepping since the last cut; `cutAt`, `prevCut`
stamps of the last two cuts. -/
structure PlPart where
  armed : Bool
  srcs : List SrcRange
  gen0 : Gen
  gen1 : Gen
  cur : Option Nat
  taken : List Nat
  /-- counters of the stripe messages of the generation -/
  stripes : List (Nat × Nat)
  evaluated : Option Nat
  owed : Bool
  kept : Option Nat
  msStep : Nat
  cutAt : Nat
  prevCut : Option Nat
  op : Option PlOp
  /-- member whose position a spare took over since a generation last counted (R244) -/
  tookOver : Option Nat
  deriving DecidableEq, Repr

def PlPart.reset : PlPart :=
  { armed := false, srcs := [], gen0 := Gen.reset, gen1 := Gen.reset, cur := none, taken := [], stripes := [], evaluated := none,
    owed := false, kept := none, msStep := 0, cutAt := 0, prevCut := none, op := none, tookOver := none }

/-- The three copies of a register (09 R269). One that holds no hardened field has its copies equal. -/
structure Copies where
  a : Word64
  b : Word64
  c : Word64
  deriving DecidableEq, Repr

def Copies.of (v : Word64) : Copies := { a := v, b := v, c := v }

/-- Every read takes the bitwise majority (09 R269). -/
def Copies.read (x : Copies) : Word64 := (x.a &&& x.b) ||| (x.a &&& x.c) ||| (x.b &&& x.c)

/-- Everything the spec gives the machine beside its fuses and its command queue. `regs` is the register file of BAR0,
keyed by byte offset; a status field that mirrors one of the other fields here is computed by the register view. -/
structure Dev where
  /-- `PV_TIME` in picoseconds (15 R452) -/
  timePs : Nat
  regs : Sparse Copies
  /-- plaintext of the populated lines, by device address (12 R351) -/
  mem : Sparse Byte
  /-- a line not listed is as its region's opening left it (12 R360) -/
  lines : Sparse (Option LineMeta)
  regions : Sparse Region
  keys : Sparse KeySlot
  /-- lines whose counters each Selvedge caches (12 R354), as runs of first line and count, latest run first -/
  ctrCache : Sparse (List (Nat × Nat))
  sv : Selvedge
  hostMem : Sparse Byte
  log : FaultLog
  units : Sparse UnitRec
  msix : Sparse MsixEntry
  msixPend : List Nat
  /-- interrupts sent, latest first -/
  irqs : List Nat
  rings : Sparse Ring
  ctxs : Sparse Ctx
  fences : Sparse Fence
  dispatches : List Dispatch
  staging : Sparse Staging
  /-- regulator budgets used in the current window (10 R321) -/
  used : Sparse Nat
  weft : Sparse WfPart
  tiles : Tiles
  battens : Sparse Batten
  btParts : Sparse BtPart
  shuttle : Shuttle
  pleach : Sparse PlPart
  rtp : Rtp
  life : Life
  power : Power
  cxl : Cxl
  tap : Tap
  /-- contexts against which a C3 entry was recorded in this step (10 R316) -/
  stopsDue : List Nat
  /-- fence signals applied in this step whose consequences are due: fence, value (10 R314) -/
  sigsDue : List (Nat × Nat)
  /-- a C4 entry was recorded in this step (09 Table 09-5) -/
  fatalDue : Bool
  /-- free values drawn so far: the model's own field -/
  draws : Nat
  deriving DecidableEq, Repr

def FaultLog.reset : FaultLog :=
  { entries := [], pinned := 0, next := 64, seq := 0, uncleared := 0, lostTop := 0 }

def Rtp.reset : Rtp :=
  { rsPresent := true, tampered := false, vbatLow := false, nextEpoch := [], parts := [], revoked := [],
    asm := [], cmd := none, busy := false, status := 0, replyLen := 0, more := [], drawn := 0, dieKeyGen := 0,
    spdmVersion := false, spdmNegotiated := false, spdmKex := false, spdmSession := false, spdmOut := [],
    relayed := [] }

/-- The image in flash when the model starts: one complete image, version 1, SVN 0 (DESIGN CHOICE, log 5). -/
def FwImage.first : FwImage :=
  { version := 1, svn := 0, measurement := 0, readable := true, hashOk := true, sig := { ed := true, mldsa := true } }

def Life.reset : Life :=
  { cert := true, eolArm := none, nonce := none, rights := 0, invasive := false, notAfter := 0, fwState := 0,
    fwBytes := 0, fwEnd := 0, image := some FwImage.first, running := none, spare := 252, log := [], logFirst := 0,
    recovery := false, testSecret := false, tamperNote := none }

def Power.reset : Power :=
  { st := .bringup, before := .bringup, booted := false, d3 := false, perst := false, fatal := false, loopMhz := 2500,
    tempMhz := 2500, idle16 := 0, isOver := false, tripped := false, tripWindow := 0, thermIn := false, hot := [],
    sampleSum := 0, sampleCount := 0, sampleNo := 0, thermStep := 0, energy := 0, lastOver := false, refclk := true,
    edge := none, edges := 0, slewing := false, timeSet := none, backward := [], calPs := 0, resetDue := none,
    resetNote := some (0, false, false), recover := [], stepBufs := [], notReady := [], uart := false, ticks := 0 }

def Cxl.reset : Cxl :=
  { up := false, width := 0, rate := 0, flit256 := false, cache := false, ideIo := [], ideCache := [], lines := [] }

def Tap.reset : Tap :=
  { ir := 0, dr := [], bscan := [], drive := [], extest := false, halted := [], scan := [], trace := [], full := false,
    dropped := 0 }

/-- The device right after a power-on reset, Privet not yet answering: every table at its default (15 Table 15-2). -/
def Dev.reset : Dev :=
  { timePs := 0, regs := [], mem := [], lines := [], regions := [], keys := [], ctrCache := [], sv := Selvedge.reset, hostMem := [],
    log := FaultLog.reset, units := [], msix := [], msixPend := [], irqs := [], rings := [], ctxs := [], fences := [],
    dispatches := [], staging := [], used := [],
    weft := [], tiles := Tiles.reset, battens := [], btParts := [],
    shuttle := { ports := [], parts := [], tx := [], held := [], queue := [] }, pleach := [], rtp := Rtp.reset, life := Life.reset, power := Power.reset,
    cxl := Cxl.reset, tap := Tap.reset, stopsDue := [], sigsDue := [], fatalDue := false, draws := 0 }

/-- The state of the block: the device, its one-time fuses, and the commands waiting, first in first out. -/
structure State where
  dev : Dev
  fuses : Fuses
  pending : List Instr
  deriving DecidableEq, Repr

/-- The machine right after reset: a device in PRODUCTION (DESIGN CHOICE, log 5), queue empty. -/
def State.reset : State :=
  { dev := Dev.reset, fuses := { lc := .production, svn := 0 }, pending := [] }

end Sys2Proof.Machine
end

