-- ==== Sys2Proof/Machine/Regs.lean ====
section
/-! DEFINITION. The registers of BAR0: every row of the register tables of chapters 02, 03, 05 to 15 with its offset,
strides, width and fields, and the reset values that are not 0. The comment over a row gives the register's name. -/

namespace Sys2Proof.Machine

/-- Access codes (00 Table 00-6). -/
inductive Acc where
  | ro | rw | rw1c | wo | rwl
  deriving DecidableEq, Repr

/-- A field: lowest bit, width, access code, and the encodings that are not reserved, from `least` to `most`. -/
structure RegField where
  lo : Nat
  w : Nat
  acc : Acc
  least : Nat
  most : Nat
  deriving DecidableEq, Repr

/-- A register or an array of registers: `n1` by `n2` of them, at `base + i * s1 + j * s2`, `bytes` wide. -/
structure RegSpec where
  base : Nat
  n1 : Nat
  s1 : Nat
  n2 : Nat
  s2 : Nat
  bytes : Nat
  fields : List RegField
  deriving DecidableEq, Repr

def regsPv : List RegSpec := [
  -- PV_ID
  ⟨0x00000, 1, 0x0, 1, 0x0, 4, [⟨0, 16, .ro, 0, 65535⟩, ⟨16, 16, .ro, 0, 65535⟩]⟩,
  -- PV_REV
  ⟨0x00004, 1, 0x0, 1, 0x0, 4, [⟨0, 8, .ro, 0, 255⟩]⟩,
  -- PV_SERIAL
  ⟨0x00008, 1, 0x0, 1, 0x0, 8, [⟨0, 64, .ro, 0, 2 ^ 64 - 1⟩]⟩,
  -- PV_FW
  ⟨0x00010, 1, 0x0, 1, 0x0, 8, [⟨0, 32, .ro, 0, 2 ^ 32 - 1⟩, ⟨32, 32, .ro, 0, 2 ^ 32 - 1⟩]⟩,
  -- PV_STATE
  ⟨0x00018, 1, 0x0, 1, 0x0, 4, [⟨0, 3, .ro, 0, 7⟩, ⟨3, 3, .ro, 0, 7⟩, ⟨6, 1, .ro, 0, 1⟩, ⟨7, 1, .ro, 0, 1⟩, ⟨8, 1, .ro, 0, 1⟩]⟩,
  -- PV_CONFIG
  ⟨0x0001C, 1, 0x0, 1, 0x0, 4, [⟨0, 2, .rw, 0, 2⟩, ⟨8, 1, .rw1c, 0, 1⟩]⟩,
  -- PV_LINK
  ⟨0x00020, 1, 0x0, 1, 0x0, 4, [⟨0, 4, .ro, 0, 15⟩, ⟨4, 4, .ro, 0, 15⟩, ⟨8, 1, .ro, 0, 1⟩, ⟨9, 1, .ro, 0, 1⟩, ⟨10, 1, .ro, 0, 1⟩, ⟨11, 1, .ro, 0, 1⟩]⟩,
  -- PV_TIME
  ⟨0x00028, 1, 0x0, 1, 0x0, 8, [⟨0, 64, .ro, 0, 2 ^ 64 - 1⟩]⟩,
  -- PV_SCRATCH
  ⟨0x00030, 1, 0x0, 1, 0x0, 8, [⟨0, 64, .rw, 0, 2 ^ 64 - 1⟩]⟩,
  -- PV_PWR_CTRL
  ⟨0x00040, 1, 0x0, 1, 0x0, 4, [⟨0, 12, .rw, 1600, 3200⟩, ⟨12, 1, .rw, 0, 1⟩]⟩,
  -- PV_PWR_STATUS
  ⟨0x00044, 1, 0x0, 1, 0x0, 4, [⟨0, 12, .ro, 0, 4095⟩, ⟨12, 4, .ro, 0, 15⟩, ⟨16, 1, .ro, 0, 1⟩, ⟨17, 1, .ro, 0, 1⟩, ⟨18, 1, .ro, 0, 1⟩, ⟨19, 1, .ro, 0, 1⟩, ⟨20, 1, .rw1c, 0, 1⟩]⟩,
  -- PV_INPUT
  ⟨0x00048, 1, 0x0, 1, 0x0, 4, [⟨0, 16, .ro, 0, 65535⟩, ⟨16, 16, .ro, 0, 65535⟩]⟩,
  -- PV_TEMP
  ⟨0x0004C, 1, 0x0, 1, 0x0, 4, [⟨0, 8, .ro, 0, 255⟩, ⟨8, 8, .ro, 0, 255⟩, ⟨16, 8, .ro, 0, 255⟩]⟩,
  -- PV_THROTTLE_NS
  ⟨0x00050, 1, 0x0, 1, 0x0, 8, [⟨0, 64, .ro, 0, 2 ^ 64 - 1⟩]⟩,
  -- PV_RESET
  ⟨0x00058, 1, 0x0, 1, 0x0, 4, [⟨0, 1, .wo, 0, 1⟩, ⟨1, 1, .wo, 0, 1⟩]⟩,
  -- PV_RESET_CAUSE
  ⟨0x0005C, 1, 0x0, 1, 0x0, 4, [⟨0, 4, .ro, 0, 15⟩, ⟨4, 1, .ro, 0, 1⟩]⟩,
  -- PV_SYNC_CTRL
  ⟨0x00060, 1, 0x0, 1, 0x0, 4, [⟨0, 1, .rw, 0, 1⟩, ⟨1, 1, .rw, 0, 1⟩]⟩,
  -- PV_SYNC_STATUS
  ⟨0x00064, 1, 0x0, 1, 0x0, 4, [⟨0, 1, .ro, 0, 1⟩, ⟨1, 1, .rw1c, 0, 1⟩, ⟨2, 1, .rw1c, 0, 1⟩, ⟨16, 16, .ro, 0, 65535⟩]⟩,
  -- PV_TIME_SET
  ⟨0x00068, 1, 0x0, 1, 0x0, 8, [⟨0, 64, .rw, 0, 2 ^ 64 - 1⟩]⟩,
  -- PV_SYNC_CAPTURE
  ⟨0x00070, 1, 0x0, 1, 0x0, 8, [⟨0, 64, .ro, 0, 2 ^ 64 - 1⟩]⟩,
  -- PV_CALENDAR
  ⟨0x00078, 1, 0x0, 1, 0x0, 8, [⟨0, 64, .ro, 0, 2 ^ 64 - 1⟩]⟩,
  -- PV_CAL_ADJUST
  ⟨0x00080, 1, 0x0, 1, 0x0, 8, [⟨0, 64, .wo, 0, 2 ^ 64 - 1⟩]⟩,
  -- PV_AUX
  ⟨0x00088, 1, 0x0, 1, 0x0, 4, [⟨0, 1, .rw, 0, 1⟩, ⟨1, 1, .rw1c, 0, 1⟩]⟩,
  -- PV_LIFE_ON
  ⟨0x00090, 1, 0x0, 1, 0x0, 8, [⟨0, 64, .ro, 0, 2 ^ 64 - 1⟩]⟩,
  -- PV_LIFE_RESETS
  ⟨0x00098, 1, 0x0, 1, 0x0, 8, [⟨0, 32, .ro, 0, 2 ^ 32 - 1⟩, ⟨32, 32, .ro, 0, 2 ^ 32 - 1⟩]⟩,
  -- PV_LIFE_ENERGY
  ⟨0x000A0, 1, 0x0, 1, 0x0, 8, [⟨0, 64, .ro, 0, 2 ^ 64 - 1⟩]⟩,
  -- PV_LIFE_HOT
  ⟨0x000A8, 1, 0x0, 1, 0x0, 8, [⟨0, 64, .ro, 0, 2 ^ 64 - 1⟩]⟩]

def regsHx : List RegSpec := [
  -- HX_CTRL
  ⟨0x04000, 1, 0x0, 1, 0x0, 4, [⟨0, 1, .rwl, 0, 1⟩, ⟨1, 1, .rw, 0, 1⟩, ⟨2, 1, .rwl, 0, 1⟩, ⟨3, 1, .rwl, 0, 1⟩]⟩,
  -- HX_TRANSIT
  ⟨0x04004, 1, 0x0, 1, 0x0, 4, [⟨0, 6, .rwl, 0, 32⟩]⟩,
  -- HX_P8_QUANTUM
  ⟨0x04008, 1, 0x0, 1, 0x0, 4, [⟨0, 16, .rw, 0, 65535⟩]⟩,
  -- HX_P8_TABLE
  ⟨0x04010, 1, 0x0, 1, 0x0, 8, [⟨21, 20, .rwl, 0, 2 ^ 20 - 1⟩, ⟨41, 12, .rwl, 0, 4095⟩]⟩,
  -- HX_P8_CMD
  ⟨0x04018, 1, 0x0, 1, 0x0, 8, [⟨0, 12, .wo, 0, 4095⟩, ⟨12, 3, .wo, 0, 4⟩, ⟨15, 49, .wo, 0, 2 ^ 49 - 1⟩]⟩,
  -- HX_P8_RESIDENT
  ⟨0x04020, 1, 0x0, 1, 0x0, 4, [⟨0, 6, .ro, 0, 63⟩]⟩,
  -- HX_CTX_CTRL
  ⟨0x04100, 4, 0x100, 1, 0x0, 4, [⟨0, 1, .wo, 0, 1⟩, ⟨1, 1, .wo, 0, 1⟩, ⟨2, 1, .wo, 0, 1⟩, ⟨3, 1, .wo, 0, 1⟩, ⟨4, 3, .ro, 0, 7⟩]⟩,
  -- HX_CTX_SEED
  ⟨0x04108, 4, 0x100, 1, 0x0, 8, [⟨0, 64, .rw, 0, 2 ^ 64 - 1⟩]⟩,
  -- HX_CTX_JOB
  ⟨0x04110, 4, 0x100, 1, 0x0, 4, [⟨0, 12, .rw, 0, 4095⟩]⟩,
  -- HX_CTX_EPOCH
  ⟨0x04118, 4, 0x100, 1, 0x0, 8, [⟨0, 32, .rw, 0, 2 ^ 32 - 1⟩]⟩,
  -- HX_JOURNAL
  ⟨0x04120, 4, 0x100, 1, 0x0, 8, [⟨21, 20, .rw, 0, 2 ^ 20 - 1⟩, ⟨41, 12, .rw, 0, 4095⟩]⟩,
  -- HX_WASIDE
  ⟨0x04128, 4, 0x100, 1, 0x0, 8, [⟨21, 20, .rw, 0, 2 ^ 20 - 1⟩, ⟨41, 12, .rw, 0, 4095⟩, ⟨53, 7, .rw, 0, 64⟩]⟩,
  -- HX_SHARE
  ⟨0x04130, 4, 0x100, 1, 0x0, 4, [⟨0, 7, .rwl, 0, 64⟩, ⟨8, 7, .rwl, 0, 64⟩]⟩,
  -- HX_ACC[i]
  ⟨0x04140, 4, 0x100, 8, 0x8, 8, [⟨0, 64, .ro, 0, 2 ^ 64 - 1⟩]⟩,
  -- HX_STALE
  ⟨0x04180, 4, 0x100, 1, 0x0, 8, [⟨0, 64, .ro, 0, 2 ^ 64 - 1⟩]⟩,
  -- HX_WA_WAIT_NS
  ⟨0x04188, 4, 0x100, 1, 0x0, 8, [⟨0, 64, .ro, 0, 2 ^ 64 - 1⟩]⟩,
  -- HX_STG_HOST
  ⟨0x041C0, 4, 0x100, 2, 0x20, 8, [⟨6, 58, .rw, 0, 2 ^ 58 - 1⟩]⟩,
  -- HX_STG_DEV
  ⟨0x041C8, 4, 0x100, 2, 0x20, 8, [⟨6, 35, .rw, 0, 2 ^ 35 - 1⟩]⟩,
  -- HX_STG_CTRL
  ⟨0x041D0, 4, 0x100, 2, 0x20, 8, [⟨0, 24, .rw, 0, 2 ^ 24 - 1⟩, ⟨24, 1, .rw, 0, 1⟩, ⟨25, 1, .rw, 0, 1⟩, ⟨26, 14, .rw, 0, 16383⟩, ⟨40, 1, .wo, 0, 1⟩, ⟨41, 2, .ro, 0, 3⟩, ⟨43, 8, .ro, 0, 255⟩]⟩,
  -- HX_STG_COUNT
  ⟨0x041D8, 4, 0x100, 2, 0x20, 8, [⟨0, 64, .ro, 0, 2 ^ 64 - 1⟩]⟩,
  -- HX_RING_BASE[r]
  ⟨0x04800, 4, 0x800, 64, 0x20, 8, [⟨0, 4, .rw, 0, 10⟩, ⟨4, 2, .rw, 0, 3⟩, ⟨12, 52, .rw, 0, 2 ^ 52 - 1⟩]⟩,
  -- HX_RING_DOORBELL[r]
  ⟨0x04808, 4, 0x800, 64, 0x20, 8, [⟨6, 58, .rw, 0, 2 ^ 58 - 1⟩]⟩,
  -- HX_RING_RECORDS[r]
  ⟨0x04810, 4, 0x800, 64, 0x20, 8, [⟨12, 52, .rw, 0, 2 ^ 52 - 1⟩]⟩,
  -- HX_RING_CTRL[r]
  ⟨0x04818, 4, 0x800, 64, 0x20, 4, [⟨0, 1, .rw, 0, 1⟩, ⟨1, 2, .ro, 0, 3⟩, ⟨16, 11, .rw, 0, 2047⟩]⟩]

def regsCp : List RegSpec := [
  -- CP_CTRL
  ⟨0x08000, 1, 0x0, 1, 0x0, 4, [⟨0, 1, .rwl, 0, 1⟩, ⟨1, 1, .rw, 0, 1⟩]⟩,
  -- CP_STATUS
  ⟨0x08004, 1, 0x0, 1, 0x0, 4, [⟨0, 3, .ro, 0, 7⟩, ⟨3, 1, .ro, 0, 1⟩, ⟨4, 1, .ro, 0, 1⟩]⟩,
  -- CP_UNCLEARED
  ⟨0x08008, 1, 0x0, 1, 0x0, 4, [⟨0, 16, .ro, 0, 65535⟩]⟩,
  -- CP_LOG_CTRL
  ⟨0x0800C, 1, 0x0, 1, 0x0, 4, [⟨0, 1, .wo, 0, 1⟩, ⟨1, 1, .wo, 0, 1⟩]⟩,
  -- CP_CLEAR
  ⟨0x08010, 1, 0x0, 1, 0x0, 4, [⟨0, 10, .wo, 0, 1023⟩]⟩,
  -- CP_LOG_TOTAL
  ⟨0x08018, 1, 0x0, 1, 0x0, 8, [⟨0, 64, .ro, 0, 2 ^ 64 - 1⟩]⟩,
  -- CP_LOG_NEXT
  ⟨0x08020, 1, 0x0, 1, 0x0, 4, [⟨0, 10, .ro, 0, 1023⟩, ⟨10, 1, .ro, 0, 1⟩]⟩,
  -- CP_LOG_SEL
  ⟨0x08028, 1, 0x0, 1, 0x0, 4, [⟨0, 10, .rw, 0, 1023⟩]⟩,
  -- CP_LOG_ENTRY[w]
  ⟨0x08030, 4, 0x8, 1, 0x0, 8, [⟨0, 64, .ro, 0, 2 ^ 64 - 1⟩]⟩,
  -- CP_INJECT
  ⟨0x08060, 1, 0x0, 1, 0x0, 8, [⟨0, 4, .rw, 0, 10⟩, ⟨4, 8, .rw, 0, 13⟩, ⟨12, 16, .rw, 0, 65535⟩, ⟨28, 5, .rw, 0, 31⟩, ⟨63, 1, .rw, 0, 1⟩]⟩,
  -- CP_IFT_DONE
  ⟨0x08068, 1, 0x0, 1, 0x0, 8, [⟨0, 64, .ro, 0, 2 ^ 64 - 1⟩]⟩,
  -- CP_IFT_SWAPS
  ⟨0x08070, 1, 0x0, 1, 0x0, 8, [⟨0, 64, .ro, 0, 2 ^ 64 - 1⟩]⟩,
  -- CP_IFT_FAIL
  ⟨0x08078, 1, 0x0, 1, 0x0, 8, [⟨0, 64, .ro, 0, 2 ^ 64 - 1⟩]⟩,
  -- CP_FENCED
  ⟨0x08080, 1, 0x0, 1, 0x0, 4, [⟨0, 16, .ro, 0, 65535⟩, ⟨16, 4, .ro, 0, 15⟩, ⟨20, 11, .ro, 0, 2047⟩]⟩,
  -- CP_PAIR_BROKEN
  ⟨0x08088, 1, 0x0, 1, 0x0, 8, [⟨0, 64, .ro, 0, 2 ^ 64 - 1⟩]⟩,
  -- CP_SPOT
  ⟨0x08100, 4, 0x80, 1, 0x0, 4, [⟨0, 2, .rw, 0, 2⟩]⟩,
  -- CP_SUSPECT
  ⟨0x08108, 4, 0x80, 1, 0x0, 8, [⟨0, 64, .ro, 0, 2 ^ 64 - 1⟩]⟩,
  -- CP_RESOLVED
  ⟨0x08110, 4, 0x80, 1, 0x0, 8, [⟨0, 64, .ro, 0, 2 ^ 64 - 1⟩]⟩,
  -- CP_UNRESOLVED
  ⟨0x08118, 4, 0x80, 1, 0x0, 8, [⟨0, 64, .ro, 0, 2 ^ 64 - 1⟩]⟩,
  -- CP_UNCHECKED
  ⟨0x08120, 4, 0x80, 1, 0x0, 8, [⟨0, 64, .ro, 0, 2 ^ 64 - 1⟩]⟩,
  -- CP_C1
  ⟨0x08128, 4, 0x80, 1, 0x0, 8, [⟨0, 64, .ro, 0, 2 ^ 64 - 1⟩]⟩,
  -- CP_C2
  ⟨0x08130, 4, 0x80, 1, 0x0, 8, [⟨0, 64, .ro, 0, 2 ^ 64 - 1⟩]⟩,
  -- CP_C3
  ⟨0x08138, 4, 0x80, 1, 0x0, 8, [⟨0, 64, .ro, 0, 2 ^ 64 - 1⟩]⟩,
  -- CP_PLOG_SEL
  ⟨0x08140, 4, 0x80, 1, 0x0, 4, [⟨0, 10, .rw, 0, 1023⟩]⟩,
  -- CP_PLOG_ENTRY[w]
  ⟨0x08148, 4, 0x80, 4, 0x8, 8, [⟨0, 64, .ro, 0, 2 ^ 64 - 1⟩]⟩]

def regsRt : List RegSpec := [
  -- RT_CTRL
  ⟨0x0C000, 1, 0x0, 1, 0x0, 4, [⟨0, 1, .rwl, 0, 1⟩, ⟨1, 1, .rwl, 0, 1⟩, ⟨2, 1, .rw, 0, 1⟩]⟩,
  -- RT_STATUS
  ⟨0x0C004, 1, 0x0, 1, 0x0, 4, [⟨0, 1, .ro, 0, 1⟩, ⟨1, 1, .ro, 0, 1⟩, ⟨2, 1, .ro, 0, 1⟩, ⟨3, 4, .ro, 0, 15⟩]⟩,
  -- RT_CMD
  ⟨0x0C008, 1, 0x0, 1, 0x0, 4, [⟨0, 8, .rw, 0, 255⟩, ⟨8, 1, .rw, 0, 1⟩, ⟨9, 1, .rw, 0, 1⟩, ⟨10, 2, .rw, 0, 3⟩, ⟨12, 14, .rw, 0, 16383⟩, ⟨31, 1, .wo, 0, 1⟩]⟩,
  -- RT_RESULT
  ⟨0x0C00C, 1, 0x0, 1, 0x0, 4, [⟨0, 8, .ro, 0, 255⟩, ⟨8, 14, .ro, 0, 16383⟩, ⟨22, 1, .ro, 0, 1⟩]⟩,
  -- RT_JOB[p]
  ⟨0x0C010, 4, 0x40, 2, 0x8, 8, [⟨0, 64, .ro, 0, 2 ^ 64 - 1⟩]⟩,
  -- RT_MH[p]
  ⟨0x0C020, 4, 0x40, 6, 0x8, 8, [⟨0, 64, .ro, 0, 2 ^ 64 - 1⟩]⟩,
  -- RT_SLOT_SEL
  ⟨0x0C110, 1, 0x0, 1, 0x0, 4, [⟨0, 12, .rw, 0, 4095⟩]⟩,
  -- RT_SLOT_INFO
  ⟨0x0C118, 1, 0x0, 1, 0x0, 8, [⟨0, 3, .ro, 0, 7⟩, ⟨3, 1, .ro, 0, 1⟩, ⟨32, 32, .ro, 0, 2 ^ 32 - 1⟩]⟩,
  -- RT_OWNER_SEL
  ⟨0x0C120, 1, 0x0, 1, 0x0, 4, [⟨0, 8, .rw, 0, 255⟩, ⟨8, 2, .rw, 0, 3⟩]⟩,
  -- RT_OWNER_CTR
  ⟨0x0C128, 1, 0x0, 1, 0x0, 8, [⟨0, 64, .ro, 0, 2 ^ 64 - 1⟩]⟩,
  -- RT_FLOOR[p]
  ⟨0x0C130, 4, 0x8, 1, 0x0, 8, [⟨0, 1, .ro, 0, 1⟩, ⟨1, 40, .ro, 0, 2 ^ 40 - 1⟩, ⟨41, 9, .ro, 0, 511⟩]⟩,
  -- RT_SIG_FAILS
  ⟨0x0C150, 1, 0x0, 1, 0x0, 8, [⟨0, 64, .ro, 0, 2 ^ 64 - 1⟩]⟩,
  -- RT_DEBUG
  ⟨0x0C158, 1, 0x0, 1, 0x0, 8, [⟨0, 16, .ro, 0, 65535⟩, ⟨16, 1, .ro, 0, 1⟩, ⟨32, 32, .ro, 0, 2 ^ 32 - 1⟩]⟩,
  -- RT_FWUPD
  ⟨0x0C160, 1, 0x0, 1, 0x0, 8, [⟨0, 2, .ro, 0, 3⟩, ⟨2, 1, .ro, 0, 1⟩, ⟨3, 6, .ro, 0, 63⟩, ⟨32, 32, .ro, 0, 2 ^ 32 - 1⟩]⟩,
  -- RT_BUF
  ⟨0x0E000, 1024, 0x8, 1, 0x0, 8, [⟨0, 64, .rw, 0, 2 ^ 64 - 1⟩]⟩]

def regsSv : List RegSpec := [
  -- SV_CTRL
  ⟨0x10000, 1, 0x0, 1, 0x0, 4, [⟨0, 1, .rwl, 0, 1⟩, ⟨1, 1, .rw, 0, 1⟩]⟩,
  -- SV_THRESH
  ⟨0x10004, 1, 0x0, 1, 0x0, 4, [⟨0, 16, .rwl, 4096, 61440⟩]⟩,
  -- SV_BG_SHARE
  ⟨0x10008, 1, 0x0, 1, 0x0, 4, [⟨0, 4, .rwl, 1, 8⟩]⟩,
  -- SV_STATUS
  ⟨0x1000C, 1, 0x0, 1, 0x0, 4, [⟨0, 16, .ro, 0, 65535⟩, ⟨16, 1, .ro, 0, 1⟩, ⟨17, 13, .ro, 0, 8191⟩]⟩,
  -- SV_CORRECTED
  ⟨0x10010, 1, 0x0, 1, 0x0, 8, [⟨0, 64, .ro, 0, 2 ^ 64 - 1⟩]⟩,
  -- SV_RETRIED
  ⟨0x10018, 1, 0x0, 1, 0x0, 8, [⟨0, 64, .ro, 0, 2 ^ 64 - 1⟩]⟩,
  -- SV_BAD_ECC
  ⟨0x10020, 1, 0x0, 1, 0x0, 8, [⟨0, 64, .ro, 0, 2 ^ 64 - 1⟩]⟩,
  -- SV_BAD_MAC
  ⟨0x10028, 1, 0x0, 1, 0x0, 8, [⟨0, 64, .ro, 0, 2 ^ 64 - 1⟩]⟩,
  -- SV_REFUSED
  ⟨0x10030, 1, 0x0, 1, 0x0, 8, [⟨0, 64, .ro, 0, 2 ^ 64 - 1⟩]⟩,
  -- SV_STEPS
  ⟨0x10038, 1, 0x0, 1, 0x0, 8, [⟨0, 64, .ro, 0, 2 ^ 64 - 1⟩]⟩,
  -- SV_FORCED
  ⟨0x10040, 1, 0x0, 1, 0x0, 8, [⟨0, 64, .ro, 0, 2 ^ 64 - 1⟩]⟩,
  -- SV_CTR_READS
  ⟨0x10048, 1, 0x0, 1, 0x0, 8, [⟨0, 64, .ro, 0, 2 ^ 64 - 1⟩]⟩,
  -- SV_PATROL
  ⟨0x10050, 1, 0x0, 1, 0x0, 8, [⟨0, 64, .ro, 0, 2 ^ 64 - 1⟩]⟩,
  -- SV_REG_SEL
  ⟨0x10100, 1, 0x0, 1, 0x0, 4, [⟨0, 12, .rw, 0, 4095⟩]⟩,
  -- SV_REG_BASE
  ⟨0x10108, 1, 0x0, 1, 0x0, 8, [⟨21, 20, .rw, 0, 2 ^ 20 - 1⟩]⟩,
  -- SV_REG_SIZE
  ⟨0x10110, 1, 0x0, 1, 0x0, 4, [⟨0, 20, .rw, 0, 2 ^ 20 - 1⟩]⟩,
  -- SV_REG_ATTR
  ⟨0x10118, 1, 0x0, 1, 0x0, 4, [⟨0, 12, .rw, 0, 4095⟩, ⟨12, 1, .rw, 0, 1⟩]⟩,
  -- SV_REG_CMD
  ⟨0x10120, 1, 0x0, 1, 0x0, 4, [⟨0, 2, .wo, 0, 3⟩, ⟨2, 1, .wo, 0, 1⟩, ⟨3, 14, .wo, 0, 16383⟩]⟩,
  -- SV_REG_FVAL
  ⟨0x10128, 1, 0x0, 1, 0x0, 8, [⟨0, 64, .rw, 0, 2 ^ 64 - 1⟩]⟩,
  -- SV_REG_STATE
  ⟨0x10130, 1, 0x0, 1, 0x0, 4, [⟨0, 3, .ro, 0, 7⟩, ⟨3, 1, .ro, 0, 1⟩, ⟨4, 16, .ro, 0, 65535⟩]⟩,
  -- SV_REG_EPOCH
  ⟨0x10138, 1, 0x0, 1, 0x0, 8, [⟨0, 32, .ro, 0, 2 ^ 32 - 1⟩, ⟨32, 32, .ro, 0, 2 ^ 32 - 1⟩]⟩,
  -- SV_REG_BAD
  ⟨0x10140, 1, 0x0, 1, 0x0, 8, [⟨0, 64, .ro, 0, 2 ^ 64 - 1⟩]⟩,
  -- SV_KEY_SEL
  ⟨0x10200, 1, 0x0, 1, 0x0, 4, [⟨0, 12, .rw, 0, 4095⟩]⟩,
  -- SV_KEY_INFO
  ⟨0x10208, 1, 0x0, 1, 0x0, 8, [⟨0, 1, .ro, 0, 1⟩, ⟨1, 12, .ro, 0, 4095⟩, ⟨13, 8, .ro, 0, 255⟩, ⟨21, 1, .ro, 0, 1⟩, ⟨32, 32, .ro, 0, 2 ^ 32 - 1⟩]⟩]

def regsRdSh : List RegSpec := [
  -- RD_CTRL
  ⟨0x14000, 1, 0x0, 1, 0x0, 4, [⟨0, 1, .rwl, 0, 1⟩, ⟨1, 1, .rw, 0, 1⟩]⟩,
  -- RD_STATUS
  ⟨0x14004, 1, 0x0, 1, 0x0, 4, [⟨0, 8, .ro, 0, 255⟩, ⟨8, 8, .ro, 0, 255⟩, ⟨16, 8, .ro, 0, 255⟩]⟩,
  -- RD_PHYS_COORD
  ⟨0x14008, 1, 0x0, 1, 0x0, 4, [⟨0, 17, .rwl, 0, 2 ^ 17 - 1⟩]⟩,
  -- RD_TORUS
  ⟨0x1400C, 1, 0x0, 1, 0x0, 4, [⟨0, 5, .rwl, 0, 31⟩, ⟨5, 6, .rwl, 0, 63⟩, ⟨11, 6, .rwl, 0, 63⟩]⟩,
  -- RD_SLICE_DROP
  ⟨0x14010, 1, 0x0, 1, 0x0, 8, [⟨0, 64, .ro, 0, 2 ^ 64 - 1⟩]⟩,
  -- RD_TRANSIT
  ⟨0x14018, 1, 0x0, 1, 0x0, 8, [⟨0, 64, .ro, 0, 2 ^ 64 - 1⟩]⟩,
  -- RD_PORT_CTRL
  ⟨0x14040, 8, 0x20, 1, 0x0, 4, [⟨0, 1, .rw, 0, 1⟩, ⟨1, 1, .rw, 0, 1⟩]⟩,
  -- RD_PORT_STATUS
  ⟨0x14044, 8, 0x20, 1, 0x0, 4, [⟨0, 3, .ro, 0, 7⟩, ⟨3, 4, .ro, 0, 15⟩, ⟨7, 4, .ro, 0, 15⟩, ⟨11, 3, .ro, 0, 7⟩]⟩,
  -- RD_PORT_SEEN
  ⟨0x14048, 8, 0x20, 1, 0x0, 4, [⟨0, 17, .ro, 0, 2 ^ 17 - 1⟩, ⟨17, 3, .ro, 0, 7⟩, ⟨20, 1, .ro, 0, 1⟩]⟩,
  -- RD_PORT_LANES
  ⟨0x1404C, 8, 0x20, 1, 0x0, 4, [⟨0, 8, .ro, 0, 255⟩]⟩,
  -- RD_PORT_FEC
  ⟨0x14050, 8, 0x20, 1, 0x0, 8, [⟨0, 64, .ro, 0, 2 ^ 64 - 1⟩]⟩,
  -- RD_PORT_RETRY
  ⟨0x14058, 8, 0x20, 1, 0x0, 8, [⟨0, 64, .ro, 0, 2 ^ 64 - 1⟩]⟩,
  -- RD_HOLE[i]
  ⟨0x14200, 256, 0x4, 1, 0x0, 4, [⟨0, 17, .rw, 0, 2 ^ 17 - 1⟩, ⟨17, 3, .rw, 0, 7⟩, ⟨20, 1, .rw, 0, 1⟩, ⟨21, 1, .rw, 0, 1⟩]⟩,
  -- RD_SLICE
  ⟨0x14600, 4, 0x200, 1, 0x0, 4, [⟨0, 12, .rw, 0, 4095⟩, ⟨12, 1, .rw, 0, 1⟩]⟩,
  -- RD_LOGICAL
  ⟨0x14604, 4, 0x200, 1, 0x0, 4, [⟨0, 17, .rw, 0, 2 ^ 17 - 1⟩]⟩,
  -- RD_ORIGIN
  ⟨0x14608, 4, 0x200, 1, 0x0, 4, [⟨0, 17, .rw, 0, 2 ^ 17 - 1⟩]⟩,
  -- RD_EXTENT
  ⟨0x1460C, 4, 0x200, 1, 0x0, 4, [⟨0, 5, .rw, 0, 31⟩, ⟨5, 6, .rw, 0, 63⟩, ⟨11, 6, .rw, 0, 63⟩]⟩,
  -- RD_SUBST[i]
  ⟨0x14700, 4, 0x200, 64, 0x4, 4, [⟨0, 17, .rw, 0, 2 ^ 17 - 1⟩, ⟨17, 5, .rw, 0, 31⟩, ⟨22, 1, .rw, 0, 1⟩]⟩,
  -- SH_CTRL
  ⟨0x15000, 1, 0x0, 1, 0x0, 4, [⟨0, 1, .rwl, 0, 1⟩, ⟨1, 1, .rw, 0, 1⟩]⟩,
  -- SH_STATUS
  ⟨0x15004, 1, 0x0, 1, 0x0, 4, [⟨0, 8, .ro, 0, 255⟩]⟩,
  -- SH_INGRESS
  ⟨0x15100, 4, 0x80, 1, 0x0, 8, [⟨21, 20, .rw, 0, 2 ^ 20 - 1⟩, ⟨41, 12, .rw, 0, 4095⟩]⟩,
  -- SH_MSG_SENT
  ⟨0x15108, 4, 0x80, 1, 0x0, 8, [⟨0, 64, .ro, 0, 2 ^ 64 - 1⟩]⟩,
  -- SH_MSG_RCVD
  ⟨0x15110, 4, 0x80, 1, 0x0, 8, [⟨0, 64, .ro, 0, 2 ^ 64 - 1⟩]⟩,
  -- SH_BYTES_SENT
  ⟨0x15118, 4, 0x80, 1, 0x0, 8, [⟨0, 64, .ro, 0, 2 ^ 64 - 1⟩]⟩,
  -- SH_BYTES_RCVD
  ⟨0x15120, 4, 0x80, 1, 0x0, 8, [⟨0, 64, .ro, 0, 2 ^ 64 - 1⟩]⟩,
  -- SH_RETRACT_SENT
  ⟨0x15128, 4, 0x80, 1, 0x0, 8, [⟨0, 64, .ro, 0, 2 ^ 64 - 1⟩]⟩,
  -- SH_RETRACT_RCVD
  ⟨0x15130, 4, 0x80, 1, 0x0, 8, [⟨0, 64, .ro, 0, 2 ^ 64 - 1⟩]⟩,
  -- SH_REJECTED
  ⟨0x15138, 4, 0x80, 1, 0x0, 8, [⟨0, 64, .ro, 0, 2 ^ 64 - 1⟩]⟩,
  -- SH_LOST
  ⟨0x15140, 4, 0x80, 1, 0x0, 8, [⟨0, 64, .ro, 0, 2 ^ 64 - 1⟩]⟩,
  -- SH_EPOCH
  ⟨0x15148, 4, 0x80, 1, 0x0, 8, [⟨0, 32, .ro, 0, 2 ^ 32 - 1⟩]⟩,
  -- SH_LZ_OPEN
  ⟨0x15150, 4, 0x80, 1, 0x0, 8, [⟨0, 7, .ro, 0, 127⟩]⟩,
  -- SH_LZ_UNITS
  ⟨0x15158, 4, 0x80, 1, 0x0, 8, [⟨0, 64, .ro, 0, 2 ^ 64 - 1⟩]⟩]

def regsWf : List RegSpec := [
  -- WF_CTRL
  ⟨0x18000, 1, 0x0, 1, 0x0, 4, [⟨0, 1, .rwl, 0, 1⟩, ⟨1, 1, .rw, 0, 1⟩]⟩,
  -- WF_STATUS
  ⟨0x18004, 1, 0x0, 1, 0x0, 4, [⟨0, 1, .ro, 0, 1⟩, ⟨1, 6, .ro, 0, 63⟩, ⟨7, 3, .ro, 0, 7⟩, ⟨10, 4, .ro, 0, 15⟩]⟩,
  -- WF_VENG_FENCED
  ⟨0x18008, 1, 0x0, 1, 0x0, 4, [⟨0, 32, .ro, 0, 2 ^ 32 - 1⟩]⟩,
  -- WF_AENG_FENCED
  ⟨0x1800C, 1, 0x0, 1, 0x0, 4, [⟨0, 4, .ro, 0, 15⟩]⟩,
  -- WF_WIN_BASE
  ⟨0x18100, 4, 0x100, 1, 0x0, 8, [⟨21, 20, .rwl, 0, 2 ^ 20 - 1⟩]⟩,
  -- WF_WIN_SIZE
  ⟨0x18108, 4, 0x100, 1, 0x0, 4, [⟨0, 16, .rwl, 0, 65535⟩]⟩,
  -- WF_WORK_BASE
  ⟨0x18110, 4, 0x100, 1, 0x0, 8, [⟨21, 20, .rwl, 0, 2 ^ 20 - 1⟩]⟩,
  -- WF_WORK_SIZE
  ⟨0x18118, 4, 0x100, 1, 0x0, 4, [⟨0, 16, .rwl, 0, 65535⟩]⟩,
  -- WF_FRAMES_DECODED
  ⟨0x18120, 4, 0x100, 1, 0x0, 8, [⟨0, 64, .ro, 0, 2 ^ 64 - 1⟩]⟩,
  -- WF_FRAMES_DROPPED
  ⟨0x18128, 4, 0x100, 1, 0x0, 8, [⟨0, 64, .ro, 0, 2 ^ 64 - 1⟩]⟩,
  -- WF_SAMPLES_FAILED
  ⟨0x18130, 4, 0x100, 1, 0x0, 8, [⟨0, 64, .ro, 0, 2 ^ 64 - 1⟩]⟩,
  -- WF_AUTH_FAIL
  ⟨0x18138, 4, 0x100, 1, 0x0, 8, [⟨0, 64, .ro, 0, 2 ^ 64 - 1⟩]⟩,
  -- WF_PIXELS_DECODED
  ⟨0x18140, 4, 0x100, 1, 0x0, 8, [⟨0, 64, .ro, 0, 2 ^ 64 - 1⟩]⟩,
  -- WF_PACKER_WAIT
  ⟨0x18148, 4, 0x100, 1, 0x0, 8, [⟨0, 64, .ro, 0, 2 ^ 64 - 1⟩]⟩,
  -- WF_PROFILE[n]
  ⟨0x19000, 64, 0x40, 2, 0x8, 8, [⟨0, 64, .rw, 0, 2 ^ 64 - 1⟩]⟩,
  ⟨0x19010, 64, 0x40, 1, 0x0, 8, [⟨0, 32, .rw, 0, 2 ^ 32 - 1⟩]⟩,
  ⟨0x19018, 64, 0x40, 3, 0x8, 8, [⟨0, 64, .rw, 0, 2 ^ 64 - 1⟩]⟩,
  ⟨0x19030, 64, 0x40, 1, 0x0, 8, [⟨0, 24, .rw, 0, 2 ^ 24 - 1⟩, ⟨32, 16, .rw, 0, 65535⟩]⟩,
  ⟨0x19038, 64, 0x40, 1, 0x0, 8, []⟩,
  -- WF_AUD_FIR2[i]
  ⟨0x1A000, 64, 0x4, 1, 0x0, 4, [⟨0, 32, .rw, 0, 2 ^ 32 - 1⟩]⟩,
  -- WF_AUD_FIR3[i]
  ⟨0x1A100, 64, 0x4, 1, 0x0, 4, [⟨0, 32, .rw, 0, 2 ^ 32 - 1⟩]⟩]

def regsBt : List RegSpec := [
  -- BT_CTRL
  ⟨0x1C000, 1, 0x0, 1, 0x0, 4, [⟨0, 1, .rwl, 0, 1⟩, ⟨1, 1, .rw, 0, 1⟩]⟩,
  -- BT_STATUS
  ⟨0x1C004, 1, 0x0, 1, 0x0, 4, [⟨0, 1, .ro, 0, 1⟩, ⟨1, 4, .ro, 0, 15⟩]⟩,
  -- BT_FENCED
  ⟨0x1C008, 1, 0x0, 1, 0x0, 4, [⟨0, 16, .ro, 0, 65535⟩]⟩,
  -- BT_LOG_BASE
  ⟨0x1C100, 16, 0x20, 1, 0x0, 8, [⟨21, 20, .rw, 0, 2 ^ 20 - 1⟩, ⟨41, 12, .rw, 0, 4095⟩]⟩,
  -- BT_LOG_SIZE
  ⟨0x1C108, 16, 0x20, 1, 0x0, 4, [⟨0, 16, .rw, 0, 65535⟩, ⟨16, 11, .rw, 2, 1025⟩]⟩,
  -- BT_LOG_SEQ
  ⟨0x1C110, 16, 0x20, 1, 0x0, 8, [⟨0, 64, .ro, 0, 2 ^ 64 - 1⟩]⟩,
  -- BT_LOG_APPLIED
  ⟨0x1C118, 16, 0x20, 1, 0x0, 8, [⟨0, 64, .ro, 0, 2 ^ 64 - 1⟩]⟩,
  -- BT_ELEMENTS
  ⟨0x1C400, 4, 0x80, 1, 0x0, 8, [⟨0, 64, .ro, 0, 2 ^ 64 - 1⟩]⟩,
  -- BT_BLOCKS
  ⟨0x1C408, 4, 0x80, 1, 0x0, 8, [⟨0, 64, .ro, 0, 2 ^ 64 - 1⟩]⟩,
  -- BT_SKIPPED
  ⟨0x1C410, 4, 0x80, 1, 0x0, 8, [⟨0, 64, .ro, 0, 2 ^ 64 - 1⟩]⟩,
  -- BT_OVF
  ⟨0x1C418, 4, 0x80, 1, 0x0, 8, [⟨0, 32, .ro, 0, 2 ^ 32 - 1⟩, ⟨32, 32, .ro, 0, 2 ^ 32 - 1⟩]⟩,
  -- BT_COPY_WAIT_NS
  ⟨0x1C420, 4, 0x80, 1, 0x0, 8, [⟨0, 64, .ro, 0, 2 ^ 64 - 1⟩]⟩,
  -- BT_STASH_WAIT_NS
  ⟨0x1C428, 4, 0x80, 1, 0x0, 8, [⟨0, 64, .ro, 0, 2 ^ 64 - 1⟩]⟩,
  -- BT_COMMITTED
  ⟨0x1C430, 4, 0x80, 1, 0x0, 8, [⟨0, 32, .ro, 0, 2 ^ 32 - 1⟩, ⟨32, 1, .ro, 0, 1⟩]⟩,
  -- BT_LAST_SUMSQ
  ⟨0x1C438, 4, 0x80, 1, 0x0, 8, [⟨0, 32, .ro, 0, 2 ^ 32 - 1⟩, ⟨32, 32, .ro, 0, 2 ^ 32 - 1⟩]⟩,
  -- BT_RECOVERED
  ⟨0x1C440, 4, 0x80, 1, 0x0, 8, [⟨0, 64, .ro, 0, 2 ^ 64 - 1⟩]⟩,
  -- BT_OVF_CLEAR
  ⟨0x1C448, 4, 0x80, 1, 0x0, 4, [⟨0, 1, .wo, 0, 1⟩]⟩]

def regsTl : List RegSpec := [
  -- TL_CTRL
  ⟨0x20000, 1, 0x0, 1, 0x0, 4, [⟨0, 1, .rwl, 0, 1⟩, ⟨1, 1, .rw, 0, 1⟩]⟩,
  -- TL_STATUS
  ⟨0x20004, 1, 0x0, 1, 0x0, 4, [⟨0, 11, .ro, 0, 2047⟩, ⟨11, 7, .ro, 0, 127⟩, ⟨18, 11, .ro, 0, 2047⟩]⟩,
  -- TL_PICK_CLOCKS
  ⟨0x20008, 1, 0x0, 1, 0x0, 4, [⟨0, 16, .ro, 0, 65535⟩]⟩,
  -- TL_PICK_BYTES
  ⟨0x2000C, 1, 0x0, 1, 0x0, 4, [⟨0, 20, .ro, 0, 2 ^ 20 - 1⟩]⟩,
  -- TL_RETAIN
  ⟨0x20100, 4, 0x40, 1, 0x0, 4, [⟨0, 6, .rw, 0, 32⟩]⟩,
  -- TL_PICKS_COMMITTED
  ⟨0x20108, 4, 0x40, 1, 0x0, 8, [⟨0, 64, .ro, 0, 2 ^ 64 - 1⟩]⟩,
  -- TL_PICKS_ABANDONED
  ⟨0x20110, 4, 0x40, 1, 0x0, 8, [⟨0, 64, .ro, 0, 2 ^ 64 - 1⟩]⟩,
  -- TL_PANEL_STEPS
  ⟨0x20118, 4, 0x40, 1, 0x0, 8, [⟨0, 64, .ro, 0, 2 ^ 64 - 1⟩]⟩,
  -- TL_WAIT_NS
  ⟨0x20120, 4, 0x40, 1, 0x0, 8, [⟨0, 64, .ro, 0, 2 ^ 64 - 1⟩]⟩,
  -- TL_SWAPS
  ⟨0x20128, 4, 0x40, 1, 0x0, 8, [⟨0, 64, .ro, 0, 2 ^ 64 - 1⟩]⟩,
  -- TL_OVF_CLEAR
  ⟨0x20130, 4, 0x40, 1, 0x0, 4, [⟨0, 1, .wo, 0, 1⟩]⟩,
  -- TL_OVF[l]
  ⟨0x21000, 1024, 0x8, 1, 0x0, 8, [⟨0, 32, .ro, 0, 2 ^ 32 - 1⟩, ⟨32, 32, .ro, 0, 2 ^ 32 - 1⟩]⟩,
  -- TL_MAP[l]
  ⟨0x23000, 1024, 0x4, 1, 0x0, 4, [⟨0, 11, .ro, 0, 2047⟩, ⟨11, 3, .ro, 0, 7⟩, ⟨14, 1, .ro, 0, 1⟩]⟩,
  -- TL_PHYS[t]
  ⟨0x24000, 1088, 0x4, 1, 0x0, 4, [⟨0, 3, .ro, 0, 7⟩, ⟨3, 10, .ro, 0, 1023⟩, ⟨13, 1, .ro, 0, 1⟩]⟩,
  -- TL_MB_CTRL
  ⟨0x26000, 4, 0x40, 1, 0x0, 4, [⟨0, 14, .rw, 0, 16383⟩, ⟨14, 1, .rw, 0, 1⟩, ⟨16, 8, .rw, 9, 255⟩]⟩,
  -- TL_MB_COUNT
  ⟨0x26008, 4, 0x40, 1, 0x0, 8, [⟨0, 64, .ro, 0, 2 ^ 64 - 1⟩]⟩,
  -- TL_MB_LAST
  ⟨0x26010, 4, 0x40, 1, 0x0, 8, [⟨0, 64, .ro, 0, 2 ^ 64 - 1⟩]⟩,
  -- TL_MB_MEAN
  ⟨0x26018, 4, 0x40, 1, 0x0, 8, [⟨0, 64, .ro, 0, 2 ^ 64 - 1⟩]⟩,
  -- TL_MB_MAX
  ⟨0x26020, 4, 0x40, 1, 0x0, 8, [⟨0, 64, .ro, 0, 2 ^ 64 - 1⟩]⟩,
  -- TL_MB_OVER
  ⟨0x26028, 4, 0x40, 1, 0x0, 8, [⟨0, 64, .ro, 0, 2 ^ 64 - 1⟩]⟩,
  -- TL_MB_STATUS
  ⟨0x26030, 4, 0x40, 1, 0x0, 4, [⟨0, 1, .rw1c, 0, 1⟩]⟩,
  -- TL_FENCE_SEL
  ⟨0x28000, 4, 0x40, 1, 0x0, 4, [⟨0, 14, .rw, 0, 16383⟩]⟩,
  -- TL_FENCE_VAL
  ⟨0x28008, 4, 0x40, 1, 0x0, 8, [⟨0, 64, .ro, 0, 2 ^ 64 - 1⟩]⟩,
  -- TL_FENCE_INFO
  ⟨0x28010, 4, 0x40, 1, 0x0, 4, [⟨0, 2, .ro, 0, 3⟩, ⟨2, 12, .ro, 0, 4095⟩, ⟨14, 1, .ro, 0, 1⟩, ⟨15, 3, .ro, 0, 7⟩, ⟨18, 14, .ro, 0, 16383⟩]⟩,
  -- TL_FENCE_COUNT
  ⟨0x28018, 4, 0x40, 1, 0x0, 4, [⟨0, 15, .ro, 0, 32767⟩, ⟨15, 15, .ro, 0, 32767⟩]⟩]

def regsPl : List RegSpec := [
  -- PL_CTRL
  ⟨0x2C000, 1, 0x0, 1, 0x0, 4, [⟨0, 1, .rwl, 0, 1⟩, ⟨1, 1, .rw, 0, 1⟩]⟩,
  -- PL_BSTATUS
  ⟨0x2C004, 1, 0x0, 1, 0x0, 4, [⟨0, 4, .ro, 0, 15⟩]⟩,
  -- PL_ARM
  ⟨0x2C100, 4, 0x100, 1, 0x0, 4, [⟨0, 1, .rw, 0, 1⟩, ⟨1, 3, .ro, 0, 7⟩, ⟨4, 1, .ro, 0, 1⟩]⟩,
  -- PL_HOLD_BASE
  ⟨0x2C108, 4, 0x100, 1, 0x0, 8, [⟨21, 20, .rw, 0, 2 ^ 20 - 1⟩, ⟨41, 12, .rw, 0, 4095⟩]⟩,
  -- PL_HOLD_SIZE
  ⟨0x2C110, 4, 0x100, 1, 0x0, 4, [⟨0, 25, .rw, 0, 2 ^ 25 - 1⟩]⟩,
  -- PL_SRC_LIST
  ⟨0x2C118, 4, 0x100, 1, 0x0, 8, [⟨0, 41, .rw, 0, 2 ^ 41 - 1⟩, ⟨41, 12, .rw, 0, 4095⟩]⟩,
  -- PL_SRC_COUNT
  ⟨0x2C120, 4, 0x100, 1, 0x0, 4, [⟨0, 13, .rw, 0, 4096⟩]⟩,
  -- PL_TRIG
  ⟨0x2C128, 4, 0x100, 1, 0x0, 4, [⟨0, 16, .rw, 0, 65535⟩, ⟨16, 16, .rw, 0, 65535⟩]⟩,
  -- PL_FENCES
  ⟨0x2C130, 4, 0x100, 1, 0x0, 4, [⟨0, 14, .rw, 0, 16383⟩, ⟨16, 14, .rw, 0, 16383⟩]⟩,
  -- PL_SHARE
  ⟨0x2C138, 4, 0x100, 1, 0x0, 4, [⟨0, 8, .rw, 0, 255⟩]⟩,
  -- PL_STATUS
  ⟨0x2C140, 4, 0x100, 1, 0x0, 4, [⟨0, 3, .ro, 0, 7⟩, ⟨3, 1, .rw1c, 0, 1⟩, ⟨4, 1, .ro, 0, 1⟩]⟩,
  -- PL_GEN0
  ⟨0x2C148, 4, 0x100, 1, 0x0, 8, [⟨0, 32, .ro, 0, 2 ^ 32 - 1⟩, ⟨32, 1, .ro, 0, 1⟩, ⟨33, 1, .ro, 0, 1⟩]⟩,
  -- PL_GEN1
  ⟨0x2C150, 4, 0x100, 1, 0x0, 8, [⟨0, 64, .ro, 0, 2 ^ 64 - 1⟩]⟩,
  -- PL_WATERMARK
  ⟨0x2C158, 4, 0x100, 1, 0x0, 8, [⟨0, 32, .ro, 0, 2 ^ 32 - 1⟩]⟩,
  -- PL_CUTS
  ⟨0x2C160, 4, 0x100, 1, 0x0, 8, [⟨0, 64, .ro, 0, 2 ^ 64 - 1⟩]⟩,
  -- PL_DEFERRED
  ⟨0x2C168, 4, 0x100, 1, 0x0, 8, [⟨0, 64, .ro, 0, 2 ^ 64 - 1⟩]⟩,
  -- PL_LATE
  ⟨0x2C170, 4, 0x100, 1, 0x0, 8, [⟨0, 64, .ro, 0, 2 ^ 64 - 1⟩]⟩,
  -- PL_FORCED
  ⟨0x2C178, 4, 0x100, 1, 0x0, 8, [⟨0, 64, .ro, 0, 2 ^ 64 - 1⟩]⟩,
  -- PL_UNITS_SENT
  ⟨0x2C180, 4, 0x100, 1, 0x0, 8, [⟨0, 64, .ro, 0, 2 ^ 64 - 1⟩]⟩,
  -- PL_GEN_NS
  ⟨0x2C188, 4, 0x100, 1, 0x0, 8, [⟨0, 64, .ro, 0, 2 ^ 64 - 1⟩]⟩,
  -- PL_INTERVAL_MAX
  ⟨0x2C190, 4, 0x100, 1, 0x0, 8, [⟨0, 64, .ro, 0, 2 ^ 64 - 1⟩]⟩]

/-- The table that holds a register at `off`, by block (00 Table 00-5). -/
def regBlock (off : Nat) : List RegSpec :=
  if off < 0x4000 then regsPv else if off < 0x8000 then regsHx else if off < 0xC000 then regsCp
  else if off < 0x10000 then regsRt else if off < 0x14000 then regsSv else if off < 0x18000 then regsRdSh
  else if off < 0x1C000 then regsWf else if off < 0x20000 then regsBt else if off < 0x2C000 then regsTl
  else if off < 0x30000 then regsPl else []

/-- Whether byte offset `off` lies in register (i, j) of the row; the register's own offset if so. -/
def RegSpec.hit (r : RegSpec) (off : Nat) : Option Nat :=
  if off < r.base then none
  else
    let i := if r.n1 ≤ 1 ∨ r.s1 = 0 then 0 else min (r.n1 - 1) ((off - r.base) / r.s1)
    let rest := off - r.base - i * r.s1
    let j := if r.n2 ≤ 1 ∨ r.s2 = 0 then 0 else min (r.n2 - 1) (rest / r.s2)
    if rest - j * r.s2 < r.bytes then some (r.base + i * r.s1 + j * r.s2) else none

/-- The first row with a register at `off`, and that register's offset. -/
def findReg : List RegSpec → Nat → Option (RegSpec × Nat)
  | [], _ => none
  | r :: rs, off =>
    match r.hit off with
    | some o => some (r, o)
    | none => findReg rs off

/-- The register at BAR0 offset `off`, if one occupies it (11 R335). -/
def regAt (off : Nat) : Option (RegSpec × Nat) := findReg (regBlock off) off

/-- Reset value of the register at offset `off`: 0 but for the registers below. -/
def regReset (off : Nat) : Word64 :=
  if off = 0x0000 then 0x4C161E3B                                -- PV_ID
  else if off = 0x0004 then 0x11                                 -- PV_REV
  else if off = 0x0040 then 0xC80                                -- PV_PWR_CTRL LIMIT
  else if off = 0x0060 then 2                                    -- PV_SYNC_CTRL OUT
  else if off = 0x4008 then 0x07D0                               -- HX_P8_QUANTUM
  else if off = 0x4130 then 0x4040                               -- HX_SHARE of P0 in one partition (01 Table 01-3)
  else if off = 0x8000 then 1                                    -- CP_CTRL IFT_ENABLE
  else if off = 0xC000 then 3                                    -- RT_CTRL SPDM_I3C, SPDM_DOE
  else if off = 0x10004 then 0xF000                              -- SV_THRESH
  else if off = 0x10008 then 4                                   -- SV_BG_SHARE
  else if 0x1C100 ≤ off ∧ off < 0x1C300 ∧ off % 0x20 = 8 then 0x1410000  -- BT_LOG_SIZE LINES
  else if off = 0x20008 then 0xF424                              -- TL_PICK_CLOCKS
  else if off = 0x2000C then 0xF4240                             -- TL_PICK_BYTES
  else if 0x26000 ≤ off ∧ off < 0x26100 ∧ off % 0x40 = 0 then 0x180000   -- TL_MB_CTRL RATIO
  else if 0x2C100 ≤ off ∧ off < 0x2C500 ∧ off % 0x100 = 0x38 then 0x40   -- PL_SHARE MIN
  else 0

/-- The three copies at reset. -/
def copiesReset (off : Nat) : Copies := Copies.of (regReset off)

end Sys2Proof.Machine
end

