-- ==== Sys2Proof/Machine/Ops.lean ====
section
/-! DEFINITION. The named operations every family shares: registers and counters, partitions, units, the fault log
(09 R281 to R285), interrupts (11 R343, R344), accounting (10 R323), free values, and how a meaning ends. -/

namespace Sys2Proof.Machine

/-! ### Registers -/

/-- The register at BAR0 offset `off`. -/
def Dev.reg (d : Dev) (off : Nat) : Word64 := (Sparse.get copiesReset d.regs off).read

/-- A write reaches all three copies. -/
def Dev.setReg (d : Dev) (off : Nat) (v : Word64) : Dev := { d with regs := Sparse.set copiesReset d.regs off (Copies.of v) }

/-- Field `[lo + w - 1 : lo]` of a register. -/
def Dev.fld (d : Dev) (off lo w : Nat) : Nat := bits (d.reg off).toNat lo w

/-- The device sets a field of one of its registers, whatever the field's access code. -/
def Dev.setFld (d : Dev) (off lo w x : Nat) : Dev :=
  d.setReg off (BitVec.ofNat 64 (setBits (d.reg off).toNat lo w x))

/-- A 64-bit counter rises by `n`. -/
def Dev.bump (d : Dev) (off n : Nat) : Dev := d.setReg off (d.reg off + BitVec.ofNat 64 n)

/-! ### Time and windows (15 R452, R455) -/


def Dev.now (d : Dev) : Nat := d.timePs / 1000

/-- Time since `t`, while a wait runs. -/
def Dev.since (d : Dev) (t : Option Nat) : Nat := (t.map fun t => d.now - t).getD 0

/-- The hour an event stamped now belongs to: half-open windows of `PV_TIME` (R455). -/
def Dev.hour (d : Dev) : Nat := d.now / 3600000000000

/-! ### Partitions (01 R19, Table 01-3) -/

/-- The number of partitions presented. -/
def Dev.parts (d : Dev) : Nat :=
  match d.fld 0x1C 0 2 with
  | 0 => 1
  | 1 => 2
  | _ => 4

/-- The partition that owns logical tile `l` (Table 01-3). -/
def tilePart (n l : Nat) : Nat :=
  let lx := l % 32
  let ly := l / 32
  if n = 1 then 0 else if n = 2 then ly / 16 else (ly / 16) * 2 + lx / 16

/-- The partition that owns stack `k`. -/
def stackPart (n k : Nat) : Nat := k / (16 / n)

/-- The compute die of physical tile `t` (00 Table 00-3). -/
def tileDie (t : Nat) : Nat := (t / 34 / 16) * 2 + t % 34 / 17

/-- The compute die that holds link port `n` (00 Table 00-3). -/
def portDie (n : Nat) : Nat :=
  match n with
  | 1 => 0
  | 7 => 0
  | 0 => 1
  | 6 => 1
  | 3 => 2
  | 5 => 2
  | _ => 3

/-- The partition that owns compute die `k`. -/
def diePart (n k : Nat) : Nat := if n = 1 then 0 else if n = 2 then k / 2 else k

/-- Fence IDs, key slots and region numbers: `total` of them divided among `n` partitions (R311, R359, R387). -/
def rangePart (n total x : Nat) : Nat := x / (total / n)

/-! ### Contexts: key `p` is partition p's native context; key `4 + c` is P8 context `c` (10 R309, R310) -/

def ctxPart (k : Nat) : Nat := if k < 4 then k else 0

/-- The context ID that records and registers show (R309, R310). -/
def ctxId (k : Nat) : Nat := if k < 4 then k else k - 4

def Dev.ctx (d : Dev) (k : Nat) : Ctx := Sparse.get (fun _ => Ctx.reset) d.ctxs k

def Dev.setCtx (d : Dev) (k : Nat) (c : Ctx) : Dev := { d with ctxs := Sparse.set (fun _ => Ctx.reset) d.ctxs k c }

/-- The P8 compatibility model: selected, and one partition presented (R310). -/
def Dev.p8 (d : Dev) : Bool := d.fld 0x4000 3 1 = 1 && d.fld 0x1C 0 2 = 0

/-- What the RTP holds for partition `p`. -/
def Dev.rtpPart (d : Dev) (p : Nat) : RtpPart := Sparse.get (fun _ => RtpPart.reset) d.rtp.parts p

/-- The open or stopped contexts. -/
def Dev.heldCtxs (d : Dev) : List Nat :=
  (d.ctxs.filter fun e => e.2.st = .opened || e.2.st = .stopped).map Prod.fst

/-- Whether any context is open on the device: any that is not `CLOSED` (01 R21, 10 R310). -/
def Dev.anyOpen (d : Dev) : Bool := d.ctxs.any fun e => e.2.st ≠ .closed

/-- Counter `i` of a context's accounting record rises by `n` (R323); the native record is also `HX_ACC`. -/
def Dev.account (d : Dev) (k i n : Nat) : Dev :=
  d.setCtx k { d.ctx k with acc := modifyAt (· + n) (d.ctx k).acc i }

/-! ### The regulator of the host path (10 R321, 11 R345) -/

def Dev.usedBytes (d : Dev) (k : Nat) : Nat := Sparse.get (fun _ => 0) d.used k

def Dev.use (d : Dev) (k n : Nat) : Dev := { d with used := Sparse.set (fun _ => 0) d.used k (d.usedBytes k + n) }

/-- `LEND`: budget left idle is lent within the window. -/
def Dev.lends (d : Dev) : Bool := d.fld 0x4000 2 1 = 1

/-- Bytes that the partitions have moved in the window, under the keys `k`. -/
def Dev.partsUsed (d : Dev) (k : Nat → Nat) : Nat := ((List.range 4).map fun p => d.usedBytes (k p)).foldl (· + ·) 0

/-- Host bytes per window and direction. -/
def hostWindow : Nat := 55000000

/-- Key of the host bytes that partition `p` has read or written in the window. -/
def hostKey (write : Bool) (p : Nat) : Nat := 3000 + 16 * b2n write + p

def Dev.hostShare (d : Dev) (p : Nat) : Nat := d.fld (0x4130 + 0x100 * p) 0 7

/-- The partition's own budget in a window, and that of all partitions. -/
def Dev.hostOwn (d : Dev) (p : Nat) : Nat := hostWindow * d.hostShare p / 64
def Dev.hostPool (d : Dev) : Nat := hostWindow * ((List.range d.parts).map d.hostShare).foldl (· + ·) 0 / 64

/-- Budget left to the partition in a direction: its own, or with `LEND` what all leave idle. -/
def Dev.hostLeft (d : Dev) (write : Bool) (p : Nat) : Nat :=
  max (d.hostOwn p - d.usedBytes (hostKey write p)) (if d.lends then d.hostPool - d.partsUsed (hostKey write) else 0)

/-- What a transfer of `n` bytes takes of the window in which it ends: one longer than a whole window's budget has used up the
budgets of windows before (DESIGN CHOICE, log 137). -/
def Dev.hostTurn (d : Dev) (p n : Nat) : Nat :=
  let most := if d.lends then d.hostPool else d.hostOwn p
  if n = 0 then 0 else (n - 1) % most + 1

/-- A transfer of partition `p` fits in what is left of the window; otherwise it waits. -/
def Dev.hostFits (d : Dev) (write : Bool) (p n : Nat) : Bool := d.hostTurn p n ≤ d.hostLeft write p

/-- Host bytes that a context reads (3) or writes (4), counted in its record and against its partition's share. -/
def Dev.hostCount (d : Dev) (write : Bool) (k n : Nat) : Dev :=
  (d.account k (if write then 4 else 3) n).use (hostKey write (ctxPart k)) (d.hostTurn (ctxPart k) n)

/-! ### Units (09 Table 09-8) -/

def unitCode : UnitType → Nat
  | .device => 0
  | .tile => 1
  | .batten => 2
  | .stack => 3
  | .videoEngine => 4
  | .audioEngine => 5
  | .port => 6
  | .lane => 7
  | .selvedge => 8
  | .die => 9
  | .register => 10
  | .context => 11
  | .hub => 12
  | .peer => 13

def unitKey (u : UnitType) (id : Nat) : Nat := unitCode u * 65536 + id

def Dev.unit (d : Dev) (u : UnitType) (id : Nat) : UnitRec :=
  Sparse.get (fun _ => UnitRec.reset) d.units (unitKey u id)

def Dev.setUnit (d : Dev) (u : UnitType) (id : Nat) (r : UnitRec) : Dev :=
  { d with units := Sparse.set (fun _ => UnitRec.reset) d.units (unitKey u id) r }

/-- The stack is fenced, by itself or with its die. -/
def Dev.stackFenced (d : Dev) (k : Nat) : Bool := (d.unit .stack k).fenced || (d.unit .die (k / 4)).fenced

/-- The port is fenced, by itself or with its die. -/
def Dev.portFenced (d : Dev) (n : Nat) : Bool := (d.unit .port n).fenced || (d.unit .die (portDie n)).fenced

/-- The stack, port or die that a unit belongs to is fenced. -/
def Dev.wholeFenced (d : Dev) (u : UnitType) (id : Nat) : Bool :=
  match u with
  | .tile => (d.unit .die (tileDie id)).fenced
  | .stack => (d.unit .die (id / 4)).fenced
  | .batten => d.stackFenced id
  | .selvedge => id < 16 && d.stackFenced id
  | .port => (d.unit .die (portDie id)).fenced
  | .lane => d.portFenced (id / 8)
  | _ => false

/-- Whether a unit is fenced, by itself or with what it belongs to (R276). -/
def Dev.fenced (d : Dev) (u : UnitType) (id : Nat) : Bool := (d.unit u id).fenced || d.wholeFenced u id

/-- The partition a unit belongs to, when one owns it (Table 01-3). -/
def Dev.unitPart (d : Dev) (u : UnitType) (id : Nat) : Option Nat :=
  match u with
  | .tile => some (diePart d.parts (tileDie id))
  | .batten => some (stackPart d.parts id)
  | .stack => some (stackPart d.parts id)
  | .die => some (diePart d.parts id)
  | .videoEngine => some (id / (32 / d.parts))
  | .audioEngine => some (id / (4 / d.parts))
  | .context => some id
  | .selvedge => if id < 16 then some (stackPart d.parts id) else none
  | _ => none

/-! ### Interrupts (11 R343, R344) -/

def Dev.msixEntry (d : Dev) (v : Nat) : MsixEntry := Sparse.get (fun _ => MsixEntry.reset) d.msix v

/-- Raise a vector: with its pending bit set nothing more happens; masked, the pending bit is set; else it is sent. -/
def Dev.raise (d : Dev) (v : Nat) : Dev :=
  if d.msixPend.contains v then d
  else if (d.msixEntry v).mask then { d with msixPend := insNat v d.msixPend }
  else { d with irqs := v :: d.irqs }

/-- The vector of event `i` of partition `p` (R343). -/
def Dev.partVector (d : Dev) (p i : Nat) : Nat := 128 + p * (1920 / d.parts) + i

def Dev.raisePart (d : Dev) (p i : Nat) : Dev := d.raise (d.partVector p i)

/-! ### The life log (14 R430) -/

/-- The 64 bytes of an entry (Table 14-10). -/
def LifeEntry.bytes (e : LifeEntry) : List Byte :=
  leBytes 6 e.calendar ++ leBytes 2 e.typ ++ leBytes 8 e.time ++ leBytes 16 e.prev ++
    (e.detail ++ List.replicate 32 0).take 32

/-- Write a life-log entry, chained to the one before; a full log drops its oldest 4,096 entries after 65,536 (R430). -/
def Dev.lifeWrite (d : Dev) (typ : Nat) (detail : List Byte) : Dev :=
  let prev := match d.life.log.getLast? with
    | none => 0
    | some e => Config.lifeHash e.bytes
  let e : LifeEntry := { calendar := (d.reg 0x78).toNat % 2 ^ 48, typ := typ, time := d.now, prev := prev,
                         detail := (detail ++ List.replicate 32 0).take 32 }
  let kept := if d.life.log.length < 4194304 then d.life.log
    else d.life.log.take 65536 ++ d.life.log.drop (65536 + 4096)
  { d with life := { d.life with log := kept ++ [e],
                                 logFirst := if d.life.log.length < 4194304 then d.life.logFirst else d.life.logFirst + 4096 } }

/-! ### Trace (14 Debug, 15 R460) -/

/-- Pleach copies a generation of some partition: its stripes hold the credit pool of Shuttle (15 Table 15-8). -/
def Dev.striping (d : Dev) : Bool := d.pleach.any fun e => e.2.cur.isSome

/-- The most events that the trace buffer holds (15 Table 15-7). -/
def traceEvents : Nat := 67108864

/-- An event of the kinds trace captures, while the `TRACE` right is open: dropped and counted once the buffer is full and
while Pleach stripes. -/
def Dev.traceEvent (d : Dev) (kind arg : Nat) : Dev :=
  if d.life.rights.testBit 2 then
    if d.tap.full ∨ traceEvents ≤ d.tap.trace.length ∨ d.striping then { d with tap := { d.tap with dropped := d.tap.dropped + 1 } }
    else { d with tap := { d.tap with trace := (kind, arg) :: d.tap.trace } }
  else d

/-! ### The fault log (09 R281 to R286) -/

/-- The 32 bytes of an entry (Table 09-7). -/
def LogEntry.bytes (e : LogEntry) : List Byte :=
  leBytes 8 e.time ++ leBytes 8 e.seq ++
    leBytes 1 (e.cls + 8 * b2n e.cleared + 16 * e.part.getD 0 + 64 * b2n e.part.isSome) ++
    leBytes 1 e.unit ++ leBytes 2 e.unitId ++ leBytes 2 e.cause ++ [0, 0] ++ leBytes 8 e.detail

def FaultLog.entry (l : FaultLog) (i : Nat) : Option LogEntry := Sparse.get (fun _ => none) l.entries i

/-- Position of the next entry written (R283). -/
def FaultLog.pos (l : FaultLog) : Nat := if l.pinned < 64 then l.pinned else l.next

/-- The count of uncleared entries rises by one and saturates (R285). -/
def satUp (n : Nat) : Nat := if n ≥ 0xFFFF then 0xFFFF else n + 1

/-- An overwritten uncleared entry stays counted (R285). -/
def FaultLog.overwrite (l : FaultLog) (i : Nat) : FaultLog :=
  match l.entry i with
  | some e => if e.cls ≥ 2 && !e.cleared then { l with lostTop := max l.lostTop e.cls } else l
  | none => l

/-- The log with one entry more. -/
def FaultLog.push (l : FaultLog) (e : LogEntry) : FaultLog :=
  let l1 := l.overwrite l.pos
  { l1 with
    entries := Sparse.set (fun _ => none) l1.entries l.pos (some e)
    pinned := if l.pinned < 64 then l.pinned + 1 else l.pinned
    next := if l.pinned < 64 then l.next else if l.next = 1023 then 64 else l.next + 1
    seq := l.seq + 1
    uncleared := if e.cls ≥ 2 then satUp l.uncleared else l.uncleared }

/-- FAULT_N is low while an uncleared entry is counted (R282). -/
def Dev.faultLow (d : Dev) : Bool := d.log.uncleared ≠ 0 && d.power.resetNote.isNone

/-- Vector 0 for an entry of C2 or above, vector 4 for those of the CXL link (11 Table 11-7). -/
def Dev.entryVectors (d : Dev) (e : LogEntry) : Dev :=
  let d := if e.cls ≥ 2 then d.raise 0 else d
  if e.cause = 0x0206 ∨ e.cause = 0x0207 ∨ e.cause = 0x0208 then d.raise 4 else d

/-- The partition's counter of entries of the class (Table 09-11). -/
def Dev.entryCount (d : Dev) (cls p : Nat) : Dev :=
  if cls = 1 then d.bump (0x8128 + 0x80 * p) 1
  else if cls = 2 then d.bump (0x8130 + 0x80 * p) 1
  else if cls = 3 then d.bump (0x8138 + 0x80 * p) 1 else d

/-- The counters and the vector of the partition the entry belongs to. -/
def Dev.entryPart (d : Dev) (e : LogEntry) : Dev :=
  match e.part with
  | some p => if e.cls = 2 ∨ e.cls = 3 then (d.entryCount e.cls p).raisePart p 0 else d.entryCount e.cls p
  | none => d

/-- Entries of C2 and C4 also go to the life log (R283). -/
def Dev.entryLife (d : Dev) (e : LogEntry) : Dev := if e.cls = 2 ∨ e.cls = 4 then d.lifeWrite 1 e.bytes else d

/-- What Table 09-5 makes due: the stop of a C3 entry's context, the stop of a C4 entry. -/
def Dev.entryDue (d : Dev) (e : LogEntry) (stop : Option Nat) : Dev :=
  { d with
    stopsDue := match stop with
      | some c => if e.cls = 3 ∧ !d.stopsDue.contains c then d.stopsDue ++ [c] else d.stopsDue
      | none => d.stopsDue
    fatalDue := d.fatalDue || e.cls = 4 }

/-- What recording an entry does beside the log itself. `stop` is the context of a C3 entry. -/
def Dev.afterEntry (d : Dev) (e : LogEntry) (stop : Option Nat) : Dev :=
  ((((d.traceEvent 5 e.seq).entryVectors e).entryPart e).entryLife e).entryDue e stop

/-- An entry as it is written now (Table 09-7). -/
def Dev.newEntry (d : Dev) (cls cause : Nat) (u : UnitType) (id : Nat) (part : Option Nat) (detail : Nat) : LogEntry :=
  { time := d.now, seq := d.log.seq, cls := cls, cleared := false, part := part, unit := unitCode u, unitId := id,
    cause := cause, detail := detail % 2 ^ 64 }

/-- Write `e` to the log, with all that follows. -/
def Dev.logged (d : Dev) (e : LogEntry) (stop : Option Nat) : Dev := Dev.afterEntry { d with log := d.log.push e } e stop

/-- Record an entry of class `cls` and cause `cause` against unit `u`, `id`, for partition `part` if it belongs to one. -/
def Dev.record (d : Dev) (cls cause : Nat) (u : UnitType) (id : Nat) (part : Option Nat) (detail : Nat) : Dev :=
  d.logged (d.newEntry cls cause u id part detail) none

/-- Record a C3 entry: it is recorded against exactly one context and carries that context's partition (R281). -/
def Dev.recordC3 (d : Dev) (cause ctx detail : Nat) : Dev :=
  d.logged (d.newEntry 3 cause .context (ctxPart ctx) (some (ctxPart ctx)) detail) (some ctx)

/-- An entry that names a register (Table 09-8, unit 10) with the value written as its detail. -/
def Dev.recordReg (d : Dev) (cause off value : Nat) : Dev := d.record 0 cause .register (off / 4) none value

/-- An entry against a context (unit 11). -/
def Dev.recordCtx (d : Dev) (cls cause ctx detail : Nat) : Dev :=
  d.record cls cause .context (ctxPart ctx) (some (ctxPart ctx)) detail

/-! ### Life-cycle and power predicates -/

/-- Whether the device runs at all: every command but those of the supply and the VBAT domain finds it powered. -/
def Dev.on (d : Dev) : Bool := d.power.st ≠ .off

/-- Reduced or full service, not stopped by a C4 entry (15 R436, 09 Table 09-5). -/
def Dev.serving (d : Dev) : Bool := (d.power.st = .reduced || d.power.st = .full) && !d.power.fatal

/-- The partition's journal, step buffers and Batten logs have been recovered since the last keeping reset (15 R440). -/
def Dev.recovered (d : Dev) (p : Nat) : Bool :=
  !(d.power.recover.any fun x => if x < 4 then x = p else stackPart d.parts (x - 4) = p) &&
    !(d.power.stepBufs.any fun k => stackPart d.parts k = p)

/-- The unit is in service and not ready yet (15 R441). -/
def Dev.unready (d : Dev) (u : UnitType) (id : Nat) : Bool :=
  d.power.st = .reduced && d.power.notReady.contains (unitCode u, id) && !d.fenced u id

/-- No stack of the partition is still being trained. -/
def Dev.memReady (d : Dev) (p : Nat) : Bool :=
  (List.range 16).all fun k => stackPart d.parts k ≠ p || !d.unready .stack k

/-- The units that a ring descriptor of this opcode needs are ready; what one needs otherwise waits (15 R441). -/
def Dev.unitsReady (d : Dev) (p op : Nat) : Bool :=
  if op = 0 ∨ op = 2 ∨ op = 3 then true
  else d.memReady p &&
    (if op = 0x40 ∨ op = 0x41 then
      ((List.range 32).all fun i => d.unitPart .videoEngine i ≠ some p || !d.unready .videoEngine i) &&
        (List.range 4).all fun i => d.unitPart .audioEngine i ≠ some p || !d.unready .audioEngine i
     else if op = 0x60 then (List.range 16).all fun k => stackPart d.parts k ≠ p || !d.unready .batten k
     else true)

/-- Service in partition `p`: recovered, its stacks ready. -/
def Dev.servingIn (d : Dev) (p : Nat) : Bool := d.serving && d.recovered p && d.memReady p

/-- The power state changes and vector 1 is raised (R436, Table 11-7). -/
def Dev.setPower (d : Dev) (p : PowerState) : Dev :=
  if d.power.st = p then d else Dev.raise { d with power := { d.power with st := p } } 1

/-- BAR0 offset `off` takes writes in the held state: identity and status, the Coppice log registers, those of the partitions
among them, the RTP mailbox (11 R340). -/
def heldWritable (off : Nat) : Bool :=
  off < 0x4000 || (0x8008 ≤ off && off < 0x8050) || (0x8100 ≤ off && off < 0x8300 && 0x40 ≤ off % 0x80 && off % 0x80 < 0x68) ||
    (0xC000 ≤ off && off < 0x10000)

/-- The held state ignores a write to BAR0 offset `off` (11 R340). -/
def Dev.heldOut (d : Dev) (off : Nat) : Bool := d.power.st = .held && !heldWritable off

/-- A write of `v` to the register at `off` that the port received: lost in D3hot (15 R437), ignored and recorded in the held
state, else `f`. -/
def Dev.onWrite (d : Dev) (off v : Nat) (f : Dev → Dev) : Dev :=
  if !d.on || d.power.d3 then d
  else if d.heldOut off then d.recordReg 0x0102 off (off + v % 2 ^ 32 * 2 ^ 32)
  else f d

/-! ### Free values -/

/-- Draw the next free value (assumption log 2). -/
def Dev.draw (d : Dev) : Nat × Dev := (Config.freeValue d.draws, { d with draws := d.draws + 1 })

end Sys2Proof.Machine
end

