-- ==== Sys2Proof/Machine/Fence.lean ====
section
/-! DEFINITION. Fences: rights, waiting, and the one operation by which every source signals (10 R311 to R315). -/

namespace Sys2Proof.Machine

def Dev.fence (d : Dev) (f : Nat) : Fence := Sparse.get (fun _ => Fence.reset) d.fences f

def Dev.setFence (d : Dev) (f : Nat) (x : Fence) : Dev :=
  { d with fences := Sparse.set (fun _ => Fence.reset) d.fences f x }

/-- The partition owns the fence ID (R311). -/
def Dev.fenceIn (d : Dev) (ctx f : Nat) : Bool := f < 16384 && rangePart d.parts 16384 f = ctxPart ctx

/-- Wait right of a context: the owner's, or granted by a share-list entry (R312). -/
def Fence.mayWait (x : Fence) (ctx : Nat) : Bool :=
  x.owner = ctx || x.shares.any fun s => s.ctx = ctx && s.wait

/-- Signal right of a context. -/
def Fence.maySignal (x : Fence) (ctx : Nat) : Bool :=
  x.owner = ctx || x.shares.any fun s => s.ctx = ctx && s.sig

/-- How a wait for fence `f` to hold at least `v` stands. -/
inductive WaitRes where
  | ready
  | notYet
  /-- the wait ends with this status: `OWNER_LOST` on a broken fence, `FENCE_DENIED` without the right -/
  | fails (status : Nat)
  deriving DecidableEq, Repr

def Dev.waitFence (d : Dev) (ctx f v : Nat) : WaitRes :=
  let x := d.fence f
  if !d.fenceIn ctx f then .fails 7
  else match x.st with
    | .free => .fails 7
    | .broken => .fails 2
    | .live => if !x.mayWait ctx then .fails 7 else if v ≤ x.value then .ready else .notYet

/-- `DETAIL` of entries 0x0A02 and 0x0A03 (Table 10-12). -/
def fenceDetail (f ctx : Nat) (remote : Bool) : Nat := f + ctxId ctx * 2 ^ 14 + b2n remote * 2 ^ 26

/-- The value applied: the journal mirror holds it, waiters see it, and its consequences are due (R306, R314). -/
def Dev.applySignal (d : Dev) (f v : Nat) : Dev :=
  let d := (d.setFence f { d.fence f with value := v }).traceEvent 2 f
  { d with sigsDue := d.sigsDue ++ [(f, v)] }

/-- Signal fence `f` with `v` for context `ctx`; status 0 `OK`, 2 `OWNER_LOST`, 6 `REGRESSIVE`, 7 `FENCE_DENIED`
(R311, R312, R314, R315). `remote` marks a SIGNAL message, whose right is the fence's `REMOTE` flag. -/
def Dev.signal (d : Dev) (ctx f v : Nat) (remote : Bool) : Dev × Nat :=
  let x := d.fence f
  if !d.fenceIn ctx f then (d, 7)
  else match x.st with
    | .free => (d, 7)
    | .broken => (d.recordCtx 1 0x0A03 ctx (fenceDetail f ctx remote), if remote then 7 else 2)
    | .live =>
      if !(if remote then x.remote else x.maySignal ctx) then (d, 7)
      else if v ≤ x.value then
        (d.recordCtx 1 0x0A02 ctx (fenceDetail f ctx remote), 6)
      else (d.applySignal f v, 0)

/-- A signal by a tile or an engine: a regressive one adds 1 to the context's count and the work goes on (R314). A use
without the right is reported by the status. -/
def Dev.engineSignal (d : Dev) (ctx f v : Nat) : Dev × Nat :=
  let (d, s) := d.signal ctx f v false
  if s = 6 then (d.account ctx 7 1, 6) else (d, s)

/-- A SIGNAL message's signal: a regressive one counts at the destination (R314). -/
def Dev.remoteSignal (d : Dev) (p f v : Nat) : Dev :=
  let (d, s) := d.signal p f v true
  if s = 6 then d.account p 7 1 else d

/-- An owner's teardown breaks its live fences and takes the context off the other fences' share lists (R315). -/
def Dev.breakFences (d : Dev) (ctx : Nat) : Dev :=
  { d with fences := d.fences.map fun e =>
      if e.2.st = .live ∧ e.2.owner = ctx then (e.1, { e.2 with st := .broken })
      else (e.1, { e.2 with shares := e.2.shares.filter fun s => s.ctx ≠ ctx }) }

/-- When a context opens in partition `p`, its broken fences without share-list entries become `FREE` (R315). -/
def Dev.freeBroken (d : Dev) (p : Nat) : Dev :=
  { d with fences := d.fences.filter fun e =>
      !(e.2.st = .broken && e.2.shares.isEmpty && rangePart d.parts 16384 e.1 = p) }

end Sys2Proof.Machine
end

