-- ==== Sys2Proof/Machine/Links.lean ====
section
/-! DEFINITION. Reed and the sending side of the Shuttles: coordinates, the hole list, routes, and sending a message
(07 R183, R190 to R193, R208 to R215). -/

namespace Sys2Proof.Machine

/-! ### Coordinates (00 R7) -/

structure Coord where
  x : Nat
  y : Nat
  z : Nat
  deriving DecidableEq, Repr

def Coord.ofNat (v : Nat) : Coord := { x := bits v 12 5, y := bits v 6 6, z := bits v 0 6 }

def Coord.toNat (c : Coord) : Nat := c.x * 4096 + c.y * 64 + c.z

/-- The torus dimensions (R183). -/
def Dev.torus (d : Dev) : Coord :=
  { x := d.fld 0x1400C 0 5 + 1, y := d.fld 0x1400C 5 6 + 1, z := d.fld 0x1400C 11 6 + 1 }

def Dev.here (d : Dev) : Coord := Coord.ofNat (d.fld 0x14008 0 17)

/-- The port that port `n` faces (Table 07-1). -/
def facing (n : Nat) : Nat := if n % 2 = 0 then n + 1 else n - 1

/-- The device that port `n` of the device at `c` faces (Table 07-1). -/
def neighbour (t c : Coord) (n : Nat) : Coord :=
  match n with
  | 0 => { c with x := (c.x + 1) % t.x }
  | 1 => { c with x := (c.x + t.x - 1) % t.x }
  | 2 => { c with y := (c.y + 1) % t.y }
  | 3 => { c with y := (c.y + t.y - 1) % t.y }
  | 4 => { c with z := (c.z + 1) % t.z }
  | 5 => { c with z := (c.z + t.z - 1) % t.z }
  | 6 => { c with x := (c.x + 2) % t.x }
  | _ => { c with x := (c.x + 2 * t.x - 2) % t.x }

/-- A port that the torus leaves disabled: a dimension of length 1, the bypass below nX = 4 (R183). -/
def portAbsent (t : Coord) (n : Nat) : Bool :=
  match n with
  | 0 => t.x = 1
  | 1 => t.x = 1
  | 2 => t.y = 1
  | 3 => t.y = 1
  | 4 => t.z = 1
  | 5 => t.z = 1
  | _ => t.x < 4

/-! ### Ports -/

def Dev.port (d : Dev) (n : Nat) : Port := Sparse.get (fun _ => Port.reset) d.shuttle.ports n

def Dev.setPort (d : Dev) (n : Nat) (x : Port) : Dev :=
  { d with shuttle := { d.shuttle with ports := Sparse.set (fun _ => Port.reset) d.shuttle.ports n x } }

/-- A port passes to a state; vector 3 is raised when its `STATE` changes (11 Table 11-7). -/
def Dev.movePort (d : Dev) (n : Nat) (x : Port) : Dev :=
  let changed := x.st ≠ (d.port n).st
  let d := d.setPort n x
  if changed then d.raise 3 else d

/-- Every link port goes to `DOWN` but those Coppice removed (09 Table 09-5, 15 Table 15-2). -/
def Dev.portsDown (d : Dev) : Dev :=
  (List.range 8).foldl (fun d n =>
    if (d.port n).st = .fenced then d else d.movePort n { Port.reset with mgmtKey := (d.port n).mgmtKey }) d

/-! ### The hole list (R210): an entry names a device or a link -/

def Dev.hole (d : Dev) (i : Nat) : Nat := (d.reg (0x14200 + 4 * i)).toNat

/-- Some valid entry satisfies `f`. -/
def Dev.holeAny (d : Dev) (f : Nat → Bool) : Bool :=
  (List.range 256).any fun i => bit (d.hole i) 21 && f (d.hole i)

/-- The whole device at `c` is in the hole list. -/
def Dev.deadDevice (d : Dev) (c : Coord) : Bool := d.holeAny fun e => !bit e 20 && bits e 0 17 = c.toNat

/-- The link from port `n` of the device at `c` is in the hole list, named from either end. -/
def Dev.deadLink (d : Dev) (c : Coord) (n : Nat) : Bool :=
  let o := neighbour d.torus c n
  d.holeAny fun e => bit e 20 &&
    ((bits e 0 17 = c.toNat && bits e 17 3 = n) || (bits e 0 17 = o.toNat && bits e 17 3 = facing n))

/-- The torus has the link beyond port `n` of the device at `c`, and neither it nor the neighbour is in the hole list. -/
def Dev.live (d : Dev) (c : Coord) (n : Nat) : Bool :=
  !portAbsent d.torus n && !d.deadLink c n && !d.deadDevice (neighbour d.torus c n)

/-- Link and neighbour beyond port `n` of the device at `c` are usable; of its own ports the device also knows the state. -/
def Dev.usable (d : Dev) (c : Coord) (n : Nat) : Bool := d.live c n && (c ≠ d.here || (d.port n).st = .up)

/-- The way along a ring of length `n` from `a` to `b`: the shorter, on a tie the positive; true is positive. -/
def forward (n a b : Nat) : Bool := 2 * ((b + n - a) % n) ≤ n

def ringHops (n a b : Nat) : Nat := if forward n a b then (b + n - a) % n else (a + n - b) % n

/-- Every link and device of a leg of `k` hops through port `n` from `c` is usable. -/
def Dev.legOk (d : Dev) (n : Nat) : Nat → Coord → Bool
  | 0, _ => true
  | k + 1, c => d.usable c n && Dev.legOk d n k (neighbour d.torus c n)

/-- The Z leg from `c`, then the Y leg, toward `g` (R210). -/
def Dev.zyOk (d : Dev) (c g : Coord) : Bool :=
  let t := d.torus
  d.legOk (if forward t.z c.z g.z then 4 else 5) (ringHops t.z c.z g.z) c &&
  d.legOk (if forward t.y c.y g.y then 2 else 3) (ringHops t.y c.y g.y) { c with z := g.z }

/-- The column that carries the Z and Y legs, as the port of the first hop into it, 8 for the own column (R210). -/
def Dev.column (d : Dev) (g : Coord) : Option Nat :=
  let t := d.torus
  let c := d.here
  ([8, 0, 1] ++ (if t.x < 4 then [] else [6, 7])).find? fun n =>
    if n = 8 then d.zyOk c g else d.usable c n && d.zyOk (neighbour t c n) g

/-- The hole list leaves the X leg from `c` to position `x` a next hop at each of at most `k` devices (R210, R211). -/
def Dev.xOk (d : Dev) (x : Nat) : Nat → Coord → Bool
  | 0, c => c.x = x
  | k + 1, c =>
    let t := d.torus
    let up := forward t.x c.x x
    let b := if up then 6 else 7
    let n := if up then 0 else 1
    if c.x = x then true
    else if 2 ≤ ringHops t.x c.x x ∧ d.live c b then d.xOk x k (neighbour t c b)
    else d.live c n && d.xOk x k (neighbour t c n)

/-- A column carries the Z and Y legs to `g`, and the X leg from there passes the hole list (R210, R211). -/
def Dev.routed (d : Dev) (g : Coord) : Bool :=
  match d.column g with
  | some n =>
    let c := if n = 8 then d.here else neighbour d.torus d.here n
    d.xOk g.x 32 { g with x := c.x }
  | none => false

/-- The next hop at this device toward `g`, the port, 8 to deliver; none when no next hop is usable (R210). -/
def Dev.nextHop (d : Dev) (g : Coord) : Option Nat :=
  let t := d.torus
  let c := d.here
  if c.z ≠ g.z then
    let n := if forward t.z c.z g.z then 4 else 5
    if d.usable c n then some n else none
  else if c.y ≠ g.y then
    let n := if forward t.y c.y g.y then 2 else 3
    if d.usable c n then some n else none
  else if c.x ≠ g.x then
    let up := forward t.x c.x g.x
    let b := if up then 6 else 7
    let n := if up then 0 else 1
    if 2 ≤ ringHops t.x c.x g.x ∧ d.usable c b then some b
    else if d.usable c n then some n else none
  else some 8

/-! ### Slices (R208, R210) -/

def sliceReg (p : Nat) : Nat := 0x14600 + 0x200 * p

def Dev.sliceValid (d : Dev) (p : Nat) : Bool := d.fld (sliceReg p) 12 1 = 1

def Dev.sliceId (d : Dev) (p : Nat) : Nat := d.fld (sliceReg p) 0 12

def Dev.logical (d : Dev) (p : Nat) : Coord := Coord.ofNat (d.fld (sliceReg p + 4) 0 17)

/-- Source ID of partition `p` (R191). -/
def Dev.sourceId (d : Dev) (p : Nat) : Nat := (d.logical p).toNat * 4 + p

/-- The logical coordinate lies within the slice's extent. -/
def Dev.inExtent (d : Dev) (p : Nat) (c : Coord) : Bool :=
  let e := sliceReg p + 0xC
  c.x ≤ d.fld e 0 5 && c.y ≤ d.fld e 5 6 && c.z ≤ d.fld e 11 6

/-- Physical position of a logical one: origin and substitution (R210). -/
def Dev.physical (d : Dev) (p : Nat) (c : Coord) : Coord :=
  let o := Coord.ofNat (d.fld (sliceReg p + 8) 0 17)
  let t := d.torus
  let sub := (List.range 64).find? fun i =>
    let r := sliceReg p + 0x100 + 4 * i
    d.fld r 22 1 = 1 && d.fld r 0 17 = c.toNat
  { x := match sub with
      | some i => d.fld (sliceReg p + 0x100 + 4 * i) 17 5
      | none => (o.x + c.x) % t.x
    y := (o.y + c.y) % t.y
    z := (o.z + c.z) % t.z }

/-! ### Sending -/

def Dev.sh (d : Dev) (p : Nat) : ShPart := Sparse.get (fun _ => ShPart.reset) d.shuttle.parts p

def Dev.setSh (d : Dev) (p : Nat) (x : ShPart) : Dev :=
  { d with shuttle := { d.shuttle with parts := Sparse.set (fun _ => ShPart.reset) d.shuttle.parts p x } }

def shReg (p : Nat) : Nat := 0x15100 + 0x80 * p

/-- After the message with `CTR` 2³⁶ − 1 the next carries `EPOCH` + 1 and `CTR` 0 (R215). -/
def Dev.rollEpoch (d : Dev) (p : Nat) : Dev :=
  let x := d.sh p
  if x.ctr < 2 ^ 36 then d
  else (d.setSh p { x with ctr := 0, epoch := x.epoch + 1 }).setFld (shReg p + 0x48) 0 32 (x.epoch + 1)

/-! ### Messages as they stand on a link (R191, R193, R214) -/

/-- The 32 header bytes (Table 07-5). -/
def msgHeader (m : Msg) : List Byte :=
  let w1 := if m.typ = 4 ∨ m.typ = 8 then m.reqCtr + m.status * 2 ^ 36 else m.addr + m.key * 2 ^ 41 + m.tile * 2 ^ 53
  leBytes 8 (m.typ + m.ch * 2 ^ 4 + m.dest * 2 ^ 8 + m.src * 2 ^ 27 + m.slice * 2 ^ 46 + b2n m.eng * 2 ^ 58) ++ leBytes 8 w1 ++
    leBytes 8 (m.ctr + m.len * 2 ^ 36 + m.serial * 2 ^ 43) ++ leBytes 8 (m.epoch + m.cseq * 2 ^ 32)

/-- The sender's traffic key under a job key: the information string takes `SLICE`, `SRC` and `EPOCH` in whole bytes (R214). -/
def trafficKey (job : Nat) (m : Msg) : List Nat :=
  Crypt.hkdf (Crypt.secretBytes job)
    (Crypt.ascii "LQ16-TRAFFIC" ++ Crypt.ofBytes (leBytes 2 m.slice ++ leBytes 3 m.src ++ leBytes 4 m.epoch)) 32

/-- The nonce: `CTR` in bytes 0 to 7, zero in bytes 8 to 11. -/
def msgNonce (m : Msg) : List Nat := Crypt.ofBytes (leBytes 8 m.ctr ++ leBytes 4 0)

/-- The tag over header and ciphertext. -/
def msgTag (job : Nat) (m : Msg) : List Byte :=
  Crypt.toBytes (Crypt.gcmTag (trafficKey job m) (msgNonce m) (Crypt.ofBytes (msgHeader m)) (Crypt.ofBytes m.payload))

/-- The payload encrypted or decrypted. -/
def msgCrypted (job : Nat) (m : Msg) : List Byte :=
  Crypt.toBytes (Crypt.gcmCrypt (trafficKey job m) (msgNonce m) (Crypt.ofBytes m.payload))

/-- A clear message as it goes out. -/
def msgSeal (job : Nat) (m : Msg) : Msg :=
  let c := { m with payload := msgCrypted job m }
  { c with tag := msgTag job c }

/-- The tag of an arriving message verifies. -/
def msgVerifies (job : Nat) (m : Msg) : Bool := decide (m.tag = msgTag job m)

/-- Bytes of a message on the wire: route word, header, payload, tag (R184, R193). -/
def msgWire (m : Msg) : Nat := 56 + m.payload.length

/-! ### Regulators of the link ports (10 R321, R322) -/

/-- Wire bytes per window and port direction (10 R321). -/
def linkWindow : Nat := 200000000

/-- Keys of the budgets used in the window: of a port's transit, of a partition's bytes sent and received on a port. -/
def transitKey (port : Nat) : Nat := 1000 + port
def sentKey (p port : Nat) : Nat := 16 * p + port
def rcvdKey (p port : Nat) : Nat := 2000 + 16 * p + port

def Dev.transitShare (d : Dev) : Nat := d.fld 0x4004 0 6

/-- What `s` shares in 1/64 of the partitions' part of a port direction come to. -/
def Dev.linkBudget (d : Dev) (s : Nat) : Nat := linkWindow * (64 - d.transitShare) / 64 * s / 64

def Dev.linkShare (d : Dev) (p : Nat) : Nat := d.fld (0x4130 + 0x100 * p) 8 7

/-- All budget of a port direction, transit's own share among it where it has one. -/
def Dev.linkPool (d : Dev) : Nat :=
  d.linkBudget (((List.range d.parts).map d.linkShare).foldl (· + ·) 0) + linkWindow * d.transitShare / 64

/-- `n` wire bytes of partition `p`, counted under the keys `k`, fit in its share, or in what the others lend; `transit` is what
transit has used of the direction. With `TRANSIT` 0 partitions never wait on transit. -/
def Dev.partFits (d : Dev) (k : Nat → Nat) (transit p n : Nat) : Bool :=
  d.usedBytes (k p) + n ≤ d.linkBudget (d.linkShare p) ||
    (d.lends && d.partsUsed k + (if d.transitShare = 0 then 0 else transit) + n ≤ d.linkPool)

/-- Transit fits in the window: in its own share when `TRANSIT` is set, else in what the partitions have left idle so far. -/
def Dev.transitFits (d : Dev) (port n : Nat) : Bool :=
  let used := d.usedBytes (transitKey port) + n
  let all := d.partsUsed (fun p => sentKey p port) + used
  if d.transitShare = 0 then all ≤ linkWindow
  else used ≤ linkWindow * d.transitShare / 64 || (d.lends && all ≤ d.linkPool)

/-- A message of partition `o`, or transit, may leave on port `n` now: none of its kind waits before it there, and it fits. The way
inside the device, 8, is no port. -/
def Dev.mayGo (d : Dev) (n : Nat) (o : Option Nat) (bytes : Nat) : Bool :=
  n = 8 || (!(d.shuttle.queue.any fun e => e.1 = n && e.2.1 = o) &&
    match o with
    | some p => d.partFits (fun p => sentKey p n) (d.usedBytes (transitKey n)) p bytes
    | none => d.transitFits n bytes)

/-- The message on port `n`: Reed sets the dateline class of the route word (R193). -/
def Dev.onLink (d : Dev) (n : Nat) (m : Msg) : Msg :=
  if n = 8 then m else { m with route := setBits m.route 17 1 (b2n (Config.dateline d.here.toNat (bits m.route 0 17) n)) }

/-- The message leaves on port `n`, counted against its budget; transit also in `RD_TRANSIT`. -/
def Dev.putOut (d : Dev) (n : Nat) (o : Option Nat) (m : Msg) : Dev :=
  let e := if n = 8 then d else match o with
    | some p => d.use (sentKey p n) (msgWire m)
    | none => (d.use (transitKey n) (msgWire m)).bump 0x14018 (msgWire m)
  { e with shuttle := { e.shuttle with tx := e.shuttle.tx ++ [(n, d.onLink n m)] } }

/-- Put a message on port `n`, or leave it waiting for budget, in order (10 R321). -/
def Dev.onPort (d : Dev) (n : Nat) (o : Option Nat) (m : Msg) : Dev :=
  if d.mayGo n o (msgWire m) then d.putOut n o m
  else { d with shuttle := { d.shuttle with queue := d.shuttle.queue ++ [(n, o, m)] } }

/-- Put a message on the link that carries it, or hold it when no next hop is usable (R210). -/
def Dev.emit (d : Dev) (o : Option Nat) (m : Msg) : Dev :=
  match d.nextHop (Coord.ofNat (bits m.route 0 17)) with
  | some n => d.onPort n o m
  | none => { d with shuttle := { d.shuttle with held := d.shuttle.held ++ [(o, m)] } }

/-- A new window: messages that waited for budget go in order, each while its port carries them; a port gone down leaves them to
the routes (10 R321). -/
def Dev.drainQueue (d : Dev) : Dev :=
  d.shuttle.queue.foldl (fun d e => if (d.port e.1).st = .up then d.onPort e.1 e.2.1 e.2.2 else d.emit e.2.1 e.2.2)
    { d with shuttle := { d.shuttle with queue := [] } }

/-- The C2 entry of a message that this device holds for want of a next hop (R210, Table 09-7). -/
def Dev.noteHeld (d : Dev) (g : Coord) : Dev :=
  if (d.nextHop g).isNone then d.record 2 0x0603 .hub 2 none g.toNat else d

/-- A message as a partition's unit forms it; `Dev.send` stamps the rest. -/
structure Draft where
  typ : Nat
  ch : Nat
  dest : Nat
  eng : Bool
  addr : Nat
  key : Nat
  tile : Nat
  serial : Nat
  len : Nat
  reqCtr : Nat
  status : Nat
  payload : List Byte
  deriving DecidableEq, Repr

def Draft.blank : Draft :=
  { typ := 0, ch := 0, dest := 0, eng := false, addr := 0, key := 0, tile := 0, serial := 0, len := 0, reqCtr := 0,
    status := 0, payload := [] }

/-- Whether a remote op of partition `p` can reach `dest`: a valid slice entry, a destination within the extent, a column
among the five candidates, an X leg (R208, R210, R211), units enabled. -/
def Dev.reachable (d : Dev) (p dest : Nat) : Bool :=
  d.sliceValid p && d.inExtent p (Coord.ofNat (dest / 4)) && d.fld 0x14000 0 1 = 1 && d.fld 0x15000 0 1 = 1 &&
    d.routed (d.physical p (Coord.ofNat (dest / 4)))

/-- Send a message of partition `p`: Reed stamps slice and source, `CTR`, `EPOCH` and `CSEQ` advance, and it is sealed under the
partition's job key (R191, R208, R214, R215). The first hop into another column goes out first (R210). -/
def Dev.send (d : Dev) (p : Nat) (w : Draft) : Dev :=
  let d := d.rollEpoch p
  let x := d.sh p
  let k := w.dest * 16 + w.ch
  let n := Sparse.get (fun _ => 0) x.cseq k
  let g := d.physical p (Coord.ofNat (w.dest / 4))
  let m : Msg := { route := g.toNat + (if w.typ = 4 ∨ w.typ = 8 then 2 ^ 18 else 0), typ := w.typ, ch := w.ch,
                   dest := w.dest, src := d.sourceId p, slice := d.sliceId p, eng := w.eng, addr := w.addr, key := w.key,
                   tile := w.tile, ctr := x.ctr, len := w.len, serial := w.serial, epoch := x.epoch, cseq := n,
                   reqCtr := w.reqCtr, status := w.status, payload := w.payload, tag := [] }
  let m := msgSeal (d.rtpPart p).secret m
  let d := d.setSh p { x with ctr := x.ctr + 1, cseq := Sparse.set (fun _ => 0) x.cseq k ((n + 1) % 2 ^ 32) }
  let d := (d.bump (shReg p + 8) 1).bump (shReg p + 0x18) w.payload.length
  let d := d.account p 5 w.payload.length
  match d.column g with
  | some 8 => (d.noteHeld g).emit (some p) m
  | some c => d.onPort c (some p) m
  | none => ({ d with shuttle := { d.shuttle with held := d.shuttle.held ++ [(some p, m)] } }).record 2 0x0603 .hub 2 none g.toNat

end Sys2Proof.Machine
end

