-- ==== Sys2Proof/Machine/Mem.lean ====
section
/-! DEFINITION. Device memory through Selvedge: the address map, grants, lines and counters, re-encryption (12 R349 to
R376). A line's ciphertext, MAC and ECC are functions of what the model keeps: plaintext, key, epoch and counter. -/

namespace Sys2Proof.Machine

/-! ### Address map (R349) -/

def granuleBytes : Nat := 2097152

/-- Bytes of a partition's window. -/
def Dev.window (d : Dev) : Nat := 2 ^ 41 / d.parts

/-- The stack on which address `a` lies. -/
def Dev.stackOf (d : Dev) (a : Nat) : Nat :=
  a / d.window * (16 / d.parts) + a % d.window / granuleBytes % (16 / d.parts)

/-- Whether the granule of `a` is populated. -/
def Dev.populated (d : Dev) (a : Nat) : Bool :=
  a < 2 ^ 41 && a % d.window / granuleBytes / (16 / d.parts) < 38146

/-- A populated address of partition `p`'s window. -/
def Dev.inWindow (d : Dev) (p a : Nat) : Bool := d.populated a && a / d.window = p

/-! ### Key slots and regions -/

def Dev.key (d : Dev) (k : Nat) : KeySlot := Sparse.get KeySlot.reset d.keys k

def Dev.setKey (d : Dev) (k : Nat) (x : KeySlot) : Dev := { d with keys := Sparse.set KeySlot.reset d.keys k x }

/-- Slot `k` is `VALID` for a request made for partition `p` (R362, 13 R387): slot 0 is the open slot of every one. -/
def Dev.keyValid (d : Dev) (p k : Nat) : Bool :=
  k = 0 || (k < 4096 && rangePart d.parts 4096 k = p && (d.key k).valid)

def Dev.region (d : Dev) (n : Nat) : Region := Sparse.get (fun _ => Region.reset) d.regions n

def Dev.setRegion (d : Dev) (n : Nat) (x : Region) : Dev :=
  { d with regions := Sparse.set (fun _ => Region.reset) d.regions n x }

/-- The region covers granule `g`. -/
def Region.covers (x : Region) (g : Nat) : Bool := x.base ≤ g && g < x.base + x.granules

/-- A live region grants accesses (R359). -/
def Region.isLive (x : Region) : Bool := x.st = .live || x.st = .reencrypting

/-- The live region that holds address `a`. -/
def Dev.regionOf (d : Dev) (a : Nat) : Option Nat :=
  (d.regions.find? fun e => e.2.isLive && e.2.covers (a / granuleBytes)).map Prod.fst

/-! ### Grants (R362, R363, 13 R405) -/

/-- A request: the context it acts for, its class (Table 12-3), its key index. -/
structure Req where
  ctx : Nat
  cls : Nat
  key : Nat
  deriving DecidableEq, Repr

inductive Access where
  | granted (num : Nat)
  | bounds
  | refused
  /-- refused by the aggregation floor: entry 0x0406 in place of 0x0501 -/
  | floor
  deriving DecidableEq, Repr

/-- The job slot of partition `p`'s context permits tile writes under key index 0 (R363). -/
def Dev.openOut (d : Dev) (p : Nat) : Bool :=
  let j := d.fld (0x4110 + 0x100 * p) 0 12
  j ≠ 0 && (d.key j).valid && (d.key j).openOut

def Dev.setRtpPart (d : Dev) (p : Nat) (x : RtpPart) : Dev :=
  { d with rtp := { d.rtp with parts := Sparse.set (fun _ => RtpPart.reset) d.rtp.parts p x } }

/-- The floor admits a tile write under key index 0 now (R405). -/
def Dev.floorAdmits (d : Dev) (p : Nat) : Bool :=
  match (d.rtpPart p).manifest with
  | some m => m.floorSamples = 0 || (!d.p8 && (d.rtpPart p).floorOpen)
  | none => true

/-- Whether Selvedge grants request `q` to address `a`. -/
def Dev.access (d : Dev) (q : Req) (a : Nat) (write : Bool) : Access :=
  let p := ctxPart q.ctx
  if !d.inWindow p a then .bounds
  else match d.regionOf a with
    | none => .refused
    | some n =>
      let x := d.region n
      if rangePart d.parts 4096 n ≠ p then .refused
      else if !(q.key = x.key || (x.multi && q.key ≠ 0 && (d.key q.key).job = (d.key x.key).job)) then .refused
      else if !d.keyValid p q.key then .refused
      else if x.key ≠ 0 && !d.keyValid p x.key then .refused
      else if x.key ≠ 0 && d.fld 0x10000 0 1 = 0 then .refused
      else match q.cls with
        | 0 =>
          if write && x.key = 0 then
            if !d.openOut p then .refused else if !d.floorAdmits p then .floor else .granted n
          else .granted n
        | 1 => if q.key = 0 then .refused else .granted n
        | _ => if x.key = 0 then .granted n else .refused

/-! ### Outcomes of an access -/

inductive MemFail where
  | denied | bounds | bad
  /-- a counter would pass 0xFFFF: the write waits (R372) -/
  | wait
  deriving DecidableEq, Repr

inductive Res (α : Type) where
  | ok (d : Dev) (x : α)
  | fail (d : Dev) (why : MemFail)

/-- Go on after an access by how it ended. -/
def Res.elim {α β : Type} (x : Res α) (ok : Dev → α → β) (fail : Dev → MemFail → β) : β :=
  match x with
  | .ok d x => ok d x
  | .fail d w => fail d w

/-- The entry of a refused access (R362, R405). -/
def Dev.refuse (d : Dev) (q : Req) (a : Nat) (write floor : Bool) : Dev :=
  let d := d.bump 0x10030 1
  if floor then d.record 0 0x0406 .selvedge (d.stackOf a) (some (ctxPart q.ctx)) a
  else d.record 0 0x0501 .selvedge (d.stackOf a) (some (ctxPart q.ctx))
    (a + q.key * 2 ^ 41 + q.cls * 2 ^ 53 + b2n write * 2 ^ 55)

/-- The whole range is granted, or the first address at which it is not. -/
def Dev.grantAll (d : Dev) (q : Req) (write : Bool) : List Nat → Option (Access × Nat)
  | [] => none
  | l :: ls =>
    match d.access q (128 * l) write with
    | .granted _ => Dev.grantAll d q write ls
    | x => some (x, 128 * l)

/-- The 128-byte lines that `n` bytes from `a` touch. -/
def linesOf (a n : Nat) : List Nat := if n = 0 then [] else rangeFrom (a / 128) ((a + n - 1) / 128 - a / 128 + 1)

/-! ### Lines -/

/-- The step of region `x` that holds line `l`. -/
def Region.stepOf (x : Region) (l : Nat) : Nat := (l - x.base * 16384) / 512

/-- The epoch under which line `l` is read and written: E′ once its step's bit is set, E before (R368). -/
def Region.epochOf (x : Region) (l : Nat) : Nat :=
  if x.st = .reencrypting ∧ !x.taken.contains (x.stepOf l) then x.prior else x.epoch

/-- What is kept of line `l` of region `x`: as opened when nothing is listed (R360). -/
def Dev.lineMeta (d : Dev) (x : Region) (l : Nat) : LineMeta :=
  match Sparse.get (fun _ => none) d.lines l with
  | some m => m
  | none => { key := x.key, secret := x.secret, epoch := x.epochOf l, ctr := 0, bad := false, ecc := false }

def Dev.setLine (d : Dev) (l : Nat) (m : Option LineMeta) : Dev :=
  { d with lines := Sparse.set (fun _ => none) d.lines l m }

def Dev.byte (d : Dev) (a : Nat) : Byte := Sparse.get (fun _ => 0) d.mem a

def Dev.bytes (d : Dev) (a n : Nat) : List Byte := (List.range n).map fun i => d.byte (a + i)

def Dev.setByte (d : Dev) (a : Nat) (b : Byte) : Dev := { d with mem := Sparse.set (fun _ => 0) d.mem a b }

def Dev.setBytes (d : Dev) : Nat → List Byte → Dev
  | _, [] => d
  | a, b :: bs => Dev.setBytes (d.setByte a b) (a + 1) bs

/-- The runs without the lines from `lo` on, `n` of them; within a run the higher line is the later one. -/
def dropRun (lo n : Nat) : List (Nat × Nat) → List (Nat × Nat)
  | [] => []
  | (a, m) :: rs =>
    (if lo + n < a + m then [(max a (lo + n), a + m - max a (lo + n))] else []) ++
      (if a < lo then [(a, min m (lo - a))] else []) ++ dropRun lo n rs

/-- The latest `k` lines of the runs. -/
def keepLines : Nat → List (Nat × Nat) → List (Nat × Nat)
  | _, [] => []
  | k, (a, m) :: rs => if m ≤ k then (a, m) :: keepLines (k - m) rs else if k = 0 then [] else [(a + m - k, k)]

/-- A run is the latest; it extends the run it follows on from. -/
def addRun (lo n : Nat) (rs : List (Nat × Nat)) : List (Nat × Nat) :=
  match dropRun lo n rs with
  | (a, m) :: qs => if a + m = lo then (a, m + n) :: qs else (lo, n) :: (a, m) :: qs
  | [] => [(lo, n)]

/-- A Selvedge reads or writes `n` lines from `l`, all on one stack: it keeps the counters of the 65,536 latest (R354). -/
def Dev.touchRun (d : Dev) (l n : Nat) : Dev :=
  let k := d.stackOf (128 * l)
  { d with ctrCache := Sparse.set (fun _ => []) d.ctrCache k (keepLines 65536 (addRun l n (Sparse.get (fun _ => []) d.ctrCache k))) }

def Dev.touch (d : Dev) (l : Nat) : Dev := d.touchRun l 1

def Dev.cached (d : Dev) (l : Nat) : Bool :=
  (Sparse.get (fun _ => []) d.ctrCache (d.stackOf (128 * l))).any fun r => r.1 ≤ l && l < r.1 + r.2

/-- The line fails its check when read under key index `k`, whose slot holds `secret` (R355, R375): its MAC holds under the key,
the secret and the epoch it was written under alone (R356; assumption log 104). -/
def LineMeta.failsUnder (m : LineMeta) (x : Region) (l k secret : Nat) : Bool :=
  m.bad || (x.key ≠ 0 && !(m.key = k && m.secret = secret && m.epoch = x.epochOf l))

/-- What the next read of line `l` finds stored, beside what it was written with. -/
def Dev.latent (d : Dev) (l : Nat) : LineFound := Sparse.get (fun _ => .good) d.sv.latent l

def Dev.setLatent (d : Dev) (l : Nat) (f : LineFound) : Dev :=
  { d with sv := { d.sv with latent := Sparse.set (fun _ => .good) d.sv.latent l f } }

/-- A bad line: counted, and recorded against the requester's context in a protected region (R375). `ecc` tells the two
causes apart, `patrol` marks a patrol read (R377). -/
def Dev.badLine (d : Dev) (num l ctx key : Nat) (ecc patrol : Bool) : Dev :=
  let x := d.region num
  let d := d.setRegion num { x with bad := x.bad + 1 }
  let d := d.bump (if ecc then 0x10020 else 0x10028) 1
  let detail := 128 * l + key * 2 ^ 41 + b2n patrol * 2 ^ 63
  if x.key = 0 then d.record 1 0x0507 .selvedge (d.stackOf (128 * l)) (some (ctxPart ctx)) detail
  else d.recordC3 (if ecc then 0x0504 else 0x0505) ctx detail

/-- What a read of line `l` of region `n` finds stored, `f`, and what follows (R374, R375): a corrected line is written back
unchanged, its error counted against its stack; a line that fails twice is bad from then on. True: the line passes. -/
def Dev.meetLine (d : Dev) (n l ctx key : Nat) (f : LineFound) (patrol : Bool) : Dev × Bool :=
  let k := d.stackOf (128 * l)
  let p := rangePart d.parts 4096 n
  let x := d.region n
  let bad (ecc : Bool) : Dev × Bool :=
    (((d.setLatent l .good).setLine l (some { d.lineMeta x l with bad := true, ecc := ecc })).badLine n l ctx key ecc patrol, false)
  match f with
  | .good => (d, true)
  | .corrected b =>
    let d := ((d.setLatent l .good).bump 0x10010 1).record 1 0x0502 .stack k (some p) (128 * l + b % 8 * 2 ^ 41)
    ({ d with sv := { d.sv with errs := d.sv.errs ++ [k] } }, true)
  | .retried => (((d.setLatent l .good).bump 0x10018 1).record 1 0x0503 .stack k (some p) (128 * l), true)
  | .badEcc => bad true
  | .badMac => if x.key = 0 then (d, true) else bad false

/-- A read of line `l` of region `n` under key index `key`: ECC, then the MAC under the line's epoch and key (R353). -/
def Dev.checkLine (d : Dev) (n l ctx key : Nat) : Dev × Bool :=
  let m := d.lineMeta (d.region n) l
  if m.failsUnder (d.region n) l key (d.key key).secret then (d.badLine n l ctx key (m.bad && m.ecc) false, false)
  else d.meetLine n l ctx key (d.latent l) false

/-- Read one granted line: no byte reaches the requester before the check has passed (R353). -/
def Dev.readLine (d : Dev) (q : Req) (l : Nat) : Res Unit :=
  match d.regionOf (128 * l) with
  | none => .fail d .denied
  | some n =>
    match (d.touch l).checkLine n l q.ctx q.key with
    | (d, true) => .ok d ()
    | (d, false) => .fail d .bad

def Dev.readLines (d : Dev) (q : Req) : List Nat → Res Unit
  | [] => .ok d ()
  | l :: ls =>
    match d.readLine q l with
    | .ok d _ => Dev.readLines d q ls
    | .fail d w => .fail d w

/-- Read `n` bytes from `a` under request `q` (R353, R362). -/
def Dev.read (d : Dev) (q : Req) (a n : Nat) : Res (List Byte) :=
  match d.grantAll q false (linesOf a n) with
  | some (.bounds, _) => .fail d .bounds
  | some (.floor, x) => .fail (d.refuse q x false true) .denied
  | some (_, x) => .fail (d.refuse q x false false) .denied
  | none =>
    match d.readLines q (linesOf a n) with
    | .ok d _ => .ok d (d.bytes a n)
    | .fail d w => .fail d w

/-! ### Epochs and re-encryption (R364 to R372) -/

def Dev.nextEpoch (d : Dev) (k : Nat) : Nat := Sparse.get (fun _ => 0) d.rtp.nextEpoch k

/-- Take the next epoch of slot `k` (R365). -/
def Dev.takeEpoch (d : Dev) (k : Nat) : Dev :=
  { d with rtp := { d.rtp with nextEpoch := Sparse.set (fun _ => 0) d.rtp.nextEpoch k (d.nextEpoch k + 1) } }

def Dev.regionPart (d : Dev) (n : Nat) : Nat := rangePart d.parts 4096 n

/-- Entry 0x0506: a region command is refused for `reason` (Table 12-7). -/
def Dev.refuseRegion (d : Dev) (n reason : Nat) : Dev :=
  d.record 0 0x0506 .selvedge 16 (some (d.regionPart n)) (n + reason * 2 ^ 12)

/-- Stack `k` holds a granule of the region. -/
def Dev.holdsGranule (d : Dev) (x : Region) (k : Nat) : Bool :=
  (List.range (min x.granules 16)).any fun i => d.stackOf ((x.base + i) * granuleBytes) = k

/-- A test under way on a Selvedge whose spare lane the region's re-encryption takes stops and does not count (01 R24, 15
Table 15-8). -/
def Dev.stopLaneTests (d : Dev) (x : Region) : Dev :=
  (List.range 16).foldl (fun d k =>
    if (d.unit .selvedge k).testing ∧ d.holdsGranule x k then d.setUnit .selvedge k { d.unit .selvedge k with testing := false }
    else d) d

/-- A re-encryption starts: new epoch, no step taken, the high-water counter counts the new epoch (R368). -/
def Dev.startReencrypt (d : Dev) (n : Nat) (sig : Option (Nat × Nat)) : Dev :=
  let x := d.region n
  if d.nextEpoch x.key = 0xFFFFFFFF then d.refuseRegion n 6
  else ((d.takeEpoch x.key).stopLaneTests x).setRegion n
    { x with st := .reencrypting, epoch := d.nextEpoch x.key, prior := x.epoch, hw := 0, due := false, taken := [], sig := sig }

/-- A command's completion signal (R367). -/
def Dev.regionSignal (d : Dev) (n : Nat) (sig : Option (Nat × Nat)) : Dev :=
  match sig with
  | some (f, v) => (d.engineSignal (d.regionPart n) f v).1
  | none => d

/-- When every step is taken the region is `OPEN` at the new epoch (R368); a further re-encryption that fell due starts
at once (R372). -/
def Dev.reencryptDone (d : Dev) (n : Nat) : Dev :=
  let x := d.region n
  if x.st = .reencrypting ∧ x.granules * 32 ≤ x.taken.length then
    let d := d.setRegion n { x with st := .live, taken := [], sig := none, due := false }
    let d := d.record 0 0x0508 .selvedge 16 (some (d.regionPart n)) (n + x.epoch * 2 ^ 32)
    let d := d.regionSignal n x.sig
    if x.due then d.startReencrypt n none else d
  else d

/-- A line of a step as re-encrypted: counter 0 under the new epoch. A line that the step cannot read keeps its stored bits, so
that it fails under the new epoch (R368, R375). -/
def Dev.restartLine (d : Dev) (x : Region) (l : Nat) : Option LineMeta :=
  let m := d.lineMeta x l
  if m.failsUnder x l m.key (d.key m.key).secret then some m
  else if m.key = x.key ∧ m.secret = x.secret then none
  else some { m with epoch := x.epoch, ctr := 0 }

/-- The lines of the step from `first` that need an entry once it is taken. A line with none is read as opened: it stays
unlisted while the region's slot still holds the secret it opened with. -/
def Dev.restartLines (d : Dev) (x : Region) (first : Nat) : Sparse (Option LineMeta) :=
  let ls := if x.secret = (d.key x.key).secret
    then (d.lines.map Prod.fst).filter fun l => first ≤ l && l < first + 512
    else rangeFrom first 512
  ls.foldl (fun s l => Sparse.set (fun _ => none) s l (d.restartLine x l)) []

def Dev.stepBufs (d : Dev) (k : Nat) : List StepBuf := Sparse.get (fun _ => []) d.sv.bufs k

def Dev.setBufs (d : Dev) (k : Nat) (bs : List StepBuf) : Dev :=
  { d with sv := { d.sv with bufs := Sparse.set (fun _ => []) d.sv.bufs k bs } }

/-- What the reads of a step find stored in its lines, for the partition's context (R374, R375). -/
def Dev.meetStep (d : Dev) (n first : Nat) : Dev :=
  ((d.sv.latent.map Prod.fst).filter fun l => first ≤ l && l < first + 512).foldl
    (fun d l => (d.meetLine n l (d.regionPart n) (d.lineMeta (d.region n) l).key (d.latent l) false).1) d

/-- Read the 512 lines of step `i` on stack `k` under E, write them under E′ into a step buffer, mark the buffer valid (R368). -/
def Dev.fillBuf (d : Dev) (n i k : Nat) : Dev × StepBuf :=
  let x := d.region n
  let first := x.base * 16384 + i * 512
  let d := (d.touchRun first 512).meetStep n first
  let b : StepBuf := { num := n, step := i, lines := d.restartLines x first }
  (d.setBufs k (d.stepBufs k ++ [b]), b)

/-- Write a valid buffer of stack `k` in place, set the step's bit, free the buffer (R368, R370). One whose re-encryption was
abandoned means nothing (R371). -/
def Dev.drainBuf (d : Dev) (k : Nat) (b : StepBuf) : Dev :=
  let x := d.region b.num
  let first := x.base * 16384 + b.step * 512
  let d := d.setBufs k ((d.stepBufs k).erase b)
  if x.st ≠ .reencrypting then d
  else
    let put (s : Sparse (Option LineMeta)) (e : Nat × Option LineMeta) := Sparse.insert s e.1 e.2
    let d := { d with lines := b.lines.foldl put (Sparse.clear d.lines first (first + 512)) }
    let d := (d.setRegion b.num { x with taken := insNat b.step x.taken }).bump 0x10038 1
    d.reencryptDone b.num

/-- Take step `i` of region `n`, 512 lines within one granule, through a step buffer (R368). -/
def Dev.takeStep (d : Dev) (n i : Nat) : Dev :=
  let x := d.region n
  if x.st ≠ .reencrypting ∨ x.taken.contains i ∨ x.granules * 32 ≤ i ∨ !d.keyValid (d.regionPart n) x.key then d
  else
    let k := d.stackOf ((x.base + i / 32) * granuleBytes)
    let (d, b) := d.fillBuf n i k
    d.drainBuf k b

/-- A write to a line whose step is not taken takes the step first (R369). -/
def Dev.forceStep (d : Dev) (n l : Nat) : Dev :=
  let x := d.region n
  if x.st = .reencrypting ∧ !x.taken.contains (x.stepOf l) then
    (d.takeStep n (x.stepOf l)).bump 0x10040 1
  else d

/-- A line counter that reaches `SV_THRESH` schedules the region's re-encryption (R366, R372). -/
def Dev.scheduleAt (d : Dev) (n c : Nat) : Dev :=
  let x := d.region n
  if c < d.fld 0x10004 0 16 then d
  else if x.st = .live then d.startReencrypt n none
  else if x.st = .reencrypting then d.setRegion n { x with due := true }
  else d

/-- The 144 bytes of a protected line are written with counter `c`; a counter that no read knew costs a burst (R352, R354). -/
def Dev.putLine (d : Dev) (n key l off c : Nat) (bs : List Byte) (known : Bool) : Dev :=
  let x := d.region n
  let d := if known then d else d.bump 0x10048 1
  let m : LineMeta := { key := key, secret := (d.key key).secret, epoch := x.epochOf l, ctr := c, bad := false, ecc := false }
  let d := ((d.setLine l (some m)).setLatent l .good).setBytes (128 * l + off) bs
  ((d.setRegion n { x with hw := max x.hw c }).touch l).scheduleAt n c

/-- Write part of one granted line, `off` bytes into it: an untaken step first (R369), then, for less than the line, its read
(R352), then the counter of R352 or, for a bad line, of R376. -/
def Dev.writeLine (d : Dev) (q : Req) (l off : Nat) (bs : List Byte) : Res Unit :=
  match d.regionOf (128 * l) with
  | none => .fail d .denied
  | some n =>
    let d := d.forceStep n l
    let full : Bool := bs.length = 128
    let known := d.cached l || !full
    match if full then (d, true) else (d.touch l).checkLine n l q.ctx q.key with
    | (d, false) => .fail d .bad
    | (d, true) =>
      let x := d.region n
      let m := d.lineMeta x l
      if x.key = 0 then .ok ((((d.setLine l none).setLatent l .good).touch l).setBytes (128 * l + off) bs) ()
      else
        let bad : Bool := m.bad || (!known && (d.latent l = .badEcc || d.latent l = .badMac))
        let c := if bad then x.hw + 1 else m.ctr + 1
        if 0xFFFF < c then .fail d .wait else .ok (d.putLine n q.key l off c bs known) ()

/-- Write `bs` from `a`, line by line; `fuel` bounds the lines. -/
def Dev.writeLines (d : Dev) (q : Req) : Nat → Nat → List Byte → Res Unit
  | 0, _, _ => .ok d ()
  | fuel + 1, a, bs =>
    if bs.isEmpty then .ok d ()
    else
      let n := 128 - a % 128
      match d.writeLine q (a / 128) (a % 128) (bs.take n) with
      | .ok d _ => Dev.writeLines d q fuel (a + n) (bs.drop n)
      | .fail d w => .fail d w

/-- An engine's request under the key index of a base register (class 1). -/
def engineReq (ctx key : Nat) : Req := { ctx := ctx, cls := 1, key := key }

end Sys2Proof.Machine
end

