-- ==== Sys2Proof/Machine/PleachRow.lean ====
section
/-! DEFINITION. Pleach's groups, images and stripe rows, the copy that a write to an untaken row waits for, and with it the
device-memory write that every requester uses (08 R221 to R225, R232, R233, R235). -/

namespace Sys2Proof.Machine

def Dev.pl (d : Dev) (p : Nat) : PlPart := Sparse.get (fun _ => PlPart.reset) d.pleach p

def Dev.setPl (d : Dev) (p : Nat) (x : PlPart) : Dev :=
  { d with pleach := Sparse.set (fun _ => PlPart.reset) d.pleach p x }

def plReg (p : Nat) : Nat := 0x2C100 + 0x100 * p

/-! ### Groups (R221) -/

/-- Member index of a logical coordinate. -/
def memberOf (c : Coord) : Nat := c.z % 4 * 2 + c.y % 2

def Dev.member (d : Dev) (p : Nat) : Nat := memberOf (d.logical p)

/-- Source ID of member `h` of the partition's group. -/
def Dev.memberSrc (d : Dev) (p h : Nat) : Nat :=
  let c := d.logical p
  Coord.toNat { x := c.x, y := c.y / 2 * 2 + h % 2, z := c.z / 4 * 4 + h / 2 } * 4 + p

/-- The slice extent admits groups: ny even and nz a multiple of 4 (R221). -/
def Dev.groupOk (d : Dev) (p : Nat) : Bool :=
  let e := sliceReg p + 0xC
  (d.fld e 5 6 + 1) % 2 = 0 && (d.fld e 11 6 + 1) % 4 = 0

/-! ### Images and holdings (R222 to R224) -/

/-- Units of the image. -/
def PlPart.units (x : PlPart) : Nat := (x.srcs.map SrcRange.units).foldl (· + ·) 0

/-- Stripe rows of the image: units 7q to 7q + 6. -/
def PlPart.rows (x : PlPart) : Nat := ceilDiv x.units 7

/-- Address and key index of unit `u` of the image; none beyond its end. -/
def unitAt : List SrcRange → Nat → Option (Nat × Nat)
  | [], _ => none
  | r :: rs, u => if u < r.units then some (r.addr + 4096 * u, r.key) else unitAt rs (u - r.units)

/-- Position in the image of the unit that holds address `a`. -/
def unitOfAddr : List SrcRange → Nat → Nat → Option Nat
  | [], _, _ => none
  | r :: rs, a, n =>
    if r.addr ≤ a ∧ a < r.addr + 4096 * r.units then some (n + (a - r.addr) / 4096)
    else unitOfAddr rs a (n + r.units)

def Dev.section_ (d : Dev) (p : Nat) : Nat := d.fld (plReg p + 0x10) 0 25

def Dev.holdBase (d : Dev) (p : Nat) : Nat := d.fld (plReg p + 8) 21 20 * granuleBytes

def Dev.holdKey (d : Dev) (p : Nat) : Nat := d.fld (plReg p + 8) 41 12

/-- `n` bytes rounded up to whole granules. -/
def roundGranule (n : Nat) : Nat := ceilDiv n granuleBytes * granuleBytes

/-- Offset of a slot in the holdings area (Table 08-2). -/
def Dev.slotOffset (d : Dev) (p k : Nat) : Nat :=
  granuleBytes + roundGranule (ceilDiv (d.section_ p) 8) + k * roundGranule (8 * d.section_ p * 4096)

/-- Address of position `q` of section `j` of slot `k`. -/
def Dev.holdAddr (d : Dev) (p k j q : Nat) : Nat :=
  d.holdBase p + d.slotOffset p k + (j * d.section_ p + q) * 4096

/-- Address of the READY (`c` 0) or COMMIT (`c` 1) line of slot `k` and member `g` in the control granule (Table 08-2). -/
def Dev.recordAddr (d : Dev) (p k g c : Nat) : Nat := d.holdBase p + 512 + ((k * 8 + g) * 2 + c) * 128

/-! ### Generations -/

def PlPart.gen (x : PlPart) (k : Nat) : Gen := if k = 0 then x.gen0 else x.gen1

def PlPart.setGen (x : PlPart) (k : Nat) (g : Gen) : PlPart := if k = 0 then { x with gen0 := g } else { x with gen1 := g }

/-- Abandon the generation being copied: its slot stays uncounted (R253, 10 R316). The watermark stands until the next cut (R230). -/
def Dev.abandonGen (d : Dev) (p : Nat) : Dev :=
  d.setPl p { d.pl p with cur := none, stripes := [] }

/-- A 128-byte READY (kind 0) or COMMIT (kind 1) record; the spec gives no layout. -/
def recordBytes (step slot member kind : Nat) : List Byte := (List.range 128).map (Config.groupRecord step slot member kind)

/-! ### What the holdings area records (Table 08-2) -/

/-- Write whole lines at an offset of the holdings area; a line that Selvedge refuses keeps what it holds. -/
def Dev.writeHeld (d : Dev) (p off : Nat) (bs : List Byte) : Dev :=
  let q := engineReq p (d.holdKey p)
  match d.grantAll q true (linesOf (d.holdBase p + off) bs.length) with
  | some _ => d
  | none =>
    match d.writeLines q (bs.length / 128 + 2) (d.holdBase p + off) bs with
    | .ok d _ => d
    | .fail d _ => d

/-- Write the record of slot `k` and its copy (R230, R235). -/
def Dev.writeSlot (d : Dev) (p k : Nat) : Dev :=
  let g := (d.pl p).gen k
  let bs := (List.range 128).map (Config.slotRecord g.step g.counted)
  (d.writeHeld p (128 * k) bs).writeHeld p (128 * (k + 2)) bs

/-- Byte `i` of the row bitmap: 1 bit per stripe row, lowest first. -/
def bitmapByte (taken : List Nat) (i : Nat) : Byte :=
  BitVec.ofNat 8 (((List.range 8).map fun j => b2n (taken.contains (8 * i + j)) * 2 ^ j).foldl (· + ·) 0)

/-- Write the line of the row bitmap that holds the bit of row `q` (R232). -/
def Dev.writeBitmap (d : Dev) (p q : Nat) : Dev :=
  let l := q / 1024 * 128
  d.writeHeld p (granuleBytes + l) ((rangeFrom l 128).map (bitmapByte (d.pl p).taken))

/-- Clear the row bitmap (R230). -/
def Dev.clearBitmap (d : Dev) (p : Nat) : Dev :=
  d.writeHeld p granuleBytes (List.replicate (ceilDiv (d.section_ p) 1024 * 128) 0)

/-- A stripe PUT of the generation being copied to member `h`, under `ENG` on channel 15; its rejection comes back under its
counter (R225). -/
def Dev.sendStripe (d : Dev) (p h addr : Nat) (bs : List Byte) : Dev :=
  let d := d.rollEpoch p
  let d := d.setPl p { d.pl p with stripes := ((d.sh p).epoch, (d.sh p).ctr) :: (d.pl p).stripes }
  d.send p { Draft.blank with typ := 1, ch := 15, dest := d.memberSrc p h, eng := true,
                              addr := addr, key := d.holdKey p, len := bs.length / 64, payload := bs }

/-- Send a record to every peer, each by a stripe PUT (R225, R235). -/
def Dev.sendRecords (d : Dev) (p k kind : Nat) : Dev :=
  let g := d.member p
  ((List.range 8).filter (· ≠ g)).foldl (fun d h =>
    d.sendStripe p h (d.recordAddr p k g kind) (recordBytes ((d.pl p).gen k).step k g kind)) d

/-- READY from all seven peers and own READYs sent: write and send COMMIT once (R235). -/
def Dev.commitIfReady (d : Dev) (p k : Nat) : Dev :=
  let g := (d.pl p).gen k
  if (d.pl p).cur = some k ∧ g.sent ∧ g.ready.length = 7 ∧ !g.commit.contains (d.member p) then
    let d := d.setPl p ((d.pl p).setGen k { g with commit := insNat (d.member p) g.commit })
    (d.writeHeld p (512 + ((k * 8 + d.member p) * 2 + 1) * 128) (recordBytes g.step k (d.member p) 1)).sendRecords p k 1
  else d

/-- COMMIT held from all eight members: the generation counts (R235). -/
def Dev.countIfCommitted (d : Dev) (p k : Nat) : Dev :=
  let x := d.pl p
  let g := x.gen k
  if x.cur = some k ∧ !g.counted ∧ g.commit.length = 8 then
    let iv := match x.prevCut with
      | some t => d.now - t
      | none => 0
    let d := d.setPl p { x.setGen k { g with counted := true } with
      cur := none, stripes := [], prevCut := some x.cutAt, tookOver := none }
    let d := d.writeSlot p k
    let d := d.setReg (plReg p + 0x88) (BitVec.ofNat 64 (d.now - x.cutAt))
    let d := d.setReg (plReg p + 0x90) (BitVec.ofNat 64 (max (d.reg (plReg p + 0x90)).toNat iv))
    d.raisePart p 2
  else d

/-- Every row taken: the member sends READY to each peer once; with all seven READYs there already it commits too (R235). -/
def Dev.readyIfDone (d : Dev) (p : Nat) : Dev :=
  let x := d.pl p
  match x.cur with
  | none => d
  | some k =>
    if x.rows ≤ x.taken.length ∧ !(x.gen k).sent then
      (((d.setPl p (x.setGen k { x.gen k with sent := true })).sendRecords p k 0).commitIfReady p k).countIfCommitted p k
    else d

/-- The seven units of a stripe row, read as Selvedge reads; none when a line is bad or refused (12 Table 12-6). -/
def Dev.readUnits (d : Dev) (p : Nat) : List Nat → Res (List (List Byte))
  | [] => .ok d []
  | u :: us =>
    match unitAt (d.pl p).srcs u with
    | none =>
      match Dev.readUnits d p us with
      | .ok d xs => .ok d (List.replicate 4096 0 :: xs)
      | .fail d w => .fail d w
    | some (a, k) =>
      match d.read (engineReq p k) a 4096 with
      | .fail d w => .fail d w
      | .ok d bs =>
        match Dev.readUnits d p us with
        | .ok d xs => .ok d (bs :: xs)
        | .fail d w => .fail d w

/-- Bytewise exclusive or of strings of one length. -/
def xorBytes (xs ys : List Byte) : List Byte := List.zipWith (· ^^^ ·) xs ys

/-- The bitwise XOR of the units of a row (R223). -/
def parity (us : List (List Byte)) : List Byte := us.foldl xorBytes (List.replicate 4096 0)

/-- Issue the stripe PUTs of row `q`: unit 7q + j goes to member (g + 1 + j) mod 8, section j of slot `k` (R223, R225). -/
def Dev.sendStripes (d : Dev) (p k q : Nat) : Nat → List (List Byte) → Dev
  | _, [] => d
  | j, u :: us =>
    Dev.sendStripes (d.sendStripe p ((d.member p + 1 + j) % 8) (d.holdAddr p k j q) u) p k q (j + 1) us

/-- Copy stripe row `q`: read its units, issue their PUTs, write the parity row, set the row's bit; then it is taken (R232). A row that
cannot be read cannot be taken, and the generation is abandoned (12 Table 12-6). -/
def Dev.takeRow (d : Dev) (p q : Nat) : Dev :=
  let x := d.pl p
  match x.cur with
  | none => d
  | some k =>
    if x.taken.contains q ∨ x.rows ≤ q then d
    else match d.readUnits p (rangeFrom (7 * q) 7) with
      | .fail d _ => d.abandonGen p
      | .ok d us =>
        let d := (d.sendStripes p k q 0 us).bump (plReg p + 0x80) 7
        match d.grantAll (engineReq p (d.holdKey p)) true (linesOf (d.holdAddr p k 7 q) 4096) with
        | some _ => d.abandonGen p
        | none =>
          match d.writeLines (engineReq p (d.holdKey p)) 33 (d.holdAddr p k 7 q) (parity us) with
          | .fail d _ => d.abandonGen p
          | .ok d _ =>
            let x := d.pl p
            ((d.setPl p { x with taken := insNat q x.taken }).writeBitmap p q).readyIfDone p

/-- A write to a line of a source range whose row is not taken copies the row first (R233). -/
def Dev.forceRow (d : Dev) (a : Nat) : Dev :=
  let p := a / d.window
  let x := d.pl p
  match x.cur, unitOfAddr x.srcs a 0 with
  | some _, some u =>
    if x.taken.contains (u / 7) then d
    else (d.takeRow p (u / 7)).bump (plReg p + 0x78) 1
  | _, _ => d

def Dev.forceRows (d : Dev) (ls : List Nat) : Dev := ls.foldl (fun d l => d.forceRow (128 * l)) d

/-! ### The write every requester uses -/

/-- The access check of a write to lines `ls` (12 R362): the first line that is refused refuses the whole. -/
def Dev.grantWrite (d : Dev) (q : Req) (ls : List Nat) : Res Unit :=
  match d.grantAll q true ls with
  | some (.bounds, _) => .fail d .bounds
  | some (.floor, x) => .fail (d.refuse q x true true) .denied
  | some (_, x) => .fail (d.refuse q x true false) .denied
  | none => .ok d ()

/-- The lines of a granted write: rows and steps that it reaches are taken first (08 R233, 12 R369). -/
def Dev.putLines (d : Dev) (q : Req) (a : Nat) (bs : List Byte) : Res Unit :=
  (d.forceRows (linesOf a bs.length)).writeLines q (bs.length / 128 + 2) a bs

/-- Write `bs` from `a` under request `q`: the whole range must be granted before any byte is written. -/
def Dev.write (d : Dev) (q : Req) (a : Nat) (bs : List Byte) : Res Unit :=
  match d.grantWrite q (linesOf a bs.length) with
  | .ok d _ => d.putLines q a bs
  | .fail d w => .fail d w

/-- An engine's write whose failure changes nothing further here. -/
def Dev.writeD (d : Dev) (q : Req) (a : Nat) (bs : List Byte) : Dev :=
  match d.write q a bs with
  | .ok d _ => d
  | .fail d _ => d

end Sys2Proof.Machine
end

