-- ==== Sys2Proof/Machine/Rings.lean ====
section
/-! DEFINITION. Rings and accepted descriptors: host-memory access, the header, starting and finishing a descriptor
(10 R289 to R297). A native ring r of partition p has the key 64 p + r; ring r of P8 context c the key 256 + 4 c + r. -/

namespace Sys2Proof.Machine

/-! ### Host memory (11 Table 11-8): a byte that no command has told of reads 0 (DESIGN CHOICE, log 3). Addresses below 2⁶⁴ are bus
addresses, which the host's IOMMU translates; a doorbell line's host physical address `a` stands at `physBase + a` (11 R329) -/

def physBase : Nat := 2 ^ 64

def Dev.host (d : Dev) (a : Nat) : Byte := Sparse.get (fun _ => 0) d.hostMem a

def Dev.hostBytes (d : Dev) (a n : Nat) : List Byte := (List.range n).map fun i => d.host (a + i)

def Dev.setHost (d : Dev) (a : Nat) (b : Byte) : Dev := { d with hostMem := Sparse.set (fun _ => 0) d.hostMem a b }

/-- Host memory can be reached: powered, in D0, the CXL link up (11 R332, 15 R437). -/
def Dev.hostUp (d : Dev) : Bool := d.on && !d.power.d3 && d.cxl.up

/-- Write consecutive bytes of host memory. -/
def Dev.hostWrite (d : Dev) : Nat → List Byte → Dev
  | _, [] => d
  | a, b :: bs => Dev.hostWrite (d.setHost a b) (a + 1) bs

/-- The host's own writes that a command tells of. -/
def Dev.hostCells (d : Dev) : Cells → Dev
  | [] => d
  | (a, b) :: cs => Dev.hostCells (d.setHost a b) cs

/-! ### Ring settings -/

def ringCtx (r : Nat) : Nat := if r < 256 then r / 64 else 4 + (r - 256) / 4

def ringPart (r : Nat) : Nat := ctxPart (ringCtx r)

/-- Offset of `HX_RING_BASE` of the ring; a P8 context's image stands at offsets of its own in the same layout. -/
def ringReg (r : Nat) : Nat :=
  if r < 256 then 0x4800 + 0x800 * (r / 64) + 0x20 * (r % 64) else 0x100000 + 0x20 * (r - 256)

def Dev.ring (d : Dev) (r : Nat) : Ring := Sparse.get (fun _ => Ring.reset) d.rings r

def Dev.setRing (d : Dev) (r : Nat) (x : Ring) : Dev := { d with rings := Sparse.set (fun _ => Ring.reset) d.rings r x }

/-- Entries of the ring: 64 × 2ⁿ (R289). -/
def Dev.ringSize (d : Dev) (r : Nat) : Nat := 64 * 2 ^ d.fld (ringReg r) 0 4

def Dev.ringAddr (d : Dev) (r : Nat) : Nat := d.fld (ringReg r) 12 52 * 4096

def Dev.ringPrio (d : Dev) (r : Nat) : Nat := d.fld (ringReg r) 4 2

def Dev.ringDoorbell (d : Dev) (r : Nat) : Nat := d.fld (ringReg r + 8) 6 58 * 64

def Dev.ringRecords (d : Dev) (r : Nat) : Nat := d.fld (ringReg r + 16) 12 52 * 4096

def Dev.ringVector (d : Dev) (r : Nat) : Nat := d.fld (ringReg r + 24) 16 11

def ringStateCode : RingState → Nat
  | .disabled => 0
  | .active => 1
  | .error => 2
  | .draining => 3

/-- Number of the ring within its partition or context. -/
def ringNo (r : Nat) : Nat := if r < 256 then r % 64 else (r - 256) % 4

/-- The 64-byte status line (R291). -/
def Dev.statusLine (d : Dev) (r : Nat) : List Byte :=
  let x := d.ring r
  leBytes 8 x.accepted ++ leBytes 8 x.completed ++ leBytes 1 (ringStateCode x.st) ++ List.replicate 47 0

/-- The device writes bytes of a context's to host memory, counted (R321, R323). -/
def Dev.hostPut (d : Dev) (ctx a : Nat) (bs : List Byte) : Dev := (d.hostWrite a bs).hostCount true ctx bs.length

/-- The device may move `n` bytes of partition `p` to or from host memory now (R321, 11 R332). -/
def Dev.hostMay (d : Dev) (write : Bool) (p n : Nat) : Bool := d.hostUp && d.hostFits write p n

/-- The ring's status line goes to host memory. -/
def Dev.putStatus (d : Dev) (r : Nat) : Dev :=
  (d.setRing r { d.ring r with owed := false }).hostPut (ringCtx r) (d.ringRecords r) (d.statusLine r)

/-- A status line is due: written, or owed while link or budget lacks (11 R332, R321). -/
def Dev.writeStatus (d : Dev) (r : Nat) : Dev :=
  if d.hostMay true (ringPart r) 64 then d.putStatus r else d.setRing r { d.ring r with owed := true }

/-- Status lines that were owed, as far as link and budget now go. -/
def Dev.payStatus (d : Dev) : Dev := ((d.rings.filter fun e => e.2.owed).map Prod.fst).foldl Dev.writeStatus d

/-! ### The descriptor -/

/-- A field of a ring descriptor: bits `[lo + w - 1 : lo]` of the 128 bytes. -/
def dfield (x : RingDesc) (lo w : Nat) : Nat := bits x.toNat lo w

/-- A field given by byte and bit. -/
def dbyte (x : RingDesc) (byte lo w : Nat) : Nat := dfield x (8 * byte + lo) w

def descOpcode (x : RingDesc) : Nat := dfield x 0 8

/-- The opcodes of Table 10-2. -/
def ringOpcodes : List Nat := [0x00, 0x01, 0x02, 0x03, 0x40, 0x41, 0x50, 0x60, 0x70]

/-- The header breaks Table 10-1: a reserved opcode or a non-zero reserved field (R296). -/
def headerBad (x : RingDesc) : Bool := !(ringOpcodes.contains (descOpcode x)) || dfield x 24 8 ≠ 0

/-- How the wait in the header stands (R293, Table 10-1). -/
def Dev.headerWait (d : Dev) (ctx : Nat) (x : RingDesc) : WaitRes :=
  if dfield x 9 1 = 0 then .ready else d.waitFence ctx (dfield x 10 14) (dfield x 64 64)

/-! ### Phases -/

def setPhase (seq : Nat) (ph : Phase) : List Accepted → List Accepted
  | [] => []
  | a :: as => if a.seq = seq then { a with phase := ph } :: as else a :: setPhase seq ph as

def Dev.setPhase (d : Dev) (r seq : Nat) (ph : Phase) : Dev :=
  d.setRing r { d.ring r with pend := Machine.setPhase seq ph (d.ring r).pend }

/-- A verdict of a bare status. -/
def Verdict.of (code : Nat) : Verdict := { code := code, nfail := 0, aux := 0, info := 0 }

/-- The descriptor finishes: its record is held until every earlier one of its ring is written (R294). -/
def Dev.finish (d : Dev) (r seq : Nat) (v : Verdict) : Dev := d.setPhase r seq (.done v)

/-- The oldest accepted descriptor that has not started: the only one of the ring that may start (R293). -/
def nextToStart : List Accepted → Option Accepted
  | [] => none
  | a :: as => if a.phase = .waiting then some a else nextToStart as

/-- An accepted descriptor that has started and not finished. -/
def Accepted.inHand (a : Accepted) : Bool := a.phase = .started

/-- Whether an accepted descriptor still lacks its verdict. -/
def Accepted.undone (a : Accepted) : Bool :=
  match a.phase with
  | .done _ => false
  | _ => true

/-- Every accepted descriptor of the context's rings that lacks a verdict and satisfies `f` finishes with `code`. -/
def Dev.finishAll (d : Dev) (ctx code : Nat) (f : RingDesc → Bool) : Dev :=
  { d with rings := d.rings.map fun e =>
      if ringCtx e.1 = ctx then
        (e.1, { e.2 with pend := e.2.pend.map fun a =>
          if a.undone && f a.desc then { a with phase := .done (Verdict.of code) } else a })
      else e }

/-- Every descriptor in its header wait on a fence that `f` names finishes `OWNER_LOST` (R313, R315): of each ring the next
to start, while its value has not come. -/
def Dev.loseHeaders (d : Dev) (f : Nat → Bool) : Dev :=
  { d with rings := d.rings.map fun e =>
      match nextToStart e.2.pend with
      | none => e
      | some a =>
        if f (dfield a.desc 10 14) ∧ d.headerWait (ringCtx e.1) a.desc = .notYet then
          (e.1, { e.2 with pend := Machine.setPhase a.seq (.done (Verdict.of 2)) e.2.pend })
        else e }

/-- Whether work of a context may start at all: its context holds, the device serves. -/
def Dev.ctxOpen (d : Dev) (ctx : Nat) : Bool := (d.ctx ctx).st = .opened || (d.ctx ctx).st = .stopped

/-- Start the next descriptor of ring `r` when it carries opcode `op`, `sub` holds of it, its header wait holds and its
context is open or stopped; `run` says what its unit does. A wait that fails finishes the descriptor with its status; an
invalid header finishes it `DESC_INVALID` (R293, R296). Otherwise nothing starts (log 1). -/
def Dev.startNext (d : Dev) (r op : Nat) (sub : RingDesc → Bool) (run : Dev → Accepted → Dev) : Dev :=
  match nextToStart (d.ring r).pend with
  | none => d
  | some a =>
    if !(d.serving && d.recovered (ringPart r) && d.unitsReady (ringPart r) op && d.ctxOpen (ringCtx r)) then d
    else if descOpcode a.desc ≠ op ∨ headerBad a.desc ∨ !sub a.desc then d
    else match d.headerWait (ringCtx r) a.desc with
      | .notYet => d
      | .fails st => d.finish r a.seq (Verdict.of st)
      | .ready => run d a

end Sys2Proof.Machine
end

