-- ==== Sys2Proof/Machine/Operands.lean ====
section
/-! DEFINITION. Operands of tile ops: the op descriptor's fields (03 R85), panels and their orientations (R81 to R84), block
scales on reading (04 R108, R111, R112), vectors (R91), and the places an operand can lie: device memory (R86), the tile
store (R73), another tile's store (R94). -/

namespace Sys2Proof.Machine

/-! ### The op descriptor (Table 03-7) -/

def oCode (x : OpDesc) : Nat := bits x.toNat 0 8
def oFmtA (x : OpDesc) : Nat := bits x.toNat 8 4
def oFmtB (x : OpDesc) : Nat := bits x.toNat 12 4
def oFmtD (x : OpDesc) : Nat := bits x.toNat 16 4
def oTA (x : OpDesc) : Bool := bit x.toNat 20
def oTB (x : OpDesc) : Bool := bit x.toNat 21
def oAcc (x : OpDesc) : Bool := bit x.toNat 22
def oSig (x : OpDesc) : Bool := bit x.toNat 23
def oFence (x : OpDesc) : Nat := bits x.toNat 24 14
def oSub (x : OpDesc) : Nat := bits x.toNat 38 8
def oRnd (x : OpDesc) : Nat := bits x.toNat 46 2
def oSat (x : OpDesc) : Nat := bits x.toNat 48 2
def oBsz (x : OpDesc) : Nat := bits x.toNat 50 3
def oStream (x : OpDesc) : Nat := bits x.toNat 56 8
def oMp (x : OpDesc) : Nat := bits x.toNat 64 16
def oNp (x : OpDesc) : Nat := bits x.toNat 80 16
def oKp (x : OpDesc) : Nat := bits x.toNat 96 16
def oAux (x : OpDesc) : Nat := bits x.toNat 112 16
def oFval (x : OpDesc) : Nat := bits x.toNat 416 64
def oImm (x : OpDesc) : Nat := bits x.toNat 480 32

/-- An operand slot (Table 03-10). -/
structure Opnd where
  addr : Nat
  loc : Nat
  key : Nat
  stride : Nat
  deriving DecidableEq, Repr

def opnd (x : OpDesc) (lo : Nat) : Opnd :=
  { addr := bits x.toNat lo 41, loc := bits x.toNat (lo + 41) 2, key := bits x.toNat (lo + 43) 12,
    stride := bits x.toNat (lo + 64) 32 }

def oA (x : OpDesc) : Opnd := opnd x 128
def oB (x : OpDesc) : Opnd := opnd x 224
def oD (x : OpDesc) : Opnd := opnd x 320

/-- The format of a code; a reserved code is refused at decode, so its value here is never used. -/
def fmtOf (c : Nat) : Fmt := (Fmt.ofCode c).getD .fp32

/-! ### Panels (R81 to R83, Table 03-6) -/

/-- The formats that carry block scales. -/
def Fmt.scalable : Fmt → Bool
  | .e4m3 => true
  | .e5m2 => true
  | .fp4 => true
  | .int8 => true
  | .int4 => true
  | _ => false

/-- Elements of a block by `BSZ` code; 64 per row when a block spans two panels. -/
def blockRow (bsz : Nat) : Nat := if bsz = 1 then 16 else if bsz = 2 then 32 else 64

/-- Bytes of a panel's data. -/
def Fmt.dataBytes (t : Fmt) : Nat := 512 * t.width

/-- Bytes of a panel (Table 03-6). -/
def panelBytes (t : Fmt) (bsz : Nat) : Nat :=
  t.dataBytes + (if t.scalable ∧ bsz ≠ 0 then 64 * (64 / blockRow bsz) else 0)

/-- Address of stored panel (i, j) of a tensor of `cols` column panels (R83). -/
def panelAddr (o : Opnd) (t : Fmt) (bsz cols i j : Nat) : Nat :=
  o.addr + i * (if o.stride = 0 then cols * panelBytes t bsz else o.stride) + j * panelBytes t bsz

/-- Stored position of logical panel (i, j) of a tensor of `rows` × `cols` logical panels, read transposed or not, and its
address (R84). -/
def logicalAddr (o : Opnd) (t : Fmt) (bsz : Nat) (tr : Bool) (rows cols i j : Nat) : Nat :=
  if tr then panelAddr o t bsz rows j i else panelAddr o t bsz cols i j

/-! ### Elements -/

/-- The elements of a panel's data, in order (R81). -/
def elements (w : Nat) (bs : List Byte) : List Nat :=
  if w = 4 then bs.flatMap fun b => [b.toNat % 16, b.toNat / 16] else leWords (w / 8) bs

/-- The value times 2^n. -/
def FV.scale (n : Int) : FV → FV
  | .fin s m e => .fin s m (e + n)
  | v => v

/-- Value of a block-scaled element under scale byte `s` (R108, R111). -/
def scaledValue (t : Fmt) (s v : Nat) : FV :=
  if s = 255 then .nan
  else
    let k : Int := if t = .int8 then -6 else if t = .int4 then -2 else 0
    (t.decode v).scale ((s : Int) - 127 + k)

/-- How a unit reads elements: exactly for the array (R117); decoded to FP32 for the vector unit; for `MOVE`, exactly but
for block-scaled elements, which are decoded to FP32 (R112). -/
inductive ReadMode where
  | exact | fp32 | move
  deriving DecidableEq, Repr

def ReadMode.apply (md : ReadMode) (scaled : Bool) (v : FV) : FV :=
  match md with
  | .exact => v
  | .fp32 => rn32 v
  | .move => if scaled then rn32 v else v

/-- The 64 × 64 values of a stored panel, row by row. -/
def panelRows (t : Fmt) (bsz : Nat) (md : ReadMode) (bs : List Byte) : List (List FV) :=
  let es := chunksOf 64 64 (elements t.width (bs.take t.dataBytes))
  if t.scalable ∧ bsz ≠ 0 then
    let n := 64 / blockRow bsz
    let sc := chunksOf n 64 ((bs.drop t.dataBytes).map BitVec.toNat)
    List.zipWith (fun row srow =>
      (List.zipWith (fun blk s => blk.map fun v => md.apply true (scaledValue t s v))
        (chunksOf (blockRow bsz) n row) srow).flatten) es sc
  else es.map fun row => row.map fun v => md.apply false (t.decode v)

/-- Rows and columns exchanged. -/
def transposed (m : List (List FV)) : List (List FV) :=
  (List.range 64).map fun c => m.map fun row => row.getD c .nan

/-! ### Results of a unit -/

/-- A unit goes on, fails with a status of Table 03-12, or waits for a line counter (12 R372). -/
inductive URes (α : Type) where
  | ok (d : Dev) (x : α)
  | fail (d : Dev) (status : Nat)
  | hold

def URes.bind {α β : Type} (r : URes α) (f : Dev → α → URes β) : URes β :=
  match r with
  | .ok d x => f d x
  | .fail d s => .fail d s
  | .hold => .hold

/-- The status of a refused access (R86, 12 Table 12-6). -/
def opStatus : MemFail → Nat
  | .denied => 0x53
  | .bounds => 0x52
  | .bad => 0x5A
  | .wait => 0

def Res.unit {α : Type} : Res α → URes α
  | .ok d x => .ok d x
  | .fail _ .wait => .hold
  | .fail d w => .fail d (opStatus w)

/-! ### Logical tiles and their stores -/

def Dev.lt (d : Dev) (l : Nat) : LTile := Sparse.get (fun _ => LTile.reset) d.tiles.logical l

def Dev.setLt (d : Dev) (l : Nat) (x : LTile) : Dev :=
  { d with tiles := { d.tiles with logical := Sparse.set (fun _ => LTile.reset) d.tiles.logical l x } }

/-- First byte of the retention area: the working area ends there, and ops reach both (Table 03-3). -/
def storeEnd : Nat := 0x400000

/-- The range lies in the working and retention areas (R73). -/
def storeRange (a n : Nat) : Bool := 0x10000 ≤ a && a + n ≤ storeEnd

def LTile.bytes (x : LTile) (a n : Nat) : List Byte := (List.range n).map fun i => Sparse.get (fun _ => 0) x.store (a + i)

/-- Store bytes written from `a`. -/
def LTile.setBytes (x : LTile) : Nat → List Byte → LTile
  | _, [] => x
  | a, b :: bs => LTile.setBytes { x with store := Sparse.set (fun _ => 0) x.store a b } (a + 1) bs

/-- The pick of tile `l` changed. -/
def Dev.modPickOf (d : Dev) (l : Nat) (f : Pick → Pick) : Dev :=
  d.setLt l { d.lt l with pick := (d.lt l).pick.map f }

/-- The first write of a line by a pick saves its committed value in the shadow line (R101). -/
def Dev.shadowLine (d : Dev) (l tile line : Nat) : Dev :=
  d.modPickOf l fun p =>
    if p.shadow.any fun s => s.1 = tile ∧ s.2.1 = line then p
    else { p with shadow := p.shadow ++ [(tile, line, (d.lt tile).bytes (64 * line) 64)] }

/-- Write `bs` at `a` of tile `t`'s store on behalf of the pick of tile `l`. -/
def Dev.storeWrite (d : Dev) (l t a : Nat) (bs : List Byte) : URes Unit :=
  if !(storeRange a bs.length) then .fail d 0x52
  else
    let d := (rangeFrom (a / 64) ((a + bs.length - 1) / 64 - a / 64 + 1)).foldl (fun d n => d.shadowLine l t n) d
    .ok (d.setLt t ((d.lt t).setBytes a bs)) ()

/-! ### Reading and writing operands -/

def tileReq (ctx key : Nat) : Req := { ctx := ctx, cls := 0, key := key }

/-- Read `n` bytes at `a` of the place operand slot `o` names. -/
def Dev.readAt (d : Dev) (ctx l : Nat) (o : Opnd) (a n : Nat) : URes (List Byte) :=
  if o.loc = 1 then
    if storeRange a n then .ok d ((d.lt l).bytes a n) else .fail d 0x52
  else (d.read (tileReq ctx o.key) a n).unit

/-- An in-place line about to be overwritten is copied to write-aside once (10 R303). -/
def Dev.asideLine (d : Dev) (l line : Nat) : Dev :=
  d.modPickOf l fun p =>
    match p.inPlace.find? fun e => e.1 = line with
    | some (_, k) =>
      if p.saved.any fun s => s.1 = line then p
      else { p with saved := p.saved ++ [(line, k, d.bytes (128 * line) 128)] }
    | none => p

/-- The run of tile `l`'s pick is a replay run, which holds back its outputs (09 R263). -/
def Dev.holds (d : Dev) (l : Nat) : Bool := ((d.lt l).pick.bind Pick.held).isSome

/-- An output is held when this is a replay run. -/
def Pick.hold (p : Pick) (o : Held) : Pick := { p with held := p.held.map fun h => (h.1, h.2 ++ [(h.1, o)]) }

def Dev.hold (d : Dev) (l : Nat) (o : Held) : Dev := d.modPickOf l fun p => p.hold o

/-- The lines that `n` bytes from `a` cover in part. -/
def partLines (a n : Nat) : List Nat := (linesOf a n).filter fun l => 128 * l < a || a + n < 128 * l + 128

/-- A write of a replay run to device memory is checked when it is made, and held (09 R263 item 6); a line written in part is
read (12 R352). -/
def Dev.holdLine (d : Dev) (l : Nat) (q : Req) (a : Nat) (bs : List Byte) : URes Unit :=
  (d.grantWrite q (linesOf a bs.length)).unit.bind fun d _ =>
    (d.readLines q (partLines a bs.length)).unit.bind fun d _ => .ok (d.hold l (.line q.key a bs)) ()

/-- A write to the store of another tile `t`. -/
def Dev.otherWrite (d : Dev) (l t a : Nat) (bs : List Byte) : URes Unit :=
  if d.holds l ∧ t ≠ l then
    if storeRange a bs.length then .ok (d.hold l (.store t a bs)) () else .fail d 0x52
  else d.storeWrite l t a bs

/-- Write `bs` at `a` of the place slot `o` names; `t` is the tile that `LOC` 2 names (R94). -/
def Dev.writeAt (d : Dev) (ctx l t : Nat) (o : Opnd) (a : Nat) (bs : List Byte) : URes Unit :=
  if o.loc = 1 then d.storeWrite l l a bs
  else if o.loc = 2 then
    if tilePart d.parts t = ctxPart ctx then d.otherWrite l t a bs else .fail d 0x52
  else if d.holds l then d.holdLine l (tileReq ctx o.key) a bs
  else (((linesOf a bs.length).foldl (fun d n => d.asideLine l n) d).write (tileReq ctx o.key) a bs).unit

/-- The values of logical panel (i, j) of an operand, in logical orientation (R84). -/
def Dev.readPanel (d : Dev) (ctx l : Nat) (o : Opnd) (t : Fmt) (bsz : Nat) (md : ReadMode) (tr : Bool)
    (rows cols i j : Nat) : URes (List (List FV)) :=
  (d.readAt ctx l o (logicalAddr o t bsz tr rows cols i j) (panelBytes t bsz)).bind fun d bs =>
    let m := panelRows t bsz md bs
    .ok d (if tr then transposed m else m)

/-- Values `64 i` to `64 i + 63` of a vector of FP32 values (R91). -/
def Dev.readVector (d : Dev) (ctx l : Nat) (o : Opnd) (i : Nat) : URes (List FV) :=
  (d.readAt ctx l o (o.addr + 256 * i) 256).bind fun d bs => .ok d ((elements 32 bs).map dec32)

/-- B of a vector or table op as a panel: the tensor, a row vector or a column vector (R91). -/
def Dev.readB (d : Dev) (ctx l : Nat) (x : OpDesc) (i j : Nat) : URes (List (List FV)) :=
  match oAux x % 4 with
  | 0 => d.readPanel ctx l (oB x) (fmtOf (oFmtB x)) (oBsz x) .fp32 (oTB x) (oMp x) (oNp x) i j
  | 1 => (d.readVector ctx l (oB x) j).bind fun d v => .ok d (List.replicate 64 v)
  | _ => (d.readVector ctx l (oB x) i).bind fun d v => .ok d (v.map fun b => List.replicate 64 b)

end Sys2Proof.Machine
end

