-- ==== Sys2Proof/Machine/Flags.lean ====
section
/-! DEFINITION. Conversion into D and the two overflow counters, the only flags of the machine (04 R113 to R115, R126 to
R131, 03 R97, Table 03-17): rounding and its draw, block scales chosen on write, packing, writing a D panel. -/

namespace Sys2Proof.Machine

/-! ### Rounding of D (R85, R97, R125) -/

/-- The job seed of a context's counter hash. -/
def Dev.seed (d : Dev) (ctx : Nat) : Nat :=
  if ctx < 4 then (d.reg (0x4108 + 0x100 * ctx)).toNat else (d.ctx ctx).seed

/-- The 24 bits of the draw for logical element index `i` of tile `l` (R97). -/
def Dev.drawAt (d : Dev) (ctx l stream i : Nat) : Nat :=
  drawBits (counterHash (d.seed ctx) (d.lt l).step (((d.lt l).base + i) % 2 ^ 48) stream)

/-- The rounding that `RND` selects for element (r, c) of the logical D. -/
def Dev.rounding (d : Dev) (ctx l : Nat) (x : OpDesc) (r c : Nat) : Rounding :=
  match oRnd x with
  | 0 => .nearest
  | 1 => .stochastic (d.drawAt ctx l (oStream x) (r * 64 * oNp x + c))
  | _ => .zero

/-! ### One block (R113, R114) -/

/-- The scale-choice maximum (Table 04-2), in the units of `scaledValue`. -/
def scaleMax (t : Fmt) : FV :=
  match t with
  | .int8 => .fin false 127 (-6)
  | .int4 => .fin false 7 (-2)
  | _ => t.decode t.maxBits

/-- The largest finite magnitude of the block. -/
def blockMax (vs : List FV) : FV :=
  vs.foldl (fun m v =>
    match v with
    | .fin _ a e => if FV.cmp m (.fin false a e) < 0 then .fin false a e else m
    | _ => m) FV.zero

/-- The block's scale exponent n (R113). -/
def scaleExp (t : Fmt) (vs : List FV) : Int :=
  match blockMax vs, scaleMax t with
  | .fin _ 0 _, _ => 0
  | .fin _ m e, .fin _ mm me =>
    let n := (e + bitLen m) - (me + bitLen mm)
    let n := if FV.cmp (.fin false m e) ((scaleMax t).scale n) ≤ 0 then n else n + 1
    Min.min (Max.max n (-127)) 127
  | _, _ => 0

/-- An element of a block under scale exponent `n`. -/
def convScaled (t : Fmt) (sat : Bool) (n : Int) (v : FV) (r : Rounding) : Conv :=
  match t with
  | .int8 => encodeInt 8 (-127) r (v.scale (6 - n))
  | .int4 => encodeInt 4 (-7) r (v.scale (2 - n))
  | _ =>
    match v with
    | .inf s => if t = .e5m2 ∧ sat then ⟨t.signBit s + t.infBits, false, false⟩ else ⟨t.signBit s + t.maxBits, true, false⟩
    | _ => t.encodeFloat r sat (v.scale (-n))

/-- A converted run of elements. -/
structure ConvRun where
  els : List Nat
  scale : Nat
  sat : Nat
  nanint : Nat
  deriving DecidableEq, Repr

def ConvRun.of (cs : List Conv) (scale : Nat) : ConvRun :=
  { els := cs.map Conv.bits, scale := scale, sat := (cs.filter Conv.sat).length, nanint := (cs.filter Conv.nanint).length }

/-- A block is written: a NaN in a format without NaN makes it a NaN block (R114). -/
def convBlock (t : Fmt) (sat : Bool) (vs : List (FV × Rounding)) : ConvRun :=
  let nans := (vs.filter fun v => v.1.isNan).length
  if nans ≠ 0 ∧ (t = .fp4 ∨ t.isInt) then { els := vs.map fun _ => 0, scale := 255, sat := 0, nanint := nans }
  else
    let n := scaleExp t (vs.map Prod.fst)
    ConvRun.of (vs.map fun v => convScaled t sat n v.1 v.2) (n + 127).toNat

/-! ### A panel row -/

/-- A row of a D panel as it is written: elements, scale bytes, counts. -/
structure ConvRow where
  els : List Nat
  scales : List Nat
  sat : Nat
  nanint : Nat
  deriving DecidableEq, Repr

def ConvRow.ofRuns (rs : List ConvRun) : ConvRow :=
  { els := (rs.map ConvRun.els).flatten, scales := rs.map ConvRun.scale,
    sat := (rs.map ConvRun.sat).foldl (· + ·) 0, nanint := (rs.map ConvRun.nanint).foldl (· + ·) 0 }

/-- A row of 64 results converted under `FMT_D`, `BSZ`, `SAT`. -/
def convRow (t : Fmt) (bsz : Nat) (sat : Bool) (vs : List (FV × Rounding)) : ConvRow :=
  if t.scalable ∧ bsz ≠ 0 then
    ConvRow.ofRuns ((chunksOf (blockRow bsz) 64 vs).map fun b => convBlock t sat b)
  else
    let r := ConvRun.of (vs.map fun v => t.encode v.2 sat v.1) 0
    { els := r.els, scales := [], sat := r.sat, nanint := r.nanint }

/-- The two halves of a row whose blocks of 128 span two panels (R82, R115). -/
def convPair (t : Fmt) (sat : Bool) (vs ws : List (FV × Rounding)) : ConvRow × ConvRow :=
  let nans := ((vs ++ ws).filter fun v => v.1.isNan).length
  if nans ≠ 0 ∧ (t = .fp4 ∨ t.isInt) then
    let f (x : List (FV × Rounding)) : ConvRow :=
      { els := x.map fun _ => 0, scales := [255], sat := 0, nanint := (x.filter fun v => v.1.isNan).length }
    (f vs, f ws)
  else
    let n := scaleExp t ((vs ++ ws).map Prod.fst)
    let f (x : List (FV × Rounding)) : ConvRow :=
      ConvRow.ofRuns [ConvRun.of (x.map fun v => convScaled t sat n v.1 v.2) (n + 127).toNat]
    (f vs, f ws)

/-- The bytes of elements of `w` bits (R81). -/
def packElems (w : Nat) (es : List Nat) : List Byte :=
  if w = 4 then (chunksOf 2 es.length es).map fun p =>
      match p with
      | [a, b] => BitVec.ofNat 8 (a + 16 * b)
      | [a] => BitVec.ofNat 8 a
      | _ => 0
  else es.flatMap fun e => leBytes (w / 8) e

/-! ### Sequencer state of the running part -/

def Dev.carryOf (d : Dev) (l : Nat) : Carry :=
  match (d.lt l).pick with
  | some p => (((d.lt l).slots[p.slot]?).map Slot.carry).getD Carry.blank
  | none => Carry.blank

def Dev.setCarry (d : Dev) (l : Nat) (c : Carry) : Dev :=
  match (d.lt l).pick with
  | some p => d.setLt l { d.lt l with slots := modifyAt (fun s => { s with carry := c }) (d.lt l).slots p.slot }
  | none => d

/-! ### Writing D -/

/-- The counts of a conversion join the pick's (R130). -/
def Dev.countConv (d : Dev) (l sat nanint : Nat) : Dev :=
  d.modPickOf l fun p => { p with sat := p.sat + sat, nanint := p.nanint + nanint }

/-- Write the rows of a D panel; a row of none keeps what it held (R90). -/
def Dev.writeRows (d : Dev) (ctx l : Nat) (x : OpDesc) (a : Nat) (rows : List (Option ConvRow)) : URes Unit :=
  let t := fmtOf (oFmtD x)
  let full := rows.filterMap id
  let d := d.countConv l ((full.map ConvRow.sat).foldl (· + ·) 0) ((full.map ConvRow.nanint).foldl (· + ·) 0)
  if full.length = rows.length then
    d.writeAt ctx l (oAux x % 1024) (oD x) a
      (packElems t.width (full.flatMap ConvRow.els) ++ (full.flatMap ConvRow.scales).map (BitVec.ofNat 8))
  else
    (List.range rows.length).foldl (fun r i => r.bind fun d _ =>
      match rows[i]? with
      | some (some c) =>
        let n := c.scales.length
        (d.writeAt ctx l (oAux x % 1024) (oD x) (a + i * 8 * t.width) (packElems t.width c.els)).bind fun d _ =>
          if n = 0 then .ok d ()
          else d.writeAt ctx l (oAux x % 1024) (oD x) (a + t.dataBytes + i * n) (c.scales.map (BitVec.ofNat 8))
      | _ => .ok d ()) (.ok d ())

/-- Address of D panel (i, j). -/
def dAddr (x : OpDesc) (i j : Nat) : Nat := panelAddr (oD x) (fmtOf (oFmtD x)) (oBsz x) (oNp x) i j

/-- The results of D panel (i, j) with their roundings. -/
def Dev.withRounding (d : Dev) (ctx l : Nat) (x : OpDesc) (i j : Nat) (m : List (List FV)) : List (List (FV × Rounding)) :=
  m.mapIdx fun r row => row.mapIdx fun c v => (v, d.rounding ctx l x (64 * i + r) (64 * j + c))

/-- Keep a row where its mask bit is 1. -/
def maskRow {α : Type} (mask : List Bool) (r : Nat) (v : α) : Option α := if mask.getD r true then some v else none

/-- Write D panel (i, j) from its results (R113, R127); rows whose mask bit is 0 are left. With blocks of 128 an even
panel's results wait for the odd panel's, unless its partner is masked (`alone`, R115). -/
def Dev.putPanel (d : Dev) (ctx l : Nat) (x : OpDesc) (i j : Nat) (mask : List Bool) (alone : Bool)
    (m : List (List FV)) : URes Unit :=
  let t := fmtOf (oFmtD x)
  let sat := oSat x = 1
  let vs := d.withRounding ctx l x i j m
  if t.scalable ∧ oBsz x = 4 ∧ !alone then
    if j % 2 = 0 then .ok (d.setCarry l { d.carryOf l with even := m }) ()
    else
      let us := d.withRounding ctx l x i (j - 1) (d.carryOf l).even
      let ps := List.zipWith (fun a b => convPair t sat a b) us vs
      let d := d.setCarry l { d.carryOf l with even := [] }
      (d.writeRows ctx l x (dAddr x i (j - 1)) (ps.mapIdx fun r p => maskRow mask r p.1)).bind fun d _ =>
        d.writeRows ctx l x (dAddr x i j) (ps.mapIdx fun r p => maskRow mask r p.2)
  else d.writeRows ctx l x (dAddr x i j) (vs.mapIdx fun r row => maskRow mask r (convRow t (oBsz x) sat row))

/-- The whole panel is written. -/
def Dev.putWhole (d : Dev) (ctx l : Nat) (x : OpDesc) (i j : Nat) (m : List (List FV)) : URes Unit :=
  d.putPanel ctx l x i j [] false m

/-- The overflow counters of a logical tile rise at commit and hold at 0xFFFF_FFFF (R130). -/
def LTile.addOvf (x : LTile) (sat nanint : Nat) : LTile :=
  { x with sat := min 0xFFFFFFFF (x.sat + sat), nanint := min 0xFFFFFFFF (x.nanint + nanint) }

end Sys2Proof.Machine
end

