-- ==== Sys2Proof/Machine/Landing.lean ====
section
/-! DEFINITION. Landing groups: opening, accepting an ACC, committing and retracting, merging (07 R201 to R205). -/

namespace Sys2Proof.Machine

/-- The given fields (bit, width) cleared, nothing is left: every other bit is reserved and zero (00 R15). -/
def onlyFields (v : Nat) (fs : List (Nat × Nat)) : Bool := fs.foldl (fun v f => setBits v f.1 f.2 0) v = 0

/-- Every granule of the range is granted; the range is not empty. -/
def Dev.rangeAccess (d : Dev) (q : Req) (write : Bool) (a n : Nat) : Bool :=
  (List.range ((a + n - 1) / granuleBytes - a / granuleBytes + 1)).all fun i =>
    match d.access q (if i = 0 then a else (a / granuleBytes + i) * granuleBytes) write with
    | .granted _ => true
    | _ => false

/-- Strictly ascending. -/
def ascending : List Nat → Bool
  | a :: b :: r => a < b && ascending (b :: r)
  | _ => true

/-- Fields of Table 07-7, from bit 0 of byte 16. -/
def landingFields : List (Nat × Nat) :=
  [(0, 41), (41, 12), (64, 21), (96, 7), (103, 1), (112, 14), (128, 64), (192, 41), (233, 12), (256, 41), (297, 12)]

/-- The group a `LANDING` descriptor describes, before its source list is read. -/
def landingGroup (ctx : Nat) (x : RingDesc) : LzGroup :=
  { ctx := ctx, target := dbyte x 16 0 41, tkey := dbyte x 16 41 12, units := dbyte x 24 0 21,
    mode := dbyte x 28 7 1, fence := dbyte x 30 0 14, fval := dbyte x 32 0 64, zone := dbyte x 40 0 41,
    zkey := dbyte x 40 41 12, sources := [], gran := [], merged := [] }

def LzGroup.overlaps (g h : LzGroup) : Bool :=
  g.target < h.target + 16384 * h.units && h.target < g.target + 16384 * g.units

/-- `LZ_INVALID` of a field (R202). -/
def landingBad (x : RingDesc) (g : LzGroup) : Bool :=
  let s := dbyte x 28 0 7
  !onlyFields (x.toNat >>> 128) landingFields || g.target % 16384 ≠ 0 || g.tkey = 0 || g.units = 0 ||
    1048576 < g.units || s = 0 || 64 < s || g.zone % granuleBytes ≠ 0 || g.zkey = 0

/-- Open a landing group; the status is that of Table 07-10. -/
def Dev.openLanding (d : Dev) (ctx : Nat) (x : RingDesc) : Dev × Nat :=
  let p := ctxPart ctx
  let g := landingGroup ctx x
  let s := dbyte x 28 0 7
  if landingBad x g then (d, 0x71)
  else if 64 ≤ (d.sh p).groups.length ∨ (d.sh p).groups.any g.overlaps then (d, 0x72)
  else if !(d.rangeAccess (engineReq ctx g.tkey) true g.target (16384 * g.units)) ∨
          !(d.rangeAccess (engineReq ctx g.zkey) true g.zone (s * g.units * 17408)) then (d, 0x73)
  else match d.read (engineReq ctx (dbyte x 48 41 12)) (dbyte x 48 0 41) (4 * s) with
    | .fail d _ => (d, 0x73)
    | .ok d bs =>
      let l := leWords 4 bs
      if !(ascending l) ∨ l.any (fun v => 2 ^ 19 ≤ v) ∨ l.contains (d.sourceId p) then (d, 0x71)
      else
        let d := d.setSh p { d.sh p with groups := (d.sh p).groups ++ [{ g with sources := l }] }
        (d.setFld (shReg p + 0x50) 0 7 (d.sh p).groups.length, 0)

/-- Close the groups that do not satisfy `keep`, unmerged. -/
def Dev.closeGroups (d : Dev) (p : Nat) (keep : LzGroup → Bool) : Dev :=
  let d := d.setSh p { d.sh p with groups := (d.sh p).groups.filter keep }
  d.setFld (shReg p + 0x50) 0 7 (d.sh p).groups.length

/-! ### Granules (R203) -/

def LzGroup.granule (g : LzGroup) (si n : Nat) : Granule :=
  Sparse.get (fun _ => Granule.empty) g.gran (si * g.units * 256 + n)

def LzGroup.setGranule (g : LzGroup) (si n : Nat) (x : Granule) : LzGroup :=
  { g with gran := Sparse.set (fun _ => Granule.empty) g.gran (si * g.units * 256 + n) x }

/-- Position of a source in the group's list. -/
def LzGroup.source (g : LzGroup) (src : Nat) : Option Nat := g.sources.findIdx? (· = src)

/-- Zone address of granule `n` of source `si` (R203). -/
def LzGroup.zoneAddr (g : LzGroup) (si n : Nat) : Nat := g.zone + (si * g.units + n / 256) * 17408 + n % 256 * 64

/-- Address of the state of granule `n` of source `si`: 4 of the 1,024 bytes after the unit's data (R203, log 124). -/
def LzGroup.stateAddr (g : LzGroup) (si n : Nat) : Nat := g.zone + (si * g.units + n / 256) * 17408 + 16384 + n % 256 * 4

/-- The state bytes of a granule, as the zone keeps them. -/
def Granule.stateBytes (x : Granule) : List Byte :=
  (List.range 4).map fun i => match x with
    | .empty => Config.granuleState 0 0 0 i
    | .held tile serial => Config.granuleState 1 tile serial i
    | .committed => Config.granuleState 2 0 0 i

/-- Mark every granule that the pick of source `src` holds. -/
def LzGroup.mark (g : LzGroup) (src tile serial : Nat) (x : Granule) : LzGroup :=
  match g.source src with
  | none => g
  | some si =>
    let lo := si * g.units * 256
    { g with gran := g.gran.filterMap fun e =>
        if lo ≤ e.1 ∧ e.1 < lo + g.units * 256 ∧ e.2 = .held tile serial then
          (if x = .empty then none else some (e.1, x))
        else some e }

/-- The granules of a group that a pick of source `src` holds, as (source index, granule). -/
def LzGroup.heldBy (g : LzGroup) (src tile serial : Nat) : List (Nat × Nat) :=
  match g.source src with
  | none => []
  | some si =>
    ((g.gran.filter fun e => si * g.units * 256 ≤ e.1 ∧ e.1 < (si + 1) * g.units * 256 ∧ e.2 = .held tile serial).map
      fun e => (si, e.1 - si * g.units * 256))

/-- The granules that a message's pick holds in the partition's zones become `x`, in the zones' state too (R198, R199, R203). -/
def Dev.markHeld (d : Dev) (p : Nat) (m : Msg) (x : Granule) : Dev :=
  let gs := (d.sh p).groups
  let d := d.setSh p { d.sh p with groups := gs.map fun g => g.mark m.src m.tile m.serial x }
  gs.foldl (fun d g => (g.heldBy m.src m.tile m.serial).foldl (fun d e =>
    d.writeD (engineReq g.ctx g.zkey) (g.stateAddr e.1 e.2) x.stateBytes) d) d

/-- Write an ACC's granules into the zone, data and state, and mark them `x`. -/
def Dev.landGranules (d : Dev) (p gi si : Nat) (x : Granule) : Nat → List (List Byte) → Res Unit
  | _, [] => .ok d ()
  | n, b :: bs =>
    match (d.sh p).groups[gi]? with
    | none => .ok d ()
    | some g =>
      match d.write (engineReq g.ctx g.zkey) (g.zoneAddr si n) b with
      | .fail d w => .fail d w
      | .ok d _ =>
        let d := d.writeD (engineReq g.ctx g.zkey) (g.stateAddr si n) x.stateBytes
        let d := d.setSh p { d.sh p with groups := modifyAt (fun g => g.setGranule si n x) (d.sh p).groups gi }
        Dev.landGranules d p gi si x (n + 1) bs

/-- What becomes of an ACC: it lands, is rejected with a status of Table 07-8, or waits for its zone (12 R372). -/
inductive Landed where
  | landed (d : Dev)
  | status (d : Dev) (code : Nat)
  | waits

/-- Land an ACC. Its granules become held for its pick (R203); those of a message with `ENG` = 1 were committed when it was issued
(R200). A zone whose write Selvedge refuses rejects it whole (R206). -/
def Dev.landAcc (d : Dev) (p : Nat) (m : Msg) : Landed :=
  let n := m.len * 64
  match (d.sh p).groups.findIdx? fun g => g.target ≤ m.addr && m.addr + n ≤ g.target + 16384 * g.units with
  | none => .status d 3
  | some gi =>
    match (d.sh p).groups[gi]? with
    | none => .status d 3
    | some g =>
      match g.source m.src with
      | none => .status d 4
      | some si =>
        let first := (m.addr - g.target) / 64
        let x : Granule := if m.eng then .committed else .held m.tile m.serial
        if m.key ≠ g.tkey then .status d 4
        else if (rangeFrom first m.len).any fun i => g.granule si i ≠ .empty then .status d 5
        else match d.landGranules p gi si x first (chunksOf 64 m.len (m.payload.take n)) with
          | .ok d _ => .landed d
          | .fail _ .wait => .waits
          | .fail e _ => .status (e.setSh p (d.sh p)) 1

/-! ### Merge (R204) -/

/-- Every granule of the unit is committed in every zone. -/
def LzGroup.complete (g : LzGroup) (u : Nat) : Bool :=
  (List.range g.sources.length).all fun si => (rangeFrom (u * 256) 256).all fun n => g.granule si n = .committed

/-- FP32 elementwise sum of two strings of bytes, each addition rounded to nearest (R204). -/
def addWords (xs ys : List Byte) : List Byte :=
  (List.zipWith (fun a b => leBytes 4 (enc32 (rn32 ((dec32 a).add (dec32 b))))) (leWords 4 xs) (leWords 4 ys)).flatten

/-- Read a unit's data from each zone in ascending source ID. -/
def Dev.readZones (d : Dev) (g : LzGroup) (u : Nat) : List Nat → Res (List (List Byte))
  | [] => .ok d []
  | si :: r =>
    match d.read (engineReq g.ctx g.zkey) (g.zoneAddr si (u * 256)) 16384 with
    | .fail d w => .fail d w
    | .ok d b =>
      match Dev.readZones d g u r with
      | .ok d bs => .ok d (b :: bs)
      | .fail d w => .fail d w

/-- The sum: from the target in mode 0, from the first source in mode 1. -/
def mergeSum (mode : Nat) (target : List Byte) (zs : List (List Byte)) : List Byte :=
  match mode, zs with
  | 0, zs => zs.foldl addWords target
  | _, [] => target
  | _, z :: zs => zs.foldl addWords z

/-- After unit `u` of group `gi`: the last one signals the group's fence and closes it. -/
def Dev.mergedUnit (d : Dev) (p gi u : Nat) : Dev :=
  let d := d.setSh p { d.sh p with groups := modifyAt (fun g => { g with merged := insNat u g.merged }) (d.sh p).groups gi }
  let d := d.bump (shReg p + 0x58) 1
  match (d.sh p).groups[gi]? with
  | none => d
  | some g =>
    if g.units ≤ g.merged.length then
      let d := (d.engineSignal g.ctx g.fence g.fval).1
      d.closeGroups p fun h => h.target ≠ g.target
    else d

/-- Merge unit `u` of the partition's group `gi`; a bad line leaves it unmerged (12 Table 12-6). A write that waits for one of its
lines leaves the whole target unit as it was, for the merge to come again (12 R372). -/
def Dev.mergeUnit (d0 : Dev) (p gi u : Nat) : Dev :=
  let d := d0
  match (d.sh p).groups[gi]? with
  | none => d
  | some g =>
    if !d.servingIn p ∨ g.units ≤ u ∨ g.merged.contains u ∨ !g.complete u then d
    else match d.readZones g u (List.range g.sources.length) with
      | .fail d _ => d
      | .ok d zs =>
        match (if g.mode = 0 then d.read (engineReq g.ctx g.tkey) (g.target + 16384 * u) 16384 else .ok d []) with
        | .fail d _ => d
        | .ok d t =>
          match d.write (engineReq g.ctx g.tkey) (g.target + 16384 * u) (mergeSum g.mode t zs) with
          | .fail _ .wait => d0
          | .fail d _ => d
          | .ok d _ => d.mergedUnit p gi u

end Sys2Proof.Machine
end

