-- ==== Sys2Proof/Machine/Units.lean ====
section
/-! DEFINITION. Checking an op descriptor at decode (03 R15, R70, R83, R85, R87, R90 to R95, R483, 04 R116), the units of an op
with their costs and device ranges (Table 03-9), and the rule that cuts an op list into picks (R88, R98). -/

namespace Sys2Proof.Machine

/-! ### Validity (Table 03-12 `OP_INVALID`) -/

inductive RateClass where
  | eight | four | sixteen | none
  deriving DecidableEq, Repr

/-- Rate class of an operand format (R70). -/
def rateClass : Fmt → RateClass
  | .e4m3 => .eight
  | .e5m2 => .eight
  | .int8 => .eight
  | .fp4 => .four
  | .int4 => .four
  | .bf16 => .sixteen
  | .fp16 => .sixteen
  | _ => .none

/-- The fields of an operand slot at bit `lo` that holds no tensor: `RSTRIDE` is not used. -/
def placeFields (lo : Nat) : List (Nat × Nat) := [(lo, 41), (lo + 41, 2), (lo + 43, 12)]

/-- The fields of a whole operand slot at bit `lo`. -/
def slotFields (lo : Nat) : List (Nat × Nat) := placeFields lo ++ [(lo + 64, 32)]

/-- `SIG`, and with it `FENCE` and `FVAL`. Table 03-7 does not say which ops may carry `SIG`: here those with units of work, not
`NOP`, `END`, `SETRNG` and the fence ops (assumption log 114). -/
def sigFields (x : OpDesc) : List (Nat × Nat) := if oSig x then [(23, 1), (24, 14), (416, 64)] else [(23, 1)]

/-- `RND`, `SAT`, `STREAM` (R483). -/
def convFields : List (Nat × Nat) := [(46, 2), (48, 2), (56, 8)]

def sizeFields : List (Nat × Nat) := [(64, 16), (80, 16)]

def bFields (x : OpDesc) : List (Nat × Nat) :=
  (if oAux x % 4 = 0 then slotFields 224 ++ [(21, 1)] else placeFields 224) ++ [(12, 4), (112, 2)]

/-- The fields an op uses beside `OPCODE`; every other bit is zero (R85). -/
def usedFields (x : OpDesc) : List (Nat × Nat) :=
  let a := slotFields 128 ++ [(8, 4)]
  let d := slotFields 320 ++ [(16, 4)]
  let v := placeFields 320 ++ [(16, 4)]
  let sz := sizeFields ++ [(50, 3)]
  let tail := sigFields x
  let aux2 : List (Nat × Nat) := if (oD x).loc = 2 then [(112, 10)] else []
  match oCode x with
  | 0x01 => a ++ d ++ slotFields 224 ++ sz ++ tail ++ convFields ++
      [(12, 4), (20, 1), (21, 1), (22, 1), (96, 16)] ++ (if bits (oImm x) 22 2 = 0 then [] else [(486, 18)])
  | 0x10 => a ++ d ++ bFields x ++ sz ++ tail ++ convFields ++ [(20, 1), (38, 8)]
  | 0x11 => a ++ d ++ sz ++ tail ++ convFields ++ [(20, 1), (38, 8)] ++ (if oSub x = 9 ∨ oSub x = 10 then [(480, 32)] else [])
  | 0x12 => a ++ d ++ bFields x ++ sz ++ tail ++ convFields ++ [(20, 1)]
  | 0x20 => a ++ d ++ sz ++ tail ++ convFields ++ [(20, 1), (38, 4)]
  | 0x21 => a ++ d ++ bFields x ++ sz ++ tail ++ convFields ++ [(20, 1), (38, 4)]
  | 0x22 => placeFields 128 ++ tail ++ [(38, 4)]
  | 0x30 => a ++ v ++ sz ++ tail ++ convFields ++ [(20, 1), (22, 1), (38, 8), (116, 1)]
  | 0x31 => a ++ v ++ sz ++ tail ++ convFields ++ [(20, 1), (22, 1), (38, 8), (116, 1)]
  | 0x32 => a ++ v ++ sz ++ tail ++ convFields ++ [(20, 1), (22, 1), (38, 8), (116, 1)]
  | 0x40 => a ++ d ++ sz ++ tail ++ convFields ++ [(20, 1)] ++ aux2
  | 0x41 => d ++ sz ++ tail ++ convFields ++ [(480, 32)] ++ aux2
  | 0x50 => a ++ slotFields 320 ++ sz ++ tail ++ [(112, 4), (480, 19)]
  | 0x51 => a ++ slotFields 320 ++ sizeFields ++ tail ++ [(112, 4), (480, 19)]
  | 0x52 => slotFields 128 ++ d ++ sz ++ tail ++ [(112, 4), (480, 19)]
  | 0x53 => [(24, 14), (416, 64), (112, 4), (480, 19)]
  | 0x60 => [(24, 14), (416, 64)]
  | 0x61 => [(24, 14), (416, 64)]
  | 0x70 => [(416, 48), (480, 32)]
  | _ => []

/-- The opcodes of Table 03-9. -/
def opCodes : List Nat :=
  [0x00, 0x01, 0x10, 0x11, 0x12, 0x20, 0x21, 0x22, 0x30, 0x31, 0x32, 0x40, 0x41, 0x50, 0x51, 0x52, 0x53, 0x60, 0x61, 0x70, 0x7F]

/-- A slot in use breaks Table 03-10 or R83; `other` permits `LOC` 2. -/
def slotBad (o : Opnd) (other : Bool) : Bool :=
  o.loc = 3 || (o.loc = 2 && !other) || (o.loc ≠ 0 && (o.key ≠ 0 || 2 ^ 22 ≤ o.addr)) || o.addr % 64 ≠ 0 || o.stride % 64 ≠ 0

/-- Ops whose result is a shape of `MP` × `NP` panels. -/
def hasShape (c : Nat) : Bool := [0x01, 0x10, 0x11, 0x12, 0x20, 0x21, 0x30, 0x31, 0x32, 0x40, 0x41, 0x50, 0x51, 0x52].contains c

/-- `BSZ` 4 with an odd number of stored column panels (R82). -/
def oddBlocks (x : OpDesc) (c : Nat) (cols : Nat) : Bool := oBsz x = 4 && (fmtOf c).scalable && cols % 2 = 1

/-- Whether B is read as a tensor. -/
def tensorB (x : OpDesc) : Bool := [0x10, 0x12, 0x21].contains (oCode x) && oAux x % 4 = 0

/-- The rules of the op's own section. -/
def kindBad (x : OpDesc) : Bool :=
  let fa := fmtOf (oFmtA x)
  let fb := fmtOf (oFmtB x)
  match oCode x with
  | 0x01 =>
    oKp x = 0 || rateClass fa = .none || rateClass fa ≠ rateClass fb || fa.isInt ≠ fb.isInt ||
      (fa.isInt && oBsz x ≠ 0) || (oAcc x && fmtOf (oFmtD x) ≠ (if fa.isInt then .int32 else .fp32)) ||
      bits (oImm x) 22 2 = 3 ||
      oddBlocks x (oFmtA x) (if oTA x then oMp x else oKp x) || oddBlocks x (oFmtB x) (if oTB x then oKp x else oNp x) ||
      oddBlocks x (oFmtD x) (oNp x)
  | 0x22 => false
  | 0x51 => fa ≠ .fp32 || (oD x).loc ≠ 0
  | 0x50 => (oD x).loc ≠ 0 || oddBlocks x (oFmtA x) (oNp x)
  | 0x52 => (oA x).loc ≠ 0 || oddBlocks x (oFmtD x) (oNp x)
  | _ =>
    (oCode x = 0x10 && 5 < oSub x) || (oCode x = 0x11 && 10 < oSub x) ||
      ([0x30, 0x31, 0x32].contains (oCode x) && (4 < oSub x || fmtOf (oFmtD x) ≠ .fp32)) ||
      ([0x10, 0x12, 0x21].contains (oCode x) && (oAux x % 4 = 3 || (oAux x % 4 ≠ 0 && fb ≠ .fp32))) ||
      (hasShape (oCode x) && oCode x ≠ 0x41 && oddBlocks x (oFmtA x) (if oTA x then oMp x else oNp x)) ||
      (tensorB x && oddBlocks x (oFmtB x) (if oTB x then oMp x else oNp x)) ||
      (hasShape (oCode x) && !([0x30, 0x31, 0x32].contains (oCode x)) && oddBlocks x (oFmtD x) (oNp x))

/-- The descriptor fails with `OP_INVALID` when it is decoded. `BSZ` is a field of every op with an operand that may be of a
block-scaled format, whatever formats it names (assumption log 114). -/
def opBad (x : OpDesc) : Bool :=
  let c := oCode x
  !(opCodes.contains c) || !onlyFields x.toNat ((0, 8) :: usedFields x) ||
    oRnd x = 3 || 1 < oSat x || 4 < oBsz x || 8 < oFmtA x || 8 < oFmtB x || 8 < oFmtD x ||
    slotBad (oA x) false || slotBad (oB x) false || slotBad (oD x) (c = 0x40 || c = 0x41) ||
    (hasShape c && (oMp x = 0 || oNp x = 0)) || kindBad x

/-! ### Units (Table 03-9) -/

/-- Units of an op. A `NOP` counts as one, so that a pick holds it (assumption log 115). -/
def unitCount (x : OpDesc) : Nat :=
  if oCode x = 0x01 then oMp x * oNp x * oKp x else if hasShape (oCode x) then oMp x * oNp x else 1

/-- Panel (i, j) of unit `u`, and its K panel: D panels in row-major order, each over its K panels (R89). -/
def unitI (x : OpDesc) (u : Nat) : Nat := if oCode x = 0x01 then u / oKp x / oNp x else u / oNp x

def unitJ (x : OpDesc) (u : Nat) : Nat := if oCode x = 0x01 then u / oKp x % oNp x else u % oNp x

def unitK (x : OpDesc) (u : Nat) : Nat := u % oKp x

def unitClocks (x : OpDesc) : Nat :=
  match oCode x with
  | 0x01 =>
    match rateClass (fmtOf (oFmtA x)) with
    | .eight => 64
    | .four => 32
    | _ => 256
  | 0x10 => if oSub x = 5 then 256 else 64
  | 0x11 => if 4 ≤ oSub x ∧ oSub x ≤ 8 then 256 else 64
  | 0x12 => 64
  | 0x20 => 64
  | 0x21 => 64
  | 0x30 => 64
  | 0x31 => 64
  | 0x32 => 64
  | _ => 0

/-- Device ranges, as address and length. -/
structure Ranges where
  reads : List (Nat × Nat)
  writes : List (Nat × Nat)
  deriving DecidableEq, Repr

/-- The range when the slot lies in device memory. -/
def devRange (o : Opnd) (a n : Nat) : List (Nat × Nat) := if o.loc = 0 then [(a, n)] else []

/-- The range of logical panel (i, j) of an operand. -/
def panelRange (o : Opnd) (t : Fmt) (bsz : Nat) (tr : Bool) (rows cols i j : Nat) : List (Nat × Nat) :=
  devRange o (logicalAddr o t bsz tr rows cols i j) (panelBytes t bsz)

def dRange (x : OpDesc) (i j : Nat) : List (Nat × Nat) :=
  devRange (oD x) (dAddr x i j) (panelBytes (fmtOf (oFmtD x)) (oBsz x))

/-- The range of A's panel of a unit of a shaped op. -/
def aRange (x : OpDesc) (i j : Nat) : List (Nat × Nat) :=
  panelRange (oA x) (fmtOf (oFmtA x)) (oBsz x) (oTA x) (oMp x) (oNp x) i j

/-- What B reads for D panel (i, j) (R91). -/
def bRange (x : OpDesc) (i j : Nat) : List (Nat × Nat) :=
  match oAux x % 4 with
  | 0 => panelRange (oB x) (fmtOf (oFmtB x)) (oBsz x) (oTB x) (oMp x) (oNp x) i j
  | 1 => devRange (oB x) ((oB x).addr + 256 * j) 256
  | _ => devRange (oB x) ((oB x).addr + 256 * i) 256

/-- Bytes of a table image by its header (R71). -/
def Dev.tloadSize (d : Dev) (x : OpDesc) : Nat := 64 + 32 * leNat (d.bytes ((oA x).addr + 14) 2)

/-- Where a reduction's output for panel (i, j) lies: offset, length, first unit, last unit (R92, R93). -/
def reduceOut (x : OpDesc) (i j : Nat) : Nat × Nat × Bool × Bool :=
  match oCode x with
  | 0x30 => (256 * i, 256, j = 0, j + 1 = oNp x)
  | 0x31 => (256 * j, 256, i = 0, i + 1 = oMp x)
  | _ => (0, 64, i + 1 = oMp x && j + 1 = oNp x, i + 1 = oMp x && j + 1 = oNp x)

/-- The device-memory ranges unit `u` reads and writes. -/
def Dev.unitRanges (d : Dev) (x : OpDesc) (u : Nat) : Ranges :=
  let i := unitI x u
  let j := unitJ x u
  match oCode x with
  | 0x01 =>
    let k := unitK x u
    { reads := panelRange (oA x) (fmtOf (oFmtA x)) (oBsz x) (oTA x) (oMp x) (oKp x) i k ++
        panelRange (oB x) (fmtOf (oFmtB x)) (oBsz x) (oTB x) (oKp x) (oNp x) k j ++
        (if k = 0 ∧ oAcc x then dRange x i j else [])
      writes := if k + 1 = oKp x then dRange x i j else [] }
  | 0x10 => { reads := aRange x i j ++ bRange x i j, writes := dRange x i j }
  | 0x11 => { reads := aRange x i j, writes := dRange x i j }
  | 0x12 => { reads := aRange x i j ++ bRange x i j ++ dRange x i j, writes := dRange x i j }
  | 0x20 => { reads := aRange x i j, writes := dRange x i j }
  | 0x21 => { reads := aRange x i j ++ bRange x i j, writes := dRange x i j }
  | 0x22 => { reads := devRange (oA x) (oA x).addr (d.tloadSize x), writes := [] }
  | 0x40 => { reads := aRange x i j, writes := dRange x i j }
  | 0x41 => { reads := [], writes := dRange x i j }
  | 0x50 => { reads := aRange x i j, writes := [] }
  | 0x51 => { reads := aRange x i j, writes := [] }
  | 0x52 => { reads := [], writes := dRange x i j }
  | _ =>
    if hasShape (oCode x) then
      let (off, n, first, last) := reduceOut x i j
      { reads := aRange x i j ++ (if oAcc x && first then devRange (oD x) ((oD x).addr + off) n else [])
        writes := if last then devRange (oD x) ((oD x).addr + off) n else [] }
    else { reads := [], writes := [] }

/-- External bytes of a unit (Table 03-9). -/
def Dev.unitBytes (d : Dev) (x : OpDesc) (u : Nat) : Nat :=
  match oCode x with
  | 0x50 => panelBytes (fmtOf (oFmtA x)) (oBsz x)
  | 0x51 => panelBytes (fmtOf (oFmtA x)) (oBsz x)
  | 0x52 => panelBytes (fmtOf (oFmtD x)) (oBsz x)
  | c =>
    let r := d.unitRanges x u
    ((r.reads ++ r.writes).map Prod.snd).foldl (· + ·) 0 +
      (if (c = 0x40 ∨ c = 0x41) ∧ (oD x).loc = 2 then panelBytes (fmtOf (oFmtD x)) (oBsz x) else 0)

/-! ### The pick rule (R98) -/

/-- A pick being cut. -/
structure Cut where
  clocks : Nat
  bytes : Nat
  reads : List (Nat × Nat)
  writes : List (Nat × Nat)
  pieces : List Piece
  deriving DecidableEq, Repr

def Cut.empty : Cut := { clocks := 0, bytes := 0, reads := [], writes := [], pieces := [] }

def rangesMeet (x y : Nat × Nat) : Bool := x.1 < y.1 + y.2 && y.1 < x.1 + x.2

/-- The pick closes before unit `u`: it reads what the pick writes, or a bound would be passed; never before the first. -/
def Dev.closesBefore (d : Dev) (x : OpDesc) (u : Nat) (c : Cut) (any : Bool) : Bool :=
  any && ((d.unitRanges x u).reads.any (fun r => c.writes.any (rangesMeet r)) ||
    62500 < c.clocks + unitClocks x || 1000000 < c.bytes + d.unitBytes x u)

/-- Add up to `n` units of an op from unit `u`; the number added. -/
def Dev.cutUnits (d : Dev) (x : OpDesc) : Nat → Nat → Nat → Cut → Nat × Cut
  | 0, _, k, c => (k, c)
  | n + 1, u, k, c =>
    if d.closesBefore x u c (k ≠ 0 || !c.pieces.isEmpty) then (k, c)
    else
      let r := d.unitRanges x u
      Dev.cutUnits d x n (u + 1) (k + 1)
        { c with clocks := c.clocks + unitClocks x, bytes := c.bytes + d.unitBytes x u,
                 reads := c.reads ++ r.reads, writes := c.writes ++ r.writes }

/-- A cut pick: its pieces, how it closes, where the next pick begins. -/
structure CutPick where
  cut : Cut
  close : Close
  op : Nat
  unit : Nat
  deriving DecidableEq, Repr

/-- Read op `i` of a list under R86. -/
def Dev.fetchOp (d : Dev) (ctx list key i : Nat) : Res OpDesc :=
  match d.read (tileReq ctx key) (list + 64 * i) 64 with
  | .ok d bs => .ok d (BitVec.ofNat 512 (leNat bs))
  | .fail d w => .fail d w

/-- Cut from op `i`, unit `u`; `fuel` bounds the ops of the list (R88, R98). -/
def Dev.cutOps (d : Dev) (ctx list key : Nat) : Nat → Nat → Nat → Cut → Dev × CutPick
  | 0, i, u, c => (d, { cut := c, close := .bad i 0x51, op := i, unit := u })
  | fuel + 1, i, u, c =>
    if 65536 ≤ i then (d, { cut := c, close := .bad i 0x51, op := i, unit := u })
    else match d.fetchOp ctx list key i with
      | .fail d w => (d, { cut := c, close := .bad i (opStatus w), op := i, unit := u })
      | .ok d x =>
        if opBad x then (d, { cut := c, close := .bad i 0x51, op := i, unit := u })
        else if oCode x = 0x60 then (d, { cut := c, close := .fwait (oFence x) (oFval x), op := i, unit := 0 })
        else
          let (k, c) := d.cutUnits x (unitCount x - u) u 0 c
          let c := if k = 0 then c else { c with pieces := c.pieces ++ [{ op := i, desc := x, first := u, count := k }] }
          if u + k < unitCount x then (d, { cut := c, close := .bound, op := i, unit := u + k })
          else if oCode x = 0x61 then (d, { cut := c, close := .fsig, op := i + 1, unit := 0 })
          else if oCode x = 0x7F then (d, { cut := c, close := .atEnd, op := i + 1, unit := 0 })
          else Dev.cutOps d ctx list key fuel (i + 1) 0 c

/-- The key index a line was written under. -/
def Dev.ownKey (d : Dev) (l : Nat) : Nat :=
  match d.regionOf (128 * l) with
  | some n => (d.lineMeta (d.region n) l).key
  | none => 0

/-- The lines the pick both reads and writes (10, Picks): line and key index. -/
def Dev.inPlaceLines (d : Dev) (c : Cut) : List (Nat × Nat) :=
  let w := (c.writes.flatMap fun r => linesOf r.1 r.2).eraseDups
  let r := (c.reads.flatMap fun r => linesOf r.1 r.2).eraseDups
  (w.filter fun l => r.contains l).map fun l => (l, d.ownKey l)

end Sys2Proof.Machine
end

