-- ==== Sys2Proof/Machine/Matrix.lean ====
section
/-! DEFINITION. The matrix product: groups and their sums (04 R117 to R121, 03 R89), the masks (R90), the checksums of a D panel
and their bounds (09 R254 to R257), one unit of `MMUL`. -/

namespace Sys2Proof.Machine

/-! ### Group sums (R118, R119) -/

/-- Guard-inclusive window of the rate class (Table 04-3). -/
def windowQ : RateClass → Int
  | .eight => 10
  | .four => 6
  | _ => 24

/-- Exponent of a non-zero magnitude: the floor of its base-2 logarithm. -/
def magExp (m : Nat) (e : Int) : Int := e + bitLen m - 1

/-- The largest exponent among the products that are not zero. -/
def groupExp (ps : List FV) : Option Int :=
  ps.foldl (fun x p =>
    match p with
    | .fin _ 0 _ => x
    | .fin _ m e =>
      match x with
      | none => some (magExp m e)
      | some y => some (Max.max y (magExp m e))
    | _ => x) none

/-- A finite product in units of `2^u`, rounded toward zero. -/
def alignTo (u : Int) : FV → Int
  | .fin s m e =>
    let n : Int := if u ≤ e then (m * 2 ^ (e - u).toNat : Nat) else (m / 2 ^ (u - e).toNat : Nat)
    if s then -n else n
  | _ => 0

/-- The sum of a group, and its exponent when some product is not zero. -/
def groupSum (q : Int) (ps : List FV) : FV × Option Int :=
  if ps.any FV.isNan ∨ (ps.contains (.inf true) ∧ ps.contains (.inf false)) then (.nan, none)
  else if ps.contains (.inf true) then (.inf true, none)
  else if ps.contains (.inf false) then (.inf false, none)
  else match groupExp ps with
    | none => (FV.zero, none)
    | some e =>
      let z := (ps.map (alignTo (e - q))).foldl (· + ·) 0
      (.fin (z < 0) z.natAbs (e - q), some e)

/-! ### The accumulator (R120, R121, R255) -/

/-- One element while it is summed: accumulator, bound, saturated. -/
structure AccEl where
  acc : FV
  tau : FV
  sat : Bool
  deriving DecidableEq, Repr

def up32 (v : FV) : FV := round32 .up v

/-- Half a unit in the last place of FP32 at `v`. -/
def halfUlp32 : FV → FV
  | .fin _ m e => if m = 0 then FV.zero else .fin false 1 (Max.max (magExp m e - 23) (-149) - 1)
  | _ => FV.zero

/-- A group is added with one rounding to nearest; an exactly zero sum changes nothing. -/
def addGroup (q : Int) (x : AccEl) (ps : List FV) : AccEl :=
  let (s, e) := groupSum q ps
  if s.isZero then
    match e with
    | some e => { x with tau := up32 (x.tau.add (.fin false 32 (e - q))) }
    | none => x
  else
    let a := rn32 (x.acc.add s)
    let t := match e with
      | some e => up32 (x.tau.add (.fin false 32 (e - q)))
      | none => x.tau
    { x with acc := a, tau := up32 (t.add (halfUlp32 a)) }

/-- An integer product is added exactly; the accumulator holds at the INT32 limits. -/
def addInt (x : AccEl) (p : FV) : AccEl :=
  let s := x.acc.add p
  if FV.cmp s (.ofInt (2 ^ 31 - 1)) > 0 then { x with acc := .ofInt (2 ^ 31 - 1), sat := true }
  else if FV.cmp s (.ofInt (-2 ^ 31)) < 0 then { x with acc := .ofInt (-2 ^ 31), sat := true }
  else { x with acc := s }

/-- The 64 products of one K panel: two groups of 32, or one product at a time in the integer class (R89). -/
def addPanel (t : Fmt) (x : AccEl) (as bs : List FV) : AccEl :=
  let ps := List.zipWith FV.mul as bs
  if t.isInt then ps.foldl addInt x
  else addGroup (windowQ (rateClass t)) (addGroup (windowQ (rateClass t)) x (ps.take 32)) (ps.drop 32)

/-! ### Masks (R90) -/

/-- Bits of a byte string, bit 0 first. -/
def byteBits (bs : List Byte) : List Bool := bs.flatMap fun b => (List.range 8).map b.getLsbD

/-- The 64 row bits that govern D panel (i, j); all 1 without a mask. -/
def Dev.maskRows (d : Dev) (l : Nat) (x : OpDesc) (i j : Nat) : URes (List Bool) :=
  let a := bits (oImm x) 6 16 * 64
  match bits (oImm x) 22 2 with
  | 1 =>
    if storeRange a (oMp x * 8) then .ok d (byteBits ((d.lt l).bytes (a + 8 * i) 8)) else .fail d 0x52
  | 2 =>
    let n := i * oNp x + j
    if storeRange a (ceilDiv (oMp x * oNp x) 8) then
      .ok d (List.replicate 64 (((byteBits ((d.lt l).bytes (a + n / 8) 1)).getD (n % 8) false)))
    else .fail d 0x52
  | _ => .ok d (List.replicate 64 true)

/-- Under a block mask, whether the panel that shares this panel's blocks of 128 is masked (R115). -/
def Dev.partnerMasked (d : Dev) (l : Nat) (x : OpDesc) (i j : Nat) : Bool :=
  bits (oImm x) 22 2 = 2 &&
    match d.maskRows l x i (if j % 2 = 0 then j + 1 else j - 1) with
    | .ok _ m => !(m.any id)
    | _ => false

/-! ### Checksums (09 R254 to R257): binary64, exact in the integer class -/

def near64 (int : Bool) (v : FV) : FV := if int then v else round64 .nearest v

def up64 (int : Bool) (v : FV) : FV := if int then v else round64 .up v

def sum64 (int : Bool) (x : FV) (vs : List FV) : FV := vs.foldl (fun s v => near64 int (s.add v)) x

def sumUp (int : Bool) (x : FV) (vs : List FV) : FV := vs.foldl (fun s v => up64 int (s.add v)) x

def FV.finite : FV → Bool
  | .fin _ _ _ => true
  | _ => false

/-- Column `c` of a matrix, the rows whose mask bit is 1. -/
def liveCol (mask : List Bool) (m : List (List FV)) (c : Nat) : List FV :=
  (List.zipWith (fun b row => (b, row.getD c FV.zero)) mask m).filterMap fun e => if e.1 then some e.2 else none

/-- The start of a D panel: accumulators and the d0 terms of the references and bounds. -/
def Carry.start (c : Carry) (int : Bool) (mask : List Bool) (d0 : List (List FV)) : Carry :=
  let cols := (List.range 64).map (liveCol mask d0)
  { c with
    acc := d0, d0 := d0, tau := d0.map fun r => r.map fun _ => FV.zero, satEl := d0.map fun r => r.map fun _ => false
    refRow := d0.map (sum64 int FV.zero), refCol := cols.map (sum64 int FV.zero)
    absRow := d0.map fun _ => FV.zero, absCol := cols.map fun _ => FV.zero
    openRow := d0.map fun r => !(r.all FV.finite), openCol := cols.map fun r => !(r.all FV.finite) }

/-- One K panel joins accumulators, references and bounds: A row by row, B column by column. -/
def Carry.step (c : Carry) (t : Fmt) (mask : List Bool) (a bt : List (List FV)) : Carry :=
  let int := t.isInt
  let rowsOf := List.range 64
  let els := List.zipWith (fun (ar : List FV) (row : List AccEl) =>
      List.zipWith (fun bc x => addPanel t x ar bc) bt row) a
    (rowsOf.map fun r => (List.range 64).map fun k =>
      { acc := (c.acc.getD r []).getD k FV.zero, tau := (c.tau.getD r []).getD k FV.zero, sat := (c.satEl.getD r []).getD k false })
  let b := transposed bt
  let beta := b.map (sum64 int FV.zero)
  let betaAbs := b.map fun r => sumUp int FV.zero (r.map FV.abs)
  let acols := (List.range 64).map (liveCol mask a)
  let alpha := acols.map (sum64 int FV.zero)
  let alphaAbs := acols.map fun r => sumUp int FV.zero (r.map FV.abs)
  let anyB := b.any fun r => r.any fun v => !v.finite
  let anyA := acols.any fun r => r.any fun v => !v.finite
  { c with
    acc := els.map fun r => r.map AccEl.acc
    tau := els.map fun r => r.map AccEl.tau
    satEl := els.map fun r => r.map AccEl.sat
    refRow := List.zipWith (fun s ar => sum64 int s (List.zipWith (fun x y => near64 int (x.mul y)) ar beta)) c.refRow a
    refCol := List.zipWith (fun s bc => sum64 int s (List.zipWith (fun x y => near64 int (x.mul y)) alpha bc)) c.refCol bt
    absRow := List.zipWith (fun s ar => sumUp int s (List.zipWith (fun x y => up64 int (x.abs.mul y)) ar betaAbs)) c.absRow a
    absCol := List.zipWith (fun s bc => sumUp int s (List.zipWith (fun x y => up64 int (x.mul y.abs)) alphaAbs bc)) c.absCol bt
    openRow := List.zipWith (fun o ar => o || anyB || !(ar.all FV.finite)) c.openRow a
    openCol := List.zipWith (fun o bc => o || anyA || !(bc.all FV.finite)) c.openCol bt }

/-- The bound T of a row or column from its elements' bounds, accumulators, d0 values and the product term (R255). -/
def boundT (int : Bool) (taus accs d0s : List FV) (prod : FV) : FV :=
  if int then FV.zero
  else
    let s := up64 int ((sumUp int FV.zero (accs.map FV.abs)).add (sumUp int FV.zero (d0s.map FV.abs)))
    let s := up64 int (s.add prod)
    up64 int ((up64 int (s.mul (.fin false 1 (-28)))).add (sumUp int FV.zero taus))

/-- How one row or column fares: unchecked, passed or failed. -/
inductive LineCheck where
  | unchecked | passed | failed
  deriving DecidableEq, Repr

def checkLine (int : Bool) (open_ : Bool) (accs sats : List FV) (taus d0s : List FV) (ref prod : FV) : LineCheck :=
  if open_ ∨ accs.any (fun v => !v.finite) ∨ !sats.isEmpty then .unchecked
  else
    let diff := (near64 int ((sum64 int FV.zero accs).sub ref)).abs
    if FV.cmp diff (boundT int taus accs d0s prod) ≤ 0 then .passed else .failed

/-- The saturated elements among `accs`. -/
def saturated (accs : List FV) (sats : List Bool) : List FV :=
  (List.zip accs sats).filterMap fun e => if e.2 then some e.1 else none

/-- Rows and columns of a finished D panel (R255 to R257). -/
def Carry.check (c : Carry) (int : Bool) (mask : List Bool) : List LineCheck :=
  let satF := c.satEl.map fun r => r.map fun b => if b then FV.ofInt 1 else FV.zero
  let rows := (List.range 64).filterMap fun r =>
    if mask.getD r true then
      some (checkLine int (c.openRow.getD r false) (c.acc.getD r []) (saturated (c.acc.getD r []) (c.satEl.getD r []))
        (c.tau.getD r []) (c.d0.getD r []) (c.refRow.getD r FV.zero) (c.absRow.getD r FV.zero))
    else none
  let cols := (List.range 64).map fun k =>
    checkLine int (c.openCol.getD k false) (liveCol mask c.acc k)
      ((liveCol mask satF k).filter fun v => !v.isZero)
      (liveCol mask c.tau k) (liveCol mask c.d0 k) (c.refCol.getD k FV.zero) (c.absCol.getD k FV.zero)
  rows ++ cols

/-! ### Injection (09 R287) -/

/-- An armed injection of kind `k` for tile `t`. -/
def Dev.armedFor (d : Dev) (k : Nat) (u : UnitType) (id : Nat) : Bool :=
  d.fld 0x8060 63 1 = 1 && d.fld 0x8060 0 4 = k && d.fld 0x8060 4 8 = unitCode u && d.fld 0x8060 12 16 = id

/-- The fault is injected: entry 0x0321, `ARM` clears. -/
def Dev.injected (d : Dev) (u : UnitType) (id : Nat) : Dev :=
  (d.record 0 0x0321 u id (d.unitPart u id) (d.reg 0x8060).toNat).setFld 0x8060 63 1 0

/-- Physical tile of a logical tile: R77 until replaced; none when unbacked (R80). -/
def initialPhys (l : Nat) : Nat := l / 32 * 34 + (if l % 32 < 16 then l % 32 else l % 32 + 2)

def Dev.physOf (d : Dev) (l : Nat) : Option Nat := Sparse.get (fun l => some (initialPhys l)) d.tiles.map l

/-- The pick becomes suspect for cause `c` of R262, counted from 0; the first cause found stands. The number that
entries 0x0301 and 0x0302 give a cause is free (assumption log 130). -/
def Dev.suspectPick (d : Dev) (l c : Nat) : Dev :=
  d.modPickOf l fun p => { p with suspect := some (p.suspect.getD (Config.suspectCause c % 32)) }

/-- An injection of kind `k`, 3 or 4, makes the next check of the tile's pick fail. -/
def Dev.injectCheck (d : Dev) (l k : Nat) : Dev :=
  match d.physOf l with
  | some t => if d.armedFor k .tile t then (d.injected .tile t).suspectPick l (k - 2) else d
  | none => d

/-- Kind 2: one bit of one accumulator is flipped; which accumulator is a free value. -/
def Dev.injectAcc (d : Dev) (l : Nat) (int : Bool) : Dev :=
  match d.physOf l with
  | none => d
  | some t =>
    if d.armedFor 2 .tile t then
      let b := d.fld 0x8060 28 5
      let (v, d) := (d.injected .tile t).draw
      let c := d.carryOf l
      let f (x : FV) : FV :=
        if int then Fmt.int32.decode ((Fmt.int32.encode .nearest true x).bits ^^^ 2 ^ b) else dec32 (enc32 x ^^^ 2 ^ b)
      d.setCarry l { c with acc := modifyAt (fun r => modifyAt f r (v / 64 % 64)) c.acc (v % 64) }
    else d

/-! ### One unit -/

/-- The D panel is complete: checks, saturation counts, conversion, writing (R89, R121, R255, R258). -/
def Dev.mmulFinish (d : Dev) (ctx l : Nat) (x : OpDesc) (i j : Nat) (mask : List Bool) : URes Unit :=
  let int := (fmtOf (oFmtA x)).isInt
  let d := d.injectAcc l int
  let c := d.carryOf l
  let ls := c.check int mask
  let d := if ls.contains .failed then d.suspectPick l 0 else d
  let sats := ((List.zipWith (fun b r => if b then (r.filter id).length else 0) mask c.satEl)).foldl (· + ·) 0
  let d := (d.modPickOf l fun p => { p with unchecked := p.unchecked + (ls.filter (· = .unchecked)).length }).countConv l sats 0
  (d.injectCheck l 4).putPanel ctx l x i j mask (d.partnerMasked l x i j) c.acc

/-- Unit `u` of an `MMUL`: D panel (i, j) over K panel k. A D panel that a block mask leaves out has no work and no check; one whose
rows a row mask leaves out still has its column checks (09 R256, R257). -/
def Dev.mmulUnit (d : Dev) (ctx l : Nat) (x : OpDesc) (u : Nat) : URes Unit :=
  let i := unitI x u
  let j := unitJ x u
  let k := unitK x u
  let ta := fmtOf (oFmtA x)
  let tb := fmtOf (oFmtB x)
  let d := d.modPickOf l fun p => { p with steps := p.steps + 1 }
  (d.maskRows l x i j).bind fun d mask =>
    if bits (oImm x) 22 2 = 2 ∧ !(mask.any id) then .ok d ()
    else
      let begun : URes Unit :=
        if k = 0 then
          if oAcc x then
            (d.readAt ctx l (oD x) (dAddr x i j) (panelBytes (fmtOf (oFmtD x)) (oBsz x))).bind fun d bs =>
              .ok (d.setCarry l ((d.carryOf l).start ta.isInt mask (panelRows (fmtOf (oFmtD x)) 0 .exact bs))) ()
          else .ok (d.setCarry l ((d.carryOf l).start ta.isInt mask (List.replicate 64 (List.replicate 64 FV.zero)))) ()
        else .ok d ()
      begun.bind fun d _ =>
        (d.readPanel ctx l (oA x) ta (oBsz x) .exact (oTA x) (oMp x) (oKp x) i k).bind fun d a =>
          (d.readPanel ctx l (oB x) tb (oBsz x) .exact (oTB x) (oKp x) (oNp x) k j).bind fun d b =>
            let d := d.setCarry l ((d.carryOf l).step ta mask a (transposed b))
            if k + 1 = oKp x then d.mmulFinish ctx l x i j mask else .ok d ()

end Sys2Proof.Machine
end

