-- ==== Sys2Proof/Machine/Vector.lean ====
section
/-! DEFINITION. Vector and table ops and moves, one D panel at a time (03 R71, R72, R91, R94, R137, 04 R132, R133). Every FP32
operation is exact arithmetic and one rounding to nearest. -/

namespace Sys2Proof.Machine

/-! ### Element operations (Table 03-11) -/

/-- `VEC2`. -/
def vec2Op (sub : Nat) (a b : FV) : FV :=
  match sub with
  | 0 => rn32 (a.add b)
  | 1 => rn32 (a.sub b)
  | 2 => rn32 (a.mul b)
  | 3 => a.max b
  | 4 => a.min b
  | _ => rn32 (a.div b)

/-- `VEC1`; `imm` is `IMM` taken as FP32. -/
def vec1Op (sub : Nat) (imm a : FV) : FV :=
  match sub with
  | 0 => a
  | 1 => a.abs
  | 2 => a.neg
  | 3 => rn32 (a.mul a)
  | 4 => rn32 (FV.div (.fin false 1 0) a)
  | 5 => rn32 a.rsqrt
  | 6 => rn32 a.sqrt
  | 7 => rn32 a.exp2
  | 8 => rn32 a.log2
  | 9 => rn32 (a.add imm)
  | _ => rn32 (a.mul imm)

/-- Fused multiply-add with one rounding. -/
def fma32 (a b c : FV) : FV := rn32 ((a.mul b).add c)

/-- Elementwise on two panels. -/
def zipPanels (f : FV → FV → FV) (a b : List (List FV)) : List (List FV) := List.zipWith (List.zipWith f) a b

def mapPanel (f : FV → FV) (a : List (List FV)) : List (List FV) := a.map fun r => r.map f

/-- A's panel of a unit of a shaped op. -/
def Dev.readA (d : Dev) (ctx l : Nat) (x : OpDesc) (md : ReadMode) (i j : Nat) : URes (List (List FV)) :=
  d.readPanel ctx l (oA x) (fmtOf (oFmtA x)) (oBsz x) md (oTA x) (oMp x) (oNp x) i j

/-- A result panel with the injections of its conversion and, for spot-checked ops, of its spot comparison (09 R258, R259). -/
def Dev.putChecked (d : Dev) (ctx l : Nat) (x : OpDesc) (i j : Nat) (spot : Bool) (m : List (List FV)) : URes Unit :=
  ((if spot then d.injectCheck l 3 else d).injectCheck l 4).putWhole ctx l x i j m

def Dev.vec2Unit (d : Dev) (ctx l : Nat) (x : OpDesc) (u : Nat) : URes Unit :=
  let i := unitI x u
  let j := unitJ x u
  (d.readA ctx l x .fp32 i j).bind fun d a =>
    (d.readB ctx l x i j).bind fun d b => d.putChecked ctx l x i j true (zipPanels (vec2Op (oSub x)) a b)

def Dev.vec1Unit (d : Dev) (ctx l : Nat) (x : OpDesc) (u : Nat) : URes Unit :=
  let i := unitI x u
  let j := unitJ x u
  (d.readA ctx l x .fp32 i j).bind fun d a => d.putChecked ctx l x i j true (mapPanel (vec1Op (oSub x) (dec32 (oImm x))) a)

/-- `VFMA` reads the existing D. -/
def Dev.vfmaUnit (d : Dev) (ctx l : Nat) (x : OpDesc) (u : Nat) : URes Unit :=
  let i := unitI x u
  let j := unitJ x u
  (d.readA ctx l x .fp32 i j).bind fun d a =>
    (d.readB ctx l x i j).bind fun d b =>
      (d.readPanel ctx l (oD x) (fmtOf (oFmtD x)) (oBsz x) .fp32 false (oMp x) (oNp x) i j).bind fun d c =>
        d.putChecked ctx l x i j true (List.zipWith (fun (p : List (FV × FV)) (r : List FV) =>
          List.zipWith (fun e z => fma32 e.1 e.2 z) p r) (List.zipWith List.zip a b) c)

/-! ### Tables (R71, R72) -/

def LTile.set_ (x : LTile) (s : Nat) : Option TableSet := Sparse.get (fun _ => none) x.sets s

def segZero : Segment := { x0 := 0, a := 0, b := 0 }

/-- Entry `i` of the forward table, or of the slope table. -/
def LTile.seg (x : LTile) (slope : Bool) (i : Nat) : Segment :=
  Sparse.get (fun _ => segZero) x.segs (i + (if slope then 1024 else 0))

/-- The greatest integer not above a finite value. -/
def floorInt (s : Bool) (m : Nat) (e : Int) : Int :=
  let n : Nat := if 0 ≤ e then m * 2 ^ e.toNat else m / 2 ^ (-e).toNat
  let exact : Bool := decide (0 ≤ e) || m % 2 ^ (-e).toNat == 0
  if s then (if exact then - (n : Int) else - (n : Int) - 1) else n

/-- Segment number for `u`, limited to the set; NaN selects 0. -/
def segIndex (count : Nat) : FV → Nat
  | .nan => 0
  | .inf s => if s then 0 else count - 1
  | .fin s m e => min (floorInt s m e).toNat (count - 1)

/-- The clamp of clamp mode: not the `MAX` and `MIN` of R132. What it does instead with zeros of both signs and with a NaN in
`LO` or `HI` the rule does not say: x stays where it compares neither below `LO` nor above `HI` (assumption log 116). -/
def clampTo (lo hi x : FV) : FV :=
  if x.isNan then x
  else
    let y := if FV.cmp x lo < 0 then lo else x
    if FV.cmp y hi > 0 then hi else y

/-- Evaluate a set at `x` with forward or slope entries (R72). -/
def LTile.tableAt (lt : LTile) (t : TableSet) (slope : Bool) (x : FV) : FV :=
  let lo := dec32 t.lo
  let x := if t.mode = 1 then clampTo lo (dec32 t.hi) x else x
  let u := rn32 ((rn32 (x.sub lo)).mul (dec32 t.invW))
  let e := lt.seg slope (t.base + segIndex t.count u)
  let dx := rn32 (x.sub (dec32 e.x0))
  fma32 (dec32 e.b) dx (dec32 e.a)

def Dev.tfwdUnit (d : Dev) (ctx l : Nat) (x : OpDesc) (u : Nat) : URes Unit :=
  match (d.lt l).set_ (oSub x) with
  | none => .fail d 0x54
  | some t =>
    let i := unitI x u
    let j := unitJ x u
    (d.readA ctx l x .fp32 i j).bind fun d a => d.putChecked ctx l x i j true (mapPanel ((d.lt l).tableAt t false) a)

/-- `TSLOPE` multiplies the slope line's value by B with one rounding (05 R137). -/
def Dev.tslopeUnit (d : Dev) (ctx l : Nat) (x : OpDesc) (u : Nat) : URes Unit :=
  match (d.lt l).set_ (oSub x) with
  | none => .fail d 0x54
  | some t =>
    let i := unitI x u
    let j := unitJ x u
    (d.readA ctx l x .fp32 i j).bind fun d a =>
      (d.readB ctx l x i j).bind fun d b =>
        d.putChecked ctx l x i j true (zipPanels (fun v w => rn32 (((d.lt l).tableAt t true v).mul w)) a b)

/-- The header of a table image; none when it breaks R71. -/
def tableHeader (bs : List Byte) : Option TableSet :=
  let v := leNat bs
  let t : TableSet := { lo := bits v 0 32, hi := bits v 32 32, invW := bits v 64 32, base := bits v 96 16,
                        count := bits v 112 16, mode := bits v 128 8 }
  if t.base + t.count ≤ 1024 ∧ [64, 128, 256, 512, 1024].contains t.count ∧ t.mode ≤ 1 ∧ v / 2 ^ 136 = 0 then some t
  else none

/-- A 16-byte entry; none when bytes 12 to 15 are not zero. -/
def tableEntry (bs : List Byte) : Option Segment :=
  let v := leNat bs
  if v / 2 ^ 96 = 0 then some { x0 := bits v 0 32, a := bits v 32 32, b := bits v 64 32 } else none

/-- The segments of set `t` replaced, set `s` loaded, every other set that overlaps unloaded (R71). -/
def LTile.loadSet (x : LTile) (s : Nat) (t : TableSet) (fwd slope : List Segment) : LTile :=
  let put (m : Sparse Segment) (lo : Nat) (es : List Segment) : Sparse Segment :=
    (es.mapIdx fun i e => (lo + i, e)).foldl (fun m p => Sparse.set (fun _ => segZero) m p.1 p.2) m
  { x with
    segs := put (put x.segs t.base fwd) (1024 + t.base) slope
    sets := Sparse.set (fun _ => none) (x.sets.filter fun e =>
      match e.2 with
      | some o => !(o.base < t.base + t.count && t.base < o.base + o.count)
      | none => true) s (some t) }

def Dev.tloadUnit (d : Dev) (ctx l : Nat) (x : OpDesc) : URes Unit :=
  (d.readAt ctx l (oA x) (oA x).addr 64).bind fun d h =>
    match tableHeader h with
    | none => .fail d 0x51
    | some t =>
      (d.readAt ctx l (oA x) ((oA x).addr + 64) (32 * t.count)).bind fun d bs =>
        let es := (chunksOf 16 (2 * t.count) bs).map tableEntry
        if es.any Option.isNone then .fail d 0x51
        else
          let es := es.filterMap id
          .ok (d.setLt l ((d.lt l).loadSet (oSub x) t (es.take t.count) (es.drop t.count))) ()

/-! ### Moves (R94) -/

/-- A line of the source of a move is converted by the paired units (09 R258). -/
def Dev.moveUnit (d : Dev) (ctx l : Nat) (x : OpDesc) (u : Nat) : URes Unit :=
  let i := unitI x u
  let j := unitJ x u
  (d.readA ctx l x .move i j).bind fun d a => d.putChecked ctx l x i j false a

def Dev.fillUnit (d : Dev) (ctx l : Nat) (x : OpDesc) (u : Nat) : URes Unit :=
  d.putChecked ctx l x (unitI x u) (unitJ x u) false (List.replicate 64 (List.replicate 64 (dec32 (oImm x))))

/-! ### Reductions (R92, R93, 04 R122, R123, R132) -/

/-- One combination of the tree, to nearest. -/
def reduceOp (sub : Nat) (a b : FV) : FV :=
  match sub with
  | 2 => a.max b
  | 3 => a.min b
  | 4 => a.abs.max b.abs
  | _ => rn32 (a.add b)

/-- What enters the tree of one element. -/
def reduceIn (sub : Nat) (v : FV) : FV :=
  match sub with
  | 1 => rn32 (v.mul v)
  | 4 => v.abs
  | _ => v

/-- One level: neighbours combine. -/
def treeLevel (f : FV → FV → FV) : List FV → List FV
  | a :: b :: r => f a b :: treeLevel f r
  | r => r

/-- Six levels over 64 values. -/
def tree64 (f : FV → FV → FV) (vs : List FV) : FV :=
  ((List.range 6).foldl (fun l _ => treeLevel f l) vs).headD .nan

/-- The `n`-th sequential combination of output position `o`; long-sum mode rounds a sum stochastically (R122, R123). -/
def Dev.seqCombine (d : Dev) (ctx l : Nat) (x : OpDesc) (o n : Nat) (a b : FV) : FV :=
  if (oSub x = 0 ∨ oSub x = 1) ∧ bit (oAux x) 4 then
    round32 (.stochastic (d.drawAt ctx l (oStream x) (o + n * 2 ^ 32))) (a.add b)
  else reduceOp (oSub x) a b

/-- A vector of 64 FP32 results is written; results of FP32 are not changed by the conversion. -/
def Dev.putVector (d : Dev) (ctx l : Nat) (x : OpDesc) (off : Nat) (vs : List FV) : URes Unit :=
  ((d.injectCheck l 4).writeAt ctx l 0 (oD x) ((oD x).addr + off) ((vs.map fun v =>
    leBytes 4 (Fmt.fp32.encode .nearest (oSat x = 1) v).bits).flatten))

/-- Combine the partial results of outputs `o0` to `o0 + 63` with a panel's; `n` counts the addition. -/
def Dev.seqStep (d : Dev) (ctx l : Nat) (x : OpDesc) (o0 n : Nat) (a b : List FV) : List FV :=
  (List.zip a b).mapIdx fun i e => d.seqCombine ctx l x (o0 + i) n e.1 e.2

/-- A's panel of a unit of a reduction, whose rows or columns meet the spot comparison unit by unit (09 R259). -/
def Dev.readReduced (d : Dev) (ctx l : Nat) (x : OpDesc) (i j : Nat) : URes (List (List FV)) :=
  (d.readA ctx l x .fp32 i j).bind fun d a => .ok (d.injectCheck l 3) a

/-- Unit of `RROW`: A panel (i, j). -/
def Dev.rrowUnit (d : Dev) (ctx l : Nat) (x : OpDesc) (u : Nat) : URes Unit :=
  let i := unitI x u
  let j := unitJ x u
  (d.readReduced ctx l x i j).bind fun d a =>
    let t := a.map fun r => tree64 (reduceOp (oSub x)) (r.map (reduceIn (oSub x)))
    let begun : URes (List FV) :=
      if j = 0 then
        if oAcc x then (d.readVector ctx l (oD x) i).bind fun d v => .ok d (d.seqStep ctx l x (64 * i) 1 v t) else .ok d t
      else .ok d (d.seqStep ctx l x (64 * i) (j + b2n (oAcc x)) (d.carryOf l).part t)
    begun.bind fun d v =>
      let d := d.setCarry l { d.carryOf l with part := v }
      if j + 1 = oNp x then d.putVector ctx l x (256 * i) v else .ok d ()

/-- Unit of `RCOL`: A panel (i, j); the carry holds the partial results of every column. -/
def Dev.rcolUnit (d : Dev) (ctx l : Nat) (x : OpDesc) (u : Nat) : URes Unit :=
  let i := unitI x u
  let j := unitJ x u
  (d.readReduced ctx l x i j).bind fun d a =>
    let t := (transposed a).map fun r => tree64 (reduceOp (oSub x)) (r.map (reduceIn (oSub x)))
    let old := ((d.carryOf l).part.drop (64 * j)).take 64
    let begun : URes (List FV) :=
      if i = 0 then
        if oAcc x then (d.readVector ctx l (oD x) j).bind fun d v => .ok d (d.seqStep ctx l x (64 * j) 1 v t) else .ok d t
      else .ok d (d.seqStep ctx l x (64 * j) (i + b2n (oAcc x)) old t)
    begun.bind fun d v =>
      let p := (d.carryOf l).part
      let p := if i = 0 ∧ j = 0 then [] else p
      let d := d.setCarry l { d.carryOf l with part := p.take (64 * j) ++ v ++ p.drop (64 * j + 64) }
      if i + 1 = oMp x then d.putVector ctx l x (256 * j) v else .ok d ()

/-- The final pass of `RALL` over the tree results of the row panels; the count of additions goes on from `n`. -/
def Dev.finalPass (d : Dev) (ctx l : Nat) (x : OpDesc) : Nat → FV → List FV → FV
  | _, v, [] => v
  | n, v, t :: ts => Dev.finalPass d ctx l x (n + 1) (d.seqCombine ctx l x 0 n v t) ts

/-- Unit of `RALL`: `RROW` without the existing D, then a final pass over the column vector (R93 item 5). -/
def Dev.rallUnit (d : Dev) (ctx l : Nat) (x : OpDesc) (u : Nat) : URes Unit :=
  let i := unitI x u
  let j := unitJ x u
  (d.readReduced ctx l x i j).bind fun d a =>
    let t := a.map fun r => tree64 (reduceOp (oSub x)) (r.map (reduceIn (oSub x)))
    let v := if j = 0 then t else d.seqStep ctx l x (64 * i) j (d.carryOf l).part t
    let tot := if i = 0 ∧ j = 0 then [] else (d.carryOf l).tot
    let tot := if j + 1 = oNp x then tot ++ [tree64 (reduceOp (oSub x)) v] else tot
    let d := d.setCarry l { d.carryOf l with part := v, tot := tot }
    if i + 1 = oMp x ∧ j + 1 = oNp x then
      let first : URes FV :=
        if oAcc x then (d.readAt ctx l (oD x) (oD x).addr 64).bind fun d bs => .ok d (dec32 (leNat (bs.take 4)))
        else .ok d (tot.headD .nan)
      first.bind fun d v0 =>
        d.putVector ctx l x 0 (d.finalPass ctx l x (oNp x) v0 (if oAcc x then tot else tot.drop 1) :: List.replicate 15 FV.zero)
    else .ok d ()

end Sys2Proof.Machine
end

