-- ==== Sys2Proof/Machine/UpdateProg.lean ====
section
/-! DEFINITION. Update programs: the instruction word, which words are valid, and what each instruction does to a run
(06 R161 to R166). -/

namespace Sys2Proof.Machine

/-! ### The instruction word (R162, Table 06-6) -/

/-- The opcode and fields of a word. -/
def progOp (w : Nat) : Nat := bits w 26 6

def progFields (w : Nat) : ProgFields :=
  { d := BitVec.ofNat 4 (bits w 22 4), a := BitVec.ofNat 4 (bits w 18 4), b := BitVec.ofNat 4 (bits w 14 4),
    c := BitVec.ofNat 4 (bits w 10 4), g := bit w 9, n := bit w 8, p := BitVec.ofNat 2 (bits w 6 2),
    x := BitVec.ofNat 6 (bits w 0 6) }

/-- The fields a word may fill, as (bit, width): a predicate lies in the low two bits of its field. The guard is a field of
every opcode but `END`; `N` and `P` are used with `G` 1. -/
def progUses (op : Nat) (g : Bool) : List (Nat × Nat) :=
  let guard : List (Nat × Nat) := if g then [(9, 1), (8, 1), (6, 2)] else []
  let d := (22, 4)
  let a := (18, 4)
  let b := (14, 4)
  match op with
  | 0x00 => []
  | 0x01 => [d, (0, 3)] ++ guard
  | 0x02 => [d, (0, 6)] ++ guard
  | 0x04 => [a, (0, 3)] ++ guard
  | 0x05 => [a, (0, 3)] ++ guard
  | 0x06 => [a, (0, 5)] ++ guard
  | 0x14 => [d, a, b, (10, 4)] ++ guard
  | 0x20 => [d, a, (0, 4)] ++ guard
  | 0x21 => [d, a, (0, 6)] ++ guard
  | 0x33 => [(22, 2), a] ++ guard
  | 0x34 => [(22, 2), (18, 2)] ++ guard
  | 0x35 => [(22, 2), (18, 2), (14, 2)] ++ guard
  | 0x36 => [(22, 2), (18, 2), (14, 2)] ++ guard
  | _ =>
    if 0x30 ≤ op ∧ op ≤ 0x32 then [(22, 2), a, b] ++ guard
    else if op = 0x03 ∨ 0x17 ≤ op then [d, a] ++ guard
    else [d, a, b] ++ guard

/-- The opcodes of Table 06-7. -/
def progOpcodes : List Nat := rangeFrom 0x00 7 ++ rangeFrom 0x10 12 ++ [0x20, 0x21] ++ rangeFrom 0x30 7

/-- Roles of the eight slots admit the word (Table 06-5), its constant and format exist. -/
def progRole (roles : List Nat) (w : Nat) : Bool :=
  let r := roles.getD (bits w 0 3) 0
  match progOp w with
  | 0x01 => 1 ≤ r && r ≤ 3
  | 0x02 => bits w 0 6 ≤ 17
  | 0x04 => r = 2 || r = 3
  | 0x05 => r = 2 || r = 3
  | 0x06 => r = 2 || r = 3
  | 0x20 => 1 ≤ bits w 0 4 && bits w 0 4 ≤ 5
  | 0x21 => 1 ≤ bits w 0 4 && bits w 0 4 ≤ 5
  | _ => true

/-- A word that is no reserved opcode or encoding (R157, R162, R163). -/
def progWordOk (roles : List Nat) (w : Nat) : Bool :=
  progOpcodes.contains (progOp w) && onlyFields w ((26, 6) :: progUses (progOp w) (bit w 9)) && progRole roles w

/-- A valid program (R157). -/
def progOk (roles : List Nat) (ws : List Nat) : Bool :=
  ws.all (progWordOk roles) && ws.any fun w => progOp w = 0

/-! ### A run (R161) -/

def ProgRun.start (el : Nat) : ProgRun :=
  { el := el, pc := 0, f := List.replicate 16 FV.zero, p := List.replicate 4 false, stores := [] }

def ProgRun.fr (r : ProgRun) (i : BitVec 4) : FV := r.f.getD i.toNat FV.zero

def ProgRun.pr (r : ProgRun) (i : Nat) : Bool := r.p.getD (i % 4) false

def ProgRun.setF (r : ProgRun) (i : BitVec 4) (v : FV) : ProgRun := { r with f := modifyAt (fun _ => v) r.f i.toNat }

def ProgRun.setP (r : ProgRun) (i : BitVec 4) (v : Bool) : ProgRun := { r with p := modifyAt (fun _ => v) r.p (i.toNat % 4) }

/-- What a run reads from outside itself: an element of a slot as FP32, a constant, the 24 bits of draw d, a slot's format. -/
structure ProgEnv where
  load : Nat → FV
  const : Nat → FV
  draw : Nat → Nat
  fmt : Nat → Fmt

/-- A store takes effect after the earlier ones; each counts (R164). -/
def ProgRun.store (env : ProgEnv) (r : ProgRun) (s : Nat) (v : FV) (m : Rounding) : ProgRun :=
  let c := (env.fmt s).encode m false v
  { r with stores := r.stores ++ [{ slot := s, bits := c.bits, sat := c.sat, nan := v.isNan }] }

/-- The value rounded to a format, kept as FP32 (Table 06-7). -/
def roundKept (fmt : Nat) (m : Rounding) (v : FV) : FV := (fmtOf fmt).decode ((fmtOf fmt).encode m false v).bits

/-- Comparisons: false with a NaN operand. -/
def progCmp (op : Nat) (a b : FV) : Bool :=
  !a.isNan && !b.isNan &&
    match op with
    | 0x30 => decide (FV.cmp a b < 0)
    | 0x31 => decide (FV.cmp a b ≤ 0)
    | _ => decide (FV.cmp a b = 0)

/-- FP32 results of the arithmetic opcodes, one rounding to nearest each (R161, Table 06-7). -/
def progArith (op : Nat) (a b c : FV) : FV :=
  match op with
  | 0x03 => a
  | 0x10 => rn32 (a.add b)
  | 0x11 => rn32 (a.sub b)
  | 0x12 => rn32 (a.mul b)
  | 0x13 => rn32 (a.div b)
  | 0x14 => fma32 a b c
  | 0x15 => a.max b
  | 0x16 => a.min b
  | 0x17 => rn32 a.sqrt
  | 0x18 => rn32 a.rsqrt
  | 0x19 => rn32 ((FV.fin false 1 0).div a)
  | 0x1A => a.abs
  | _ => a.neg

/-- What an instruction whose guard holds does to the run's registers and stores (Table 06-7). -/
def progEffect (env : ProgEnv) (op : Nat) (i : ProgFields) (r : ProgRun) : ProgRun :=
  let x := i.x.toNat
  match op with
  | 0x00 => r
  | 0x01 => r.setF i.d (env.load (x % 8))
  | 0x02 => r.setF i.d (env.const x)
  | 0x04 => r.store env (x % 8) (r.fr i.a) .nearest
  | 0x05 => r.store env (x % 8) (r.fr i.a) .zero
  | 0x06 => r.store env (x % 8) (r.fr i.a) (.stochastic (env.draw (x / 8)))
  | 0x20 => r.setF i.d (roundKept (x % 16) .nearest (r.fr i.a))
  | 0x21 => r.setF i.d (roundKept (x % 16) (.stochastic (env.draw (x / 16))) (r.fr i.a))
  | 0x33 => r.setP i.d (r.fr i.a).isNan
  | 0x34 => r.setP i.d (!r.pr i.a.toNat)
  | 0x35 => r.setP i.d (r.pr i.a.toNat && r.pr i.b.toNat)
  | 0x36 => r.setP i.d (r.pr i.a.toNat || r.pr i.b.toNat)
  | _ =>
    if 0x30 ≤ op then r.setP i.d (progCmp op (r.fr i.a) (r.fr i.b))
    else r.setF i.d (progArith op (r.fr i.a) (r.fr i.b) (r.fr i.c))

/-- The guard holds, or there is none (R162). -/
def guardHolds (i : ProgFields) (r : ProgRun) : Bool := !i.g || (r.pr i.p.toNat != i.n)

/-- One instruction: no effect when its guard fails; the next one follows. -/
def progStep (env : ProgEnv) (op : Nat) (i : ProgFields) (r : ProgRun) : ProgRun :=
  let r' := if guardHolds i r then progEffect env op i r else r
  { r' with pc := r.pc + 1 }

/-- The stores of a run from where it stands up to `END`. -/
def runProg (env : ProgEnv) : List Nat → ProgRun → List SlotStore
  | [], r => r.stores
  | w :: ws, r => if progOp w = 0 then r.stores else runProg env ws (progStep env (progOp w) (progFields w) r)

end Sys2Proof.Machine
end

