-- ==== Sys2Proof/Machine/BattenLog.lean ====
section
/-! DEFINITION. Batten's parts: the Battens of a partition, the update record, blocks and panels, the redo log's lines, and how
a descriptor ends (06 R154 to R157, R168 to R171, R176, R179, R180). -/

namespace Sys2Proof.Machine

/-! ### State access -/

def Dev.batten (d : Dev) (n : Nat) : Batten := Sparse.get (fun _ => Batten.reset) d.battens n

def Dev.setBatten (d : Dev) (n : Nat) (x : Batten) : Dev :=
  { d with battens := Sparse.set (fun _ => Batten.reset) d.battens n x }

def Dev.bt (d : Dev) (p : Nat) : BtPart := Sparse.get (fun _ => BtPart.reset) d.btParts p

def Dev.setBt (d : Dev) (p : Nat) (x : BtPart) : Dev :=
  { d with btParts := Sparse.set (fun _ => BtPart.reset) d.btParts p x }

def Dev.setUpdate (d : Dev) (p : Nat) (u : Update) : Dev := d.setBt p { d.bt p with update := some u }

/-- The Battens of a partition that are not fenced, in ascending stack number (R168). -/
def Dev.battensOf (d : Dev) (p : Nat) : List Nat :=
  (List.range 16).filter fun n => stackPart d.parts n = p && !d.fenced .batten n

def btReg (p : Nat) : Nat := 0x1C400 + 0x80 * p

def logReg (n : Nat) : Nat := 0x1C100 + 0x20 * n

def Dev.logBase (d : Dev) (n : Nat) : Nat := d.fld (logReg n) 21 20 * granuleBytes

def Dev.logKey (d : Dev) (n : Nat) : Nat := d.fld (logReg n) 41 12

def Dev.logSlots (d : Dev) (n : Nat) : Nat := d.fld (logReg n + 8) 0 16

def Dev.logLines (d : Dev) (n : Nat) : Nat := d.fld (logReg n + 8) 16 11

def Dev.logSet (d : Dev) (n : Nat) : Bool := d.logKey n ≠ 0 && d.logSlots n ≠ 0

/-- Last sealed `SEQ` and `APPLIED_SEQ` (Table 06-16). -/
def Dev.logSeq (d : Dev) (n : Nat) : Nat := (d.reg (logReg n + 0x10)).toNat

def Dev.logApplied (d : Dev) (n : Nat) : Nat := (d.reg (logReg n + 0x18)).toNat

/-! ### Several writes, one after the other -/

/-- What a Batten write that took `d` to `e` waited for rows that it forced: a time the spec does not fix (08 R233, log 129). -/
def Dev.copyWaited (d e : Dev) (p : Nat) : Dev :=
  if e.reg (plReg p + 0x78) = d.reg (plReg p + 0x78) then e
  else
    let (ns, e) := e.draw
    e.bump (btReg p + 0x20) ns

/-- A Batten's write. -/
def Dev.battenWrite (d : Dev) (ctx k a : Nat) (bs : List Byte) : Res Unit :=
  match d.write (engineReq ctx k) a bs with
  | .ok e _ => .ok (d.copyWaited e (ctxPart ctx)) ()
  | .fail e w => .fail (d.copyWaited e (ctxPart ctx)) w

/-- Write (slot, address, key index, bytes) in order. -/
def Dev.writeAll (d : Dev) (ctx : Nat) : List (Nat × Nat × Nat × List Byte) → Res Unit
  | [] => .ok d ()
  | (_, a, k, bs) :: r =>
    match d.battenWrite ctx k a bs with
    | .ok d _ => Dev.writeAll d ctx r
    | .fail d w => .fail d w

/-! ### The descriptor (Table 06-2) -/

def updFields : List (Nat × Nat) :=
  [(0, 41), (41, 12), (64, 32), (96, 32), (128, 48), (176, 8), (184, 2), (192, 32), (224, 41), (265, 12), (288, 32),
   (320, 32), (352, 32), (384, 14), (400, 14), (416, 14), (432, 14), (448, 64), (512, 64), (576, 64), (640, 64),
   (704, 41), (745, 12), (768, 32)]

def uRecAddr (x : RingDesc) : Nat := dbyte x 16 0 41
def uRecKey (x : RingDesc) : Nat := dbyte x 16 41 12
def uStep (x : RingDesc) : Nat := dbyte x 24 0 32
def uShard (x : RingDesc) : Nat := dbyte x 28 0 32
def uElemBase (x : RingDesc) : Nat := dbyte x 32 0 48
def uStream (x : RingDesc) : Nat := dbyte x 32 48 8
def uMaskMode (x : RingDesc) : Nat := dbyte x 32 56 2
def uPanels (x : RingDesc) : Nat := dbyte x 40 0 32
def uNormAddr (x : RingDesc) : Nat := dbyte x 44 0 41
def uNormKey (x : RingDesc) : Nat := dbyte x 44 41 12
def uClip (x : RingDesc) : Nat := dbyte x 52 0 32
def uSkipAbove (x : RingDesc) : Nat := dbyte x 56 0 32
def uNormCount (x : RingDesc) : Nat := dbyte x 60 0 32
def uNormFence (x : RingDesc) : Nat := dbyte x 64 0 14
def uStashFence (x : RingDesc) : Nat := dbyte x 66 0 14
def uDoneFence (x : RingDesc) : Nat := dbyte x 68 0 14
def uCommitFence (x : RingDesc) : Nat := dbyte x 70 0 14
def uNormVal (x : RingDesc) : Nat := dbyte x 72 0 64
def uStashVal (x : RingDesc) : Nat := dbyte x 80 0 64
def uDoneVal (x : RingDesc) : Nat := dbyte x 88 0 64
def uCommitVal (x : RingDesc) : Nat := dbyte x 96 0 64
def uMaskAddr (x : RingDesc) : Nat := dbyte x 104 0 41
def uMaskKey (x : RingDesc) : Nat := dbyte x 104 41 12
def uCols (x : RingDesc) : Nat := dbyte x 112 0 32

/-- A field breaks Table 06-2. -/
def updateBad (x : RingDesc) : Bool :=
  !onlyFields (x.toNat >>> 128) updFields || uMaskMode x = 3 || uPanels x = 0 || uCols x = 0 ||
    uPanels x % uCols x ≠ 0 || uRecAddr x % 64 ≠ 0 || uNormAddr x % 64 ≠ 0 || uMaskAddr x % 64 ≠ 0 ||
    (uMaskMode x = 0 && uMaskAddr x ≠ 0)

/-! ### The update record (Table 06-3) -/

/-- A stream slot from its 16 bytes. -/
def streamSlot (v : Nat) : StreamSlot :=
  { addr := bits v 0 41, key := bits v 41 12, fmt := bits v 64 4, role := bits v 68 4, bsz := bits v 72 3 }

/-- Reserved bits of a stream slot are zero; its role, format and `BSZ` are no reserved encodings, in an unused slot either
(00 R15). -/
def slotBitsOk (v : Nat) : Bool :=
  onlyFields v [(0, 41), (41, 12), (64, 4), (68, 4), (72, 3)] && bits v 68 4 ≤ 4 && bits v 64 4 ≤ 8 && bits v 72 3 ≤ 4

/-- Formats and `BSZ` that a role admits (Table 06-5). -/
def StreamSlot.fits (s : StreamSlot) (cols : Nat) : Bool :=
  s.key ≠ 0 && s.addr % 64 = 0 && (s.bsz ≠ 4 || cols % 2 = 0) &&
    match s.role with
    | 1 => (s.fmt ≤ 7) && s.bsz ≤ 4
    | 2 => s.fmt ≤ 2 && s.bsz = 0
    | 3 => (s.fmt = 1 || s.fmt = 2) && s.bsz = 0
    | _ => 3 ≤ s.fmt && s.fmt ≤ 5 && 1 ≤ s.bsz && s.bsz ≤ 4

/-- A slot whose new values are logged. -/
def StreamSlot.isLogged (s : StreamSlot) : Bool := s.role = 2 || s.role = 3

def StreamSlot.panel (s : StreamSlot) : Nat := panelBytes (fmtOf s.fmt) s.bsz

/-- Panels of an update block: two when a slot has `BSZ` 4. -/
def blockPanels (ss : List StreamSlot) : Nat := if ss.any fun s => s.role ≠ 0 && s.bsz = 4 then 2 else 1

/-- Payload bytes of an entry (R170). -/
def payloadBytes (ss : List StreamSlot) : Nat :=
  blockPanels ss * ((ss.filter StreamSlot.isLogged).map StreamSlot.panel).foldl (· + ·) 0

/-- Logged bytes per parameter (R157). -/
def loggedPerParam (ss : List StreamSlot) : Nat :=
  ((ss.filter StreamSlot.isLogged).map fun s => (fmtOf s.fmt).width / 8).foldl (· + ·) 0

/-- The slots are valid together and fit the log of every Batten of the partition (R151, R156, R157). -/
def Dev.slotsOk (d : Dev) (p : Nat) (x : RingDesc) (ss : List StreamSlot) : Bool :=
  (ss.all fun s => s.role = 0 || s.fits (uCols x)) &&
  (ss.filter fun s => s.role = 3).length = 1 &&
  (let n := (ss.filter fun s => s.role = 4).length; n = 1 || n = 2) &&
  loggedPerParam ss ≤ 16 &&
  (d.battensOf p).all fun n => d.logSet n && 1 + ceilDiv (payloadBytes ss) 128 ≤ d.logLines n

/-- The bytes of the record between its fields are zero. -/
def recordBitsOk (bs : List Byte) : Bool :=
  ((chunksOf 16 8 (bs.take 128)).all fun b => slotBitsOk (leNat b)) &&
    leNat ((bs.drop 192).take 64) < 2 ^ 33

/-- Panels that the update block `b` covers. -/
def blockPan (ss : List StreamSlot) (b : Nat) : List Nat := rangeFrom (b * blockPanels ss) (blockPanels ss)

/-- Update blocks of the shard. -/
def Update.blocks (u : Update) : Nat := uPanels u.desc / blockPanels u.slots

/-- The position of the master slot. -/
def Update.master (u : Update) : Nat := (u.slots.findIdx? fun s => s.role = 3).getD 0

/-! ### Blocks of a Batten (R168) -/

/-- Block `b` goes to the (b mod n)-th of the partition's Battens. -/
def Dev.battenFor (d : Dev) (p b : Nat) : Option Nat :=
  let l := d.battensOf p
  if l.isEmpty then none else l[b % l.length]?

/-- The lowest block of Batten `n` that is not in `l`, or the number of blocks. -/
def Dev.nextBlock (d : Dev) (p n : Nat) (u : Update) (l : List Nat) : Nat :=
  ((List.range u.blocks).find? fun b => !l.contains b && d.battenFor p b = some n).getD u.blocks

/-! ### The redo log's lines (Table 06-10) -/

/-- Slot of sequence number `s`: the slots are used in turn. -/
def Dev.logAddr (d : Dev) (n s : Nat) : Nat :=
  d.logBase n + 128 + (s + d.logSlots n - 1) % d.logSlots n * d.logLines n * 128

/-- The payload, padded to whole lines. -/
def payloadOf (b : BlockOut) : List Byte :=
  let bs := b.stored.flatMap fun e => e.2.2.2
  bs ++ List.replicate (ceilDiv bs.length 128 * 128 - bs.length) 0

/-- The header line of a sealed block. -/
def headerLine (u : Update) (b : BlockOut) (seq : Nat) : List Byte :=
  let dest (s : Nat) : Nat := match b.stored.find? fun e => e.1 = s with
    | some (_, a, k, _) => a + k * 2 ^ 41
    | none => 0
  leBytes 4 0xBA770E01 ++ leBytes 4 0 ++ leBytes 8 seq ++ leBytes 4 (uStep u.desc) ++ leBytes 4 (uShard u.desc) ++
    leBytes 4 b.block ++ leBytes 2 ((payloadOf b).length / 128) ++
    leBytes 1 ((b.stored.map fun e => 2 ^ e.1).foldl (· + ·) 0) ++ List.replicate 33 0 ++
    (List.range 8).flatMap fun s => leBytes 8 (dest s)

/-- `STEP`, `SHARD` and `NEXT_BLOCK` of Batten `n`'s control line: of the descriptor in progress; with none, those the line
holds already, 0 in a log that has no control line yet. -/
def Dev.controlMid (d : Dev) (p n : Nat) : List Byte :=
  match (d.bt p).update with
  | some u => leBytes 4 (uStep u.desc) ++ leBytes 4 (uShard u.desc) ++ leBytes 4 (d.nextBlock p n u u.finished)
  | none =>
    let l := d.bytes (d.logBase n) 128
    if leNat (l.take 4) = 0xBA770C01 then (l.drop 16).take 12 else List.replicate 12 0

/-- The control line of Batten `n`. -/
def Dev.controlLine (d : Dev) (p n : Nat) : List Byte :=
  let c := d.reg (btReg p + 0x30)
  leBytes 4 0xBA770C01 ++ leBytes 4 0 ++ leBytes 8 (d.logApplied n) ++ d.controlMid p n ++
    leBytes 4 (rbits c 0 32) ++ leBytes 1 (rbits c 32 1) ++ List.replicate 95 0

/-- Write the control line; a log that is not set has none. -/
def Dev.writeControl (d : Dev) (p n : Nat) : Res Unit :=
  if d.logSet n then d.write (engineReq p (d.logKey n)) (d.logBase n) (d.controlLine p n) else .ok d ()

/-- Write the control lines of several Battens; one that is refused is left. -/
def Dev.writeControls (d : Dev) (p : Nat) (ns : List Nat) : Dev :=
  ns.foldl (fun d n => match d.writeControl p n with
    | .ok d _ => d
    | .fail d _ => d) d

def Dev.setApplied (d : Dev) (n s : Nat) : Dev := d.setReg (logReg n + 0x18) (BitVec.ofNat 64 s)

/-! ### The end of a descriptor (R176, R180) -/

/-- A stash wait that still runs ends with its descriptor; its time counts (R174, `BT_STASH_WAIT_NS`). -/
def Dev.closeStash (d : Dev) (p : Nat) : Dev :=
  match (d.bt p).update with
  | some u => if u.stash then d else d.bump (btReg p + 0x28) (d.since u.stashFrom)
  | none => d

/-- The Battens drop what they hold of the partition's descriptor; what they sealed is not applied again (R171). -/
def Dev.clearBattens (d : Dev) (p : Nat) : Dev :=
  (List.range 16).foldl (fun d n =>
    if stackPart d.parts n = p then
      let d := if (d.batten n).started then d.setApplied n (d.logSeq n) else d
      d.setBatten n { d.batten n with hand := none, checked := [], logged := [] }
    else d) (d.closeStash p)

/-- The partition's `UPDATE` ends with `st`; with `done` it signals `DONE_FENCE` first, and a use without the right fails. -/
def Dev.endUpdate (d : Dev) (p st : Nat) (done : Bool) : Dev :=
  match (d.bt p).update with
  | none => d
  | some u =>
    let d := (d.clearBattens p).setBt p { d.bt p with update := none }
    let d := d.writeControls p (d.battensOf p)
    let r := if done then d.engineSignal u.ctx (uDoneFence u.desc) (uDoneVal u.desc) else (d, 0)
    r.1.finish u.ring u.seq (Verdict.of (if r.2 = 7 then 7 else st))

/-- What a failed access of the update means: refused, `UPDATE_DENIED` (R179); a bad line leaves the block undone and the C3
stops the update (12 Table 12-6); a write that waits leaves everything as it was. -/
def Dev.updateFail (d0 d : Dev) (p : Nat) (w : MemFail) : Dev :=
  match w with
  | .wait => d0
  | .bad => d
  | _ => d.endUpdate p 0x65 false

/-- The step commits once `COMMIT_FENCE` holds `COMMIT_VAL` of the partition's latest step: every Batten's control line and
`BT_COMMITTED` take it. Answers the step that has just committed (R176). -/
def Dev.commitStep (d : Dev) (p : Nat) : Dev × Option Nat :=
  match (d.bt p).commit with
  | none => (d, none)
  | some (f, v, s) =>
    if (d.fence f).st ≠ .live ∨ (d.fence f).value < v ∨ !(d.fenceIn p f) then (d, none)
    else
      let d := d.setBt p { d.bt p with commit := none }
      if d.reg (btReg p + 0x30) = BitVec.ofNat 64 (s + 2 ^ 32) then (d, none)
      else ((d.setReg (btReg p + 0x30) (BitVec.ofNat 64 (s + 2 ^ 32))).writeControls p (d.battensOf p), some s)

end Sys2Proof.Machine
end

