-- ==== Sys2Proof/Machine/TileRun.lean ====
section
/-! DEFINITION. Remote, fence and control ops (03 R95 to R97), how the units of a pick run, and how a pick is abandoned
(R101, 07 R197, 10 R304). -/

namespace Sys2Proof.Machine

/-! ### Remote ops (R95, 07 R191, R208) -/

/-- Destination source ID of a remote op: coordinate and partition of `IMM`. -/
def oDest (x : OpDesc) : Nat := bits (oImm x) 0 17 * 4 + bits (oImm x) 17 2

/-- The serial of the pick on tile `l`. -/
def Dev.pickSerial (d : Dev) (l : Nat) : Nat := ((d.lt l).pick.map Pick.serial).getD 0

/-- The pick keeps the destination and channel of its messages (07 R197). -/
def Dev.noteSent (d : Dev) (l : Nat) (x : OpDesc) : Dev :=
  let e := (oDest x, oAux x % 16)
  d.modPickOf l fun p => if p.sent.contains e then p else { p with sent := p.sent ++ [e] }

/-- A message of the pick numbered `serial` on tile `l`. -/
def Dev.sendFrom (d : Dev) (ctx l serial : Nat) (x : OpDesc) (w : Draft) : Dev :=
  d.send (ctxPart ctx) { w with ch := oAux x % 16, dest := oDest x, eng := false, tile := l, serial := serial }

/-- A tile's message leaves when it is formed; that of a replay run is held (09 R263). -/
def Dev.tileSend (d : Dev) (ctx l : Nat) (x : OpDesc) (w : Draft) : Dev :=
  (if d.holds l then d.hold l (.msg w.typ (oAux x % 16) (oDest x) w.addr w.key w.len w.payload)
   else d.sendFrom ctx l (d.pickSerial l) x w).noteSent l x

/-- The op can reach its destination; in the P8 model no slice entry is valid (10 R310). -/
def Dev.canSend (d : Dev) (ctx : Nat) (x : OpDesc) : Bool := ctx < 4 && d.reachable (ctxPart ctx) (oDest x)

/-- Messages of at most 4 KiB in ascending address order. -/
def Dev.sendChunks (d : Dev) (ctx l : Nat) (x : OpDesc) (typ a : Nat) : List (List Byte) → Dev
  | [] => d
  | b :: bs =>
    let d := d.tileSend ctx l x { Draft.blank with typ := typ, addr := a, key := (oD x).key, len := b.length / 64, payload := b }
    Dev.sendChunks d ctx l x typ (a + b.length) bs

/-- Unit of `RPUT` (type 1) or `RACC` (type 2): one A panel as it is stored. -/
def Dev.rputUnit (d : Dev) (ctx l : Nat) (x : OpDesc) (typ u : Nat) : URes Unit :=
  if !(d.canSend ctx x) then .fail d 0x57
  else
    let t := fmtOf (oFmtA x)
    let n := panelBytes t (oBsz x)
    (d.readAt ctx l (oA x) (panelAddr (oA x) t (oBsz x) (oNp x) (unitI x u) (unitJ x u)) n).bind fun d bs =>
      .ok (d.sendChunks ctx l x typ (panelAddr (oD x) t (oBsz x) (oNp x) (unitI x u) (unitJ x u)) (chunksOf 4096 5 bs)) ()

/-- A GET of the pick, or replay run, numbered `serial` is sent and its answer awaited. -/
def Dev.sendGet (d : Dev) (ctx l serial op : Nat) (x : OpDesc) (src dst n : Nat) : Dev :=
  let d := d.sendFrom ctx l serial x { Draft.blank with typ := 3, addr := src, key := (oA x).key, len := n / 64 }
  let p := ctxPart ctx
  let s := d.sh p
  let g : RGet := { ctr := s.ctr - 1, tile := l, serial := serial, store := (oD x).loc = 1, addr := dst,
                    key := (oD x).key, len := n, ring := 0, seq := 0, op := op }
  d.setSh p { s with rgets := s.rgets ++ [g] }

/-- The GETs of one D panel: source, destination and length, at most 4 KiB each. -/
def getChunks (x : OpDesc) (u : Nat) : List (Nat × Nat × Nat) :=
  let t := fmtOf (oFmtD x)
  let n := panelBytes t (oBsz x)
  let src := panelAddr (oA x) t (oBsz x) (oNp x) (unitI x u) (unitJ x u)
  let dst := panelAddr (oD x) t (oBsz x) (oNp x) (unitI x u) (unitJ x u)
  (List.range (ceilDiv n 4096)).map fun i => (src + 4096 * i, dst + 4096 * i, min 4096 (n - 4096 * i))

/-- The place in the store that D names does not lie in it (R73). -/
def outsideStore (x : OpDesc) (u : Nat) : Bool :=
  let t := fmtOf (oFmtD x)
  let dst := panelAddr (oD x) t (oBsz x) (oNp x) (unitI x u) (unitJ x u)
  (oD x).loc = 1 && !(storeRange dst (panelBytes t (oBsz x)))

/-- Send the GETs of one D panel under `serial`. -/
def Dev.sendGets (d : Dev) (ctx l serial op : Nat) (x : OpDesc) (u : Nat) : Dev :=
  (getChunks x u).foldl (fun d g => d.sendGet ctx l serial op x g.1 g.2.1 g.2.2) d

/-- What answered the GET of a replay run of tile `l` for destination `dst`. -/
def Dev.gotAt (d : Dev) (l serial op dst : Nat) : Option GotData :=
  (d.lt l).replay.bind fun r => r.got.find? fun g => g.serial = serial && g.op = op && g.addr = dst

/-- In a replay run the data that its GETs brought are written into D; the GETs went out when the run began (09 R263). -/
def Dev.takeGots (d : Dev) (ctx l op : Nat) (x : OpDesc) : List (Nat × Nat × Nat) → URes Unit
  | [] => .ok d ()
  | c :: cs =>
    match d.gotAt l (d.pickSerial l) op c.2.1 with
    | none => .fail d 0x57
    | some g =>
      if g.status ≠ 0 then .fail d 0x58
      else (d.writeAt ctx l 0 (oD x) c.2.1 g.data).bind fun d _ => Dev.takeGots d ctx l op x cs

/-- Unit of `RGET`: the GETs of one D panel. -/
def Dev.rgetUnit (d : Dev) (ctx l op : Nat) (x : OpDesc) (u : Nat) : URes Unit :=
  if !(d.canSend ctx x) then .fail d 0x57
  else if outsideStore x u then .fail d 0x52
  else if d.holds l then (d.noteSent l x).takeGots ctx l op x (getChunks x u)
  else .ok ((d.sendGets ctx l (d.pickSerial l) op x u).noteSent l x) ()

/-- `RSIG`: a SIGNAL of 64 bytes (07 Table 07-6). -/
def Dev.rsigUnit (d : Dev) (ctx l : Nat) (x : OpDesc) : URes Unit :=
  if !(d.canSend ctx x) then .fail d 0x57
  else
    let d := d.tileSend ctx l x { Draft.blank with typ := 5, len := 1,
                                                   payload := leBytes 8 (oFval x) ++ leBytes 56 (oFence x) }
    .ok (d.modPickOf l fun p => if p.all16.contains (oDest x) then p else { p with all16 := p.all16 ++ [oDest x] }) ()

/-! ### Fence and control ops (R96, R97) -/

/-- The context may signal the fence now, or the fence is broken: then the signal itself is rejected (10 R311, R312, R315). -/
def Dev.signalOk (d : Dev) (ctx f : Nat) : Bool :=
  d.fenceIn ctx f && ((d.fence f).st = .broken || ((d.fence f).st = .live && (d.fence f).maySignal ctx))

/-- A signal held for the pick's commit; a use without the right fails `FENCE_DENIED`. -/
def Dev.holdSignal (d : Dev) (ctx l f v : Nat) : URes Unit :=
  if d.signalOk ctx f then .ok (d.modPickOf l fun p => { p.hold (.sig f v) with sigs := p.sigs ++ [(f, v)] }) () else .fail d 7

def Dev.fsigUnit (d : Dev) (ctx l : Nat) (x : OpDesc) : URes Unit := d.holdSignal ctx l (oFence x) (oFval x)

def Dev.setrngUnit (d : Dev) (l : Nat) (x : OpDesc) : URes Unit :=
  .ok (d.setLt l { d.lt l with base := oFval x % 2 ^ 48, step := oImm x }) ()

/-! ### Running the units of a piece -/

/-- What one unit of an op does. -/
def Dev.runUnit (d : Dev) (ctx l op : Nat) (x : OpDesc) (u : Nat) : URes Unit :=
  match oCode x with
  | 0x01 => d.mmulUnit ctx l x u
  | 0x10 => d.vec2Unit ctx l x u
  | 0x11 => d.vec1Unit ctx l x u
  | 0x12 => d.vfmaUnit ctx l x u
  | 0x20 => d.tfwdUnit ctx l x u
  | 0x21 => d.tslopeUnit ctx l x u
  | 0x22 => d.tloadUnit ctx l x
  | 0x30 => d.rrowUnit ctx l x u
  | 0x31 => d.rcolUnit ctx l x u
  | 0x32 => d.rallUnit ctx l x u
  | 0x40 => d.moveUnit ctx l x u
  | 0x41 => d.fillUnit ctx l x u
  | 0x50 => d.rputUnit ctx l x 1 u
  | 0x51 => d.rputUnit ctx l x 2 u
  | 0x52 => d.rgetUnit ctx l op x u
  | 0x53 => d.rsigUnit ctx l x
  | 0x61 => d.fsigUnit ctx l x
  | 0x70 => d.setrngUnit l x
  | _ => .ok d ()

/-- `n` units of a piece, from unit `u`; after the op's last unit its `SIG` signal is held for the commit (R96). -/
def Dev.runUnits (d : Dev) (ctx l op : Nat) (x : OpDesc) : Nat → Nat → URes Unit
  | 0, u => if oSig x ∧ u = unitCount x then d.holdSignal ctx l (oFence x) (oFval x) else .ok d ()
  | n + 1, u => (d.runUnit ctx l op x u).bind fun d _ => Dev.runUnits d ctx l op x n (u + 1)

/-! ### Slots, parts and dispatches (10 R302) -/

def setPart (tile : Nat) (o : PartOutcome) (ps : List DPart) : List DPart :=
  ps.map fun p => if p.tile = tile then { p with out := o } else p

/-- The part of a dispatch on tile `l` has outcome `o`. -/
def Dev.partOutcome (d : Dev) (ring seq l : Nat) (o : PartOutcome) : Dev :=
  { d with dispatches := d.dispatches.map fun x =>
      if x.ring = ring ∧ x.seq = seq then { x with parts := setPart l o x.parts } else x }

def PartOutcome.isOver : PartOutcome → Bool
  | .ended => true
  | .failed _ _ _ => true
  | _ => false

def PartOutcome.isFail : PartOutcome → Bool
  | .failed _ _ _ => true
  | _ => false

/-- The failed part with the lowest logical tile ID. -/
def lowestFail : List DPart → Option DPart
  | [] => none
  | p :: ps =>
    match lowestFail ps with
    | none => if p.out.isFail then some p else none
    | some q => if p.out.isFail ∧ p.tile < q.tile then some p else some q

/-- The verdict of a dispatch whose parts are over (R302). -/
def dispatchVerdict (ps : List DPart) : Verdict :=
  match lowestFail ps with
  | none => Verdict.of 0
  | some p =>
    match p.out with
    | .failed st a b => { code := st, nfail := (ps.filter fun p => p.out.isFail).length, aux := p.tile, info := a + b * 2 ^ 32 }
    | _ => Verdict.of 0

/-- Complete the dispatches whose every part is over: `DONE_FENCE` only when all reached `END`. -/
def Dev.settleDispatch (d : Dev) (x : Dispatch) : Dev :=
  if !(x.parts.all fun p => p.out.isOver) then d
  else
    let v := dispatchVerdict x.parts
    let desc := ((d.ring x.ring).pend.find? fun a => a.seq = x.seq).map Accepted.desc
    let d := { d with dispatches := d.dispatches.filter fun y => !(y.ring = x.ring && y.seq = x.seq) }
    match desc with
    | none => d
    | some t =>
      let r := if v.code = 0 ∧ dbyte t 34 0 1 = 1 then d.engineSignal x.ctx (dbyte t 32 0 14) (dbyte t 40 0 64) else (d, 0)
      r.1.finish x.ring x.seq (if r.2 = 7 then Verdict.of 7 else v)

def Dev.settleDispatches (d : Dev) : Dev := d.dispatches.foldl Dev.settleDispatch d

/-- Parts that wait take the free slots in order (R301). -/
def LTile.fillSlots (x : LTile) : LTile :=
  let k := 4 - x.slots.length
  { x with slots := x.slots ++ x.queue.take k, queue := x.queue.drop k }

/-- The slot is freed. -/
def Dev.dropSlot (d : Dev) (l i : Nat) : Dev :=
  let x := d.lt l
  d.setLt l { x with slots := x.slots.eraseIdx i }.fillSlots

/-- A part ends or fails: it leaves its slot, and its dispatch may complete. -/
def Dev.endPart (d : Dev) (l i : Nat) (o : PartOutcome) : Dev :=
  match (d.lt l).slots[i]? with
  | none => d
  | some s => ((d.dropSlot l i).partOutcome s.ring s.seq l o).settleDispatches

/-! ### Tile states (Table 03-4) -/

/-- State code of a physical tile; the initial spares are columns 16 and 17 (R77). -/
def initialState (t : Nat) : Nat := if t % 34 = 16 ∨ t % 34 = 17 then 6 else 0

def Dev.tileState (d : Dev) (t : Nat) : Nat := Sparse.get initialState d.tiles.phys t

def Dev.setTileState (d : Dev) (t c : Nat) : Dev :=
  { d with tiles := { d.tiles with phys := Sparse.set initialState d.tiles.phys t c } }

/-- The tile that carries `l` shows state `c`. -/
def Dev.showState (d : Dev) (l c : Nat) : Dev :=
  match d.physOf l with
  | some t => d.setTileState t c
  | none => d

/-- Between picks: waiting when every part waits on a fence, idle without parts, else ready to run (R96). -/
def Dev.restState (d : Dev) (l : Nat) : Dev :=
  let x := d.lt l
  let waiting : Bool := !x.slots.isEmpty && x.slots.all fun s => s.wait.isSome
  let p := match x.slots.head? with
    | some s => ctxPart s.ctx
    | none => 0
  let d := match x.waitFrom with
    | some t => if waiting then d else (d.bump (0x20120 + 0x40 * p) (d.now - t)).setLt l { x with waitFrom := none }
    | none => if waiting then d.setLt l { x with waitFrom := some d.now } else d
  d.showState l (if waiting then 3 else if x.slots.isEmpty then 1 else 2)

/-! ### Abandoning a pick (R101, 10 R304, 07 R197) -/

/-- Restore the shadowed lines, in the tile's own store and in any other. -/
def Dev.unshadow (d : Dev) : List (Nat × Nat × List Byte) → Dev
  | [] => d
  | (t, line, bs) :: r => Dev.unshadow (d.setLt t ((d.lt t).setBytes (64 * line) bs)) r

/-- Bytes of a context's write-aside area. -/
def Dev.asideArea (d : Dev) (ctx : Nat) : Nat :=
  (if ctx < 4 then d.fld (0x4128 + 0x100 * ctx) 53 7 else bits (d.ctx ctx).waside 53 7) * 2 ^ 20

/-- The `HX_WASIDE` of a context: base and key index of its write-aside area. -/
def Dev.asideWord (d : Dev) (ctx : Nat) : Nat := if ctx < 4 then (d.reg (0x4128 + 0x100 * ctx)).toNat else (d.ctx ctx).waside

/-- Address of the write-aside copy of tile `l`'s in-place line. -/
def Dev.asideAddr (d : Dev) (ctx l line : Nat) : Nat :=
  bits (d.asideWord ctx) 21 20 * granuleBytes + Config.asidePlace ctx l line % (d.asideArea ctx / 128) * 128

/-- A line keeps what the abandoned run wrote: entry 0x0210, C3. -/
def Dev.keepLine (d : Dev) (ctx line k : Nat) : Dev := d.recordC3 0x0210 ctx (128 * line + k * 2 ^ 41)

/-- A write of which a refusal is only noted: it fails only where a line counter keeps it waiting. -/
def Res.orNote (x : Res Unit) (note : Dev → Dev) : Res Unit :=
  x.elim (fun d _ => .ok d ()) fun d w => if w = .wait then .fail d .wait else .ok (note d) ()

/-- Restore one in-place line of tile `l` from write-aside by an engine write; a write-aside line that cannot be read and a write
that is refused leave the line. It fails only where a line counter keeps the write waiting (R304, 12 R372). -/
def Dev.restoreLine (d : Dev) (ctx l line k : Nat) (bs : List Byte) : Res Unit :=
  (d.read (engineReq ctx (bits (d.asideWord ctx) 41 12)) (d.asideAddr ctx l line) 128).elim
    (fun d _ => (d.write (engineReq ctx k) (128 * line) bs).orNote fun d => d.keepLine ctx line k)
    (fun d _ => .ok (d.keepLine ctx line k) ())

/-- Restore tile `l`'s in-place lines in order; a write that has to wait ends the turn. The lines left (R304). -/
def Dev.unaside (d : Dev) (ctx l : Nat) : List (Nat × Nat × List Byte) → Dev × List (Nat × Nat × List Byte)
  | [] => (d, [])
  | e :: r => (d.restoreLine ctx l e.1 e.2.1 e.2.2).elim (fun d _ => Dev.unaside d ctx l r) (fun d _ => (d, e :: r))

/-- Send COMMITs (type 6) or RETRACTs (type 7) of a pick (R197). -/
def Dev.closeMessages (d : Dev) (ctx l typ : Nat) (p : Pick) : Dev :=
  let chans := (p.sent.filter fun e => !(p.all16.contains e.1)) ++ p.all16.flatMap fun g => (List.range 16).map fun c => (g, c)
  chans.foldl (fun d e => d.send (ctxPart ctx) { Draft.blank with typ := typ, ch := e.2, dest := e.1, tile := l, serial := p.serial }) d

/-- Write-aside space of a pick (R305). -/
def Pick.asideBytes (p : Pick) : Nat := p.inPlace.length * 128

def Dev.asideUsed (d : Dev) (ctx : Nat) : Nat := Sparse.get (fun _ => 0) d.tiles.aside ctx

def Dev.setAside (d : Dev) (ctx n : Nat) : Dev :=
  { d with tiles := { d.tiles with aside := Sparse.set (fun _ => 0) d.tiles.aside ctx n } }

/-- Go on with the restore that tile `l` owes; done, its write-aside space is free (R303, R304). -/
def Dev.undoAside (d : Dev) (l : Nat) : Dev :=
  match (d.lt l).undo with
  | none => d
  | some u =>
    match d.unaside u.ctx l u.lines with
    | (d, []) => (d.setAside u.ctx (d.asideUsed u.ctx - u.space)).setLt l { d.lt l with undo := none }
    | (d, r) => d.setLt l { d.lt l with undo := some { u with lines := r } }

/-- A pick that waited for write-aside space no longer does: the wait counts in `HX_WA_WAIT_NS` (R305). -/
def Dev.endAsk (d : Dev) (ctx : Nat) (p : Pick) : Dev :=
  if p.reserved then d else d.bump (0x4188 + 0x100 * ctxPart ctx) (d.now - p.askedAt)

def Dev.releaseAside (d : Dev) (ctx : Nat) (p : Pick) : Dev :=
  if p.reserved then d.setAside ctx (d.asideUsed ctx - p.asideBytes) else d

/-- The GETs of a pick that are not answered are no longer awaited. -/
def Dev.dropGets (d : Dev) (ctx l serial : Nat) : Dev :=
  let s := d.sh (ctxPart ctx)
  d.setSh (ctxPart ctx) { s with rgets := s.rgets.filter fun g => !(g.tile = l && g.serial = serial) }

/-- The pick of tile `l` is abandoned: tile state, store lines and in-place lines are those of the last commit. -/
def Dev.abandonPick (d : Dev) (l : Nat) : Dev :=
  match (d.lt l).pick with
  | none => d
  | some p =>
    match (d.lt l).slots[p.slot]? with
    | none => d
    | some s =>
      let x := d.lt l
      let d := d.setLt l { x with pick := none, sets := p.sets0, segs := p.segs0, base := p.base0, step := p.step0
                                  slots := modifyAt (fun s => { s with carry := p.carry0 }) x.slots p.slot
                                  undo := some { ctx := s.ctx, space := if p.reserved then p.asideBytes else 0, lines := p.saved } }
      let d := ((d.unshadow p.shadow).undoAside l).endAsk s.ctx p
      let d := (d.dropGets s.ctx l p.serial).closeMessages s.ctx l 7 p
      let d := if p.sent.isEmpty then d else d.bump (shReg (ctxPart s.ctx) + 0x28) 1
      let d := ((d.bump (0x20110 + 0x40 * ctxPart s.ctx) 1).account s.ctx 2 1).account s.ctx 0 (d.now - p.start)
      d.restState l

/-- A failure while an op runs: the pick is abandoned and the part fails with both indices (R104). -/
def Dev.failPick (d : Dev) (l st op : Nat) : Dev :=
  match (d.lt l).pick with
  | none => d
  | some p => ((d.abandonPick l).endPart l p.slot (.failed st p.op op)).restState l

/-! ### A running pick -/

/-- The context whose part runs on the tile. -/
def Dev.runCtx (d : Dev) (l : Nat) : Option Nat :=
  match (d.lt l).pick with
  | some p => ((d.lt l).slots[p.slot]?).map Slot.ctx
  | none => none

/-- The pick waits for an answer to one of its GETs: later ops run after it (R68). -/
def Dev.getsOpen (d : Dev) (ctx l : Nat) : Bool :=
  match (d.lt l).pick with
  | some p => (d.sh (ctxPart ctx)).rgets.any fun g => g.tile = l && g.serial = p.serial
  | none => false

/-- The tile may run now: service, context open, write-aside reserved, no GET outstanding, sequencer not halted. -/
def Dev.mayRun (d : Dev) (ctx l : Nat) (p : Pick) : Bool :=
  d.servingIn (ctxPart ctx) && (d.ctx ctx).st = .opened && p.reserved && !d.getsOpen ctx l && !d.tap.halted.contains l

end Sys2Proof.Machine
end

