-- ==== Sys2Proof/Machine/Fencing.lean ====
section
/-! DEFINITION. Fencing a unit: the record, the count in life, the minimum service set (09 R275, R277, R278, 15 R442); spares and
the replacement of a tile (03 R77 to R80, 01 R20). -/

namespace Sys2Proof.Machine

/-! ### The minimum service set (15 R442) -/

/-- A die's mesh segment with at least one good tile. -/
def Dev.dieUp (d : Dev) (k : Nat) : Bool :=
  !d.fenced .die k && (List.range 1088).any fun t => tileDie t = k && !d.fenced .tile t

/-- A stack with its controller and Selvedge. -/
def Dev.stackUp (d : Dev) (k : Nat) : Bool := !d.fenced .stack k && !d.fenced .selvedge k

def Dev.minimumUp (d : Dev) : Bool :=
  ((List.range 4).all fun h => !d.fenced .hub h) && ((List.range 16).any d.stackUp) && (List.range 4).any d.dieUp

/-- The set was up and is not any more: entry 0x0312 names the unit (R278). -/
def Dev.checkMinimum (d : Dev) (wasUp : Bool) (u : UnitType) (id : Nat) : Dev :=
  if wasUp && !d.minimumUp then d.record 4 0x0312 .device 0 none (unitCode u + id * 2 ^ 8) else d

/-! ### The record of a fencing (R275, R277) -/

/-- Coppice fences a unit for `reason`: entry 0x0310; at the third fencing in life it stays fenced, which the life log
records (14 Table 14-11). -/
def Dev.markFenced (d : Dev) (u : UnitType) (id reason : Nat) : Dev :=
  let r := d.unit u id
  if r.fenced then d
  else
    let up := d.minimumUp
    let n := r.fencings + 1
    let d := d.setUnit u id { r with fenced := true, reason := reason, fencings := n, passes := 0, lastTest := d.now,
                                     testing := false, permanent := 3 ≤ n }
    let d := d.record 2 0x0310 u id (d.unitPart u id) reason
    let d := if 3 ≤ n then d.lifeWrite 2 ([BitVec.ofNat 8 (unitCode u), 0] ++ leBytes 2 id ++ leBytes 1 n) else d
    d.checkMinimum up u id

/-! ### Spares (R78, R20) -/

/-- Mesh hops between physical tiles. -/
def meshHops (a b : Nat) : Nat :=
  let f (x y : Nat) := if x ≤ y then y - x else x - y
  f (a % 34) (b % 34) + f (a / 34) (b / 34)

/-- A spare that may replace tile `a`. -/
def Dev.permitted (d : Dev) (a s : Nat) : Bool :=
  d.tileState s = 6 && !d.fenced .tile s && (d.parts = 1 || diePart d.parts (tileDie a) = diePart d.parts (tileDie s))

/-- The order of R78: same die first, then fewest hops, then lowest ID. -/
def spareBefore (a s t : Nat) : Bool :=
  let k (x : Nat) : Nat := (if tileDie x = tileDie a then 0 else 2 ^ 20) + meshHops a x * 2 ^ 11
  k s < k t || (k s = k t && s < t)

/-- The replacement for tile `a`. -/
def Dev.spareFor (d : Dev) (a : Nat) : Option Nat :=
  (List.range 1088).foldl (fun best s =>
    if d.permitted a s then
      match best with
      | none => some s
      | some b => if spareBefore a s b then some s else best
    else best) none

/-- The logical tile that physical tile `t` carries. -/
def Dev.logicalOf (d : Dev) (t : Nat) : Option Nat := (List.range 1024).find? fun l => d.physOf l = some t

def Dev.setMap (d : Dev) (l : Nat) (t : Option Nat) : Dev :=
  { d with tiles := { d.tiles with map := Sparse.set (fun l => some (initialPhys l)) d.tiles.map l t } }

/-! ### Replacement at a pick boundary (R79, R80) -/

/-- What is due for physical tile `t` at its boundary: 1 out-of-turn test, 2 fenced, 3 forced swap (R273). -/
def Dev.leavingFor (d : Dev) (t : Nat) : Nat := Sparse.get (fun _ => 0) d.tiles.leaving t

def Dev.setLeaving (d : Dev) (t c : Nat) : Dev :=
  { d with tiles := { d.tiles with leaving := Sparse.set (fun _ => 0) d.tiles.leaving t c } }

/-- Every part in a slot of the tile fails with `st`, at its next op. -/
def Dev.failSlots (d : Dev) (l st : Nat) : Dev :=
  let x := d.lt l
  let d := d.setLt l { x with slots := [], pick := none }
  (x.slots.foldl (fun d s => d.partOutcome s.ring s.seq l (.failed st s.op s.op)) d).settleDispatches

/-- Every part that waits for a slot fails with `st`. -/
def Dev.failQueue (d : Dev) (l st : Nat) : Dev :=
  let x := d.lt l
  let d := d.setLt l { x with queue := [] }
  (x.queue.foldl (fun d s => d.partOutcome s.ring s.seq l (.failed st 0 0)) d).settleDispatches

/-- A zeroed store with every set unloaded. -/
def LTile.zeroed (x : LTile) : LTile := { x with store := [], sets := [], segs := [], base := 0, step := 0 }

/-- The departing store cannot be read: zeroed store, `TILE_LOST` for what runs on the tile (R79). -/
def Dev.loseStore (d : Dev) (l : Nat) : Dev :=
  let d := (d.setLt l (d.lt l).zeroed).failSlots l 0x56
  d.setLt l (d.lt l).fillSlots

/-- In-field tests run: `IFT_ENABLE` (R274). -/
def Dev.testsOn (d : Dev) : Bool := d.serving && d.fld 0x8000 0 1 = 1

/-- A tile's out-of-turn or forced test begins (R265, R273). While `IFT_ENABLE` is 0 no unit is tested: the tile stays idle, due
for its test, and is no spare (assumption log 132). -/
def Dev.beginTest (d : Dev) (t : Nat) : Dev :=
  if d.fenced .tile t then (d.setLeaving t 0).setTileState t 7
  else if d.testsOn then (d.setTileState t 5).setUnit .tile t { d.unit .tile t with testing := true }
  else (d.setLeaving t 1).setTileState t 1

/-- A tile without a logical tile after it left: fenced, or under test. -/
def Dev.freed (d : Dev) (t : Nat) : Dev :=
  if d.fenced .tile t then (d.setLeaving t 0).setTileState t 7
  else match d.leavingFor t with
    | 1 => (d.setLeaving t 0).beginTest t
    | 3 => d.beginTest t
    | _ => (d.setLeaving t 0).setTileState t 6

/-- A fenced tile other than `t` still carries a logical tile and may take spare `s`: it goes before tests (R266). -/
def Dev.fencedFirst (d : Dev) (t s : Nat) : Bool :=
  d.tiles.leaving.any fun e => e.2 = 2 && e.1 ≠ t && (d.logicalOf e.1).isSome && d.permitted e.1 s

/-- Tile `t` may take spare `s` now: a fenced one always, one due for test while tests run and no fenced one waits (R266, R274). -/
def Dev.takesSpare (d : Dev) (t s : Nat) : Bool := d.leavingFor t = 2 || (d.testsOn && !d.fencedFirst t s)

/-- At a pick boundary of tile `t`, a spare takes over its logical tile (R79); without one it becomes unbacked (R80), but a
tile due only for test keeps it and runs on (R265, R273). -/
def Dev.replaceTile (d : Dev) (t : Nat) (readable : Bool) : Dev :=
  match d.logicalOf t with
  | none => d
  | some l =>
    if d.leavingFor t = 0 ∨ (d.lt l).pick.isSome ∨ (d.lt l).replay.isSome then d
    else match d.spareFor t with
      | some s =>
        if !d.takesSpare t s then d
        else
        let d := (d.setMap l (some s)).bump (0x20128 + 0x40 * tilePart d.parts l) 1
        ((if readable then d else d.loseStore l).restState l).freed t
      | none =>
        if d.leavingFor t = 2 then
          let d := ((d.setMap l none).failSlots l 0x55).failQueue l 0x55
          (d.setLt l (d.lt l).zeroed).freed t
        else d

end Sys2Proof.Machine
end

