-- ==== Sys2Proof/Machine/Batten.lean ====
section
/-! DEFINITION. Batten: starting an update, the norm gate, update blocks, sealing, the working copy, log recovery, a fenced
Batten, and the instructions of a run as single steps (06 R157 to R177, 09 R260, R261). -/

namespace Sys2Proof.Machine

/-! ### Start (R154 to R157, R177, R181) -/

/-- Every Batten of the partition has looked at its log: it carries no control line, or recovery has ended (R172). -/
def Dev.logsReady (d : Dev) (p : Nat) : Bool :=
  (List.range 16).all fun n => stackPart d.parts n ≠ p || (d.batten n).started || !d.logSet n ||
    leNat (d.bytes (d.logBase n) 4) ≠ 0xBA770C01

/-- A Batten without a control line starts with sequence 0. -/
def Dev.startLogs (d : Dev) (p : Nat) : Dev :=
  (d.battensOf p).foldl (fun d n =>
    if (d.batten n).started then d
    else ((d.setApplied n 0).setReg (logReg n + 0x10) 0).setBatten n { d.batten n with started := true, placed := false }) d

/-- The mask of the descriptor (R166). -/
def Dev.readMask (d : Dev) (ctx : Nat) (x : RingDesc) : Res (List Byte) :=
  match uMaskMode x with
  | 0 => .ok d []
  | 1 => d.read (engineReq ctx (uMaskKey x)) (uMaskAddr x) (8 * (uPanels x / uCols x))
  | _ => d.read (engineReq ctx (uMaskKey x)) (uMaskAddr x) (ceilDiv (uPanels x) 8)

/-- A valid `UPDATE` starts: its record and mask are read once (R155, R166); the C3 of a bad line ends it `STOPPED` (12
Table 12-6). -/
def Dev.beginUpdate (d : Dev) (r : Nat) (a : Accepted) : Dev :=
  let ctx := ringCtx r
  let p := ctxPart ctx
  let x := a.desc
  match d.read (engineReq ctx (uRecKey x)) (uRecAddr x) 512 with
  | .fail d .bad => d.finish r a.seq (Verdict.of 3)
  | .fail d _ => d.finish r a.seq (Verdict.of 0x65)
  | .ok d bs =>
    let ss := (chunksOf 16 8 (bs.take 128)).map fun b => streamSlot (leNat b)
    let ws := leWords 4 (bs.drop 256)
    if !(recordBitsOk bs) ∨ !(d.slotsOk p x ss) ∨ !(progOk (ss.map StreamSlot.role) ws) then d.finish r a.seq (Verdict.of 0x61)
    else
      let d := d.setBt p { d.bt p with commit := some (uCommitFence x, uCommitVal x, uStep x) }
      if leNat ((bs.drop 192).take 8) = uStep x + 2 ^ 32 then
        let e := d.engineSignal ctx (uDoneFence x) (uDoneVal x)
        e.1.finish r a.seq (Verdict.of (if e.2 = 7 then 7 else 0x64))
      else match d.readMask ctx x with
        | .fail d .bad => d.finish r a.seq (Verdict.of 3)
        | .fail d _ => d.finish r a.seq (Verdict.of 0x65)
        | .ok d mask =>
          let u : Update := { ring := r, seq := a.seq, ctx := ctx, desc := x, slots := ss,
                              consts := leWords 4 ((bs.drop 128).take 64), prog := ws, mask := mask, gate := .waiting, clip := 0,
                              norm := 0, taken := [], finished := [], stash := false, stashFrom := none, nanNoted := false }
          let d := (d.startLogs p).setUpdate p u
          (d.setPhase r a.seq .started).writeControls p (d.battensOf p)

/-- Opcode 0x60: Batten takes one descriptor of a partition at a time, once enabled, with a Batten left and every log looked
at; in the P8 model it always fails (R157). -/
def Dev.update (d : Dev) (r : Nat) : Dev :=
  d.startNext r 0x60 (fun _ => true) fun d a =>
    let p := ringPart r
    if d.p8 then d.finish r a.seq (Verdict.of 0x61)
    else if d.fld 0x1C000 0 1 = 0 ∨ (d.bt p).update.isSome ∨ d.battensOf p = [] ∨ !d.logsReady p then d
    else if updateBad a.desc then d.finish r a.seq (Verdict.of 0x61)
    else d.beginUpdate r a

/-! ### The norm gate (R158 to R160) -/

/-- The step is skipped for this `SUMSQ`. -/
def skips (sumsq above : FV) : Bool :=
  match sumsq with
  | .nan => true
  | .inf _ => true
  | .fin s m _ => (s && m ≠ 0) || match above with
    | .nan => false
    | b => decide (FV.cmp sumsq b > 0)

/-- The clip factor for norm `s`, both FP32. -/
def clipFactor (clip s : FV) : FV :=
  if !clip.isZero && !clip.isNan && decide (FV.cmp s clip > 0) then rn32 (clip.div s) else .fin false 1 0

/-- `DETAIL` of entries 0x0901 and 0x0902. -/
def Update.detail (u : Update) : Nat := uStep u.desc + uShard u.desc * 2 ^ 32

/-- The gate takes the norm record `bs`. A skipped step is counted and noted here, against the lowest Batten in service (log 121). -/
def Dev.gateOn (d : Dev) (p : Nat) (u : Update) (bs : List Byte) : Dev :=
  let sumsq := leNat (bs.take 4)
  if leNat ((bs.drop 4).take 4) ≠ uStep u.desc ∨ leNat ((bs.drop 8).take 4) ≠ uNormCount u.desc then d.endUpdate p 0x62 false
  else
    let d := d.setReg (btReg p + 0x38) (BitVec.ofNat 64 (sumsq + uStep u.desc * 2 ^ 32))
    if skips (dec32 sumsq) (dec32 (uSkipAbove u.desc)) then
      let d := (d.setUpdate p { u with gate := .skipped }).bump (btReg p + 0x10) 1
      d.record 0 0x0901 .batten ((d.battensOf p).headD 0) (some p) u.detail
    else
      let s := rn32 (dec32 sumsq).sqrt
      d.setUpdate p { u with gate := .passed, norm := enc32 s, clip := enc32 (clipFactor (dec32 (uClip u.desc)) s) }

def Dev.normGate (d : Dev) (p : Nat) : Dev :=
  match (d.bt p).update with
  | none => d
  | some u =>
    if !d.servingIn p ∨ u.gate ≠ .waiting then d
    else match d.waitFence u.ctx (uNormFence u.desc) (uNormVal u.desc) with
      | .notYet => d
      | .fails st => d.endUpdate p st false
      | .ready =>
        match d.read (engineReq u.ctx (uNormKey u.desc)) (uNormAddr u.desc) 64 with
        | .fail d' w => d.updateFail d' p w
        | .ok d bs => d.gateOn p u bs

/-! ### An update block (R161, R165, R166, R168) -/

/-- The bytes of a slot's panels of block `b`. -/
def Dev.readSlot (d : Dev) (u : Update) (b : Nat) (s : StreamSlot) : Res (List Byte) :=
  d.read (engineReq u.ctx s.key) (s.addr + b * blockPanels u.slots * s.panel) (blockPanels u.slots * s.panel)

/-- The slots a block reads: inputs, states and the master, or the master alone when the step is skipped. -/
def Update.reads (u : Update) (s : StreamSlot) : Bool :=
  if u.gate = .skipped then s.role = 3 else 1 ≤ s.role && s.role ≤ 3

def Dev.readSlots (d : Dev) (u : Update) (b : Nat) : List StreamSlot → Res (List (List Byte))
  | [] => .ok d []
  | s :: ss =>
    match (if u.reads s then d.readSlot u b s else .ok d []) with
    | .fail d w => .fail d w
    | .ok d x =>
      match Dev.readSlots d u b ss with
      | .fail d w => .fail d w
      | .ok d xs => .ok d (x :: xs)

/-- The panels of slot `s` as FP32 values. -/
def slotPanels (s : StreamSlot) (bs : List Byte) : List (List (List FV)) :=
  (chunksOf s.panel 2 bs).map fun p => panelRows (fmtOf s.fmt) s.bsz .fp32 p

/-- Element `el` of a slot: panel of the block, row, column (R165). -/
def elemAt (ps : List (List (List FV))) (el : Nat) : FV :=
  ((ps.getD (el / 4096) []).getD (el % 4096 / 64) []).getD (el % 64) .nan

/-- The element is not frozen (R166). -/
def Update.live (u : Update) (b el : Nat) : Bool :=
  let k := b * blockPanels u.slots + el / 4096
  let bit (n : Nat) : Bool := (u.mask.getD (n / 8) 0).getLsbD (n % 8)
  match uMaskMode u.desc with
  | 0 => true
  | 1 => bit (k / uCols u.desc * 64 + el % 4096 / 64)
  | _ => bit k

/-- Constants of the program: 0 to 15, the clip factor, the norm (R160). -/
def Update.const (u : Update) (i : Nat) : FV :=
  if i = 16 then dec32 u.clip else if i = 17 then dec32 u.norm else dec32 (u.consts.getD i 0)

/-- Draw `i` for element `el` of block `b` (R165). -/
def Dev.updateDraw (d : Dev) (u : Update) (b el i : Nat) : Nat :=
  drawBits (counterHash (d.seed u.ctx) (uStep u.desc)
    ((uElemBase u.desc + b * blockPanels u.slots * 4096 + el) % 2 ^ 48) ((uStream u.desc + i) % 256))

/-- What the run of element `el` reads; `ps` holds each slot's panels. -/
def Dev.progEnv (d : Dev) (u : Update) (b el : Nat) (ps : List (List (List (List FV)))) : ProgEnv :=
  { load := fun s => elemAt (ps.getD s []) el, const := u.const, draw := d.updateDraw u b el,
    fmt := fun s => fmtOf ((u.slots[s]?.map StreamSlot.fmt).getD 0) }

def slotsPanels (u : Update) (data : List (List Byte)) : List (List (List (List FV))) :=
  List.zipWith slotPanels u.slots data

/-- The stores of element `el`: those of a run already ended, else of a run from its start, or none when frozen. -/
def Dev.elementStores (d : Dev) (u : Update) (h : Hand) (ps : List (List (List (List FV)))) (el : Nat) : List SlotStore :=
  if u.gate = .skipped ∨ !u.live h.block el then []
  else match h.ran.find? fun e => e.1 = el with
    | some e => e.2
    | none => runProg (d.progEnv u h.block el ps) u.prog (ProgRun.start el)

/-- New panels of logged slot number `i` (R164): the element stored last where there is one, else the old. -/
def newPanels (u : Update) (data : List (List Byte)) (runs : List (List SlotStore)) (i : Nat) : List Byte :=
  match u.slots[i]? with
  | none => []
  | some s =>
    let w := (fmtOf s.fmt).width
    packElems w (List.zipWith (fun old st =>
      match (st.filter fun x : SlotStore => x.slot = i).getLast? with
      | some x => x.bits
      | none => old) (elements w (data.getD i [])) runs)

/-- A derived slot's panels from the rows of the new master, with the elements saturated (R152, R113, R115). -/
def deriveSlot (s : StreamSlot) (master : List (List (List FV))) : List Byte × Nat :=
  let t := fmtOf s.fmt
  let m := master.map fun p => p.map fun row => row.map fun v => (v, Rounding.nearest)
  let panels : List (List ConvRow) :=
    match s.bsz, m with
    | 4, [a, b] =>
      let r := List.zipWith (convPair t false) a b
      [r.map Prod.fst, r.map Prod.snd]
    | _, m => m.map fun p => p.map (convRow t s.bsz false)
  (panels.flatMap fun rows => packElems t.width (rows.flatMap ConvRow.els) ++
      (rows.flatMap ConvRow.scales).map (BitVec.ofNat 8),
    (panels.flatten.map ConvRow.sat).foldl (· + ·) 0)

/-- Address of the block in slot `s`. -/
def Update.slotAddr (u : Update) (b : Nat) (s : StreamSlot) : Nat := s.addr + b * blockPanels u.slots * s.panel

/-- The derived writes of block `b` from the new master's bytes. -/
def Update.derive (u : Update) (b : Nat) (master : List Byte) : List ((Nat × Nat × Nat × List Byte) × Nat) :=
  match u.slots[u.master]? with
  | none => []
  | some ms =>
    let rows := slotPanels ms master
    (u.slots.zipIdx.filter fun e => e.1.role = 4).map fun e =>
      let (bs, sat) := deriveSlot e.1 rows
      ((e.2, u.slotAddr b e.1, e.1.key, bs), sat)

/-- The results of the block in hand and the runs that made them (R168). -/
def Dev.blockOut (d : Dev) (u : Update) (h : Hand) : BlockOut × Nat :=
  let els := List.range (blockPanels u.slots * 4096)
  let ps := slotsPanels u h.data
  let runs := els.map (d.elementStores u h ps)
  let lg := u.slots.zipIdx.filter fun e => u.gate ≠ .skipped && e.1.isLogged
  let stored := lg.map fun e => (e.2, u.slotAddr h.block e.1, e.1.key, newPanels u h.data runs e.2)
  let master := if u.gate = .skipped then h.data.getD u.master []
    else ((stored.find? fun e => e.1 = u.master).map fun e => e.2.2.2).getD []
  let dv := u.derive h.block master
  ({ block := h.block, seq := 0, stored := stored, derived := dv.map Prod.fst,
     sat := (runs.flatMap fun r => r.filter fun x => x.sat).length + (dv.map Prod.snd).foldl (· + ·) 0,
     nan := (runs.flatMap fun r => r.filter fun x => x.nan).length },
   if u.gate = .skipped then 0 else (els.filter (u.live h.block)).length)

/-- Batten `n` may work: service, its partition's update past its gate, context open, the Batten in service, logs ready. -/
def Dev.battenWork (d : Dev) (n : Nat) : Option (Nat × Update) :=
  let p := stackPart d.parts n
  match (d.bt p).update with
  | none => none
  | some u =>
    if d.servingIn p ∧ n < 16 ∧ u.gate ≠ .waiting ∧ (d.ctxOpen u.ctx) ∧ !d.fenced .batten n ∧ d.logsReady p ∧
        (d.batten n).started then some (p, u) else none

/-- Batten `n` takes its next block in hand, unless it holds one. -/
def Dev.takeBlock (d : Dev) (p n : Nat) (u : Update) : Res (Option Hand) :=
  match (d.batten n).hand with
  | some h => .ok d (some h)
  | none =>
    let b := d.nextBlock p n u u.taken
    if u.blocks ≤ b then .ok d none
    else match d.readSlots u b u.slots with
      | .fail d w => .fail d w
      | .ok d data =>
        let h : Hand := { block := b, data := data, ran := [], run := none }
        .ok ((d.setBatten n { d.batten n with hand := some h }).setUpdate p { u with taken := insNat b u.taken }) (some h)

/-- Overflow of `BT_OVF` (R164): each half holds at its maximum. -/
def Dev.addBtOvf (d : Dev) (p sat nan : Nat) : Dev :=
  let o := btReg p + 0x18
  (d.setFld o 0 32 (min 0xFFFFFFFF (d.fld o 0 32 + sat))).setFld o 32 32 (min 0xFFFFFFFF (d.fld o 32 32 + nan))

/-- The blocks of Batten `n` go back: its block in hand, those checked and not sealed, and those of a skipped step, which have no
entry in the log, whose working copy is not written (R169, R173, R261). -/
def Dev.dropBlocks (d : Dev) (n : Nat) : Dev :=
  let p := stackPart d.parts n
  let x := d.batten n
  let unlogged := x.logged.filter fun o => o.seq = 0
  let back := (x.hand.map Hand.block).toList ++ (x.checked ++ unlogged).map BlockOut.block
  let d := d.setBatten n { x with hand := none, checked := [], logged := x.logged.filter fun o => o.seq ≠ 0 }
  match (d.bt p).update with
  | none => d
  | some u => d.setUpdate p { u with taken := u.taken.filter fun b => !back.contains b }

/-- A Batten is out of service: its blocks pass on, and its log waits for another to recover it (R173, R181). -/
def Dev.loseBatten (d : Dev) (n : Nat) : Dev :=
  let d := d.dropBlocks n
  d.setBatten n { d.batten n with started := (d.batten n).logged.isEmpty && (d.batten n).started, placed := false, logged := [] }

/-- Coppice fences Batten `n` for `reason`. -/
def Dev.fenceBatten (d : Dev) (n reason : Nat) : Dev :=
  if (d.unit .batten n).fenced then d else (d.markFenced .batten n reason).loseBatten n

/-! ### The spot check (09 R260, R261) -/

/-- Byte `byte` of slot `s`'s bytes with bits inverted. -/
def flipSlot (s byte : Nat) (f : Byte) (l : List (Nat × Nat × Nat × List Byte)) : List (Nat × Nat × Nat × List Byte) :=
  l.map fun x => if x.1 = s then (x.1, x.2.1, x.2.2.1, modifyAt (· ^^^ f) x.2.2.2 byte) else x

/-- The results as run `run`, or its checking lane, gives them under the hardware errors `es`. -/
def BlockOut.hit (o : BlockOut) (es : List BlockError) (run : Nat) (lane : Bool) : BlockOut :=
  (es.filter fun e => e.run = run && e.lane = lane).foldl (fun o e =>
    { o with stored := flipSlot e.slot e.byte e.flip o.stored, derived := flipSlot e.slot e.byte e.flip o.derived }) o

/-- The elements that the checking lane runs again: the first 64 unfrozen ones in ordinal order from ordinal (b mod 64) × 64,
wrapping within the block. -/
def Update.spotElems (u : Update) (b : Nat) : List Nat :=
  let n := blockPanels u.slots * 4096
  let lo := b % 64 * 64
  ((rangeFrom lo (n - lo) ++ List.range lo).filter (u.live b)).take 64

/-- What is compared of a slot's bytes: those elements, and the scale bytes, whose choice is made twice. -/
def StreamSlot.spotValues (s : StreamSlot) (els : List Nat) (bs : List Byte) : List Nat × List Byte :=
  let w := (fmtOf s.fmt).width
  let ps := chunksOf s.panel 2 bs
  let es := ps.flatMap fun p => elements w (p.take (512 * w))
  (els.map fun e => es.getD e 0, ps.flatMap fun p => p.drop (512 * w))

/-- The checking lane's values `y` agree with the run's values `x`, bit for bit. -/
def Update.spotAgrees (u : Update) (b : Nat) (x y : BlockOut) : Bool :=
  let els := u.spotElems b
  let vals (l : List (Nat × Nat × Nat × List Byte)) : List (Option (List Nat × List Byte)) :=
    l.map fun e => (u.slots[e.1]?).map fun s => s.spotValues els e.2.2.2
  decide (vals x.stored = vals y.stored) && decide (vals x.derived = vals y.derived)

/-- Two runs agree on every stored and derived value. -/
def BlockOut.same (x y : BlockOut) : Bool := decide (x.stored = y.stored) && decide (x.derived = y.derived)

/-- The result that is sealed, and whether re-runs settled it: the first run's where its spot check finds no difference, else one
on which two of three runs agree; none where no two do. `armed` forces a difference in the first check. -/
def Update.settledOut (u : Update) (b : Nat) (o : BlockOut) (es : List BlockError) (armed : Bool) : Option (BlockOut × Bool) :=
  let run (i : Nat) : BlockOut := o.hit es i false
  if !armed && u.spotAgrees b (run 0) (o.hit es 0 true) then some (run 0, false)
  else if (run 0).same (run 1) || (run 0).same (run 2) then some (run 0, true)
  else if (run 1).same (run 2) then some (run 1, true)
  else none

/-- `UPDATE_BLOCK`: read, run, derive, check. `es` are the hardware errors that hit the runs and their checking lanes; an armed
kind 5 forces a difference (R260, R261). -/
def Dev.updateBlock (d0 : Dev) (n : Nat) (es : List BlockError) : Dev :=
  match d0.battenWork n with
  | none => d0
  | some (p, u) =>
    match d0.takeBlock p n u with
    | .fail d w => d0.updateFail d p w
    | .ok _ none => d0
    | .ok d (some h) =>
      let armed := d.armedFor 5 .batten n
      let d := if armed then d.injected .batten n else d
      let r := d.blockOut u h
      match u.settledOut h.block r.1 es armed with
      | none => d.fenceBatten n 5
      | some (o, again) =>
        let d := d.setBatten n { d.batten n with hand := none, checked := (d.batten n).checked ++ [o] }
        let d := d.bump (btReg p) r.2
        if again then d.record 1 0x0303 .batten n (some p) (h.block + uShard u.desc * 2 ^ 32) else d

/-! ### Sealing (R170, R171) -/

/-- A sealed block joins those whose working copy is to be written, counted. -/
def Dev.sealed (d : Dev) (p n : Nat) (u : Update) (o : BlockOut) (seq : Nat) : Dev :=
  let d := d.setBatten n { d.batten n with checked := (d.batten n).checked.drop 1,
                                           logged := (d.batten n).logged ++ [{ o with seq := seq }] }
  let d := d.addBtOvf p o.sat o.nan
  let note : Bool := o.nan ≠ 0 && !u.nanNoted
  let d := d.setUpdate p { u with nanNoted := u.nanNoted || note, stashFrom := some (u.stashFrom.getD d.now) }
  if note then d.record 0 0x0902 .batten n (some p) u.detail else d

/-- `LOG_SEAL`: payload and header, which seal the entry, then master and state in place. A skipped step seals nothing (R159); with
every slot sealed and not applied, sealing waits. Once the header is written its `SEQ` is used, whatever the writes in place meet
(R170). -/
def Dev.logSeal (d0 : Dev) (n : Nat) : Dev :=
  match d0.battenWork n, (d0.batten n).checked with
  | some (p, u), o :: _ =>
    if u.gate = .skipped then d0.sealed p n u o 0
    else if d0.logApplied n + d0.logSlots n ≤ d0.logSeq n then d0
    else
      let s := d0.logSeq n + 1
      let a := d0.logAddr n s
      let k := d0.logKey n
      match d0.writeAll u.ctx [(0, a + 128, k, payloadOf o), (0, a, k, headerLine u o s)] with
      | .fail d w => d0.updateFail d p w
      | .ok d _ =>
        match (d.setReg (logReg n + 0x10) (BitVec.ofNat 64 s)).writeAll u.ctx o.stored with
        | .fail d w => d0.updateFail d p w
        | .ok d _ => (d.bump (btReg p + 8) 1).sealed p n u o s
  | _, _ => d0

/-! ### The working copy (R174) and the end of the shard (R168) -/

/-- When every Batten has finished: `DONE_STEP` and `DONE`, `DONE_FENCE`, the completion. -/
def Dev.updateDone (d0 : Dev) (p : Nat) : Dev :=
  match (d0.bt p).update with
  | none => d0
  | some u =>
    if u.finished.length < u.blocks then d0
    else match d0.battenWrite u.ctx (uRecKey u.desc) (uRecAddr u.desc + 192) (leBytes 8 (uStep u.desc + 2 ^ 32)) with
      | .fail d w => d0.updateFail d p w
      | .ok d _ => d.endUpdate p (if u.gate = .skipped then 0x63 else 0) true

/-- `STASH_FENCE` is looked at once per descriptor; the wait's length is counted. -/
def Dev.openStash (d : Dev) (p : Nat) (u : Update) : Dev × Update :=
  if u.stash then (d, u)
  else
    let u' := { u with stash := true }
    ((d.bump (btReg p + 0x28) (d.now - u.stashFrom.getD d.now)).setUpdate p u', u')

/-- The block's working copy is in memory: `NEXT_BLOCK` and `APPLIED_SEQ` pass it. -/
def Dev.blockDone (d : Dev) (p n : Nat) (u : Update) (o : BlockOut) : Res Unit :=
  let d := d.setBatten n { d.batten n with logged := (d.batten n).logged.drop 1 }
  let d := if o.seq = 0 then d else d.setApplied n o.seq
  (d.setUpdate p { u with finished := insNat o.block u.finished }).writeControl p n

/-- `WORKING_COPY_WRITE`. -/
def Dev.workingCopy (d0 : Dev) (n : Nat) : Dev :=
  match d0.battenWork n, (d0.batten n).logged with
  | some (p, u), o :: _ =>
    match (if u.stash then .ready else d0.waitFence u.ctx (uStashFence u.desc) (uStashVal u.desc)) with
    | .notYet => d0
    | .fails st => d0.endUpdate p st false
    | .ready =>
      let (d, u) := d0.openStash p u
      match d.writeAll u.ctx o.derived with
      | .fail d w => d0.updateFail d p w
      | .ok d _ =>
        match d.blockDone p n u o with
        | .fail d w => d0.updateFail d p w
        | .ok d _ => d.updateDone p
  | _, _ => d0

/-! ### Log recovery (R172, R173) -/

/-- The header of sequence number `s` in Batten `n`'s log: destinations and payload lines, when it is sealed there. -/
def Dev.sealedAt (d : Dev) (n s : Nat) : Option (List Byte) :=
  let h := d.bytes (d.logAddr n s) 128
  if leNat (h.take 4) = 0xBA770E01 ∧ leNat ((h.drop 8).take 8) = s then some h else none

/-- Bytes of slot `s` in an entry's payload: its panels, by the formats of the descriptor in progress. -/
def entrySize (u : Option Update) (h : List Byte) (s : Nat) : Nat :=
  match u with
  | some u => blockPanels u.slots * (u.slots[s]?.map StreamSlot.panel).getD 0
  | none => Config.entryBytes h s

/-- The writes of an entry's payload: per logged slot of the header, its destination and its panels. -/
def entryWrites (u : Option Update) (h : List Byte) : List Nat → List Byte → List (Nat × Nat × Nat × List Byte)
  | [], _ => []
  | s :: ss, bs =>
    if (h.getD 30 0).getLsbD s then
      let n := entrySize u h s
      let e := leNat ((h.drop (64 + 8 * s)).take 8)
      (s, bits e 0 41, bits e 41 12, bs.take n) :: entryWrites u h ss (bs.drop n)
    else entryWrites u h ss bs

/-- A failed read of a log's line: it cannot be read, whether bad or refused (R173). -/
def MemFail.ofLog (w : MemFail) : MemFail := if w = .wait then .wait else .bad

/-- Apply the entry of sequence number `s`: its payload; with `copy` the working copy of the descriptor in progress too, and then
past it. -/
def Dev.applyEntry (d : Dev) (p n s : Nat) (u : Option Update) (h : List Byte) (copy : Bool) : Res (Option Update) :=
  let a := d.logAddr n s
  let len := leNat ((h.drop 28).take 2) * 128
  match d.readLines (engineReq p (d.logKey n)) (linesOf a (128 + len)) with
  | .fail d w => .fail d w.ofLog
  | .ok d _ =>
    let ws := entryWrites u h (List.range 8) (d.bytes (a + 128) len)
    let b := leNat ((h.drop 24).take 4)
    let copies := match u with
      | some u =>
        let master := ((ws.find? fun e => e.1 = u.master).map fun e => e.2.2.2).getD []
        if copy then (u.derive b master).map Prod.fst else []
      | none => []
    match d.writeAll p (ws ++ copies) with
    | .fail d w => .fail d w
    | .ok d _ =>
      if !copy then .ok d u else
      let d := (d.setApplied n s).bump (btReg p + 0x40) 1
      match u with
      | some u =>
        let u := { u with taken := insNat b u.taken, finished := insNat b u.finished }
        .ok (d.setUpdate p u) (some u)
      | none => .ok d none

/-- Entries in ascending `SEQ`, stopping at the first missing. -/
def Dev.applyEntries (d : Dev) (p n : Nat) (copy : Bool) : Nat → Nat → Option Update → Res Unit
  | 0, _, _ => .ok d ()
  | fuel + 1, s, u =>
    (d.readLines (engineReq p (d.logKey n)) (linesOf (d.logAddr n s) 128)).elim
      (fun d _ => (d.sealedAt n s).elim (.ok d ()) fun h =>
        (d.applyEntry p n s u h copy).elim (fun d u => Dev.applyEntries d p n copy fuel (s + 1) u) Res.fail)
      (fun d w => .fail d w.ofLog)

/-- The last of the entries sealed one after another from sequence number `s` on. -/
def Dev.lastSealed (d : Dev) (n : Nat) : Nat → Nat → Nat
  | 0, s => s
  | fuel + 1, s => if (d.sealedAt n (s + 1)).isSome then Dev.lastSealed d n fuel (s + 1) else s

/-- The highest `SEQ` that a header of Batten `n`'s log carries. -/
def Dev.logTop (d : Dev) (n : Nat) : Nat :=
  (List.range (d.logSlots n)).foldl (fun m i =>
    let h := d.bytes (d.logBase n + 128 + i * d.logLines n * 128) 128
    if leNat (h.take 4) = 0xBA770E01 then max m (leNat ((h.drop 8).take 8)) else m) (d.logSeq n)

/-- The log cannot be read: the descriptor in progress ends `LOG_LOST` and C3 is recorded (R173). No `SEQ` found in the log is used
again (R170). -/
def Dev.logLost (d : Dev) (p n : Nat) : Dev :=
  let d := (d.setReg (logReg n + 0x10) (BitVec.ofNat 64 (d.logTop n))).setBatten n { Batten.reset with started := true }
  (d.endUpdate p 0x66 false).recordC3 0x0903 p n

/-- What `STASH_FENCE` says to the partition's descriptor (R174). -/
def Dev.stashWait (d : Dev) (p : Nat) : WaitRes :=
  match (d.bt p).update with
  | none => .ready
  | some u => if u.stash then .ready else d.waitFence u.ctx (uStashFence u.desc) (uStashVal u.desc)

/-- What the control line of a log and its headers say goes into the registers; a stash wait that is over closes (R172, R174). -/
def Dev.takeControl (d0 : Dev) (p n : Nat) : Dev :=
  let c := d0.bytes (d0.logBase n) 128
  let applied := leNat ((c.drop 8).take 8)
  let d := match (d0.bt p).update with
    | some u =>
      if d0.stashWait p = WaitRes.ready then (d0.openStash p u).1 else d0.setUpdate p { u with stashFrom := some (u.stashFrom.getD d0.now) }
    | none => d0
  let d := (d.setApplied n applied).setReg (logReg n + 0x10) (BitVec.ofNat 64 (d.lastSealed n (d.logSlots n) applied))
  if leNat ((c.drop 32).take 1) % 2 = 1 then d.setReg (btReg p + 0x30) (BitVec.ofNat 64 (leNat ((c.drop 28).take 4) + 2 ^ 32)) else d

/-- Recovery of a log that carries a control line. Before `STASH_FENCE` holds, only the payloads are written to their `DEST`
(R174), and the recovery runs again after it; applying an entry twice leaves the same bits. A line of the log that cannot be read,
for whatever reason, loses the log; a `DEST` that is refused ends the update `UPDATE_DENIED` with no C3 (R173, R179; log 120). -/
def Dev.recoverLog (d0 : Dev) (p n : Nat) : Dev :=
  let copy := d0.stashWait p = .ready
  let d := d0.takeControl p n
  match Dev.applyEntries d p n copy (d.logSlots n) (leNat (((d0.bytes (d0.logBase n) 128).drop 8).take 8) + 1) (d.bt p).update with
  | .fail _ .wait => d0
  | .fail d .bad => d.logLost p n
  | .fail d _ => (d.setBatten n { Batten.reset with started := true }).endUpdate p 0x65 false
  | .ok d _ =>
    if !copy then d.setBatten n { d.batten n with placed := true } else
    let d := d.setBatten n { Batten.reset with started := true }
    (d.writeControls p [n]).updateDone p

/-- Service of the partition waits no longer for this log (15 R440): it is recovered, or its recovery waits for
`STASH_FENCE`, which only served work can signal. -/
def Dev.logSeen (d : Dev) (n : Nat) : Dev :=
  { d with power := { d.power with recover := d.power.recover.filter (· ≠ 4 + n) } }

/-- The log of Batten `n` is looked at: unreadable, with a control line, or without one. -/
def Dev.lookAtLog (d : Dev) (p n : Nat) (readable : Bool) : Dev :=
  if !readable then d.logLost p n
  else match d.read (engineReq p (d.logKey n)) (d.logBase n) 128 with
    | .fail d _ => d.logLost p n
    | .ok d bs => if leNat (bs.take 4) = 0xBA770C01 then d.recoverLog p n
      else d.setBatten n { d.batten n with started := true }

/-- `BATTEN_LOG_RECOVERY`: Batten `m` of the partition recovers the log of Batten `n`, its own after a reset or that of a
fenced one. -/
def Dev.logRecovery (d : Dev) (n m : Nat) (readable : Bool) : Dev :=
  let p := stackPart d.parts n
  if !d.serving ∨ d.power.recover.contains p ∨ !d.memReady p ∨ 16 ≤ n ∨ 16 ≤ m ∨ (d.batten n).started ∨ !d.logSet n ∨
      d.fenced .batten m ∨ stackPart d.parts m ≠ p ∨ (m ≠ n ∧ !d.fenced .batten n) ∨ !d.ctxOpen p then d
  else match (d.batten n).placed, d.stashWait p with
    | true, .notYet => d.logSeen n
    | true, .fails st => (d.endUpdate p st false).logSeen n
    | _, _ => (d.lookAtLog p n readable).logSeen n

/-! ### One instruction of a run (R161 to R165) -/

/-- The next run of the block in hand: the first element not frozen whose run has not ended. -/
def Update.nextRun (u : Update) (h : Hand) : Option ProgRun :=
  ((List.range (blockPanels u.slots * 4096)).find? fun el =>
    u.live h.block el && !(h.ran.any fun e => e.1 = el)).map ProgRun.start

/-- The run after its instruction with word `w`: `END` ends it (R161). -/
def Dev.stepRun (d : Dev) (u : Update) (h : Hand) (r : ProgRun) (w : Nat) : Hand :=
  if progOp w = 0 then { h with ran := h.ran ++ [(r.el, r.stores)], run := none }
  else { h with run := some (progStep (d.progEnv u h.block r.el (slotsPanels u h.data)) (progOp w) (progFields w) r) }

/-- Batten `n` executes the instruction `op` with fields `f`, when it is the next of its run. -/
def Dev.progRow (d0 : Dev) (n op : Nat) (f : ProgFields) : Dev :=
  match d0.battenWork n with
  | none => d0
  | some (p, u) =>
    if u.gate ≠ .passed then d0
    else match d0.takeBlock p n u with
      | .fail d w => d0.updateFail d p w
      | .ok _ none => d0
      | .ok d (some h) =>
        match (match h.run with
          | some r => some r
          | none => u.nextRun h) with
        | none => d0
        | some r =>
          match u.prog[r.pc]? with
          | none => d0
          | some w =>
            if progOp w = op ∧ progFields w = f then d.setBatten n { d.batten n with hand := some (d.stepRun u h r w) }
            else d0

end Sys2Proof.Machine
end

