-- ==== Sys2Proof/Machine/Messages.lean ====
section
/-! DEFINITION. The receiving side of the Shuttles: acceptance in channel order, each message type's effect, rejection, and
Reed's forwarding (07 R192, R195 to R200, R206 to R210, 08 R225, R239). Port 8 is the way inside the device. -/

namespace Sys2Proof.Machine

/-- A message can arrive on the port: units enabled, the port `UP`. -/
def Dev.linkOpen (d : Dev) (port : Nat) : Bool :=
  d.on && !d.power.fatal && d.fld 0x14000 0 1 = 1 && d.fld 0x15000 0 1 = 1 && (port = 8 || (d.port port).st = .up)

/-- Refuse a message: counted, recorded, answered unless it is itself a response (R206). -/
def Dev.reject (d : Dev) (p status : Nat) (m : Msg) : Dev :=
  let d := d.bump (shReg p + 0x38) 1
  let d := d.recordCtx 1 0x0703 p (status + m.src * 2 ^ 8)
  if m.typ = 4 ∨ m.typ = 8 then d
  else d.send p { Draft.blank with typ := if m.typ = 3 then 4 else 8, ch := m.ch, dest := m.src, eng := true,
                                   reqCtr := m.ctr, status := status }

/-- What the receiver makes of an arriving message. -/
inductive Arrival where
  /-- accepted for partition `p`, with its payload in clear -/
  | taken (d : Dev) (p : Nat) (m : Msg)
  | refused (d : Dev)

/-- The ingress entry of a source and channel. -/
def ShPart.last (x : ShPart) (m : Msg) : Option (Nat × Nat) := Sparse.get (fun _ => none) x.ingress (m.src * 16 + m.ch)

/-- `CSEQ` and `EPOCH` follow the last accepted, or nothing was accepted yet (R195, R216). -/
def ShPart.inOrder (x : ShPart) (m : Msg) : Bool :=
  match x.last m with
  | none => true
  | some (c, e) => m.cseq = (c + 1) % 2 ^ 32 && e ≤ m.epoch

/-- Address of the ingress entry of a source and channel: 2²³ entries of 8 bytes fill the 64 MiB (R195, log 124). -/
def Dev.ingressAddr (d : Dev) (p : Nat) (m : Msg) : Nat := d.fld (shReg p) 21 20 * granuleBytes + (m.src * 16 + m.ch) * 8

/-- The accepted `CSEQ` and `EPOCH` go to the ingress table. -/
def Dev.noteIngress (d : Dev) (p : Nat) (m : Msg) : Dev :=
  let d := d.writeD (engineReq p (d.fld (shReg p) 41 12)) (d.ingressAddr p m)
    ((List.range 8).map (Config.ingressEntry m.cseq m.epoch))
  let x := d.sh p
  d.setSh p { x with ingress := Sparse.set (fun _ => none) x.ingress (m.src * 16 + m.ch) (some (m.cseq, m.epoch)) }

/-- Delivery of a message whose `DEST` this device owns: slice, context, epoch floor, channel order, tag under the partition's job
key, in that order (R208, R206, 10 R317, R195, R214). -/
def Dev.arrive (d : Dev) (m : Msg) : Arrival :=
  let p := m.dest % 4
  if !(p < d.parts) ∨ !(d.sliceValid p) ∨ d.sliceId p ≠ m.slice ∨ d.sourceId p ≠ m.dest then
    .refused ((d.bump 0x14010 1).record 1 0x0604 .hub 2 none m.slice)
  else if !(d.ctxOpen p) ∨ d.fld (shReg p) 41 12 = 0 then .refused (d.reject p 6 m)
  else
    let x := d.sh p
    if m.epoch < x.floor then .refused (d.bump (0x4180 + 0x100 * p) 1)
    else if !(x.inOrder m) ∨ !(msgVerifies (d.rtpPart p).secret m) then
      .refused ((d.bump (shReg p + 0x40) 1).recordC3 0x0702 p (m.src + m.ch * 2 ^ 19))
    else
      .taken (((d.noteIngress p m).bump (shReg p + 0x10) 1).bump (shReg p + 0x20) m.payload.length) p
        { m with payload := msgCrypted (d.rtpPart p).secret m }

/-- A frame has come in on a port (R188). -/
def Dev.frameOn (d : Dev) (port : Nat) : Dev := if port = 8 then d else d.setPort port { d.port port with lastFrame := d.now }

/-- A message for this device is received on a port, counted against the destination partition's budget there (10 R321). -/
def Dev.received (d : Dev) (port : Nat) (m : Msg) : Dev :=
  if port = 8 then d else (d.frameOn port).use (rcvdKey (m.dest % 4) port) (msgWire m)

/-- A message that arrives for this device can be taken: the link carries it, the destination partition's memory stands, and it fits
the window; else it stays on the link. -/
def Dev.canTake (d : Dev) (port : Nat) (m : Msg) : Bool :=
  let p := m.dest % 4
  d.linkOpen port && bits m.route 0 17 = d.here.toNat && d.recovered p && d.memReady p &&
    (port = 8 || d.partFits (fun p => rcvdKey p port) 0 p (msgWire m))

/-- Deliver a message of type `typ` that arrives for this device, with effect `f`; any other message is not this event. -/
def Dev.deliver (d : Dev) (port typ : Nat) (m : Msg) (f : Dev → Nat → Msg → Dev) : Dev :=
  if !(d.canTake port m) ∨ m.typ ≠ typ then d
  else match (d.received port m).arrive m with
    | .taken d p m => f d p m
    | .refused d => d

/-! ### PUT (R196, R206) -/

/-- Where a stripe PUT of a restore in progress belongs: unit 7 q + j of this member's image, when it comes from the
member that holds it, in the restored slot, a rebuilding spare taking either (08 R223, R239). -/
def Dev.restoreUnit (d : Dev) (p : Nat) (m : Msg) : Option Nat :=
  match (d.pl p).op with
  | none => none
  | some o =>
    let k := if o.slot = 2 then (if d.holdAddr p 1 0 0 ≤ m.addr then 1 else 0) else o.slot
    if m.eng ∧ m.ch = 15 ∧ m.key = d.holdKey p ∧ d.holdAddr p k 0 0 ≤ m.addr then
      let n := (m.addr - d.holdAddr p k 0 0) / 4096
      let s := max (d.section_ p) 1
      let j := n / s
      if j < 7 ∧ d.memberSrc p ((d.member p + 1 + j) % 8) = m.src then some (7 * (n % s) + j) else none
    else none

/-- A restored unit is written at its image position and is no longer missing (08 R239). -/
def Dev.putUnit (d : Dev) (p u : Nat) (bs : List Byte) : Res Unit :=
  match unitAt (d.pl p).srcs u with
  | none => .ok d ()
  | some (a, k) =>
    match d.write (engineReq p k) a bs with
    | .fail d w => .fail d w
    | .ok d _ =>
      match (d.pl p).op with
      | none => .ok d ()
      | some o => .ok (d.setPl p { d.pl p with op := some { o with left := o.left.filter (· ≠ u) } }) ()

/-- The status of a refused access (Table 07-8). -/
def failStatus : MemFail → Nat
  | .bounds => 2
  | _ => 1

/-- What a failed access of Pleach's means to its descriptor (Table 08-14). -/
def plStatus : MemFail → Nat
  | .bad => 0x84
  | _ => 0x89

/-- A `RESTORE` ends with a failure's status. -/
def Dev.stopRestore (d : Dev) (p : Nat) (o : PlOp) (st : Nat) : Dev :=
  (d.setPl p { d.pl p with op := none }).finish o.ring o.seq (Verdict.of st)

/-- A restored unit whose write is refused: the message is rejected, and the `RESTORE` ends with the status of the refusal
(08 R252). -/
def Dev.failRestore (d : Dev) (p : Nat) (w : MemFail) (m : Msg) : Dev :=
  let d := d.reject p (failStatus w) m
  match (d.pl p).op with
  | some o => d.stopRestore p o (plStatus w)
  | none => d

/-- A PUT is written at `ADDR` under `KEY` on arrival. A write that waits leaves the message on the link (12 R372). -/
def Dev.onPut (d0 : Dev) (port : Nat) (m : Msg) : Dev :=
  d0.deliver port 1 m fun d p m =>
    match d.restoreUnit p m with
    | some u =>
      match d.putUnit p u m.payload with
      | .ok d _ => d
      | .fail _ .wait => d0
      | .fail d w => d.failRestore p w m
    | none =>
      if m.key = 0 then d.reject p 1 m
      else match d.write (engineReq p m.key) m.addr (m.payload.take (64 * m.len)) with
        | .ok d _ => d
        | .fail _ .wait => d0
        | .fail d w => d.reject p (failStatus w) m

/-! ### ACC (R203) -/

/-- An ACC lands in its source's zone. One whose zone write waits stays on the link (12 R372). -/
def Dev.onAcc (d0 : Dev) (port : Nat) (m : Msg) : Dev :=
  d0.deliver port 2 m fun d p m =>
    if m.key = 0 then d.reject p 1 m
    else match d.grantAll (engineReq p m.key) true (linesOf m.addr (64 * m.len)) with
      | some (.bounds, _) => d.reject p 2 m
      | some (_, a) => (d.refuse (engineReq p m.key) a true false).reject p 1 m
      | none =>
        match d.landAcc p m with
        | .landed d => d
        | .status d s => d.reject p s m
        | .waits => d0

/-! ### GET (Table 07-6) -/

def Dev.onGet (d : Dev) (port : Nat) (m : Msg) : Dev :=
  d.deliver port 3 m fun d p m =>
    if m.key = 0 then d.reject p 1 m
    else match d.read (engineReq p m.key) m.addr (64 * m.len) with
      | .fail d w => d.reject p (failStatus w) m
      | .ok d bs => d.send p { Draft.blank with typ := 4, ch := m.ch, dest := m.src, eng := true, len := m.len,
                                                reqCtr := m.ctr, payload := bs }

/-! ### SIGNAL, COMMIT, RETRACT (R197 to R199) -/

/-- The pick of a message among those the receiver knows. -/
def PickRx.is (x : PickRx) (m : Msg) : Bool := x.src = m.src && x.tile = m.tile && x.serial = m.serial

/-- Change the receiver's record of the message's pick. A record of an earlier pick of the tile stays, whatever the channels bring
first, since its SIGNAL may still come; one half the serials old that holds nothing goes, before its serial can name another
pick (R198). -/
def Dev.modPick (d : Dev) (p : Nat) (m : Msg) (f : PickRx → PickRx) : Dev :=
  let old (x : PickRx) : Bool := 2 ^ 15 ≤ (m.serial + 2 ^ 16 - x.serial) % 2 ^ 16
  let l := (d.sh p).rx.filter fun x => !(x.src = m.src && x.tile = m.tile && x.sigs.isEmpty && old x)
  let l := if l.any (·.is m) then l.map fun x => if x.is m then f x else x
    else l ++ [f { src := m.src, tile := m.tile, serial := m.serial, chans := [], sigs := [] }]
  d.setSh p { d.sh p with rx := l }

/-- Apply remote signals in order. -/
def Dev.remoteSignals (d : Dev) (p : Nat) : List (Nat × Nat) → Dev
  | [] => d
  | (f, v) :: r => Dev.remoteSignals (d.remoteSignal p f v) p r

/-- A fence admits a remote SIGNAL: live, with its `REMOTE` flag (10 R312). -/
def Dev.admitsRemote (d : Dev) (p f : Nat) : Bool :=
  d.fenceIn p f && (d.fence f).st = .live && (d.fence f).remote

def Dev.onSignal (d : Dev) (port : Nat) (m : Msg) : Dev :=
  d.deliver port 5 m fun d p m =>
    let v := leNat (m.payload.take 8)
    let f := leNat ((m.payload.drop 8).take 2) % 2 ^ 14
    if !(d.admitsRemote p f) then
      (if (d.fence f).st = .broken ∧ d.fenceIn p f then d.remoteSignal p f v else d).reject p 1 m
    else if m.eng then d.remoteSignal p f v
    else d.modPick p m fun x => { x with sigs := x.sigs ++ [(f, v)] }

/-- A COMMIT: the pick's held granules are committed; its SIGNALs apply once all 16 channels have brought one (R198). -/
def Dev.onCommit (d : Dev) (port : Nat) (m : Msg) : Dev :=
  d.deliver port 6 m fun d p m =>
    let d := d.markHeld p m .committed
    let d := d.modPick p m fun x => { x with chans := insNat m.ch x.chans }
    match (d.sh p).rx.find? (·.is m) with
    | none => d
    | some x =>
      if x.chans.length = 16 then
        (d.setSh p { d.sh p with rx := (d.sh p).rx.filter fun y => !y.is m }).remoteSignals p x.sigs
      else d

/-- A RETRACT drops what the receiver still holds of the pick (R199). -/
def Dev.onRetract (d : Dev) (port : Nat) (m : Msg) : Dev :=
  d.deliver port 7 m fun d p m =>
    let d := d.markHeld p m .empty
    (d.setSh p { d.sh p with rx := (d.sh p).rx.filter fun y => !y.is m }).bump (shReg p + 0x30) 1

/-- A REJECT: C3 against the sending context; the entry holds what Table 09-6 gives it, and no destination (R207, log 123); of a stripe PUT, the generation cannot count (08 R225). -/
def Dev.onReject (d : Dev) (port : Nat) (m : Msg) : Dev :=
  d.deliver port 8 m fun d p m =>
    if (d.pl p).stripes.any fun x => x.2 = m.reqCtr then
      (d.recordC3 0x0B02 p (memberOf (Coord.ofNat (m.src / 4)))).abandonGen p
    else d.recordC3 0x0704 p (m.status + m.reqCtr * 2 ^ 8)

/-- A reserved type is discarded and recorded (R192). -/
def Dev.onReserved (d : Dev) (port : Nat) (m : Msg) : Dev :=
  if !(d.linkOpen port) ∨ (1 ≤ m.typ ∧ m.typ ≤ 8) ∨ bits m.route 0 17 ≠ d.here.toNat then d
  else (d.frameOn port).record 1 0x0701 .port port none m.src

/-! ### Forwarding (R209, R210, 10 R322) -/

/-- Forward a message for another device; with no usable next hop it is held and recorded C2 (R210). -/
def Dev.onForward (d : Dev) (port : Nat) (m : Msg) : Dev :=
  if !(d.linkOpen port) ∨ bits m.route 0 17 = d.here.toNat then d
  else match d.nextHop (Coord.ofNat (bits m.route 0 17)) with
    | none => (({ d with shuttle := { d.shuttle with held := d.shuttle.held ++ [(none, m)] } }).frameOn port).record 2 0x0603 .port port none (bits m.route 0 17)
    | some n => if d.mayGo n none (msgWire m) then (d.putOut n none m).frameOn port else d

/-- Messages held for want of a next hop go out once one is usable. -/
def Dev.releaseHeld (d : Dev) : Dev :=
  d.shuttle.held.foldl (fun d e => d.emit e.1 e.2) { d with shuttle := { d.shuttle with held := [] } }

end Sys2Proof.Machine
end

