-- ==== Sys2Proof/Machine/Ports.lean ====
section
/-! DEFINITION. Link ports: enabling, training, the cabling check, heartbeats, loss of a neighbour, management keys
(07 R185 to R190, R217). -/

namespace Sys2Proof.Machine

def portReg (n : Nat) : Nat := 0x14040 + 0x20 * n

/-- Training needs the firmware verified, the port's unit in service and not disabled by the torus (R183, R186). -/
def Dev.mayTrain (d : Dev) (n : Nat) : Bool :=
  d.on && d.power.booted && d.power.st ≠ .held && !d.power.fatal && n < 8 && !portAbsent d.torus n &&
    !d.fenced .port n && d.fld (portReg n) 0 1 = 1

/-- Training starts from `DOWN` (Table 07-2). -/
def Dev.startTraining (d : Dev) (n : Nat) : Dev :=
  if d.mayTrain n ∧ (d.port n).st = .down then
    d.movePort n { d.port n with st := .training, phase := 0, cable := 0, seen := none, partner := 0, retryAt := none }
  else d

/-- `ENABLE` is set: the port trains (R186). -/
def Dev.portEnable (d : Dev) (n : Nat) : Dev :=
  if d.on ∧ n < 8 then (d.setFld (portReg n) 0 1 1).startTraining n else d

/-- `ENABLE` is cleared: the port goes `DOWN` and stays so. -/
def Dev.portDisable (d : Dev) (n : Nat) : Dev :=
  if d.on ∧ n < 8 then
    let d := d.setFld (portReg n) 0 1 0
    if (d.port n).st = .fenced then d
    else d.movePort n { d.port n with st := .down, lanes := 0, retryAt := none, phase := 0 }
  else d

/-- The coordinate and port that port `n` expects to face (R189). -/
def Dev.expects (d : Dev) (n : Nat) : Nat × Nat := ((neighbour d.torus d.here n).toNat, facing n)

/-- Entry 0x0602: code and seen coordinate, as Table 09-6 has them; the expected neighbour is that of Table 07-1, and the seen port
stands in `RD_PORT_SEEN` (log 123). -/
def Dev.recordCable (d : Dev) (n code coord : Nat) : Dev :=
  d.record 1 0x0602 .port n none (code + coord * 2 ^ 4)

/-- A phase did not complete: the port returns to `DOWN` with the phase's code, and training starts again after 100 ms. -/
def Dev.trainFail (d : Dev) (n code : Nat) : Dev :=
  (d.movePort n { d.port n with st := .down, cable := code, phase := 0, retryAt := some (d.now + 100000000) }).recordCable n code 0

/-- The cable code of a failed phase (Table 07-4). -/
def phaseCode (k : Nat) : Nat := if k = 0 then 2 else if k ≤ 2 then 3 else 4

/-- Lanes in use: all eight, or the half without a fenced lane; none when both halves hold one (R187). -/
def Dev.lanesOf (d : Dev) (n : Nat) : Nat :=
  let lo := (List.range 4).any fun l => d.fenced .lane (8 * n + l)
  let hi := (List.range 4).any fun l => d.fenced .lane (8 * n + 4 + l)
  if lo && hi then 0 else if lo || hi then 4 else 8

/-- A fenced lane of port `n` that has passed its lane test at a retrain is in service again (09 Table 09-3), unless it stays fenced
for life; entry 0x0311 as for other units (assumption log 134). -/
def Dev.laneTested (d : Dev) (n l : Nat) : Dev :=
  let id := 8 * n + l
  let r := d.unit .lane id
  if !r.fenced ∨ r.permanent ∨ 8 ≤ l then d
  else (d.setUnit .lane id { r with fenced := false, reason := 0, corrected := 0 }).record 0 0x0311 .lane id none r.fencings

def Dev.lanesTested (d : Dev) (n : Nat) (ls : List Nat) : Dev := ls.foldl (fun d l => d.laneTested n l) d

/-- Port `n` reports `SWAPPED` with `q`, recorded when it is new (R189, R190). -/
def Dev.reportSwap (d : Dev) (n q : Nat) : Dev :=
  let x := d.port n
  let e := d.setPort n { x with cable := 7, partner := q }
  if x.cable = 7 ∧ x.partner = q then e else e.recordCable n 7 ((x.seen.map Prod.fst).getD 0)

/-- The other port with which port `n` is swapped (R190). -/
def Dev.swappedWith (d : Dev) (n : Nat) (seen : Nat × Nat) : Option Nat :=
  (List.range 8).find? fun q => q ≠ n && seen = d.expects q && (d.port q).seen = some (d.expects n)

/-- The cabling code for what port `n` has seen, and the partner of a swap (R189, R190). -/
def Dev.cableCode (d : Dev) (n : Nat) (seen : Nat × Nat) : Nat × Nat :=
  if seen = d.expects n then (1, 0)
  else match d.swappedWith n seen with
    | some q => (7, q)
    | none => if seen.1 ≠ (d.expects n).1 then (5, 0) else (6, 0)

/-- The last phase: the port compares what it has learned and goes `UP` or `QUARANTINED` (R189). The other port of a swapped pair
that has been checked already reports the swap now too (R190). -/
def Dev.cablingCheck (d : Dev) (n coord pt : Nat) : Dev :=
  let (code, partner) := d.cableCode n (coord, pt)
  let up := code = 1 ∨ d.fld (portReg n) 1 1 = 1
  let d := d.movePort n { d.port n with st := if up then .up else .quarantined, cable := code, partner := partner,
                                        seen := some (coord, pt), phase := 6, lanes := d.lanesOf n, lastFrame := d.now }
  let d := if code = 1 then d else d.recordCable n code coord
  let d := if code = 7 ∧ (d.port partner).phase = 6 then d.reportSwap partner n else d
  d.releaseHeld

/-- A fresh management link key is agreed, and each direction counts its frames anew (R217, log 125). -/
def Port.rekeyed (x : Port) : Port := { x with mgmtKey := x.mgmtKey + 1, keyed := true, txCtr := 0, rxCtr := none }

/-- A training phase ends (Table 07-2): phases 0 to 4, then the check. In phase 2, lane alignment, fenced lanes are tested. In phase 4 both signatures verify for the neighbour's
coordinate and port, which `RD_PORT_SEEN` shows from then on, and the management link key is agreed. -/
def Dev.trainPhase (d : Dev) (n : Nat) (r : PhaseResult) : Dev :=
  let x := d.port n
  if !(d.mayTrain n) ∨ x.st ≠ .training then d
  else match r with
    | .timedOut => d.trainFail n (phaseCode x.phase)
    | .unverified => if x.phase = 4 then d.trainFail n 4 else d
    | .tested ls =>
      if x.phase = 2 then (d.lanesTested n ls).setPort n { x with phase := 3 } else d
    | .completed =>
      if x.phase < 4 then d.setPort n { x with phase := x.phase + 1 }
      else match x.phase, x.seen with
        | 5, some (c, p) => d.cablingCheck n c p
        | _, _ => d
    | .verified c p => if x.phase = 4 then d.setPort n { x.rekeyed with phase := 5, seen := some (c, p) } else d

/-- Training starts again 100 ms after a failed phase while `ENABLE` stays set (R186). -/
def Dev.trainRetry (d : Dev) (n : Nat) : Dev :=
  match (d.port n).retryAt with
  | some t => if t ≤ d.now then d.startTraining n else d
  | none => d

/-- The port carries management frames. -/
def Dev.managed (d : Dev) (n : Nat) : Bool := (d.port n).st = .up || (d.port n).st = .quarantined

/-- The device sends a management frame (R188, R217). -/
def Dev.heartbeat (d : Dev) (n : Nat) : Dev :=
  if d.on ∧ d.managed n ∧ (d.port n).txCtr + 1 < 2 ^ 40 then
    d.setPort n { d.port n with txCtr := (d.port n).txCtr + 1, lastSent := d.now }
  else d

/-- A management frame arrives with counter `c`; one that does not exceed the last is discarded (R217). -/
def Dev.mgmtFrame (d : Dev) (n c : Nat) : Dev :=
  if !(d.on && d.managed n) then d
  else match (d.port n).rxCtr with
    | some l => if c ≤ l then d.record 1 0x0605 .port n none c
      else d.setPort n { d.port n with rxCtr := some c, lastFrame := d.now }
    | none => d.setPort n { d.port n with rxCtr := some c, lastFrame := d.now }

/-- No frame for 2 ms: the neighbour is lost and the port goes `DOWN` (R188). The entry names the port; the neighbour's coordinate
stays in `RD_PORT_SEEN` (Table 09-6, log 123). -/
def Dev.neighbourLost (d : Dev) (n : Nat) : Dev :=
  if d.on ∧ d.managed n ∧ (d.port n).lastFrame + 2000000 ≤ d.now then
    (d.movePort n { d.port n with st := .down, lanes := 0, phase := 0 }).record 2 0x0601 .port n none n
  else d

/-- A fresh management link key, agreed before the counter reaches 2⁴⁰ (R217). -/
def Dev.mgmtRekey (d : Dev) (n : Nat) : Dev :=
  if d.on ∧ d.managed n then
    d.setPort n (d.port n).rekeyed
  else d

/-- `k` frames are sent again, and FEC corrected `c` codewords, in frames sent again or not (R185). -/
def Dev.linkRetransmit (d : Dev) (n k c : Nat) : Dev :=
  if d.on ∧ n < 8 ∧ (d.port n).st ≠ .down ∧ (d.port n).st ≠ .fenced then
    (d.bump (portReg n + 0x18) k).bump (portReg n + 0x10) c
  else d

/-- A fenced lane: with one in both halves the port goes `FENCED`, whatever its state; else one that carries frames retrains on the
half without one, under a fresh management link key (R187, R217). -/
def Dev.laneFault (d : Dev) (n : Nat) : Dev :=
  if (d.port n).st = .fenced then d
  else if d.lanesOf n = 0 then d.movePort n { d.port n with st := .fenced, lanes := 0 }
  else if (d.managed n) ∧ (d.port n).lanes ≠ d.lanesOf n then d.setPort n { (d.port n).rekeyed with lanes := d.lanesOf n }
  else d

/-- A fenced port or Shuttle carries nothing (R219). -/
def Dev.portFence (d : Dev) (n : Nat) : Dev :=
  (d.movePort n { d.port n with st := .fenced, lanes := 0 }).setFld 0x15004 n 1 1

end Sys2Proof.Machine
end

