-- ==== Sys2Proof/Machine/Pleach.lean ====
section
/-! DEFINITION. Pleach's sequencing: arming, triggers and cuts, the background copy, READY and COMMIT records, counting a
generation (08 R222, R226 to R236). -/

namespace Sys2Proof.Machine

/-! ### Source lists (R222) -/

/-- A source-list entry from its 32 bytes; none when it breaks Table 08-1. -/
def srcRange (bs : List Byte) : Option SrcRange :=
  let v := leNat bs
  let r : SrcRange := { addr := bits v 0 41, key := bits v 41 12, units := bits v 64 32, tensor := bits v 96 32,
                        elemBase := bits v 128 48, fmt := bits v 192 4, cols := bits v 208 16 }
  let ok := onlyFields v [(0, 41), (41, 12), (64, 32), (96, 32), (128, 48), (192, 4), (208, 16)] &&
    r.addr % 4096 = 0 && r.key ≠ 0 && 1 ≤ r.units && r.fmt ≤ 2 && r.units % (if r.fmt = 0 then 4 else 2) = 0
  if ok then some r else none

/-- Entry `i` before the entries after it. -/
def joinRange (i : Nat) (r : Option SrcRange) (rest : List SrcRange ⊕ Nat) : List SrcRange ⊕ Nat :=
  match r, rest with
  | none, _ => .inr i
  | some r, .inl rs => .inl (r :: rs)
  | some _, .inr j => .inr j

/-- The entries in order, or the index of the first that breaks the table. -/
def srcRanges : Nat → List (List Byte) → List SrcRange ⊕ Nat
  | _, [] => .inl []
  | i, b :: bs => joinRange i (srcRange b) (srcRanges (i + 1) bs)

/-- Arm a partition (R221, R222, R224). -/
def Dev.arm (d : Dev) (p : Nat) : Dev :=
  let n := d.fld (plReg p + 0x20) 0 13
  let a := d.fld (plReg p + 0x18) 0 41
  if (d.pl p).armed ∨ d.fld 0x2C000 0 1 = 0 ∨ !d.groupOk p ∨ !d.sliceValid p then d
  else match d.read (engineReq p (d.fld (plReg p + 0x18) 41 12)) a (32 * n) with
    | .fail d _ => d.record 0 0x0B01 .context p (some p) 0
    | .ok d bs =>
      match srcRanges 0 (chunksOf 32 n bs) with
      | .inr i => d.record 0 0x0B01 .context p (some p) i
      | .inl rs =>
        let x := { d.pl p with armed := true, srcs := rs, prevCut := none, msStep := 0, owed := false }
        if 7 * d.section_ p < x.units then d
        else ((d.setPl p x).setFld (plReg p) 0 1 1).setReg (plReg p + 0x90) 0

/-- Disarm; a generation being copied is abandoned (R253). -/
def Dev.disarm (d : Dev) (p : Nat) : Dev :=
  ((d.abandonGen p).setPl p { (d.abandonGen p).pl p with armed := false, owed := false }).setFld (plReg p) 0 1 0

/-! ### Cuts (R226 to R231) -/

def Dev.cutFence (d : Dev) (p : Nat) : Nat := d.fld (plReg p + 0x30) 0 14

def Dev.keepFence (d : Dev) (p : Nat) : Nat := d.fld (plReg p + 0x30) 16 14

/-- Step of the kept generation: of a restore until the keep fence is next signalled, else the keep fence's value. -/
def Dev.keptStep (d : Dev) (p : Nat) : Nat :=
  match (d.pl p).kept with
  | some s => s
  | none => (d.fence (d.keepFence p)).value

/-- The slot that holds the kept generation (R231). -/
def Dev.keptSlot (d : Dev) (p : Nat) : Option Nat :=
  let x := d.pl p
  if x.gen0.valid ∧ x.gen0.step = d.keptStep p then some 0
  else if x.gen1.valid ∧ x.gen1.step = d.keptStep p then some 1
  else none

/-- The slot a cut writes (R231). -/
def Dev.cutSlot (d : Dev) (p : Nat) : Nat :=
  let x := d.pl p
  match d.keptSlot p with
  | some k => 1 - k
  | none =>
    if !x.gen0.valid then 0
    else if !x.gen1.valid then 1
    else if x.gen0.step ≤ x.gen1.step then 0 else 1

/-- Cut at step `s`: record it uncounted, clear the bitmap and the watermark (R230). -/
def Dev.cut (d : Dev) (p s : Nat) : Dev :=
  let k := d.cutSlot p
  let d := d.bump (plReg p + 0x60) 1
  let x := (d.pl p).setGen k { Gen.reset with step := s, valid := true, cuts := (d.reg (plReg p + 0x60)).toNat }
  let d := d.setPl p { x with cur := some k, taken := [], stripes := [], owed := false, msStep := 0, cutAt := d.now }
  ((d.writeSlot p k).clearBitmap p).readyIfDone p

/-- Triggers at the commit of step `s` (R226, R229). -/
def Dev.evaluateCut (d : Dev) (p s : Nat) : Dev :=
  let x := d.pl p
  if !x.armed then d
  else
    let steps := d.fld (plReg p + 0x28) 0 16
    let due := (steps ≠ 0 ∧ s % steps = 0) ∨ (d.fence (d.cutFence p)).value = s ∨ x.owed
    let d := d.setPl p { x with evaluated := some s }
    if !due then d
    else if x.cur.isSome ∨ x.op.isSome then
      (d.setPl p { d.pl p with owed := true }).bump (plReg p + 0x68) 1
    else d.cut p s

/-- The cut fence reaches a value already evaluated: no cut, counted late (R228). The keep fence moves: it names the kept
generation again (R242). -/
def Dev.pleachSignal (d : Dev) (p f v : Nat) : Dev :=
  let x := d.pl p
  let d := if x.armed ∧ f = d.keepFence p then d.setPl p { x with kept := none } else d
  match x.evaluated with
  | some e =>
    if x.armed ∧ f = d.cutFence p ∧ v ≤ e then
      (d.bump (plReg p + 0x70) 1).record 1 0x0B03 .context p (some p) v
    else d
  | none => d

/-- The stepping time reaches `MS`: `DUE` is set and the vector raised (R227). -/
def Dev.pleachDue (d : Dev) (p : Nat) : Dev :=
  let ms := d.fld (plReg p + 0x28) 16 16
  if d.on ∧ (d.pl p).armed ∧ ms ≠ 0 ∧ ms ≤ (d.pl p).msStep ∧ d.fld (plReg p + 0x40) 3 1 = 0 then
    (d.setFld (plReg p + 0x40) 3 1 1).raisePart p 2
  else d

/-- A tick counts a millisecond of stepping; time stopped for recovery does not count (R227). -/
def Dev.countStepping (d : Dev) (p : Nat) : Dev :=
  if (d.pl p).armed ∧ (d.ctx p).st = .opened then
    (d.setPl p { d.pl p with msStep := (d.pl p).msStep + 1 }).pleachDue p
  else d

/-! ### Copy (R232, R233) -/

/-- The lowest row not taken: rows below it are all taken, so it is also the watermark. -/
def firstUntaken : Nat → List Nat → Nat
  | w, [] => w
  | w, r :: rs => if r = w then firstUntaken (w + 1) rs else w

/-- Copy the next row in ascending order (R232). -/
def Dev.rowCopy (d : Dev) (p : Nat) : Dev :=
  if d.servingIn p then d.takeRow p (firstUntaken 0 (d.pl p).taken) else d

/-- A write to address `a` is about to reach a row not taken (R233). -/
def Dev.rowForced (d : Dev) (p a : Nat) : Dev := if a / d.window = p ∧ d.servingIn p then d.forceRow a else d

/-! ### Counting (R235, R236) -/

/-- A record of a step other than the slot's is ignored and recorded (R236). -/
def Dev.readyRecord (d : Dev) (p k step h : Nat) : Dev :=
  let g := (d.pl p).gen k
  if !d.servingIn p ∨ !(d.pl p).armed ∨ 2 ≤ k ∨ 8 ≤ h ∨ h = d.member p then d
  else if !g.valid ∨ g.step ≠ step then d.record 1 0x0B04 .context p (some p) step
  else
    let d := d.setPl p ((d.pl p).setGen k { g with ready := insNat h g.ready })
    (d.commitIfReady p k).countIfCommitted p k

def Dev.commitRecord (d : Dev) (p k step h : Nat) : Dev :=
  let g := (d.pl p).gen k
  if !d.servingIn p ∨ !(d.pl p).armed ∨ 2 ≤ k ∨ 8 ≤ h ∨ h = d.member p then d
  else if !g.valid ∨ g.step ≠ step then d.record 1 0x0B04 .context p (some p) step
  else (d.setPl p ((d.pl p).setGen k { g with commit := insNat h g.commit })).countIfCommitted p k

end Sys2Proof.Machine
end

