-- ==== Sys2Proof/Machine/Media.lean ====
section
/-! DEFINITION. The media path: ingest profiles, kept frames, crop, scale, colour, patches, audio tokens and panels (02 R46 to
R57). -/

namespace Sys2Proof.Machine

/-! ### Ingest profiles (Table 02-6) -/

/-- Field of a profile by byte. -/
def pfield (x byte n : Nat) : Nat := bits x (8 * byte) (8 * n)

def pCropX (x : Nat) : Nat := pfield x 0 2
def pCropY (x : Nat) : Nat := pfield x 2 2
def pCropW (x : Nat) : Nat := pfield x 4 2
def pCropH (x : Nat) : Nat := pfield x 6 2
def pOutW (x : Nat) : Nat := pfield x 8 2
def pOutH (x : Nat) : Nat := pfield x 10 2
def pPatchH (x : Nat) : Nat := pfield x 12 1
def pPatchW (x : Nat) : Nat := pfield x 13 1
def pDepth (x : Nat) : Nat := pfield x 14 1
def pColour (x : Nat) : Nat := pfield x 15 1
def pElem (x : Nat) : Nat := pfield x 16 1
def pMatrix (x : Nat) : Nat := pfield x 17 1
def pField (x : Nat) : Nat := pfield x 18 1
def pOrder (x : Nat) : Nat := pfield x 19 1
def pMean (x c : Nat) : FV := dec32 (pfield x (24 + 4 * c) 4)
def pInvStd (x c : Nat) : FV := dec32 (pfield x (36 + 4 * c) 4)
def pRate (x : Nat) : Nat := pfield x 48 2
def pChan (x : Nat) : Nat := pfield x 50 1
def pToken (x : Nat) : Nat := pfield x 52 2

/-- The profile's fields lie within Table 02-6 (R50, R51); its reserved bytes read 0 (00 R13). -/
def profileOk (x : Nat) : Bool :=
  let patch (n : Nat) : Bool := n = 8 || n = 14 || n = 16 || n = 32
  let out (n p : Nat) : Bool := 16 ≤ n && n ≤ 4096 && n % p = 0
  pCropX x % 2 = 0 && pCropY x % 2 = 0 && pCropW x % 2 = 0 && pCropH x % 2 = 0 &&
    patch (pPatchH x) && patch (pPatchW x) && out (pOutW x) (pPatchW x) && out (pOutH x) (pPatchH x) &&
    (pDepth x = 1 || pDepth x = 2 || pDepth x = 4) && pColour x ≤ 2 && pElem x ≤ 3 && pMatrix x ≤ 3 && pField x ≤ 2 &&
    pOrder x ≤ 1 && (pRate x = 0 || ((pRate x = 16000 || pRate x = 24000 || pRate x = 48000) && (pChan x = 1 || pChan x = 2) &&
      64 ≤ pToken x && pToken x ≤ 4096 && pToken x % 64 = 0))

/-- Element format of the panels. -/
def elemFmt (e : Nat) : Fmt := if e = 0 then .fp16 else if e = 1 then .bf16 else if e = 2 then .e4m3 else .int8

/-- Audio tokens are FP16 when `ELEM` is INT8 (R56). -/
def audioFmt (e : Nat) : Fmt := if e = 3 then .fp16 else elemFmt e

def channels (x : Nat) : Nat := if pColour x = 2 then 1 else 3

/-- Features of a video token. -/
def features (x : Nat) : Nat := pDepth x * pPatchH x * pPatchW x * channels x

/-- Tokens of a tube. -/
def tubeTokens (x : Nat) : Nat := pOutH x / pPatchH x * (pOutW x / pPatchW x)

/-! ### Kept frames (R46) -/

/-- A presented frame: time, end, decode indices of its picture or pictures, in the field mode of the profile. -/
structure Shown where
  pts : Nat
  fin : Nat
  a : Nat
  b : Nat
  deriving DecidableEq, Repr

def presented (mode : Nat) (fs : List Frame) : List Shown :=
  (fs.zipIdx.filter fun e =>
    if mode = 0 then e.1.field = 0 || e.2 ≤ e.1.mate else e.1.field = 0 || e.1.field = mode).map fun e =>
      { pts := e.1.pts, fin := e.1.pts + e.1.dur, a := e.2, b := if mode = 0 ∧ e.1.field ≠ 0 then e.1.mate else e.2 }

/-- Insert by presentation time, after those of the same time. -/
def insShown (x : Shown) : List Shown → List Shown
  | [] => [x]
  | y :: ys => if x.pts < y.pts then x :: y :: ys else y :: insShown x ys

/-- Every `n`-th element from the first; `c` counts down to the next. -/
def everyNth {α : Type} (n : Nat) : Nat → List α → List α
  | _, [] => []
  | 0, x :: xs => x :: everyNth n (n - 1) xs
  | c + 1, _ :: xs => everyNth n c xs

def keptFrames (mode start stride most : Nat) (fs : List Frame) : List Shown :=
  let l := (presented mode fs).foldl (fun l x => insShown x l) []
  (everyNth stride 0 (l.filter fun x => start ≤ x.pts)).take most

/-- Decode indices from the latest random access point before the first kept frame, in presentation as in decode order, to the
last kept one: a leading picture of an open group so finds the pictures that it references. -/
def decodePlan (fs : List Frame) (kept : List Shown) : List Nat :=
  match kept with
  | [] => []
  | k :: ks =>
    let lo := ks.foldl (fun m x => min m (min x.a x.b)) (min k.a k.b)
    let hi := ks.foldl (fun m x => max m (max x.a x.b)) (max k.a k.b)
    let enters (i : Nat) : Bool := (fs[i]?.map fun f => f.rap && f.pts ≤ k.pts).getD false
    let s := (List.range (lo + 1)).foldl (fun s i => if enters i then i else s) 0
    rangeFrom s (hi + 1 - s)

/-! ### Crop and scale (R52) -/

/-- A plane while it is resampled: no sample is clamped before step 4. -/
abbrev PlaneRows := List (List Int)

def toPlane (p : List (List Nat)) : PlaneRows := p.map fun r => r.map fun (x : Nat) => (x : Int)

def cropPlane (x y w h : Nat) (p : PlaneRows) : PlaneRows := ((p.drop y).take h).map fun r => (r.drop x).take w

/-- One output sample of the filter: `c / d` the centre, `h / d` the half-width, `n` source samples. -/
def filterAt (src : Array Int) (c h d : Int) : Int :=
  let lo := (c - h) / d
  let js := ((List.range ((2 * h / d).toNat + 3)).map fun (i : Nat) => lo + (i : Int)).filter fun j => (j * d - c).natAbs < h.natAbs
  let w (j : Int) : Int := 16384 * (h - (j * d - c).natAbs) / h
  let total := js.foldl (fun s j => s + w j) 0
  let jmax := js.foldl (fun m j => if (j * d - c).natAbs < (m * d - c).natAbs then j else m) (js.headD 0)
  let rd (j : Int) : Int := src.getD (min j.toNat (src.size - 1)) 0
  let acc := js.foldl (fun s j => s + (w j + if j = jmax then 16384 - total else 0) * rd j) 0
  (acc + 8192) / 16384

/-- One dimension: `out` samples; `site` places the first source sample in half output samples from the first output sample, 1
where neither is offset. -/
def scaleRow (out site : Nat) (row : List Int) : List Int :=
  let n := row.length
  let src := row.toArray
  let d : Int := 2 * out
  (List.range out).map fun (i : Nat) =>
    let c : Int := (2 * (i : Int) + 1) * n - out + (1 - (site : Int)) * (out - n)
    filterAt src c (max d (2 * n)) d

def columns (p : PlaneRows) : PlaneRows :=
  (List.range (p.head?.map List.length |>.getD 0)).map fun c => p.map fun r => r.getD c 0

/-- Horizontal, then vertical. -/
def scalePlane (w h cx cy : Nat) (p : PlaneRows) : PlaneRows :=
  columns ((columns (p.map (scaleRow w cx))).map (scaleRow h cy))

/-- The lines of one field of a frame. -/
def fieldLines (bottom : Bool) (p : List (List Nat)) : List (List Nat) :=
  (p.zipIdx.filter fun e => (e.2 % 2 = 1) = bottom).map Prod.fst

/-- Two fields interleaved into a frame. -/
def weave : List (List Nat) → List (List Nat) → List (List Nat)
  | a :: as, b :: bs => a :: b :: weave as bs
  | as, bs => as ++ bs

def mapPlanes (f : List (List Nat) → List (List Nat)) (x : Picture) : Picture := { x with y := f x.y, cb := f x.cb, cr := f x.cr }

/-- Corner and size of the crop in one direction of a picture of `n` samples: size 0 selects the whole of it (Table 02-6). -/
def cropSpan (at_ size n : Nat) : Nat × Nat := if size = 0 then (0, n) else (at_, size)

/-- Steps 1 to 3: crop, chroma to the luma grid, left-sited unless the stream signals its place, scale. -/
def scaledPicture (x : Picture) (pr : Nat) : PlaneRows × Option (PlaneRows × PlaneRows) :=
  let (cx, w) := cropSpan (pCropX pr) (pCropW pr) (x.y.headD []).length
  let (cy, h) := cropSpan (pCropY pr) (pCropH pr) x.y.length
  let luma := scalePlane (pOutW pr) (pOutH pr) 1 1 (cropPlane cx cy w h (toPlane x.y))
  if x.subX = 0 ∨ x.subY = 0 then (luma, none)
  else
    let (sx, sy) := x.site.getD (0, 1)
    let f (p : List (List Nat)) : PlaneRows :=
      scalePlane (pOutW pr) (pOutH pr) 1 1
        (scalePlane w h (if x.subX = 2 then sx else 1) (if x.subY = 2 then sy else 1)
          (cropPlane (cx / x.subX) (cy / x.subY) (w / x.subX) (h / x.subY) (toPlane p)))
    (luma, some (f x.cb, f x.cr))

/-- Luma weights of red and blue in units of 1/10000: BT.601, BT.709, BT.2020; BT.709 where none is signalled (Table 02-6). -/
def lumaWeights (m : Nat) : Nat × Nat :=
  if m = 1 then (2990, 1140) else if m = 0 ∨ m = 2 then (2126, 722) else if m = 3 then (2627, 593) else Config.matrixWeights m

/-- Step 4 of R52: luma in units of 1/`yd`, the colour differences, centred, in units of 1/`cd`, by the signalled range. -/
structure Normal where
  y : Int
  yd : Nat
  cb : Int
  cr : Int
  cd : Nat

def normalised (full : Bool) (depth : Nat) (y : Int) (c : Option (Int × Int)) : Normal :=
  let k : Nat := 2 ^ (depth - 8)
  let mid : Int := (128 * k : Nat)
  let (cb, cr) := c.getD (mid, mid)
  { y := if full then y else y - (16 * k : Nat), yd := if full then 2 ^ depth - 1 else 219 * k,
    cb := cb - mid, cr := cr - mid, cd := if full then 2 ^ depth - 1 else 224 * k }

/-- The channels of a pixel in FP32 after step 4: red, green, blue; Y, Cb, Cr; or luma. -/
def colourOf (m : Nat) (full : Bool) (depth colour : Nat) (y : Int) (c : Option (Int × Int)) : List Nat :=
  let n := normalised full depth y c
  let luma := Config.toUnit n.y n.yd
  if colour = 2 then [luma]
  else if colour = 1 then
    let g (v : Int) : Nat := Config.toUnit (2 * v + n.cd) (2 * n.cd)
    [luma, g n.cb, g n.cr]
  else
    let (kr, kb) := lumaWeights m
    let kg := 10000 - kr - kb
    let den := n.yd * n.cd * (10000 * kg)
    let f (r b : Int) : Nat := Config.toUnit (n.y * (n.cd * (10000 * kg) : Nat) + n.yd * (r * n.cr + b * n.cb)) den
    let up (k : Nat) : Int := (2 * (10000 - k) * kg : Nat)
    let down (k : Nat) : Int := -((2 * k * (10000 - k) : Nat) : Int)
    [f (up kr) 0, f (down kr) (down kb), f 0 (up kb)]

/-- Steps 4 to 6 on one pixel: the elements of its channels. -/
def pixelElems (pr : Nat) (x : Picture) (y : Int) (c : Option (Int × Int)) : List Nat :=
  let m := if pMatrix pr = 0 then x.matrix else pMatrix pr
  (colourOf m x.full x.depth (pColour pr) y c).zipIdx.map fun e =>
    ((elemFmt (pElem pr)).encode .nearest false
      (rn32 ((rn32 ((dec32 e.1).sub (pMean pr e.2))).mul (pInvStd pr e.2)))).bits

/-- A frame as elements: row, column, channel. -/
def pictureElems (x : Picture) (pr : Nat) : List (List (List Nat)) :=
  match scaledPicture x pr with
  | (l, none) => l.map fun row => row.map fun y => pixelElems pr x y none
  | (l, some (cb, cr)) =>
    List.zipWith (fun row cs => List.zipWith (fun y c => pixelElems pr x y (some c)) row cs) l
      (List.zipWith List.zip cb cr)

/-! ### Tokens (R53) -/

/-- The tokens of a tube, whose frames are given as elements. -/
def tubeElems (pr : Nat) (fs : List (List (List (List Nat)))) : List (List Nat) :=
  let at_ (t y x c : Nat) : Nat := (((fs.getD t []).getD y []).getD x []).getD c 0
  let ph := pPatchH pr
  let pw := pPatchW pr
  let ts := List.range (pDepth pr)
  let ys := List.range ph
  let xs := List.range pw
  let cs := List.range (channels pr)
  (List.range (pOutH pr / ph)).flatMap fun py => (List.range (pOutW pr / pw)).map fun px =>
    if pOrder pr = 0 then
      ts.flatMap fun t => ys.flatMap fun y => xs.flatMap fun x => cs.map fun c => at_ t (py * ph + y) (px * pw + x) c
    else cs.flatMap fun c => ts.flatMap fun t => ys.flatMap fun y => xs.map fun x => at_ t (py * ph + y) (px * pw + x) c

/-! ### Panels (R54) -/

/-- The panels of tokens of `n` features each, row-major, zero where no token or feature lies. -/
def tokenPanels (t : Fmt) (n : Nat) (toks : List (List Nat)) : List Byte :=
  let cols := ceilDiv n 64
  let pad (l : List Nat) : List Nat := l ++ List.replicate (64 * cols - l.length) 0
  let rows := toks.map pad ++ List.replicate (ceilDiv toks.length 64 * 64 - toks.length) (List.replicate (64 * cols) 0)
  (chunksOf 64 (toks.length + 1) rows).flatMap fun blk => (List.range cols).flatMap fun j =>
    packElems t.width (blk.flatMap fun r => (r.drop (64 * j)).take 64)

/-! ### Audio (R49, R56) -/

/-- The decoded part of the audio timeline: start sample relative to the span, samples per channel. -/
structure PcmRun where
  start : Int
  pcm : List (List Nat)

/-- Source samples that the run holds in each of `n` channels. -/
def PcmRun.len (n : Nat) (r : PcmRun) : Nat :=
  (List.range n).foldl (fun m c => min m (r.pcm.getD c []).length) (r.pcm.headD []).length

/-- The runs hold every source sample of [lo, hi) in `n` channels. -/
def pcmHeld (n : Nat) (rs : List PcmRun) : Nat → Int → Int → Bool
  | 0, lo, hi => hi ≤ lo
  | fuel + 1, lo, hi =>
    hi ≤ lo ||
      match rs.find? fun r => r.start ≤ lo && lo < r.start + r.len n with
      | some r => pcmHeld n rs fuel (r.start + r.len n) hi
      | none => false

/-- Source sample `i` of channel `c`. -/
def pcmAt (rs : List PcmRun) (c : Nat) (i : Int) : FV :=
  match rs.find? fun r => r.start ≤ i && i < r.start + (r.pcm.getD c []).length with
  | some r => dec32 ((r.pcm.getD c []).getD (i - r.start).toNat 0)
  | none => dec32 (Config.pcmEdge i)

/-- Output sample `n` at decimation `q`: products rounded and summed in ascending tap order. -/
def decimated (rs : List PcmRun) (taps : List Nat) (q c n : Nat) : FV :=
  if q = 1 then pcmAt rs c n
  else taps.zipIdx.foldl (fun s e => rn32 (s.add (rn32 ((dec32 e.1).mul (pcmAt rs c (q * n + Config.firDelay - e.2)))))) FV.zero

/-- Features of audio token `a`. -/
def audioToken (pr : Nat) (rs : List PcmRun) (taps : List Nat) (q a : Nat) : List Nat :=
  let t := audioFmt (pElem pr)
  (List.range (pToken pr)).flatMap fun i => (List.range (pChan pr)).map fun c =>
    (t.encode .nearest false (decimated rs taps q c (a * pToken pr + i))).bits

/-- Whether [x, x + n) and [y, y + m) overlap. -/
def spansMeet (x n y m : Nat) : Bool := x < y + m && y < x + n

/-! ### The shuffle (R57) -/

def shuffleBits (n : Nat) : Nat := (bitLen (n - 1) + 1) / 2

/-- Six Feistel rounds from round `i`. -/
def feistel (seed epoch sid wtag k : Nat) : Nat → Nat → Nat × Nat → Nat × Nat
  | 0, _, x => x
  | n + 1, i, (l, r) =>
    let h := (counterHash seed epoch (i * 2 ^ 44 + wtag * 2 ^ 20 + r) sid).toNat % 2 ^ 32 % 2 ^ k
    feistel seed epoch sid wtag k n (i + 1) (r, l ^^^ h)

/-- Cycle walking from `x`. -/
def permuteWalk (seed epoch n sid wtag k : Nat) : Nat → Nat → Nat
  | 0, x => x
  | fuel + 1, x =>
    let (l, r) := feistel seed epoch sid wtag k 6 0 (x / 2 ^ k, x % 2 ^ k)
    let y := l * 2 ^ k + r
    if y < n then y else permuteWalk seed epoch n sid wtag k fuel y

/-- The keyed permutation of [0, n). -/
def permute (seed epoch n sid wtag p : Nat) : Nat :=
  if n ≤ 1 then 0
  else
    let k := shuffleBits n
    permuteWalk seed epoch n sid wtag k (2 ^ (2 * k)) p

end Sys2Proof.Machine
end

