-- ==== Sys2Proof/Machine/Streams.lean ====
section
/-! DEFINITION. What Weft takes and what it does not: containers (02 Table 02-3), codecs (Table 02-4) and the work region that a
stream needs (R44, R45). -/

namespace Sys2Proof

open Sys2Proof.Machine

/-- What Table 02-4 says of a `VCODEC`: its profiles, each with its chroma formats and bit depths, the highest level, the largest
picture. -/
structure CodecLimits where
  profiles : List (VideoProfile × List Nat × List Nat)
  level : Nat
  width : Nat
  height : Nat

def codecLimits (codec : Nat) : Option CodecLimits :=
  match codec with
  | 1 => some { profiles := [(.main, [1], [8]), (.high, [1, 2], [8]), (.p422, [1, 2], [8])], level := 4, width := 1920, height := 1088 }
  | 2 => some { profiles := [(.constrainedBaseline, [1], [8]), (.main, [1], [8]), (.high, [0, 1], [8]), (.high10, [0, 1], [8, 9, 10]),
                             (.high422, [0, 1, 2], [8, 9, 10])], level := 52, width := 4096, height := 2304 }
  | 3 => some { profiles := [(.main, [1], [8]), (.main10, [1], [8, 9, 10]), (.main42210, [0, 1, 2], [8, 9, 10])], level := 61,
                width := 8192, height := 4320 }
  | 4 => some { profiles := [(.main, [0, 1], [8, 10])], level := 61, width := 8192, height := 4352 }
  | 5 => some { profiles := [(.main10, [0, 1], [8, 9, 10])], level := 61, width := 8192, height := 4320 }
  | _ => none

/-- The track is of the codec and lies within Table 02-4 (R40, R41). -/
def VideoTrack.taken (t : VideoTrack) (codec : Nat) : Bool :=
  t.codec = codec &&
    match codecLimits codec with
    | some l => t.level ≤ l.level && t.width ≤ l.width && t.height ≤ l.height &&
        l.profiles.any fun p => p.1 = t.profile && p.2.1.contains t.chroma && p.2.2.contains t.depth
    | none => false

/-- The same of an audio track. -/
def AudioTrack.taken (t : AudioTrack) (codec : Nat) : Bool :=
  t.codec = codec && !t.extended && t.channels ≠ 0 &&
    match codec with
    | 1 => t.kbps ≤ 384 && [32000, 44100, 48000].contains t.rate && t.channels ≤ 2
    | 2 => 8000 ≤ t.rate && t.rate ≤ 48000 && t.channels ≤ 6
    | 3 => t.kbps ≤ 640 && [32000, 44100, 48000].contains t.rate && t.channels ≤ 6
    | _ => false

/-- The selector that stands for the first track of its kind (Table 02-1). -/
def firstTrack : Nat := 0xFFFFFFFF

def StreamFacts.videoTrack (f : StreamFacts) (sel : Nat) : Option VideoTrack := f.video.find? fun t => sel = firstTrack || t.id = sel

def StreamFacts.audioTrack (f : StreamFacts) (sel : Nat) : Option AudioTrack := f.audio.find? fun t => sel = firstTrack || t.id = sel

/-- Samples of the three planes of a picture for each two luma samples. -/
def chromaShare (chroma : Nat) : Nat := if chroma = 0 then 2 else if chroma = 1 then 3 else if chroma = 2 then 4 else 6

/-- Bytes of a picture at the track's bit depth and chroma format. -/
def VideoTrack.pictureBytes (t : VideoTrack) : Nat := ceilDiv (t.width * t.height * chromaShare t.chroma * t.depth) 16

/-- Work region that one engine needs: the decoded picture buffer and 2 pictures (R44, R45). -/
def VideoTrack.workBytes (t : VideoTrack) : Nat := (t.buffer + 2) * t.pictureBytes

/-- The structure cannot be parsed within the first `n` bytes of the container stream. -/
def StreamFacts.brokenBy (f : StreamFacts) (n : Nat) : Bool := (f.breaks.map fun b => decide (b ≤ n)).getD false

/-- The selected tracks break the limits of Table 02-3 for the container: packets of another length, covered content, programs of
two kinds at once. -/
def StreamFacts.beyondContainer (f : StreamFacts) (container : Nat) (v : Option VideoTrack) (a : Option AudioTrack) : Bool :=
  (container = 1 && f.packet ≠ 188 && f.packet ≠ 192) || (v.map VideoTrack.covered).getD false ||
    (a.map AudioTrack.covered).getD false ||
    match v, a with
    | some v, some a => container = 1 && v.program ≠ a.program
    | _, _ => false

end Sys2Proof
end

