-- ==== Sys2Proof/Machine/Weft.lean ====
section
/-! DEFINITION. Weft: epochs, stream descriptors, chunks, pictures and audio frames, windows, placing a sample, the packer and
its sequences, retiring (02 R31 to R64, R66). -/

namespace Sys2Proof.Machine

def Dev.wf (d : Dev) (p : Nat) : WfPart := Sparse.get (fun _ => WfPart.reset) d.weft p

def Dev.setWf (d : Dev) (p : Nat) (x : WfPart) : Dev := { d with weft := Sparse.set (fun _ => WfPart.reset) d.weft p x }

def wfReg (p : Nat) : Nat := 0x18100 + 0x100 * p

/-! ### Descriptors (Tables 02-1, 02-2) -/

def streamFields : List (Nat × Nat) :=
  [(0, 40), (40, 8), (48, 12), (64, 64), (128, 32), (160, 32), (192, 8), (200, 8), (208, 8), (216, 8), (224, 32), (256, 32),
   (288, 64), (352, 32), (384, 32), (416, 32), (448, 32)]

def sSample (x : RingDesc) : Nat := dbyte x 16 0 40
def sOwner (x : RingDesc) : Nat := dbyte x 16 40 8
def sKey (x : RingDesc) : Nat := dbyte x 16 48 12
def sList (x : RingDesc) : Nat := dbyte x 24 0 64
def sCount (x : RingDesc) : Nat := dbyte x 32 0 32
def sVcodec (x : RingDesc) : Nat := dbyte x 41 0 8
def sAcodec (x : RingDesc) : Nat := dbyte x 42 0 8
def sProfile (x : RingDesc) : Nat := dbyte x 43 0 8
def sStreamId (x : RingDesc) : Nat := dbyte x 36 0 32
def sContainer (x : RingDesc) : Nat := dbyte x 40 0 8
def sVtrack (x : RingDesc) : Nat := dbyte x 44 0 32
def sAtrack (x : RingDesc) : Nat := dbyte x 48 0 32
def sStart (x : RingDesc) : Nat := dbyte x 52 0 64
def sStride (x : RingDesc) : Nat := dbyte x 60 0 32
def sMaxKept (x : RingDesc) : Nat := dbyte x 64 0 32
def sMinKept (x : RingDesc) : Nat := dbyte x 68 0 32
def sBound (x : RingDesc) : Nat := dbyte x 72 0 32

/-- Bytes 16–127 break Table 02-1 (R32). -/
def streamBad (x : RingDesc) : Bool :=
  let c := sContainer x
  !onlyFields (x.toNat >>> 128) streamFields || sList x % 16 ≠ 0 || 65536 < sCount x || c = 0 || 3 < c || 5 < sVcodec x ||
    3 < sAcodec x || 63 < sProfile x || sStride x = 0 || sMaxKept x = 0 || sMaxKept x < sMinKept x

def epochFields : List (Nat × Nat) :=
  [(0, 64), (64, 32), (96, 24), (128, 40), (192, 64), (256, 14), (272, 14), (288, 23), (320, 41)]

def eSeed (x : RingDesc) : Nat := dbyte x 16 0 64
def eEpoch (x : RingDesc) : Nat := dbyte x 24 0 32
def eWin (x : RingDesc) : Nat := dbyte x 28 0 24
def eN (x : RingDesc) : Nat := dbyte x 32 0 40
def eBase (x : RingDesc) : Nat := dbyte x 40 0 64
def eReady (x : RingDesc) : Nat := dbyte x 48 0 14
def eRetire (x : RingDesc) : Nat := dbyte x 50 0 14
def eLimit (x : RingDesc) : Nat := dbyte x 52 0 23
def eRecords (x : RingDesc) : Nat := dbyte x 56 0 41

/-- Bytes 16–127 break Table 02-2 (R36). -/
def epochBad (x : RingDesc) : Bool :=
  !onlyFields (x.toNat >>> 128) epochFields || eWin x = 0 || eN x = 0 || eLimit x = 0 || eLimit x % 64 ≠ 0 ||
    4194304 < eLimit x || eRecords x % granuleBytes ≠ 0

/-! ### Windows and emission order (R57) -/

def WfEpoch.windows (e : WfEpoch) : Nat := ceilDiv (eN e.desc) (eWin e.desc)

/-- The window that stands at position `j` of the emission order. -/
def WfEpoch.window (e : WfEpoch) (j : Nat) : Nat := permute (eSeed e.desc) (eEpoch e.desc) e.windows 0xE0 0 j

/-- Samples of the window at position `j`. -/
def WfEpoch.count (e : WfEpoch) (j : Nat) : Nat := min (eWin e.desc) (eN e.desc - e.window j * eWin e.desc)

/-- The sample at position `i` of the window at position `j`. -/
def WfEpoch.sampleAt (e : WfEpoch) (j i : Nat) : Nat :=
  e.window j * eWin e.desc + permute (eSeed e.desc) (eEpoch e.desc) (e.count j) 0xE1 (e.window j) i

def WfEpoch.sample (e : WfEpoch) (s : Nat) : Option Sample := Sparse.get (fun _ => none) e.samples s

def WfEpoch.setSample (e : WfEpoch) (s : Nat) (x : Sample) : WfEpoch :=
  { e with samples := Sparse.set (fun _ => none) e.samples s (some x) }

/-- A sample of which nothing has arrived. -/
def Sample.blank (r seq : Nat) (x : RingDesc) : Sample :=
  { ring := r, seq := seq, desc := x, chunks := 0, stream := [], facts := none, pics := [], audio := [], st := .decoding }

/-- What has been fetched and decoded of the sample is let go. -/
def Sample.cleared (x : Sample) : Sample := { x with stream := [], facts := none, pics := [], audio := [] }

/-- Whether a sample's descriptor has completed. -/
def SampleState.isOver : SampleState → Bool
  | .ended _ => true
  | .placed _ => true
  | _ => false

def WfEpoch.sampleOver (e : WfEpoch) (s : Nat) : Bool :=
  match e.sample s with
  | some x => x.st.isOver
  | none => false

/-- The half of the window at position `j` (R59). -/
def WfEpoch.half (e : WfEpoch) (j : Nat) : Nat := (e.firstHalf + j) % 2

/-! ### The epoch in effect -/

def Dev.epochOf (d : Dev) (p : Nat) : Option WfEpoch := (d.wf p).epochs.head?

/-- The head epoch changed. -/
def Dev.setEpoch (d : Dev) (p : Nat) (e : WfEpoch) : Dev :=
  d.setWf p { d.wf p with epochs := e :: (d.wf p).epochs.drop 1 }

/-- A video (or audio) engine of the partition is in service (R66). -/
def Dev.hasEngine (d : Dev) (p : Nat) (audio : Bool) : Bool :=
  if audio then (List.range 4).any fun i => d.unitPart .audioEngine i = some p && !d.fenced .audioEngine i
  else (List.range 32).any fun i => d.unitPart .videoEngine i = some p && !d.fenced .videoEngine i

/-! ### The packer (R61 to R64) -/

/-- The packer stands at a sample that does not fit, or past the epoch's last sample: the open sequence closes (R61); a
record holds 65,536 entries (Table 02-7). -/
def WfEpoch.closeDue (e : WfEpoch) : Bool :=
  e.active && !e.finished &&
    (e.windows ≤ e.pj ||
      match e.sample (e.sampleAt e.pj e.pi) with
      | some { st := .placed x, .. } => !e.cur.isEmpty && (eLimit e.desc < e.tokens + x.pad || e.cur.length = 65536)
      | _ => false)

/-- One move of the packer along the emission order; none where it stops. -/
def WfEpoch.packOne (e : WfEpoch) : Option WfEpoch :=
  if !e.active ∨ e.finished ∨ e.windows ≤ e.pj then none
  else if e.count e.pj ≤ e.pi then some { e with pj := e.pj + 1, pi := 0 }
  else match e.sample (e.sampleAt e.pj e.pi) with
    | some { st := .ended _, .. } => some { e with pi := e.pi + 1 }
    | some { st := .placed x, .. } =>
      if e.closeDue then none
      else some { e with pi := e.pi + 1, cur := e.cur ++ [{ x with offset := e.tokens }], tokens := e.tokens + x.pad }
    | _ => none

/-- The packer goes as far as it can. -/
def WfEpoch.pack : Nat → WfEpoch → WfEpoch
  | 0, e => e
  | n + 1, e =>
    match e.packOne with
    | some e => WfEpoch.pack n e
    | none => e

/-- The packer waits on a missing sample or on retire. -/
def Dev.packerWaits (d : Dev) (p : Nat) : Bool :=
  match d.epochOf p with
  | some e => e.active && !e.finished && (!e.closeDue || 4 ≤ (d.wf p).out.length)
  | none => false

/-- The wait is counted when it ends (Table 02-10). -/
def Dev.notePacker (d : Dev) (p : Nat) : Dev :=
  match (d.wf p).waitFrom, d.packerWaits p with
  | none, true => d.setWf p { d.wf p with waitFrom := some d.now }
  | some t, false => (d.bump (wfReg p + 0x48) (d.now - t)).setWf p { d.wf p with waitFrom := none }
  | _, _ => d

/-- After a sample's descriptor has completed: the window is complete when every sample of it has, then the packer runs. -/
def Dev.weftAdvance (d : Dev) (p : Nat) : Dev :=
  match d.epochOf p with
  | none => d
  | some e =>
    let full : Bool := e.filling && (List.range (e.count e.fill)).all fun i => e.sampleOver (e.sampleAt e.fill i)
    let e := if full then { e with fill := e.fill + 1, filling := false, used := 0 } else e
    (d.setEpoch p (e.pack (2 * e.samples.length + 2))).notePacker p

/-! ### Epochs (R36 to R38, R45) -/

/-- The eight words of a profile as one number. -/
def Dev.profile (d : Dev) (n : Nat) : Nat :=
  (List.range 8).foldl (fun x i => x + (d.reg (0x19000 + 0x40 * n + 8 * i)).toNat * 2 ^ (64 * i)) 0

def Dev.taps (d : Dev) (base : Nat) : List Nat := (List.range 64).map fun i => (d.reg (base + 4 * i)).toNat

/-- An epoch takes effect: profiles and filter taps are snapshotted (R37), its windows go on with the next half (R59). -/
def Dev.activate (d : Dev) (p : Nat) (e : WfEpoch) : Dev :=
  let w := d.wf p
  let e := { e with active := true, profiles := (List.range 64).map d.profile, fir2 := d.taps 0x1A000, fir3 := d.taps 0x1A100,
                    base := d.fld (wfReg p) 21 20 * granuleBytes, halfBytes := d.fld (wfReg p + 8) 0 16 * granuleBytes / 2,
                    work := d.fld (wfReg p + 0x18) 0 16 * granuleBytes, firstHalf := w.nextHalf }
  (d.setWf p { w with epochs := e :: w.epochs.drop 1 }).notePacker p

def Dev.epochTakeEffect (d : Dev) (p : Nat) : Dev :=
  match (d.wf p).epochs with
  | e :: f :: r => if d.servingIn p ∧ e.finished then (d.setWf p { d.wf p with epochs := f :: r }).activate p f else d
  | _ => d

/-- The sample of a descriptor that ended at acceptance counts for its window, unless one stands already. -/
def Dev.noteEnded (d : Dev) (r seq : Nat) (x : RingDesc) : Dev :=
  let p := ringPart r
  match (d.wf p).epochs.reverse with
  | [] => d
  | e :: rest =>
    if eN e.desc ≤ sSample x ∨ (e.sample (sSample x)).isSome then d
    else (d.setWf p { d.wf p with epochs := (e.setSample (sSample x) { Sample.blank r seq x with st := .ended 0x46 } :: rest).reverse }
      ).weftAdvance p

/-- An epoch descriptor of the ring still stands before descriptor `seq`. -/
def Dev.epochPends (d : Dev) (r seq : Nat) : Bool :=
  (d.ring r).pend.any fun a => a.seq < seq && a.undone && descOpcode a.desc = 0x41

/-- How a sound stream descriptor of ring `r` stands once every epoch descriptor before it has ended: the status that ends it,
`WRONG_RING` or `SEQ_TOO_LONG`, or none and the epoch it belongs to (R31, R62). -/
def Dev.streamTie (d : Dev) (r : Nat) (x : RingDesc) : Option Nat × Option (Nat × Nat) :=
  let w := d.wf (ringPart r)
  if w.ingest ≠ some r then (some 0x4C, none)
  else match w.epochs.getLast? with
    | none => (some 0x4C, none)
    | some e => if eLimit e.desc < sBound x then (some 0x46, none) else (none, some (e.serial, eN e.desc))

/-- The descriptor's epoch is noted with it. -/
def Dev.tie (d : Dev) (r seq : Nat) (e : Option (Nat × Nat)) : Dev :=
  d.setRing r { d.ring r with pend := (d.ring r).pend.map fun a => if a.seq = seq then { a with epoch := e } else a }

/-- A descriptor that Weft judges by the epoch before it (R31, R32, R62). -/
def judgedStream (x : RingDesc) : Bool := descOpcode x = 0x40 && !headerBad x && !streamBad x

/-- An accepted stream descriptor that no epoch descriptor stands before any more is judged now (R31, R62). -/
def Dev.judgeOne (d : Dev) (r seq : Nat) : Dev :=
  match (d.ring r).pend.find? fun a => a.seq = seq with
  | none => d
  | some a =>
    if a.phase ≠ .waiting ∨ a.epoch.isSome ∨ !judgedStream a.desc ∨ d.epochPends r a.seq then d
    else match d.streamTie r a.desc with
      | (some c, _) =>
        let d := d.finish r a.seq (Verdict.of c)
        if c = 0x46 then d.noteEnded r a.seq a.desc else d
      | (none, e) => d.tie r a.seq e

/-- The epoch descriptor `seq` of the ring has ended: the stream descriptors up to the next one are judged. -/
def Dev.judgeAfter (d : Dev) (r seq : Nat) : Dev :=
  (((d.ring r).pend.filter fun a => seq < a.seq).map Accepted.seq).foldl (fun d q => d.judgeOne r q) d

/-- Opcode 0x41. Where several statuses apply the first in the order below is reported. -/
def Dev.epochRow (d : Dev) (r : Nat) : Dev :=
  d.startNext r 0x41 (fun _ => true) fun d a =>
    let p := ringPart r
    let fin (c : Nat) : Dev := (d.finish r a.seq (Verdict.of c)).judgeAfter r a.seq
    if d.p8 then fin 9
    else if d.fld 0x18000 0 1 = 0 then d
    else if epochBad a.desc then fin 1
    else if d.fld (wfReg p + 8) 0 16 = 0 ∨ d.fld (wfReg p + 0x18) 0 16 = 0 then fin 0x4E
    else if 16777216 < ceilDiv (eN a.desc) (eWin a.desc) then fin 0x4D
    else if !(d.fenceIn p (eReady a.desc)) ∨ !(d.fenceIn p (eRetire a.desc)) then fin 7
    else
      let w := d.wf p
      let e : WfEpoch := { serial := w.serial, ring := r, desc := a.desc, active := false, profiles := [], fir2 := [], fir3 := [],
                           base := 0, halfBytes := 0, work := 0, firstHalf := 0, fill := 0, filling := false, used := 0,
                           samples := [], pj := 0, pi := 0, cur := [], tokens := 0, k := 0, finished := false }
      let d := d.finish r a.seq (Verdict.of 0)
      (match w.epochs with
        | [] => (d.setWf p { w with ingest := some r, serial := w.serial + 1, epochs := [e] }).activate p e
        | l => d.setWf p { w with ingest := some r, serial := w.serial + 1, epochs := l ++ [e] }).judgeAfter r a.seq

/-! ### Stream descriptors (R31 to R33, R50, R59, R62) -/

/-- Where a sample's window stands to the filling window. -/
inductive WindowIs where
  | past | filling | later
  deriving DecidableEq, Repr

def WfEpoch.windowIs (e : WfEpoch) (s : Nat) : WindowIs :=
  let w := s / eWin e.desc
  if e.filling ∧ e.fill < e.windows ∧ e.window e.fill = w then .filling
  else if (List.range e.fill).any fun j => e.window j = w then .past else .later

/-- The sample is recorded with a state, its descriptor finished when the state ends it. -/
def Dev.endSample (d : Dev) (p s : Nat) (x : Sample) (code : Nat) : Dev :=
  match d.epochOf p with
  | none => d
  | some e =>
    ((d.setEpoch p (e.setSample s { x.cleared with st := .ended code })).finish x.ring x.seq (Verdict.of code)).weftAdvance p

/-- A data slot of the partition that carries the owner tag and has a use left (R33, 13 R389). -/
def Dev.dataKeyOk (d : Dev) (p k owner : Nat) : Bool :=
  k ≠ 0 && d.keyValid p k && (d.key k).typ = 4 && (d.key k).owner = owner && (d.key k).uses ≠ 0

/-- The counted use. -/
def Dev.countUse (d : Dev) (k : Nat) : Dev :=
  if (d.key k).uses = 0xFFFFFFFF then d else d.setKey k { d.key k with uses := (d.key k).uses - 1 }

/-- The profile belongs to the partition (R50). -/
def Dev.ownsProfile (d : Dev) (p n : Nat) : Bool := n / (64 / d.parts) = p

/-- The sample lies in the filling window and is the first of its number. -/
def Dev.takeStream (d : Dev) (p r : Nat) (a : Accepted) (e : WfEpoch) : Dev :=
  let s := sSample a.desc
  let x := Sample.blank r a.seq a.desc
  let d := (d.setPhase r a.seq .started).setEpoch p (e.setSample s x)
  if sCount a.desc = 0 then d.endSample p s x 0x4A
  else if !(d.dataKeyOk p (sKey a.desc) (sOwner a.desc)) then d.endSample p s x 0x42
  else
    let d := d.countUse (sKey a.desc)
    if !(d.ownsProfile p (sProfile a.desc)) ∨ !(profileOk (e.profiles.getD (sProfile a.desc) 0)) then d.endSample p s x 0x4B
    else d

/-- Opcode 0x40: a stream descriptor starts, waits for its epoch or its window, or completes. The epoch it belongs to was fixed
when it was accepted (R31); once that epoch has gone its windows have all been filled. -/
def Dev.streamRow (d : Dev) (r : Nat) : Dev :=
  d.startNext r 0x40 (fun _ => true) fun d a =>
    let p := ringPart r
    let n := sSample a.desc
    let fin (c : Nat) : Dev := d.finish r a.seq (Verdict.of c)
    if d.p8 then fin 9
    else if d.fld 0x18000 0 1 = 0 ∨ !d.hasEngine p false then d
    else if streamBad a.desc then fin 1
    else match (if a.epoch.isSome then (none, a.epoch) else d.streamTie r a.desc) with
      | (some c, _) => fin c
      | (none, none) => fin 0x4C
      | (none, some (serial, count)) =>
        if count ≤ n then fin 0x4D
        else match (d.wf p).epochs.find? fun e => e.serial = serial with
          | none => fin 0x48
          | some e =>
            if !e.active then d
            else match e.windowIs n with
              | .past => fin 0x48
              | .later => d
              | .filling => if (e.sample n).isSome then fin 0x49 else d.takeStream p r a e

/-! ### Chunks and headers (R34, R35, R41, R45) -/

/-- The sample carries audio under its profile. -/
def wantsAudio (x : RingDesc) (pr : Nat) : Bool := sAcodec x ≠ 0 && pRate pr ≠ 0

/-- The video track that the descriptor selects; none without video. -/
def videoOf (x : RingDesc) (f : StreamFacts) : Option VideoTrack := if sVcodec x = 0 then none else f.videoTrack (sVtrack x)

/-- The audio track that the descriptor selects; none without audio. -/
def audioOf (x : RingDesc) (f : StreamFacts) : Option AudioTrack := if sAcodec x = 0 then none else f.audioTrack (sAtrack x)

/-- The crop in one direction ends beyond the picture (R51). -/
def cropBeyond (at_ size n : Nat) : Bool := size ≠ 0 && n < at_ + size

/-- What the headers decide, met within `n` bytes of the stream: a status that ends the sample, or none (R39 to R41, R45, R51,
R56, R66). Where several apply the first in the order below is reported. -/
def Dev.headerStatus (d : Dev) (p : Nat) (e : WfEpoch) (x : RingDesc) (n : Nat) (f : StreamFacts) : Option Nat :=
  let pr := e.profiles.getD (sProfile x) 0
  let v := videoOf x f
  let a := audioOf x f
  let field := pField pr ≠ 0
  if f.brokenBy n ∨ f.beyondContainer (sContainer x) v a then some 0x44
  else if sVcodec x ≠ 0 ∧ !((v.map fun t => t.taken (sVcodec x)).getD false) then some 0x43
  else if sAcodec x ≠ 0 ∧ !((a.map fun t => t.taken (sAcodec x)).getD false) then some 0x43
  else if (v.map fun t => decide (e.work < t.workBytes)).getD false then some 0x4E
  else if (v.map fun t => cropBeyond (pCropX pr) (pCropW pr) t.width ||
      cropBeyond (pCropY pr) (pCropH pr) (if field then t.height / 2 else t.height)).getD false then some 0x4B
  else if wantsAudio x pr ∧ (!d.hasEngine p true ∨
      !((a.map fun t => [pRate pr, 2 * pRate pr, 3 * pRate pr].contains t.rate).getD false)) then some 0x43
  else none

/-- The coded pictures of the sample's video track, in decode order. -/
def Sample.frames (x : Sample) : List Frame := ((x.facts.bind (videoOf x.desc)).map VideoTrack.frames).getD []

/-- The audio frames of its audio track. -/
def Sample.audioFrames (x : Sample) : List AudioFrame := ((x.facts.bind (audioOf x.desc)).map AudioTrack.frames).getD []

/-- The rate of its audio track. -/
def Sample.audioRate (x : Sample) : Nat := ((x.facts.bind (audioOf x.desc)).map AudioTrack.rate).getD 0

/-- Kept frames of a sample (R46). -/
def Sample.kept (x : Sample) (pr : Nat) : List Shown :=
  keptFrames (pField pr) (sStart x.desc) (sStride x.desc) (sMaxKept x.desc) x.frames

def Sample.plan (x : Sample) (pr : Nat) : List Nat := decodePlan x.frames (x.kept pr)

/-- The audio span in ticks: first kept frame's time, end of the last kept frame (R56). -/
def Sample.span (x : Sample) (pr : Nat) : Nat × Nat :=
  match x.kept pr with
  | [] => (0, 0)
  | k :: ks => (k.pts, (ks.getLast?.getD k).fin)

/-- The audio frames that the span needs. -/
def Sample.audioPlan (x : Sample) (pr : Nat) : List Nat :=
  let (a, b) := x.span pr
  if wantsAudio x.desc pr then (x.audioFrames.zipIdx.filter fun e => spansMeet e.1.pts e.1.dur a (b - a)).map Prod.snd else []

/-! ### Tubes and tokens (R46 to R49, R56) -/

def Sample.pic (x : Sample) (i : Nat) : Option PicOut := (x.pics.find? fun e => e.1 = i).map Prod.snd

/-- The kept frame's pictures were all decoded. -/
def Sample.shownOk (x : Sample) (s : Shown) : Bool :=
  match x.pic s.a, x.pic s.b with
  | some (.kept _), some (.kept _) => true
  | _, _ => false

/-- Complete tubes without a dropped frame. -/
def Sample.tubes (x : Sample) (pr : Nat) : List (List Shown) :=
  (chunksOf (pDepth pr) ((x.kept pr).length + 1) (x.kept pr)).filter fun t => t.length = pDepth pr && t.all x.shownOk

/-- Audio tokens of the span, complete ones only. -/
def Sample.audioTokens (x : Sample) (pr : Nat) : Nat :=
  let (a, b) := x.span pr
  if wantsAudio x.desc pr then (b - a) * pRate pr / 90000 / pToken pr else 0

/-- The token's span meets an audio frame that was dropped (R49). -/
def Sample.tokenDropped (x : Sample) (pr a : Nat) : Bool :=
  let (s, _) := x.span pr
  x.audio.any fun e => e.2.isNone &&
    match x.audioFrames[e.1]? with
    | some u => spansMeet (u.pts * pRate pr) (u.dur * pRate pr) (s * pRate pr + a * pToken pr * 90000) (pToken pr * 90000)
    | none => false

/-- The decoded audio on the span's timeline in source samples; a frame that starts between two samples starts at the earlier. -/
def Sample.runs (x : Sample) (pr : Nat) : List PcmRun :=
  let (s, _) := x.span pr
  x.audio.filterMap fun e =>
    match e.2, x.audioFrames[e.1]? with
    | some pcm, some u => some { start := ((u.pts : Int) - s) * x.audioRate / 90000, pcm := pcm }
    | _, _ => none

/-- The factor by which the sample's audio is decimated. -/
def Sample.decimation (x : Sample) (pr : Nat) : Nat := x.audioRate / max (pRate pr) 1

/-- Decoded frames hold every source sample of the token's span: nothing is filled in (R49, R56). -/
def Sample.tokenHeld (x : Sample) (pr a : Nat) : Bool :=
  let rs := x.runs pr
  let n := x.decimation pr * pToken pr
  pcmHeld (pChan pr) rs rs.length (n * a : Nat) (n * (a + 1) : Nat)

/-- Audio tokens kept. -/
def Sample.audioKept (x : Sample) (pr : Nat) : List Nat :=
  (List.range (x.audioTokens pr)).filter fun a => !x.tokenDropped pr a && x.tokenHeld pr a

/-- Audio tokens that the record counts as omitted. -/
def Sample.audioOmitted (x : Sample) (pr : Nat) : Nat :=
  ((List.range (x.audioTokens pr)).filter (x.tokenDropped pr)).length

def padded (n : Nat) : Nat := ceilDiv n 64 * 64

def Sample.vtokens (x : Sample) (pr : Nat) : Nat := (x.tubes pr).length * tubeTokens pr

def Sample.padTokens (x : Sample) (pr : Nat) : Nat := padded (x.vtokens pr) + padded (x.audioKept pr).length

/-- The elements of a kept frame: two fields woven, or the lines of one field (Table 02-6). -/
def Sample.shownElems (x : Sample) (pr : Nat) (s : Shown) : List (List (List Nat)) :=
  let fieldOf (i : Nat) : Nat := (x.frames[i]?.map Frame.field).getD 0
  match x.pic s.a, x.pic s.b with
  | some (.kept a), some (.kept b) =>
    let q := if s.a ≠ s.b then
        let (t, u) := if fieldOf s.a = 1 then (a, b) else (b, a)
        { t with y := weave t.y u.y, cb := weave t.cb u.cb, cr := weave t.cr u.cr }
      else if pField pr ≠ 0 ∧ fieldOf s.a = 0 then mapPlanes (fieldLines (pField pr = 2)) a else a
    pictureElems q pr
  | _, _ => []

/-- The sample's panels: video tokens, then audio tokens from a fresh row block. -/
def Sample.panels (x : Sample) (pr : Nat) (fir2 fir3 : List Nat) : List Byte :=
  let video := (x.tubes pr).flatMap fun t => tubeElems pr (t.map (x.shownElems pr))
  let q := x.decimation pr
  let audio := (x.audioKept pr).map fun a => audioToken pr (x.runs pr) (if q = 2 then fir2 else fir3) q a
  tokenPanels (elemFmt (pElem pr)) (features pr) video ++ tokenPanels (audioFmt (pElem pr)) (pToken pr * pChan pr) audio

/-- Every chunk, picture and audio frame has been dealt with: the sample ends or waits for its space (R48, R62). -/
def Dev.sampleCheck (d : Dev) (p s : Nat) (e : WfEpoch) (x : Sample) : Dev :=
  let d := d.setEpoch p (e.setSample s x)
  let pr := e.profiles.getD (sProfile x.desc) 0
  if (x.facts.map fun f => f.brokenBy x.stream.length).getD false then d.endSample p s x 0x44
  else if x.chunks < sCount x.desc then d
  else if x.facts.isNone then d.endSample p s x 0x44
  else if !((x.plan pr).all fun i => (x.pic i).isSome) ∨ !((x.audioPlan pr).all fun i => x.audio.any fun a => a.1 = i) then d
  else if (x.tubes pr).length * pDepth pr < sMinKept x.desc then d.endSample p s x 0x45
  else if sBound x.desc < x.padTokens pr then d.endSample p s x 0x46
  else d.setEpoch p (e.setSample s { x with st := .ready })

/-- The sample in decode, if any. -/
def Dev.decoding (d : Dev) (p s : Nat) : Option (WfEpoch × Sample) :=
  match d.epochOf p with
  | none => none
  | some e =>
    match e.sample s with
    | some x => if x.st = .decoding ∧ e.active ∧ d.servingIn p then some (e, x) else none
    | none => none

/-- The host path carries `n` bytes of Weft fetch: link and budget, host-path Selvedge and front end in service (10 R321, 12
R378). -/
def Dev.fetchOpen (d : Dev) (p n : Nat) : Bool := d.hostMay false p n && !d.fenced .selvedge 16 && !d.fenced .hub 4

/-- The ingest key of a slot (13 Table 13-2). -/
def Dev.ingestKey (d : Dev) (k : Nat) : List Nat := Crypt.hkdf (Crypt.secretBytes (d.key k).secret) (Crypt.ascii "LQ16-INGEST") 32

/-- Entry `i` of a chunk list (R32): address and length of the chunk; none when it breaks the table. -/
def chunkEntry (bs : List Byte) : Option (Nat × Nat) :=
  let len := leNat ((bs.drop 8).take 4)
  if 17 ≤ len ∧ len ≤ 2 ^ 24 ∧ leNat (bs.drop 12) = 0 then some (leNat (bs.take 8), len) else none

/-- The nonce of chunk `i`: `STREAM_ID` and the chunk's number (R34). -/
def chunkNonce (x : RingDesc) (i : Nat) : List Nat := Crypt.ofBytes (leBytes 4 (sStreamId x) ++ leBytes 8 i)

/-- The plaintext of chunk `i` under a key, none when its tag fails: bytes 16–23 of the descriptor are authenticated with it
(R34). -/
def openChunk (key : List Nat) (x : RingDesc) (i : Nat) (bs : List Byte) : Option (List Byte) :=
  let ct := Crypt.ofBytes (bs.take (bs.length - 16))
  let aad := Crypt.ofBytes (leBytes 8 (dbyte x 16 0 64))
  if Crypt.gcmTag key (chunkNonce x i) aad ct = Crypt.ofBytes (bs.drop (bs.length - 16)) then
    some (Crypt.toBytes (Crypt.gcmCrypt key (chunkNonce x i) ct))
  else none

/-- The next chunk of the sample in host memory, its tag checked, and the sample that has it; a status otherwise. -/
def Dev.nextChunk (d : Dev) (x : Sample) : Except Nat Sample :=
  match chunkEntry (d.hostBytes (sList x.desc + 16 * x.chunks) 16) with
  | none => .error 1
  | some (a, len) =>
    match openChunk (d.ingestKey (sKey x.desc)) x.desc x.chunks (d.hostBytes a len) with
    | none => .error 0x41
    | some bs => .ok { x with chunks := x.chunks + 1, stream := x.stream ++ bs }

/-- Host bytes that the next chunk costs: its list entry and the chunk. -/
def Dev.chunkCost (d : Dev) (x : Sample) : Nat :=
  16 + ((chunkEntry (d.hostBytes (sList x.desc + 16 * x.chunks) 16)).map Prod.snd).getD 0

/-- A chunk arrives, and by it what the demultiplexer finds may have become known (R34, R35, R39, R41). -/
def Dev.chunkArrival (d : Dev) (p s : Nat) (facts : Option StreamFacts) : Dev :=
  match d.decoding p s with
  | none => d
  | some (e, x) =>
    if sCount x.desc ≤ x.chunks ∨ !d.fetchOpen p (d.chunkCost x) then d
    else
      let y := d.nextChunk x
      let d := d.hostCount false p (d.chunkCost x)
      match y with
      | .error c =>
        let d := if c = 0x41 then (d.bump (wfReg p + 0x38) 1).record 0 0x0801 .hub 4 (some p) (sOwner x.desc) else d
        d.endSample p s x c
      | .ok x =>
        match x.facts, facts with
        | none, some f =>
          match d.headerStatus p e x.desc x.stream.length f with
          | some c => d.endSample p s x c
          | none => d.sampleCheck p s e { x with facts := some f }
        | _, _ => d.sampleCheck p s e x

/-! ### Pictures (R42, R46, R47) -/

/-- Coded luma samples of a picture (R42). -/
def codedLuma (codec : Nat) (f : Frame) : Nat :=
  let m := if codec ≤ 2 then 16 else 8
  let n := ceilDiv f.width m * m * (ceilDiv f.height m * m)
  if f.field = 0 then n else n / 2

/-- A reference is missing or was dropped; none while one is still to be decoded. -/
def Sample.refsBad (x : Sample) (plan : List Nat) (f : Frame) : Option Bool :=
  if f.refs.any fun i => plan.contains i && (x.pic i).isNone then none
  else some (f.refs.any fun i => x.pic i = some .dropped || !plan.contains i)

/-- A picture finishes: `pic` is what the codec gives, none when it cannot be decoded. Its bytes lie in chunks that have been
authenticated (R35). -/
def Dev.pictureDecode (d : Dev) (p s i : Nat) (pic : Option Picture) : Dev :=
  match d.decoding p s with
  | none => d
  | some (e, x) =>
    let pr := e.profiles.getD (sProfile x.desc) 0
    match x.frames[i]? with
    | none => d
    | some f =>
      if !(x.plan pr).contains i ∨ (x.pic i).isSome ∨ !d.hasEngine p false ∨ x.stream.length < f.stop then d
      else match x.refsBad (x.plan pr) f, pic with
        | none, _ => d
        | some false, some q =>
          let out := if (x.kept pr).any fun k => k.a = i || k.b = i then PicOut.kept q else .decoded
          let d := (d.bump (wfReg p + 0x20) 1).bump (wfReg p + 0x40) (codedLuma (sVcodec x.desc) f)
          d.sampleCheck p s e { x with pics := x.pics ++ [(i, out)] }
        | _, _ => (d.bump (wfReg p + 0x28) 1).sampleCheck p s e { x with pics := x.pics ++ [(i, .dropped)] }

/-- An audio frame finishes: its samples per output channel, none when it cannot be decoded (R35, R49). -/
def Dev.audioDecode (d : Dev) (p s i : Nat) (pcm : Option (List (List Nat))) : Dev :=
  match d.decoding p s with
  | none => d
  | some (e, x) =>
    let pr := e.profiles.getD (sProfile x.desc) 0
    if !(x.audioPlan pr).contains i ∨ (x.audio.any fun a => a.1 = i) ∨ !d.hasEngine p true ∨
        x.stream.length < ((x.audioFrames[i]?).map AudioFrame.stop).getD 0 then d
    else d.sampleCheck p s e { x with audio := x.audio ++ [(i, pcm)] }

/-! ### Windows (R59, R60) -/

/-- The half's earlier window has been packed and every sequence that holds its samples has retired (R63). -/
def Dev.halfFree (d : Dev) (p : Nat) (e : WfEpoch) (h : Nat) : Bool :=
  let w := d.wf p
  let last := if h = 0 then w.half0 else w.half1
  (match last with
    | none => true
    | some (n, j) => n < e.serial || j < e.pj) &&
  !(w.out.any fun o => o.halves.contains h) && !(e.cur.any fun x => x.half = h)

def Dev.windowFill (d : Dev) (p : Nat) : Dev :=
  match d.epochOf p with
  | none => d
  | some e =>
    let h := e.half e.fill
    if !d.servingIn p ∨ !e.active ∨ e.filling ∨ e.windows ≤ e.fill ∨ !d.halfFree p e h then d
    else
      let w := d.wf p
      let u := some (e.serial, e.fill)
      (d.setWf p { (if h = 0 then { w with half0 := u } else { w with half1 := u }) with nextHalf := 1 - h }).setEpoch p
        { e with filling := true, used := 0 }

/-- A decoded sample takes its panels once every sample before it in emission order has taken its space. -/
def Dev.samplePlace (d0 : Dev) (p s : Nat) : Dev :=
  match d0.epochOf p with
  | none => d0
  | some e =>
    match e.sample s, (List.range (e.count e.fill)).find? fun i => e.sampleAt e.fill i = s with
    | some x, some i =>
      if !d0.servingIn p ∨ !e.filling ∨ x.st ≠ .ready ∨ !((List.range i).all fun k => e.sampleOver (e.sampleAt e.fill k)) then d0
      else
        let pr := e.profiles.getD (sProfile x.desc) 0
        let bs := x.panels pr e.fir2 e.fir3
        let a := e.base + e.half e.fill * e.halfBytes + e.used
        if e.halfBytes < e.used + bs.length then d0.endSample p s x 0x47
        else match d0.write (engineReq p (sKey x.desc)) a bs with
          | .fail _ .wait => d0
          | .fail d .bad => d
          | .fail d _ => d.endSample p s x 0x42
          | .ok d _ =>
            let y : SeqEntry := { sample := s, owner := sOwner x.desc, key := sKey x.desc,
                                  omitted := x.audioOmitted pr, vtokens := x.vtokens pr,
                                  atokens := (x.audioKept pr).length, pad := x.padTokens pr, offset := 0, panels := a,
                                  half := e.half e.fill }
            let z := { x.cleared with st := .placed y }
            let d := d.setEpoch p ({ e with used := e.used + bs.length }.setSample s z)
            (d.finish x.ring x.seq { code := 0, nfail := 0, aux := 0, info := y.vtokens + y.atokens * 2 ^ 32 }).weftAdvance p
    | _, _ => d0

/-! ### Sequences (R63, R64, 13 R404) -/

/-- Add one to the count of each owner tag. -/
def countOwners (c : Sparse Nat) (os : List Nat) : Sparse Nat :=
  os.foldl (fun c o => Sparse.set (fun _ => 0) c o (Sparse.get (fun _ => 0) c o + 1)) c

/-- Sequences whose retire value is reached retire; the RTP counts their entries while a floor is set. -/
def Dev.weftRetire (d : Dev) (p : Nat) : Dev :=
  let w := d.wf p
  let gone := w.out.filter fun o => d.waitFence p o.fence o.value = .ready
  if gone.isEmpty then d
  else
    let d := d.setWf p { w with out := w.out.filter fun o => d.waitFence p o.fence o.value ≠ .ready }
    let x := d.rtpPart p
    let floor : Bool := match x.manifest with
      | some m => m.floorSamples ≠ 0
      | none => false
    let d := if floor then d.setRtpPart p { x with counts := countOwners x.counts (gone.flatMap SeqOut.owners) } else d
    d.notePacker p

/-- The bytes of a sequence record (Table 02-7). -/
def seqRecord (k tokens : Nat) (last : Bool) (es : List SeqEntry) : List Byte :=
  leBytes 8 k ++ leBytes 4 tokens ++ leBytes 4 es.length ++ leBytes 1 (b2n last) ++ List.replicate 47 0 ++
    es.flatMap fun e => leBytes 8 (e.sample + e.owner * 2 ^ 40) ++ leBytes 2 e.key ++ leBytes 2 e.omitted ++
      leBytes 4 e.vtokens ++ leBytes 4 e.atokens ++ leBytes 4 e.offset ++ leBytes 8 e.panels

/-- The place of a sequence record in the 16 MiB record area: the k-th lies in slot (k − 1) mod 4 (R63). -/
def WfEpoch.recordAddr (e : WfEpoch) : Nat := eRecords e.desc + e.k % 4 * (2 * granuleBytes)

/-- The open sequence, closed: the next is empty; the last of the epoch ends it (R61). -/
def WfEpoch.closed (e : WfEpoch) : WfEpoch :=
  { e with k := e.k + 1, cur := [], tokens := 0, finished := e.windows ≤ e.pj }

/-- What stands ready until its retire value comes (R63). -/
def WfEpoch.ready (e : WfEpoch) : SeqOut :=
  { fence := eRetire e.desc, value := eBase e.desc + e.k + 1, owners := e.cur.map SeqEntry.owner,
    halves := (e.cur.map SeqEntry.half).eraseDups }

/-- The sequence is ready: `READY_FENCE` is signalled with B + k (R63). -/
def Dev.sequenceReady (d : Dev) (p : Nat) (e : WfEpoch) : Dev :=
  let d := d.setEpoch p (e.closed.pack (2 * e.samples.length + 2))
  let d := d.setWf p { d.wf p with out := (d.wf p).out ++ [e.ready] }
  ((d.engineSignal p (eReady e.desc) (eBase e.desc + e.k + 1)).1.weftRetire p).notePacker p

/-- The packer closes the open sequence: record, then `READY_FENCE`. The record is written under the key of the region that
holds it. -/
def Dev.sequenceClose (d0 : Dev) (p : Nat) : Dev :=
  match d0.epochOf p with
  | none => d0
  | some e =>
    if !d0.servingIn p ∨ !e.closeDue ∨ 4 ≤ (d0.wf p).out.length then d0
    else
      let key := ((d0.regionOf e.recordAddr).map fun n => (d0.region n).key).getD 0
      match d0.write (engineReq p key) e.recordAddr (seqRecord (e.k + 1) e.tokens (e.windows ≤ e.pj) e.cur) with
      | .fail _ .wait => d0
      | .fail d _ => d.sequenceReady p e
      | .ok d _ => d.sequenceReady p e

/-! ### Stop and reset (10 R316, Table 10-6) -/

/-- Weft releases the partition's window and drops its epoch. -/
def Dev.weftDrop (d : Dev) (p : Nat) : Dev :=
  d.setWf p { WfPart.reset with nextHalf := (d.wf p).nextHalf, serial := (d.wf p).serial }

/-- After a keeping reset every sample not in its window is fetched and decoded again. -/
def Dev.weftAgain (d : Dev) (p : Nat) : Dev :=
  d.setWf p { d.wf p with epochs := (d.wf p).epochs.map fun e =>
    { e with samples := e.samples.map fun s =>
        (s.1, s.2.map fun x => if x.st.isOver then x else Sample.blank x.ring x.seq x.desc) } }

/-- The last audio engine of a partition has gone: samples that still have audio to decode end `UNSUPPORTED` (R66). -/
def Dev.audioLost (d : Dev) (p : Nat) : Dev :=
  if d.hasEngine p true then d
  else match d.epochOf p with
    | none => d
    | some e =>
      e.samples.foldl (fun d s =>
        match d.decoding p s.1 with
        | none => d
        | some (e, x) =>
          let pr := e.profiles.getD (sProfile x.desc) 0
          if (x.audioPlan pr).all fun i => x.audio.any fun a => a.1 = i then d else d.endSample p s.1 x 0x43) d

end Sys2Proof.Machine
end

