-- ==== Sys2Proof/Machine/PleachOps.lean ====
section
/-! DEFINITION. The operations of a `PLEACH` descriptor: `RESTORE`, `DRAIN`, `RELOAD`, `EXPORT` (08 R237 to R249, R252). -/

namespace Sys2Proof.Machine

/-! ### The descriptor (Table 08-3) -/

def plFields : List (Nat × Nat) :=
  [(0, 7), (32, 32), (64, 64), (128, 32), (160, 14), (192, 64), (256, 41), (297, 12), (320, 32), (352, 32)]

def pOp (x : RingDesc) : Nat := dbyte x 16 0 2
def pLost (x : RingDesc) : Option Nat := if dbyte x 16 5 1 = 1 then some (dbyte x 16 2 3) else none
def pRebuild (x : RingDesc) : Bool := dbyte x 16 6 1 = 1
def pStep (x : RingDesc) : Nat := dbyte x 20 0 32
def pHostList (x : RingDesc) : Nat := dbyte x 24 0 64
def pHostCount (x : RingDesc) : Nat := dbyte x 32 0 32
def pFence (x : RingDesc) : Nat := dbyte x 36 0 14
def pFval (x : RingDesc) : Nat := dbyte x 40 0 64
def pRef (x : RingDesc) : Nat := dbyte x 48 0 41
def pRefKey (x : RingDesc) : Nat := dbyte x 48 41 12
def pRelease (x : RingDesc) : Nat := dbyte x 56 0 32
def pRefCount (x : RingDesc) : Nat := dbyte x 60 0 32

/-- A field breaks Table 08-3. -/
def pleachBad (x : RingDesc) : Bool :=
  !onlyFields (x.toNat >>> 128) plFields ||
    match pOp x with
    | 2 => if pRef x = 0 then pRefCount x ≠ 0 else pRefCount x = 0 || 65536 < pRefCount x
    | 3 => pRefCount x = 0 || 4096 < pRefCount x
    | _ => pRef x ≠ 0 || pRefCount x ≠ 0

/-- A transfer of `n` bytes of partition `p` from host memory goes on: link and budget, host-path Selvedge in service (10 R321, 12
R378). -/
def Dev.hostPath (d : Dev) (p n : Nat) : Bool := d.hostMay false p n && !d.fenced .selvedge 16

/-- Opcode 0x70 with operation `op`: not in the P8 model (10 R310), `PL_INVALID` first (R252). -/
def Dev.pleachRow (d : Dev) (r op : Nat) (run : Dev → Nat → Accepted → Dev) : Dev :=
  d.startNext r 0x70 (fun x => pOp x = op) fun d a =>
    let p := ringPart r
    if d.p8 then d.finish r a.seq (Verdict.of 9)
    else if pleachBad a.desc ∨ !(d.pl p).armed then d.finish r a.seq (Verdict.of 0x81)
    else if (d.pl p).op.isSome ∨ (op ≠ 0 ∧ !d.hostPath p (16 * pHostCount a.desc)) then d
    else run d p a

/-- Success: `FENCE` is signalled; a use without the right fails (R252, 10 R311, R312). -/
def Dev.pleachOk (d : Dev) (p r seq f v : Nat) : Dev :=
  let x := d.engineSignal p f v
  x.1.finish r seq (Verdict.of (if x.2 = 7 then 7 else 0))

/-! ### Restore (R238 to R244) -/

/-- The slot whose record holds the step, counted. -/
def PlPart.countedSlot (x : PlPart) (step : Nat) : Option Nat :=
  if x.gen0.counted ∧ x.gen0.step = step then some 0
  else if x.gen1.counted ∧ x.gen1.step = step then some 1 else none

/-- The member that holds unit `u` of member `g` (R223). -/
def holderOf (g u : Nat) : Nat := (g + 1 + u % 7) % 8

/-- The member whose units stand in section `j` of member `g`'s slot (R223). -/
def ownerOf (g j : Nat) : Nat := (g + 7 - j) % 8

/-- Send position `q` of section `j` of slot `k` to its owner; a bad line's unit is lost (R239, R240). -/
def Dev.sendUnit (d : Dev) (p k j q : Nat) : Dev :=
  match d.read (engineReq p (d.holdKey p)) (d.holdAddr p k j q) 4096 with
  | .fail d _ => d
  | .ok d bs => d.send p { Draft.blank with typ := 1, ch := 15, dest := d.memberSrc p (ownerOf (d.member p) j), eng := true,
                                            addr := d.holdAddr p k j q, key := d.holdKey p, len := 64, payload := bs }

/-- Send `n` positions of section `j` of slot `k` from position `q` on. -/
def Dev.sendHeld (d : Dev) (p k j n q : Nat) : Dev := (rangeFrom q n).foldl (fun d q => d.sendUnit p k j q) d

/-- Each Batten takes its sealed entries as applied and the step as committed (R242). -/
def Dev.battenRestored (d : Dev) (p step : Nat) : Dev :=
  let d := (d.battensOf p).foldl (fun d n => d.setApplied n (d.logSeq n)) d
  (d.setReg (btReg p + 0x30) (BitVec.ofNat 64 (step + 2 ^ 32))).writeControls p (d.battensOf p)

/-- Every retention area of the partition holds zero (05 R140). -/
def Dev.zeroRetained (d : Dev) (p : Nat) : Dev :=
  let r := d.fld (0x20100 + 0x40 * p) 0 6 * 0x10000
  let ls := (d.tiles.logical.filter fun e => tilePart d.parts e.1 = p).map Prod.fst
  ls.foldl (fun d l => d.setLt l { d.lt l with store := Sparse.clear (d.lt l).store (storeEnd - r) storeEnd }) d

/-- The restore ends; after one that succeeds the retention areas hold zero. -/
def Dev.endRestore (d : Dev) (p : Nat) (o : PlOp) (st : Nat) : Dev :=
  if st ≠ 0 then d.stopRestore p o st
  else
    let x := { d.pl p with op := none }
    let d := d.setPl p { x with kept := some o.step, tookOver := if o.lost.isSome then o.lost else x.tookOver }
    ((d.zeroRetained p).battenRestored p o.step).pleachOk p o.ring o.seq o.fence o.fval

/-- A unit that cannot arrive: its holder is lost, or cannot read it. -/
def PlOp.missing (o : PlOp) (g : Nat) (bad : List Nat) (u : Nat) : Bool :=
  o.left.contains u && (o.lost = some (holderOf g u) || bad.contains u)

/-- Rebuild unit `u` from its parity row and the other six units of the row (R239). -/
def Dev.rebuildUnit (d : Dev) (p k u : Nat) : Res Unit :=
  let q := u / 7
  match d.read (engineReq p (d.holdKey p)) (d.holdAddr p k 7 q) 4096 with
  | .fail d w => .fail d w
  | .ok d par =>
    match d.readUnits p ((rangeFrom (7 * q) 7).filter (· ≠ u)) with
    | .fail d w => .fail d w
    | .ok d us =>
      match unitAt (d.pl p).srcs u with
      | none => .ok d ()
      | some (a, key) => d.write (engineReq p key) a (us.foldl xorBytes par)

/-- Rebuild units in order, up to the first that fails. -/
def Dev.rebuildUnits (d : Dev) (p k : Nat) (us : List Nat) : Res Unit :=
  us.foldl (fun r u => match r with
    | .ok d _ => d.rebuildUnit p k u
    | .fail d w => .fail d w) (.ok d ())

/-- The restore ends once every unit has arrived or been rebuilt; a row with two missing units, or a missing unit of a
rebuilding spare, cannot be read (R240). -/
def Dev.restoreGoOn (d0 : Dev) (p : Nat) (o : PlOp) (bad : List Nat) (unreadable : Bool) : Dev :=
  let g := d0.member p
  let gone := o.left.filter (o.missing g bad)
  if unreadable ∨ (o.rebuild ∧ !gone.isEmpty) ∨ gone.any (fun u => gone.any fun v => u ≠ v && u / 7 = v / 7) then
    d0.endRestore p o 0x84
  else if o.left.any fun u => !gone.contains u then d0
  else match d0.rebuildUnits p o.slot gone with
    | .fail _ .wait => d0
    | .fail d w => d.endRestore p o (plStatus w)
    | .ok d _ => d.endRestore p { o with left := [] } 0

/-- A restore starts: checks, then this member's sections go to their owners. -/
def Dev.beginRestore (d : Dev) (r p : Nat) (a : Accepted) (others : Nat) : Dev :=
  let fin (c : Nat) : Dev := d.finish r a.seq (Verdict.of c)
  let lost := pLost a.desc
  let x := d.pl p
  if (d.ctx p).st ≠ .stopped then fin 0x82
  else if 2 ≤ others + b2n lost.isSome ∨ (lost.isSome ∧ x.tookOver.isSome) then fin 0x85
  else
    let o (k : Nat) : PlOp := { ring := r, seq := a.seq, slot := k, step := pStep a.desc, left := List.range x.units,
                                fence := pFence a.desc, fval := pFval a.desc, lost := lost, rebuild := pRebuild a.desc }
    let d := d.setPhase r a.seq .started
    if pRebuild a.desc then d.setPl p { x with op := some (o 2) }
    else match x.countedSlot (pStep a.desc) with
      | none => fin 0x83
      | some k =>
        (List.range 7).foldl (fun d j => d.sendHeld p k j (d.section_ p) 0) (d.setPl p { x with op := some (o k) })

/-- `RESTORE`: it starts, or, in progress, looks whether it can end. `bad` lists the units of the image that their holders
cannot read, `others` counts lost members beside `LOST`, `unreadable` says that another owner of the group cannot. -/
def Dev.restoreRow (d : Dev) (r : Nat) (bad : List Nat) (others : Nat) (unreadable : Bool) : Dev :=
  match (d.pl (ringPart r)).op with
  | some o =>
    if o.ring ≠ r ∨ !d.servingIn (ringPart r) ∨ !(d.ctxOpen (ringPart r)) then d
    else if (d.ctx (ringPart r)).st ≠ .stopped then d.endRestore (ringPart r) o 0x82
    else if 2 ≤ others + b2n o.lost.isSome then d.endRestore (ringPart r) o 0x85
    else d.restoreGoOn (ringPart r) o bad unreadable
  | none => d.pleachRow r 0 fun d p a => d.beginRestore r p a others

/-! ### Host buffers -/

/-- The entries of `HOST_LIST`, address and length; none when one breaks the layout (02 R32, log 128). -/
def Dev.hostList (d : Dev) (x : RingDesc) : Option (List (Nat × Nat)) :=
  let es := (List.range (pHostCount x)).map fun i => leNat (d.hostBytes (pHostList x + 16 * i) 16)
  if es.all fun v => bits v 96 32 = 0 then some (es.map fun v => (bits v 0 64, bits v 64 32)) else none

/-- A `PLEACH` descriptor of operation `op` whose host list is read; a bad one ends it (R252). With a transfer that does not fit
in the window nothing happens yet: `run` answers none (10 R321). -/
def Dev.withHostList (d : Dev) (r op : Nat) (run : Dev → Nat → Accepted → List (Nat × Nat) → Option Dev) : Dev :=
  d.pleachRow r op fun d p a =>
    let e := d.hostCount false p (16 * pHostCount a.desc)
    match d.hostList a.desc with
    | none => e.finish r a.seq (Verdict.of 0x81)
    | some bufs => (run e p a bufs).getD d

/-- Write bytes at offset `off` of the buffers taken as one space. -/
def Dev.scatter (d : Dev) : List (Nat × Nat) → Nat → List Byte → Dev
  | [], _, _ => d
  | (a, n) :: r, off, bs =>
    if n ≤ off then Dev.scatter d r (off - n) bs
    else Dev.scatter (d.hostWrite (a + off) (bs.take (n - off))) r 0 (bs.drop (n - off))

/-- A stream of records into the buffers: how far it has come. -/
structure Out where
  dev : Dev
  bufs : List (Nat × Nat)
  off : Nat
  status : Nat

/-- A record goes out whole, or the buffers are full (R246). -/
def Out.put (o : Out) (bs : List Byte) : Out :=
  if o.status ≠ 0 then o
  else if (o.bufs.map Prod.snd).foldl (· + ·) 0 < o.off + bs.length then { o with status := 0x86 }
  else { o with dev := o.dev.scatter o.bufs o.off bs, off := o.off + bs.length }

/-- The bytes that went out, counted; none while they do not fit in the window. -/
def Out.sent (o : Out) (p : Nat) (last : Dev → Dev) : Option Dev :=
  if o.dev.hostMay true p o.off then some (last (o.dev.hostCount true p o.off)) else none

/-! ### Drain (R245, R246) -/

/-- The drain key and the drain IV key of a partition's job (13 Table 13-2). -/
structure DrainKeys where
  key : List Nat
  iv : List Nat

def Dev.drainKeys (d : Dev) (p : Nat) : DrainKeys :=
  let x := d.rtpPart p
  let mh := Crypt.ofBytes (leBytes 48 ((x.manifest.map Manifest.mh).getD 0))
  { key := Crypt.hkdf (Crypt.secretBytes x.secret) (Crypt.ascii "LQ16-DRAIN" ++ mh) 32,
    iv := Crypt.hkdf (Crypt.secretBytes x.secret) (Crypt.ascii "LQ16-DRAINIV" ++ mh) 32 }

/-- The nonce: the first 12 bytes of SHA-512 over drain IV key, header and clear body (R245). -/
def DrainKeys.nonce (k : DrainKeys) (hd body : List Byte) : List Nat :=
  (Crypt.sha512 (k.iv ++ Crypt.ofBytes (hd ++ body))).take 12

/-- A body encrypted or decrypted. -/
def DrainKeys.crypt (k : DrainKeys) (nonce : List Nat) (bs : List Byte) : List Byte :=
  Crypt.toBytes (Crypt.gcmCrypt k.key nonce (Crypt.ofBytes bs))

/-- The tag over header and body as the record carries it. -/
def DrainKeys.tag (k : DrainKeys) (nonce : List Nat) (hd body : List Byte) : List Byte :=
  Crypt.toBytes (Crypt.gcmTag k.key nonce (Crypt.ofBytes hd) (Crypt.ofBytes body))

/-- Header of a drain record (Table 08-5). -/
def drainHeader (step src unit gen slice : Nat) : List Byte :=
  leBytes 4 0x9EAC4D01 ++ leBytes 4 step ++ leBytes 4 src ++ leBytes 4 unit ++ leBytes 4 (gen % 2 ^ 32) ++ leBytes 2 slice ++
    List.replicate 10 0

/-- A record: header, body, tag, nonce, 4 bytes of zero; a map record's body stays clear (log 128). -/
def drainRecord (k : DrainKeys) (hd body : List Byte) (clear : Bool) : List Byte :=
  let n := k.nonce hd body
  let b := if clear then body else k.crypt n body
  hd ++ b ++ k.tag n hd b ++ Crypt.toBytes n ++ leBytes 4 0

/-- The 32 bytes of a source-list entry (Table 08-1). -/
def SrcRange.bytes (r : SrcRange) : List Byte :=
  leBytes 8 (r.addr + r.key * 2 ^ 41) ++ leBytes 4 r.units ++ leBytes 4 r.tensor ++ leBytes 8 r.elemBase ++ leBytes 2 r.fmt ++
    leBytes 2 r.cols ++ leBytes 4 0

/-- Map records of slot `k`'s generation: 128 entries each, the last filled with zeros. -/
def Dev.mapRecords (d : Dev) (p k step : Nat) (key : DrainKeys) : List (List Byte) :=
  (chunksOf 128 4096 (d.pl p).srcs).zipIdx.map fun e =>
    let body := e.1.flatMap SrcRange.bytes
    let hd := drainHeader step (d.sourceId p) (2 ^ 31 + e.2) ((d.pl p).gen k).cuts (d.sliceId p)
    drainRecord key hd (body ++ List.replicate (4096 - body.length) 0) true

/-- Drain position `q` of section `j`, unless the drain has already failed. -/
def Out.unit (o : Out) (p k j step : Nat) (key : DrainKeys) (q : Nat) : Out :=
  if o.status ≠ 0 then o
  else match o.dev.read (engineReq p (o.dev.holdKey p)) (o.dev.holdAddr p k j q) 4096 with
    | .fail d w => { o with dev := d, status := plStatus w }
    | .ok d bs =>
      let src := d.memberSrc p (ownerOf (d.member p) j)
      let hd := drainHeader step src (7 * q + j) (Config.ownerGen src step) (d.sliceId p)
      ({ o with dev := d } : Out).put (drainRecord key hd bs false)

/-- Drain `n` positions of section `j` from `q`. -/
def Out.section_ (o : Out) (p k j step : Nat) (key : DrainKeys) (n q : Nat) : Out :=
  (rangeFrom q n).foldl (fun o q => o.unit p k j step key q) o

/-- The records of a drain of slot `k` into the buffers: map records, then the sections. -/
def Dev.drainOut (d : Dev) (p k step : Nat) (bufs : List (Nat × Nat)) : Out :=
  let key := d.drainKeys p
  let o : Out := { dev := d, bufs := bufs, off := 0, status := 0 }
  let o := (d.mapRecords p k step key).foldl Out.put o
  (List.range 7).foldl (fun o j => o.section_ p k j step key (d.section_ p) 0) o

/-- `DRAIN`. -/
def Dev.drainRow (d : Dev) (r : Nat) : Dev :=
  d.withHostList r 1 fun d p a bufs =>
    match (d.pl p).countedSlot (pStep a.desc) with
    | none => some (d.finish r a.seq (Verdict.of 0x83))
    | some k =>
      let o := d.drainOut p k (pStep a.desc) bufs
      o.sent p fun d =>
        if o.status = 0 then d.pleachOk p r a.seq (pFence a.desc) (pFval a.desc) else d.finish r a.seq (Verdict.of o.status)

/-! ### Reload (R247) -/

/-- A placement: old source and unit, units, destination and key index (Table 08-12). -/
structure Placement where
  src : Nat
  unit : Nat
  units : Nat
  addr : Nat
  key : Nat
  deriving DecidableEq, Repr

/-- An entry from its 32 bytes; none when it breaks the table. -/
def Dev.placement (d : Dev) (p : Nat) (bs : List Byte) : Option Placement :=
  let v := leNat bs
  let e : Placement := { src := bits v 0 19, unit := bits v 32 32, units := bits v 64 32, addr := bits v 128 41, key := bits v 169 12 }
  if onlyFields v [(0, 19), (32, 32), (64, 32), (128, 41), (169, 12)] ∧ 1 ≤ e.units ∧ e.addr % 4096 = 0 ∧ e.key ≠ 0 ∧
      (List.range (ceilDiv (e.units * 4096) granuleBytes + 1)).all
        (fun i => d.inWindow p (min (e.addr + i * granuleBytes) (e.addr + e.units * 4096 - 1))) then some e else none

def runsMeet (a n b m : Nat) : Bool := a < b + m && b < a + n

/-- Two entries overlap in their old units or in their destinations. -/
def Placement.overlaps (e f : Placement) : Bool :=
  (e.src = f.src && runsMeet e.unit e.units f.unit f.units) || runsMeet e.addr (4096 * e.units) f.addr (4096 * f.units)

def noOverlap : List Placement → Bool
  | [] => true
  | e :: es => !(es.any e.overlaps) && noOverlap es

/-- The whole list, or none when an entry breaks the table or two overlap. -/
def Dev.placements (d : Dev) (p : Nat) (bs : List (List Byte)) : Option (List Placement) :=
  match bs.mapM (d.placement p) with
  | some es => if noOverlap es then some es else none
  | none => none

/-- A record whose tag and nonce hold: its owner, its unit and whether it is a map record, and the clear body (Table 08-5). -/
structure DrainRec where
  src : Nat
  unit : Nat
  isMap : Bool
  body : List Byte

/-- A record from its 4,160 bytes: the tag verifies under the nonce that the record carries, which is the one that header and
clear body give (R247). -/
def openRecord (k : DrainKeys) (bs : List Byte) : Option DrainRec :=
  let hd := bs.take 32
  let ct := (bs.drop 32).take 4096
  let n := Crypt.ofBytes ((bs.drop 4144).take 12)
  let unit := leNat ((hd.drop 12).take 4)
  let isMap := bit unit 31
  let body := if isMap then ct else k.crypt n ct
  if k.tag n hd ct = (bs.drop 4128).take 16 ∧ k.nonce hd body = n then
    some { src := leNat ((hd.drop 8).take 4), unit := unit, isMap := isMap, body := body }
  else none

/-- The records in the host buffers, one after the other as a drain leaves them. -/
def Dev.hostRecords (d : Dev) (bufs : List (Nat × Nat)) : List (List Byte) :=
  let bs := bufs.flatMap fun e => d.hostBytes e.1 e.2
  chunksOf 4160 (bs.length / 4160) (bs.take (bs.length / 4160 * 4160))

/-- Where a record's unit goes: by the source list, or by the placement list. -/
def Dev.reloadTo (d : Dev) (p : Nat) (es : Option (List Placement)) (rec : DrainRec) : Option (Nat × Nat) :=
  match es with
  | none => if rec.src = d.sourceId p then unitAt (d.pl p).srcs rec.unit else none
  | some es => (es.find? fun e => e.src = rec.src && e.unit ≤ rec.unit && rec.unit < e.unit + e.units).map
      fun e => (e.addr + 4096 * (rec.unit - e.unit), e.key)

/-- Take the records in turn, each as its 4,160 bytes are read; the units taken, or a status. One without the magic is none. -/
def Dev.takeRecords (d : Dev) (p : Nat) (es : Option (List Placement)) (key : DrainKeys) :
    List (List Byte) → List (Nat × Nat) → Dev × Nat × List (Nat × Nat)
  | [], got => (d, 0, got)
  | bs :: xs, got =>
    let d := d.account p 3 4160
    if leNat (bs.take 4) ≠ 0x9EAC4D01 then Dev.takeRecords d p es key xs got
    else match openRecord key bs with
      | none => (d, 0x87, got)
      | some x =>
        match (if x.isMap then none else d.reloadTo p es x) with
        | none => Dev.takeRecords d p es key xs got
        | some (a, k) =>
          match d.write (engineReq p k) a x.body with
          | .fail d w => (d, plStatus w, got)
          | .ok d _ => Dev.takeRecords d p es key xs ((x.src, x.unit) :: got)

/-- The units that must have been written. -/
def Dev.reloadNeeds (d : Dev) (p : Nat) (es : Option (List Placement)) : List (Nat × Nat) :=
  match es with
  | none => (List.range (d.pl p).units).map fun u => (d.sourceId p, u)
  | some es => es.flatMap fun e => (rangeFrom e.unit e.units).map fun u => (e.src, u)

/-- The bytes that a `RELOAD` reads of its buffers. -/
def Dev.reloadCost (d : Dev) (bufs : List (Nat × Nat)) : Nat := 4160 * (d.hostRecords bufs).length

/-- The records are taken; with every unit written neither slot is counted any more. -/
def Dev.reloadWith (d : Dev) (r p : Nat) (a : Accepted) (es : Option (List Placement)) (bufs : List (Nat × Nat)) : Dev :=
  let d := d.use (hostKey false p) (d.hostTurn p (d.reloadCost bufs))
  match d.takeRecords p es (d.drainKeys p) (d.hostRecords bufs) [] with
  | (d, 0, got) =>
    if (d.reloadNeeds p es).all got.contains then
      let x := d.pl p
      let d := d.setPl p { x with gen0 := { x.gen0 with counted := false }, gen1 := { x.gen1 with counted := false } }
      let d := ([0, 1].filter fun k => (x.gen k).valid).foldl (fun d k => d.writeSlot p k) d
      d.pleachOk p r a.seq (pFence a.desc) (pFval a.desc)
    else d.finish r a.seq (Verdict.of 0x86)
  | (d, st, _) => d.finish r a.seq (Verdict.of st)

/-- `RELOAD`: the host list, then the placement list, whole before any unit is written (R247). -/
def Dev.reloadRow (d : Dev) (r : Nat) : Dev :=
  d.withHostList r 2 fun d p a bufs =>
    if !d.hostMay false p (d.reloadCost bufs) then none
    else if pRef a.desc = 0 then some (d.reloadWith r p a none bufs)
    else match d.read (engineReq p (pRefKey a.desc)) (pRef a.desc) (32 * pRefCount a.desc) with
      | .fail d w => some (d.finish r a.seq (Verdict.of (plStatus w)))
      | .ok d bs =>
        match d.placements p (chunksOf 32 (pRefCount a.desc) bs) with
        | none => some (d.finish r a.seq (Verdict.of 0x81))
        | some es => some (d.reloadWith r p a (some es) bufs)

/-! ### Export (R249, 13 R389, R407) -/

/-- The export slot of the release, with a use left, for the step. -/
def Dev.exportSlot (d : Dev) (p : Nat) (x : RingDesc) : Option Nat :=
  (d.keys.find? fun e => e.2.typ = 5 && d.keyValid p e.1 && e.2.link = pRelease x && e.2.uses ≠ 0 && e.2.step = pStep x).map Prod.fst

/-- The step is the partition's last committed one. -/
def Dev.committedIs (d : Dev) (p step : Nat) : Bool := d.fld (btReg p + 0x30) 32 1 = 1 && d.fld (btReg p + 0x30) 0 32 = step

/-- Row panels of an entry; the spec states none without a column. -/
def Dev.exportRows (d : Dev) (r : SrcRange) : Nat × Dev :=
  if r.cols = 0 then d.draw else (r.units * 4096 / (r.cols * panelBytes (fmtOf r.fmt) 0), d)

/-- Header of an export record (Table 08-13). -/
def exportHeader (step src rel ord rows : Nat) (r : SrcRange) : List Byte :=
  leBytes 4 0x9EAC4E01 ++ leBytes 4 step ++ leBytes 4 src ++ leBytes 4 r.tensor ++ leBytes 8 r.elemBase ++ leBytes 4 rows ++
    leBytes 2 r.cols ++ leBytes 1 r.fmt ++ leBytes 1 0 ++ leBytes 4 rel ++ leBytes 4 ord ++ leBytes 8 (4096 * r.units) ++
    List.replicate 16 0

/-- The record: header, panels under the export key, tag, zeros up to a multiple of 64; the nonce is `SRC`, `ORDINAL` and 4 bytes
of zero. -/
def exportRecord (secret src ord : Nat) (hd body : List Byte) : List Byte :=
  let k := Crypt.secretBytes secret
  let n := Crypt.ofBytes (leBytes 4 src ++ leBytes 4 ord ++ leBytes 4 0)
  let b := Crypt.gcmCrypt k n (Crypt.ofBytes body)
  hd ++ Crypt.toBytes b ++ Crypt.toBytes (Crypt.gcmTag k n (Crypt.ofBytes hd) b) ++
    List.replicate ((64 - (body.length + 16) % 64) % 64) 0

/-- The entries in list order. -/
def Out.tensors (o : Out) (p key : Nat) (x : RingDesc) : Nat → List SrcRange → Out
  | _, [] => o
  | i, r :: rs =>
    if o.status ≠ 0 then o
    else match o.dev.read (engineReq p r.key) r.addr (4096 * r.units) with
      | .fail d w => { o with dev := d, status := plStatus w }
      | .ok d bs =>
        let (rows, d) := d.exportRows r
        let src := d.sourceId p
        let rec_ := exportRecord key src i (exportHeader (pStep x) src (pRelease x) i rows r) bs
        Out.tensors (({ o with dev := d } : Out).put rec_) p key x (i + 1) rs

/-- `EXPORT`. -/
def Dev.exportRow (d : Dev) (r : Nat) : Dev :=
  d.withHostList r 3 fun d p a bufs =>
    match d.exportSlot p a.desc with
    | none => some (d.finish r a.seq (Verdict.of 0x88))
    | some k =>
      if !(d.committedIs p (pStep a.desc)) then some (d.finish r a.seq (Verdict.of 0x88))
      else match d.read (engineReq p (pRefKey a.desc)) (pRef a.desc) (32 * pRefCount a.desc) with
        | .fail d w => some (d.finish r a.seq (Verdict.of (plStatus w)))
        | .ok d bs =>
          match srcRanges 0 (chunksOf 32 (pRefCount a.desc) bs) with
          | .inl rs =>
            let o := Out.tensors { dev := d, bufs := bufs, off := 0, status := 0 } p (d.key k).secret a.desc 0 rs
            o.sent p fun d =>
              if o.status = 0 then (d.countUse k).pleachOk p r a.seq (pFence a.desc) (pFval a.desc)
              else d.finish r a.seq (Verdict.of o.status)
          | .inr _ => some (d.finish r a.seq (Verdict.of 0x81))

end Sys2Proof.Machine
end

