-- ==== Sys2Proof/Machine/Regions.lean ====
section
/-! DEFINITION. Key slots that stop being valid; region commands, re-encryption steps and patrol (12 R359 to R377, 13 R391). -/

namespace Sys2Proof.Machine

/-! ### Key slots (13 R391) -/

/-- A slot stops being `VALID`, entry 0x0405 with its cause. -/
def Dev.dropKey (d : Dev) (k cause : Nat) : Dev :=
  if k ≠ 0 ∧ (d.key k).valid then
    (d.setKey k { d.key k with valid := false }).record 0 0x0405 .hub 5 (some (rangePart d.parts 4096 k)) (k + cause * 2 ^ 12)
  else d

/-- So does every slot whose `JOB` names it. -/
def Dev.invalidate (d : Dev) (k cause : Nat) : Dev :=
  let ks := (d.keys.filter fun e => e.1 ≠ k && e.2.job = k && e.2.valid).map Prod.fst
  ks.foldl (fun d j => d.dropKey j 2) (d.dropKey k cause)

/-- The slot is free again; its `NEXT_EPOCH` stays. -/
def Dev.freeKey (d : Dev) (k : Nat) : Dev := if k = 0 then d else d.setKey k (KeySlot.reset k)

/-- A teardown invalidates and frees every slot of the partition but slot 0 (R391). -/
def Dev.freeKeys (d : Dev) (p : Nat) : Dev :=
  let ks := (d.keys.map Prod.fst).filter fun k => k ≠ 0 && rangePart d.parts 4096 k = p
  ks.foldl (fun d k => (d.dropKey k 3).freeKey k) d

/-! ### Region commands (R359 to R361, R365, R367) -/

/-- The region that `SV_REG_SEL` names. -/
def Dev.selRegion (d : Dev) : Nat := d.fld 0x10100 0 12

/-- The granules are all populated granules of the window of partition `p`. -/
def Dev.granulesOk (d : Dev) (p base n : Nat) : Bool :=
  n ≠ 0 && d.inWindow p (base * granuleBytes) && d.inWindow p ((base + n - 1) * granuleBytes)

/-- The region overlaps another that is live or opening. -/
def Dev.regionOverlaps (d : Dev) (n : Nat) (x : Region) : Bool :=
  d.regions.any fun e => e.1 ≠ n && (e.2.isLive || e.2.st = .opening) &&
    x.base < e.2.base + e.2.granules && e.2.base < x.base + x.granules

/-- The reason of R360 for which `OPEN` is refused, 0 for none (Table 12-7). -/
def Dev.openReason (d : Dev) (n : Nat) (x : Region) : Nat :=
  let p := d.regionPart n
  if x.st ≠ .closed then 1
  else if !(d.granulesOk p x.base x.granules) then 2
  else if d.regionOverlaps n x then 3
  else if x.key ≠ 0 ∧ (!(d.keyValid p x.key) ∨ (d.key x.key).job ≠ d.fld (0x4110 + 0x100 * p) 0 12) then 4
  else if x.key = 0 ∧ x.multi then 5
  else if x.key ≠ 0 ∧ d.nextEpoch x.key = 0xFFFFFFFF then 6
  else 0

/-- The fence and value of a command with `SIG`. -/
def Region.due_ (x : Region) (sig : Bool) (f : Nat) : Option (Nat × Nat) := if sig then some (f, x.fval) else none

def Dev.regionOpen (d : Dev) (sig : Bool) (f : Nat) : Dev :=
  d.onWrite 0x10120 (1 + 4 * b2n sig + 8 * f) fun d =>
    let n := d.selRegion
    let x := d.region n
    let r := d.openReason n x
    if r ≠ 0 then d.refuseRegion n r
    else
      let e := if x.key = 0 then 0 else d.nextEpoch x.key
      let d := if x.key = 0 then d else d.takeEpoch x.key
      d.setRegion n { x with st := .opening, secret := (d.key x.key).secret, epoch := e, prior := 0, hw := 0, due := false, taken := [], bad := 0, sig := x.due_ sig f }

/-- Every line of the granules is zero, as an opening or a scrub leaves it; a line on a fenced stack is not written (R361). The
65,536 lines written last on each stack have their counters cached (R354): they lie in the last 64 granules. -/
def Dev.zeroGranules (d : Dev) (base n : Nat) : Dev :=
  let up (a : Nat) : Bool := !d.fenced .stack (d.stackOf a)
  let d := { d with
    mem := Sparse.clearIf d.mem (base * granuleBytes) ((base + n) * granuleBytes) up
    lines := Sparse.clearIf d.lines (base * 16384) ((base + n) * 16384) fun l => up (128 * l)
    sv := { d.sv with latent := Sparse.clearIf d.sv.latent (base * 16384) ((base + n) * 16384) fun l => up (128 * l) } }
  (rangeFrom (base + (n - min n 64)) (min n 64)).foldl
    (fun (d : Dev) g => if d.fenced .stack (d.stackOf (g * granuleBytes)) then d else d.touchRun (g * 16384) 16384) d

/-- A granule of the region lies on a fenced stack. -/
def Dev.onFencedStack (d : Dev) (x : Region) : Bool :=
  (List.range (min x.granules 16)).any fun i => d.fenced .stack (d.stackOf ((x.base + i) * granuleBytes))

/-- The opening region has zeroed every line; with a stack out of service it is lost. -/
def Dev.regionOpenDone (d : Dev) (n : Nat) : Dev :=
  let x := d.region n
  if !d.serving ∨ !d.memReady (d.regionPart n) ∨ x.st ≠ .opening then d
  else if d.onFencedStack x then d.setRegion n { x with st := .lost, sig := none }
  else ((d.zeroGranules x.base x.granules).setRegion n { x with st := .live, sig := none }).regionSignal n x.sig

def Dev.regionClose (d : Dev) (sig : Bool) (f : Nat) : Dev :=
  d.onWrite 0x10120 (2 + 4 * b2n sig + 8 * f) fun d =>
    let n := d.selRegion
    let x := d.region n
    if x.st = .closed ∨ x.st = .closing then d.refuseRegion n 8
    else d.setRegion n { x with st := .closing, taken := [], due := false, sig := x.due_ sig f }

def Dev.regionCloseDone (d : Dev) (n : Nat) : Dev :=
  let x := d.region n
  if !d.serving ∨ !d.memReady (d.regionPart n) ∨ x.st ≠ .closing then d
  else ((d.zeroGranules x.base x.granules).setRegion n { x with st := .closed, sig := none }).regionSignal n x.sig

/-- A teardown scrubs and returns every region of the partition (R361). -/
def Dev.returnRegions (d : Dev) (p : Nat) : Dev :=
  let ns := (d.regions.map Prod.fst).filter fun n => d.regionPart n = p && (d.region n).st ≠ .closed
  ns.foldl (fun d n =>
    let x := d.region n
    (d.zeroGranules x.base x.granules).setRegion n { x with st := .closed, taken := [], due := false, sig := none }) d

/-- A region with a granule on a stack that is fenced is lost; the context that owns it receives a C3 entry (09 Table 09-3). -/
def Dev.loseRegions (d : Dev) (k : Nat) : Dev :=
  let on (x : Region) : Bool := (List.range (min x.granules 16)).any fun i => d.stackOf ((x.base + i) * granuleBytes) = k
  let ns := (d.regions.filter fun e => e.2.st ≠ .closed && e.2.st ≠ .lost && on e.2).map Prod.fst
  ns.foldl (fun d n => d.setRegion n { d.region n with st := .lost, taken := [], due := false, sig := none }) d

/-! ### Re-encryption (R367 to R371) -/

def Dev.reencrypt (d : Dev) (sig : Bool) (f : Nat) : Dev :=
  d.onWrite 0x10120 (3 + 4 * b2n sig + 8 * f) fun d =>
    let n := d.selRegion
    let x := d.region n
    if x.st ≠ .live ∨ x.key = 0 then d.refuseRegion n 7 else d.startReencrypt n (x.due_ sig f)

/-- The lowest step of the region on stack `k` that is not taken. -/
def Dev.nextStep (d : Dev) (x : Region) (k : Nat) : Option Nat :=
  (List.range (x.granules * 32)).find? fun i => !x.taken.contains i && d.stackOf ((x.base + i / 32) * granuleBytes) = k

/-- A stack's Selvedge takes its next step of the region in turn. -/
def Dev.reencryptStep (d : Dev) (n k : Nat) : Dev :=
  if !d.serving ∨ d.power.stepBufs.contains k ∨ d.unready .stack k ∨ d.fenced .stack k ∨ d.fenced .selvedge k then d
  else match d.nextStep (d.region n) k with
    | some i => d.takeStep n i
    | none => d

/-- A write to address `a` is about to reach a step not taken. -/
def Dev.stepForced (d : Dev) (a : Nat) : Dev :=
  match d.regionOf a with
  | some n => if d.servingIn (d.regionPart n) then d.forceStep n (a / 128) else d
  | none => d

/-! ### Patrol (R374, R375, R377) -/

/-- Patrol reads line `l` of region `n`; what it meets beside the state's own record is told with the row (R377). -/
def Dev.patrolFinds (d : Dev) (n l : Nat) (f : LineFound) : Dev :=
  let m := d.lineMeta (d.region n) l
  let p := d.regionPart n
  if m.failsUnder (d.region n) l m.key (d.key m.key).secret then d.badLine n l p m.key (m.bad && m.ecc) true
  else (d.meetLine n l p m.key (if f = .good then d.latent l else f) true).1

/-- Patrol reads a line of an `OPEN` region; it skips one that is re-encrypting (R373). -/
def Dev.patrol (d : Dev) (a : Nat) (f : LineFound) : Dev :=
  match d.regionOf a with
  | some n =>
    if d.servingIn (d.regionPart n) ∧ d.populated a ∧ (d.region n).st = .live then
      ((d.bump 0x10050 1).touch (a / 128)).patrolFinds n (a / 128) f
    else d
  | none => d

end Sys2Proof.Machine
end

