-- ==== Sys2Proof/Machine/Picks.lean ====
section
/-! DEFINITION. Picks: start, write-aside reservation, fence waits, commit, suspicion, replay and majority, the answer to a GET
(03 R96 to R104, 09 R262 to R266, 10 R301 to R305, 07 R207). -/

namespace Sys2Proof.Machine

/-! ### Choosing a slot (10 R301, R310) -/

/-- Positions of the ready slots of context `ctx`, or of every context. -/
def LTile.ready (x : LTile) (ok : Slot → Bool) : List Nat :=
  (List.range x.slots.length).filter fun i =>
    match x.slots[i]? with
    | some s => s.wait.isNone && ok s
    | none => false

/-- The first of the highest priority: the slots stand in round-robin order. -/
def Dev.bestSlot (d : Dev) (l : Nat) (is : List Nat) : Option Nat :=
  let pr (i : Nat) : Nat := (((d.lt l).slots[i]?).map fun s => d.ringPrio s.ring).getD 0
  is.foldl (fun best i =>
    match best with
    | none => some i
    | some b => if pr b < pr i then some i else some b) none

/-- The P8 context the tile runs next: the current one for at least `QUANTUM`, then the next resident context with a ready
part in round-robin order. -/
def Dev.p8Next (d : Dev) (l : Nat) : Nat :=
  let x := d.lt l
  let held : Bool := (d.ctx x.cur).resident && d.now < x.since + d.fld 0x4008 0 16 * 1000
  if x.cur ≠ 0 ∧ held then x.cur
  else
    let cs := ((x.ready fun s => (d.ctx s.ctx).resident).filterMap fun i => (x.slots[i]?).map Slot.ctx)
    let up := cs.filter fun c => x.cur < c
    let least (l : List Nat) : Option Nat := l.foldl (fun b c => match b with
      | none => some c
      | some b => some (min b c)) none
    match least up with
    | some c => c
    | none => (least cs).getD x.cur

/-- The image of tile `l` in the save area of P8 context `c`: 4 MiB per tile, the store byte for byte (R76, 10 R482). -/
def Dev.saveImage (d : Dev) (c l : Nat) : Nat := bits (d.ctx c).save 0 41 + 0x400000 * l

/-- Bytes of the working area: `TL_RETAIN` is 0 in the P8 model. -/
def workingBytes : Nat := storeEnd - 0x10000

def Dev.saveReq (d : Dev) (c : Nat) : Req := engineReq (ctxPart c) (bits (d.ctx c).save 41 12)

def Dev.savedTile (d : Dev) (c l : Nat) : Option SavedTile := Sparse.get (fun _ => none) d.tiles.saved (c * 1024 + l)

def Dev.setSaved (d : Dev) (c l : Nat) (x : SavedTile) : Dev :=
  { d with tiles := { d.tiles with saved := Sparse.set (fun _ => none) d.tiles.saved (c * 1024 + l) (some x) } }

/-- The outgoing P8 context's working area and table sets go to its save area (R76). A refused write leaves the image as it
was. -/
def Dev.saveTile (d : Dev) (l : Nat) : URes Unit :=
  let x := d.lt l
  if x.cur = 0 then .ok d ()
  else
    let d1 := d.setSaved x.cur l { sets := x.sets, segs := x.segs, base := x.base, step := x.step }
    match d1.write (d.saveReq x.cur) (d.saveImage x.cur l + 0x10000) (x.bytes 0x10000 workingBytes) with
    | .ok d _ => .ok d ()
    | .fail _ .wait => .hold
    | .fail d _ => .ok d ()

/-- The tile takes up the state of P8 context `c`: its image as it was saved, an empty store the first time. -/
def Dev.loadTile (d : Dev) (l c : Nat) : URes Unit :=
  let x : LTile := { d.lt l with cur := c, since := d.now, store := [], sets := [], segs := [], base := 0, step := 0 }
  match d.savedTile c l with
  | none => .ok (d.setLt l x) ()
  | some n =>
    (d.read (d.saveReq c) (d.saveImage c l + 0x10000) workingBytes).unit.bind fun d bs =>
      .ok (d.setLt l ({ x with sets := n.sets, segs := n.segs, base := n.base, step := n.step }.setBytes 0x10000 bs)) ()

/-- The tile store passes from its P8 context to `c`: working area and table sets are saved and restored (R76). -/
def Dev.p8Switch (d : Dev) (l c : Nat) : URes Unit :=
  if (d.lt l).cur = c then .ok d () else (d.saveTile l).bind fun d _ => d.loadTile l c

/-! ### Start (R98, R102) -/

/-- Whether the tile can begin a pick at all. -/
def Dev.tileReady (d : Dev) (l : Nat) : Bool :=
  d.servingIn (tilePart d.parts l) && (d.lt l).pick.isNone && (d.lt l).replay.isNone && (d.lt l).undo.isNone && !d.tap.halted.contains l &&
    match d.physOf l with
    | some t => !d.unready .die (tileDie t) && !d.unready .tile t && d.tileState t ≠ 4 && d.tileState t ≠ 5 && d.tileState t ≠ 7 && d.leavingFor t ≠ 2
    | none => false

/-- The pick that `cp` describes starts in slot `i`. -/
def Dev.beginPick (d : Dev) (l i : Nat) (s : Slot) (cp : CutPick) : Dev :=
  let x := d.lt l
  let ip := d.inPlaceLines cp.cut
  let n := (x.serial + 1) % 2 ^ 16
  let p : Pick := { slot := i, serial := n, op := s.op, unit := s.unit, pieces := cp.cut.pieces, whole := cp.cut.pieces, close := cp.close, nextOp := cp.op,
                    nextUnit := cp.unit, inPlace := ip, reserved := ip.isEmpty, saved := [], shadow := [], sets0 := x.sets,
                    segs0 := x.segs, base0 := x.base, step0 := x.step, carry0 := s.carry, sigs := [], sent := [], all16 := [],
                    sat := 0, nanint := 0, steps := 0, unchecked := 0, suspect := none, start := d.now, askedAt := d.now, held := none }
  (d.setLt l { x with pick := some p, serial := n }).showState l 2

/-- Start from slot `i`: cut the list from where the slot stands; a list that stands at an `FWAIT` or an invalid op gives no
pick (R96, R104). -/
def Dev.startSlot (d : Dev) (l i : Nat) : Dev :=
  match (d.lt l).slots[i]? with
  | none => d
  | some s =>
    let (d, cp) := d.cutOps s.ctx s.list s.key 65537 s.op s.unit Cut.empty
    let d := d.partOutcome s.ring s.seq l .begun
    if cp.cut.pieces.isEmpty then
      match cp.close with
      | .fwait f v =>
        (d.setLt l { d.lt l with slots := modifyAt (fun s => { s with op := cp.op, unit := 0, wait := some (f, v) }) (d.lt l).slots i }).restState l
      | .bad op st => (d.endPart l i (.failed st op op)).restState l
      | _ => d
    else d.beginPick l i s cp

/-- The slot that the tile serves next, among those of context `c` in the P8 model. -/
def Dev.nextSlot (d : Dev) (l c : Nat) : Option Nat :=
  d.bestSlot l ((d.lt l).ready fun s => (d.ctx s.ctx).st = .opened && (!d.p8 || s.ctx = c))

/-- The tile takes its next pick (R301). In the P8 model its store passes to the pick's context first; where that context's
image is refused, its part fails as an op that met the refusal. In-place lines still to be restored come first (R304). -/
def Dev.pickStart (d : Dev) (l : Nat) : Dev :=
  let d := d.undoAside l
  if !(d.tileReady l) then d
  else
    let c := if d.p8 then d.p8Next l else 0
    match d.nextSlot l c with
    | none => d
    | some i =>
      match (if d.p8 then d.p8Switch l c else .ok d ()) with
      | .ok d _ => d.startSlot l i
      | .hold => d
      | .fail d st =>
        let op := (((d.lt l).slots[i]?).map Slot.op).getD 0
        (d.endPart l i (.failed st op op)).restState l

/-! ### Write-aside (10 R305) -/

def Dev.asideReserve (d : Dev) (l : Nat) : Dev :=
  match (d.lt l).pick, d.runCtx l with
  | some p, some ctx =>
    if p.reserved ∨ d.asideArea ctx < d.asideUsed ctx + p.asideBytes then d
    else
      let d := (d.setAside ctx (d.asideUsed ctx + p.asideBytes)).endAsk ctx p
      d.modPickOf l fun p => { p with reserved := true }
  | _, _ => d

/-! ### Fence waits (R96) -/

/-- The wait of slot `i` ends when its fence holds the value; a wait that fails ends the part. -/
def Dev.waitSlot (d : Dev) (l i : Nat) : Dev :=
  match (d.lt l).slots[i]? with
  | none => d
  | some s =>
    match s.wait with
    | none => d
    | some (f, v) =>
      match d.waitFence s.ctx f v with
      | .notYet => d
      | .fails st => d.endPart l i (.failed st s.op s.op)
      | .ready => d.setLt l { d.lt l with slots := modifyAt (fun s => { s with op := s.op + 1, unit := 0, wait := none }) (d.lt l).slots i }

/-- Between picks, every part of the tile at an `FWAIT` looks at its fence. -/
def Dev.fwaitRow (d : Dev) (l : Nat) : Dev :=
  if !d.servingIn (tilePart d.parts l) ∨ (d.lt l).pick.isSome ∨ (d.lt l).replay.isSome then d
  else ((List.range (d.lt l).slots.length).reverse.foldl (fun d i => d.waitSlot l i) d).restState l

/-! ### Commit (R100, R103 order of 10 R303) -/

def Dev.applySigs (d : Dev) (ctx : Nat) : List (Nat × Nat) → Dev
  | [] => d
  | (f, v) :: r => Dev.applySigs (d.engineSignal ctx f v).1 ctx r

/-- What a slot holds after its pick: where the next pick begins, what it waits for. -/
def Slot.after (s : Slot) (p : Pick) : Slot :=
  { s with op := p.nextOp, unit := p.nextUnit, carry := if p.nextUnit = 0 then Carry.blank else s.carry,
           wait := match p.close with
             | .fwait f v => some (f, v)
             | _ => none }

/-- The slot just served goes last (R301). -/
def rotateSlot (i : Nat) (ss : List Slot) : List Slot :=
  match ss[i]? with
  | some s => ss.eraseIdx i ++ [s]
  | none => ss

/-- The pick of slot `i` commits: journal line, signals, COMMITs, write-aside released, counters. -/
def Dev.commitPick (d : Dev) (l : Nat) (p : Pick) (s : Slot) : Dev :=
  let x := d.lt l
  let q := ctxPart s.ctx
  let d := d.setLt l { (x.addOvf p.sat p.nanint) with
                       pick := none, slots := rotateSlot p.slot (modifyAt (fun s => s.after p) x.slots p.slot) }
  let d := ((d.bump (0x20108 + 0x40 * q) 1).bump (0x20118 + 0x40 * q) p.steps).bump (0x8120 + 0x80 * q) p.unchecked
  let d := ((d.account s.ctx 1 1).account s.ctx 0 (d.now - p.start)).traceEvent 1 l
  let d := ((d.applySigs s.ctx p.sigs).closeMessages s.ctx l 6 p).releaseAside s.ctx p
  let i := (d.lt l).slots.length - 1
  (match p.close with
    | .atEnd => d.endPart l i .ended
    | .bad op st => d.endPart l i (.failed st op op)
    | _ => d).restState l

/-! ### What a run's checks see (09 R255, R258, R259, R262) -/

/-- Ops whose results are recomputed in part. -/
def spotOp (c : Nat) : Bool := [0x10, 0x11, 0x12, 0x20, 0x21, 0x30, 0x31, 0x32].contains c

/-- Ops with paired conversions. -/
def convOp (c : Nat) : Bool := spotOp c || c = 0x01 || c = 0x40 || c = 0x41

/-- `ROWS` of `CP_SPOT` of partition `q`. -/
def Dev.spotCount (d : Dev) (q : Nat) : Nat :=
  match d.fld (0x8100 + 0x80 * q) 0 2 with
  | 0 => 1
  | 1 => 2
  | _ => 4

/-- Row or column `r` of each unit is recomputed, lane l of it in checking lane (l + 17) mod 64 (R259). -/
def Dev.spotRow (d : Dev) (q serial r : Nat) : Bool := r < 64 && (r + serial) % (64 / d.spotCount q) = 0

/-- Place of an error's cause in the list of R262. -/
def errorPlace : PickError → Nat
  | .checksum => 0
  | .spot _ => 1
  | .conversion => 2
  | .pair => 3
  | .store => 4

/-- A check of the run meets the error: the pick has an op with that check, and a spot comparison covers the row. -/
def Dev.sees (d : Dev) (q : Nat) (p : Pick) : PickError → Bool
  | .checksum => p.whole.any fun x => oCode x.desc = 0x01
  | .spot r => (p.whole.any fun x => spotOp (oCode x.desc)) && d.spotRow q p.serial r
  | .conversion => p.whole.any fun x => convOp (oCode x.desc)
  | .pair => true
  | .store => true

/-- The cause for which the pick is suspect: found while it ran, or by the check that meets `err`. -/
def Dev.causeOf (d : Dev) (q : Nat) (p : Pick) (err : Option PickError) : Option Nat :=
  match p.suspect with
  | some c => some c
  | none => err.bind fun e => if d.sees q p e then some (Config.suspectCause (errorPlace e) % 32) else none

/-! ### Suspicion (09 R262, R263) -/

/-- The GETs of a pick's pieces are sent for a replay run. -/
def Dev.runGets (d : Dev) (ctx l serial : Nat) (ps : List Piece) : Dev :=
  (ps.filter fun q => oCode q.desc = 0x52).foldl (fun d q =>
    (rangeFrom q.first q.count).foldl (fun d u =>
      if d.canSend ctx q.desc && !outsideStore q.desc u then d.sendGets ctx l serial q.op q.desc u else d) d) d

/-- A replay run begins on tile `t` under a new serial. -/
def Dev.startRun (d : Dev) (ctx l : Nat) (r : Replay) (t : Nat) : Dev :=
  let n := ((d.lt l).serial + 1) % 2 ^ 16
  (d.setLt l { d.lt l with serial := n, replay := some { r with on := r.on ++ [(t, n)] } }).runGets ctx l n r.pick.whole

/-- A run begins on each of the tiles. -/
def Dev.startRuns (d : Dev) (ctx l : Nat) (ts : List Nat) : Dev :=
  ts.foldl (fun d t => match (d.lt l).replay with
    | some r => d.startRun ctx l r t
    | none => d) d

/-- Two permitted spares, or one, claimed for the replay of a pick of tile `a`; without a spare a run falls on `a` (R263, R266). -/
def Dev.claim (d : Dev) (a : Nat) : Dev × List Nat :=
  match d.spareFor a with
  | none => (d, [a])
  | some b =>
    let d := d.setTileState b 2
    match d.spareFor a with
    | none => (d, [b])
    | some c => (d.setTileState c 2, [b, c])

/-- The pick as a replay run begins it. -/
def Pick.again (p : Pick) (cause : Nat) : Pick :=
  { p with pieces := p.whole, suspect := some cause, reserved := false, saved := [], shadow := [], sigs := [], sent := [],
           all16 := [], sat := 0, nanint := 0, steps := 0, unchecked := 0 }

/-- The pick of tile `l` becomes suspect: abandoned on its tile, replayed on others. -/
def Dev.suspect (d : Dev) (l cause : Nat) : Dev :=
  match (d.lt l).pick, d.physOf l, d.runCtx l with
  | some p, some a, some ctx =>
    let d := (d.bump (0x8108 + 0x80 * ctxPart ctx) 1).abandonPick l
    let (d, on) := d.claim a
    let r : Replay := { pick := p.again cause, first := a, on := [], runs := [], got := [] }
    ((d.setLt l { d.lt l with replay := some r }).startRuns ctx l on).showState l 4
  | _, _, _ => d

/-- An op of the pick of tile `l` is refused: a pick already suspect is replayed, any other fails (R262, 03 R104). -/
def Dev.stopPick (d : Dev) (l st op : Nat) : Dev :=
  match (d.lt l).pick.bind Pick.suspect with
  | some c => d.suspect l c
  | none => d.failPick l st op

/-- A pick whose units have run: suspect, or committed once no GET is outstanding. -/
def Dev.pickCommit (d : Dev) (l : Nat) (err : Option PickError) : Dev :=
  match (d.lt l).pick, d.runCtx l with
  | some p, some ctx =>
    if !p.pieces.isEmpty ∨ !d.mayRun ctx l p then d
    else match d.causeOf (ctxPart ctx) p err with
      | some c => d.suspect l c
      | none =>
        match (d.lt l).slots[p.slot]? with
        | some s => d.commitPick l p s
        | none => d
  | _, _ => d

/-! ### Op rows -/

/-- The head piece of tile `l`'s pick runs when it is the op `code` (03 R68). -/
def Dev.opRow (d : Dev) (l code : Nat) : Dev :=
  match (d.lt l).pick, d.runCtx l with
  | some p, some ctx =>
    match p.pieces with
    | [] => d
    | q :: qs =>
      if oCode q.desc ≠ code ∨ !d.mayRun ctx l p then d
      else match d.runUnits ctx l q.op q.desc q.count q.first with
        | .hold => d
        | .fail d st => d.stopPick l st q.op
        | .ok d _ => d.modPickOf l fun p => { p with pieces := qs }
  | _, _ => d

/-! ### Digests (09 R262) -/

/-- An output as 64-bit words: its kind and place, then its bytes. How an output is laid out in words, and how the counter hash is
folded over them, is the model's choice (assumption log 131). -/
def Held.words : Held → List Nat
  | .line k a bs => (a + k * 2 ^ 41) :: leWords 8 bs
  | .store t a bs => (a + t * 2 ^ 41 + 2 ^ 62) :: leWords 8 bs
  | .msg typ ch dest a k n bs => (typ + ch * 2 ^ 8 + dest * 2 ^ 16 + n * 2 ^ 48) :: (a + k * 2 ^ 41) :: leWords 8 bs
  | .sig f v => [f + 2 ^ 63, v]

/-- The counter hash folded over every output of the run, in op-list order. -/
def digestOf (outs : List (Nat × Held)) : BitVec 64 :=
  (outs.flatMap fun o => o.2.words).foldl (fun h w => counterHash h.toNat w 0 0) 0

/-! ### A replay run (09 R263) -/

/-- Byte `i` with bits `m` inverted. -/
def flipByte (i : Nat) (m : BitVec 8) (bs : List Byte) : List Byte := modifyAt (· ^^^ m) bs i

/-- An output with bits of one of its bytes inverted; a signal's value is taken as eight bytes. -/
def Held.flip (i : Nat) (m : BitVec 8) : Held → Held
  | .line k a bs => .line k a (flipByte i m bs)
  | .store t a bs => .store t a (flipByte i m bs)
  | .msg typ ch dest a k n bs => .msg typ ch dest a k n (flipByte i m bs)
  | .sig f v => .sig f (leNat (flipByte i m (leBytes 8 v)))

/-- The outputs that a run holds. -/
def Pick.outs (p : Pick) : List (Nat × Held) := (p.held.map Prod.snd).getD []

/-- The pieces of a replay run in order; the op and status at which it is refused, if it is. None while a line counter keeps it
waiting (12 R372). -/
def Dev.runPieces (d : Dev) (ctx l : Nat) : List Piece → Option (Dev × Option (Nat × Nat))
  | [] => some (d, none)
  | q :: qs =>
    match (d.modPickOf l fun p => { p with held := p.held.map fun h => (q.op, h.2) }).runUnits ctx l q.op q.desc q.count q.first with
    | .ok d _ => Dev.runPieces d ctx l qs
    | .fail d st => some (d, some (q.op, st))
    | .hold => none

/-- The outputs and signals of a run with the error that no check sees. -/
def Pick.upset (p : Pick) : RunFault → Pick
  | .silent i b m =>
    { p with held := p.held.map fun h => (h.1, modifyAt (fun o => (o.1, o.2.flip b m)) h.2 i) }
  | _ => p

/-- An injection of kind 10 changes the digest of the run on tile `t` (R287). -/
def Dev.injectDigest (d : Dev) (t : Nat) (x : BitVec 64) : Dev × BitVec 64 :=
  if d.armedFor 10 .tile t then (d.injected .tile t, x ^^^ 1) else (d, x)

/-- How a run ends: an error that a check has seen, a refusal at an op, or its digest. -/
def runEnd (suspect : Bool) (refused : Option (Nat × Nat)) (x : BitVec 64) : RunEnd :=
  if suspect then .failed x
  else match refused with
    | some (op, st) => .refusedAt op st
    | none => .passed x

/-- The tile's state after the run, held until the pick commits. -/
def LTile.ran (x : LTile) (p : Pick) : Ran :=
  { pick := p, store := x.store, sets := x.sets, segs := x.segs, base := x.base, step := x.step,
    carry := ((x.slots[p.slot]?).map Slot.carry).getD Carry.blank }

/-- The replay run of tile `l`'s pick on tile `t`, numbered `serial`: the whole pick from the committed state with every output
held, then the tile as it was. None while it has to wait. -/
def Dev.replayRun (d : Dev) (ctx l : Nat) (r : Replay) (t serial : Nat) (f : RunFault) : Option (Dev × Run) :=
  let x := d.lt l
  let a := d.physOf l
  let p := { r.pick with serial := serial, suspect := none, held := some (r.pick.op, []) }
  match ((d.setMap l (some t)).setLt l { x with pick := some p }).runPieces ctx l r.pick.whole with
  | none => none
  | some (d, refused) =>
    let y := d.lt l
    let q := (y.pick.getD p).upset f
    let err := match f with
      | .seen e => some e
      | _ => none
    let (d, g) := ((d.setLt l x).setMap l a).injectDigest t (digestOf q.outs)
    let e := runEnd (d.causeOf (ctxPart ctx) q err).isSome refused g
    some (d, { tile := t, serial := serial, fin := e, ran := if refused.isSome then none else some (y.ran q) })

/-! ### Majority (R263 to R266) -/

/-- A run's end as far as it counts for the majority. -/
def agree : RunEnd → RunEnd → Bool
  | .passed a, .passed b => a = b
  | .refusedAt o s, .refusedAt o' s' => o = o' && s = s'
  | _, _ => false

/-- The first run that another agrees with. -/
def majority : List Run → Option Run
  | [] => none
  | r :: rs => if rs.any fun q => agree r.fin q.fin then some r else majority rs

/-- The day an event stamped now belongs to: half-open windows of `PV_TIME` (R11, 15 R455). -/
def dayOf (ns : Nat) : Nat := ns / 86400000000000

/-- Stamps of suspect picks whose first tile was `t`, and whether this one is the third within 24 hours (R265). -/
def Dev.noteSuspect (d : Dev) (t : Nat) : Dev × Bool :=
  let l := (Sparse.get (fun _ => []) d.tiles.suspects t).filter fun s => dayOf s = dayOf d.now
  ({ d with tiles := { d.tiles with suspects := Sparse.set (fun _ => []) d.tiles.suspects t (d.now :: l) } }, 2 ≤ l.length)

/-- A tile goes to test out of turn; one that carries a logical tile does so once a spare has taken it over. -/
def Dev.testOutOfTurn (d : Dev) (t : Nat) : Dev :=
  if (d.logicalOf t).isSome then (d.setLeaving t (if d.fenced .tile t then 2 else 1)).replaceTile t true else d.beginTest t

/-- Fence a tile of a settled pick without a test (reason 6). -/
def Dev.fenceTile (d : Dev) (t : Nat) : Dev :=
  let d := d.markFenced .tile t 6
  if (d.logicalOf t).isSome then (d.setLeaving t 2).replaceTile t true else d.setTileState t 7

/-- The run failed its check, or its outputs are not those committed under digest `won` (R265). -/
def RunEnd.errs (won : Option (BitVec 64)) : RunEnd → Bool
  | .failed _ => true
  | .passed x => won.any fun w => w ≠ x
  | .refusedAt _ _ => won.isSome

/-- A run tile is free again: to test when its run erred, else a spare, unless it carries a logical tile or is fenced. -/
def Dev.releaseTile (d : Dev) (r : Replay) (won : Option (BitVec 64)) (t : Nat) : Dev :=
  if r.runs.any fun e => e.tile = t && e.fin.errs won then d.testOutOfTurn t
  else if (d.logicalOf t).isSome ∨ d.fenced .tile t then d else d.setTileState t 6

/-- After the pick is settled, committed under digest `won` if it was: every tile of its runs is released, the first tile is
tested, or fenced at its third suspect pick (R263, R265). -/
def Dev.releaseTiles (d : Dev) (r : Replay) (won : Option (BitVec 64)) : Dev :=
  let (d, third) := d.noteSuspect r.first
  let others := ((r.runs.map Run.tile) ++ r.on.map Prod.fst).eraseDups.filter fun t => t ≠ r.first
  let d := others.foldl (fun d t => d.releaseTile r won t) d
  if third then d.fenceTile r.first else d.testOutOfTurn r.first

/-- `DETAIL` of entries 0x0301 and 0x0302. -/
def Replay.detail (r : Replay) (l : Nat) : Nat :=
  l + r.pick.serial * 2 ^ 10 + r.runs.length * 2 ^ 26 + (r.pick.suspect.getD 0) % 32 * 2 ^ 30

/-- The pick is settled as failed, at `op` with `st`; no output of it takes effect. -/
def Dev.replayFailed (d : Dev) (l : Nat) (r : Replay) (st op : Nat) : Dev :=
  let d := d.setLt l { d.lt l with replay := none }
  ((d.endPart l r.pick.slot (.failed st r.pick.op op)).releaseTiles r none).restState l

/-- Tile `b` of a replay carries the logical tile from now on; a spare claimed as in R78 replaces the first tile (R263). -/
def Dev.carryOver (d : Dev) (l first b : Nat) : Dev :=
  let d := d.setMap l (some b)
  let d := if b = first then d else d.bump (0x20128 + 0x40 * tilePart d.parts l) 1
  if d.fenced .tile b then d.setLeaving b 2 else d

/-- A held write whose key slot has stopped being `VALID`: its op, key index and address (12 R358). -/
def Dev.staleWrite (d : Dev) (ctx : Nat) : List (Nat × Held) → Option (Nat × Nat × Nat)
  | [] => none
  | (op, .line k a _) :: r => if d.keyValid (ctxPart ctx) k then Dev.staleWrite d ctx r else some (op, k, a)
  | _ :: r => Dev.staleWrite d ctx r

/-- The held outputs take effect in order, writes without a further check; the signals follow with the commit. -/
def Dev.applyHeld (d : Dev) (ctx l serial : Nat) : List (Nat × Held) → Res Unit
  | [] => .ok d ()
  | (_, .line k a bs) :: r =>
    match d.putLines (tileReq ctx k) a bs with
    | .ok d _ => Dev.applyHeld d ctx l serial r
    | .fail d .wait => .fail d .wait
    | .fail d _ => Dev.applyHeld d ctx l serial r
  | (_, .store t a bs) :: r => Dev.applyHeld (d.setLt t ((d.lt t).setBytes a bs)) ctx l serial r
  | (_, .msg typ ch dest a k n bs) :: r =>
    Dev.applyHeld (d.send (ctxPart ctx) { Draft.blank with typ := typ, ch := ch, dest := dest, addr := a, key := k, len := n,
                                                           payload := bs, tile := l, serial := serial }) ctx l serial r
  | (_, .sig _ _) :: r => Dev.applyHeld d ctx l serial r

/-- The signals of a pick that commits from held outputs. -/
def heldSigs (outs : List (Nat × Held)) : List (Nat × Nat) :=
  outs.filterMap fun o => match o.2 with
    | .sig f v => some (f, v)
    | _ => none

/-- The logical tile takes the state that the run has computed, and its pick is about to commit. -/
def LTile.takeRan (x : LTile) (n : Ran) : LTile :=
  { x with replay := none, store := n.store, sets := n.sets, segs := n.segs, base := n.base, step := n.step,
           pick := some { n.pick with held := none, suspect := none, sigs := heldSigs n.pick.outs },
           slots := modifyAt (fun s => { s with carry := n.carry }) x.slots n.pick.slot }

/-- The pick commits from run `b` (R263); a held write whose key slot has stopped being `VALID` fails it (12 R358). None while a
line counter keeps it waiting. -/
def Dev.replayCommit (d : Dev) (ctx l : Nat) (r : Replay) (s : Slot) (b : Run) : Option Dev :=
  match b.ran with
  | none => some d
  | some n =>
    match d.staleWrite ctx n.pick.outs with
    | some (op, k, a) => some ((d.refuse (tileReq ctx k) a true false).replayFailed l r 0x53 op)
    | none =>
      match d.applyHeld ctx l b.serial n.pick.outs with
      | .fail _ _ => none
      | .ok d _ =>
        let d := d.carryOver l r.first b.tile
        let x := (d.lt l).takeRan n
        let d := (d.setLt l x).record 1 0x0301 .tile r.first (some (ctxPart ctx)) (r.detail l)
        match x.pick with
        | none => some d
        | some p =>
          some (((d.commitPick l p s).bump (0x8110 + 0x80 * ctxPart ctx) 1).releaseTiles r
            (match b.fin with
              | .passed w => some w
              | _ => none))

/-- Three runs and no majority (R264): the logical tile stays on the first run's tile with its committed state. -/
def Dev.unresolved (d : Dev) (ctx l : Nat) (r : Replay) : Dev :=
  let b := (r.runs.head?.map Run.tile).getD r.first
  let d := (d.carryOver l r.first b).setLt l { d.lt l with replay := none }
  let d := (d.endPart l r.pick.slot (.failed 0x59 r.pick.op r.pick.op)).bump (0x8118 + 0x80 * ctxPart ctx) 1
  ((d.recordC3 0x0302 ctx (r.detail l)).releaseTiles r none).restState l

/-- The dispatch of a slot is in progress: a recovery stop or a teardown has not ended it. -/
def Dev.inDispatch (d : Dev) (s : Slot) : Bool := d.dispatches.any fun x => x.ring = s.ring && x.seq = s.seq

/-- A replay dropped with every held output: its context has stopped (10 R316, R320), and its parts leave the tile. -/
def Dev.dropReplay (d : Dev) (l : Nat) (r : Replay) : Dev :=
  let x := d.lt l
  (d.setLt l ({ x with replay := none, slots := x.slots.filter d.inDispatch, queue := x.queue.filter d.inDispatch } : LTile).fillSlots).releaseTiles r none

/-- The tile of the next run, when none is under way: a permitted spare, else tile `t` of the run before (R263, R266). -/
def Dev.nextRunTile (d : Dev) (first t : Nat) : Dev × Nat :=
  match d.spareFor first with
  | some n => (d.setTileState n 2, n)
  | none => (d, t)

/-- What follows once a run on tile `t` has ended: the pick is settled by two runs that agree, waits for the run under way, is run
again, or is unresolved after three. -/
def Dev.afterRun (d : Dev) (ctx l : Nat) (r : Replay) (s : Slot) (t : Nat) : Option Dev :=
  match majority r.runs with
  | some b =>
    match b.fin with
    | .refusedAt op st => some (d.replayFailed l r st op)
    | _ => d.replayCommit ctx l r s b
  | none =>
    if !r.on.isEmpty then some d
    else if r.runs.length < 3 then
      let (d, n) := d.nextRunTile r.first t
      some (d.startRun ctx l r n)
    else some (d.unresolved ctx l r)

/-- A GET of the replay run numbered `serial` is not answered. -/
def Dev.awaitsGet (d : Dev) (ctx l serial : Nat) : Bool := (d.sh (ctxPart ctx)).rgets.any fun g => g.tile = l && g.serial = serial

/-- The run under way the longest ends, once its GETs are answered; `f` is what went wrong in it. -/
def Dev.endRun (d : Dev) (l : Nat) (r : Replay) (s : Slot) (f : RunFault) : Option Dev :=
  match r.on with
  | [] => none
  | (t, n) :: on =>
    if d.awaitsGet s.ctx l n then none
    else
      (d.replayRun s.ctx l r t n f).bind fun x =>
        let r := { r with runs := r.runs ++ [x.2], on := on }
        (x.1.setLt l { x.1.lt l with replay := some r }).afterRun s.ctx l r s t

/-- A replay run ends, with the in-place lines restored first (10 R304); the whole waits where a GET is unanswered or a line counter keeps a write waiting. -/
def Dev.replayEnd (d : Dev) (l : Nat) (f : RunFault) : Dev :=
  match (d.lt l).replay with
  | none => d
  | some r =>
    match (d.lt l).slots[r.pick.slot]? with
    | none => d.dropReplay l r
    | some s =>
      if !d.servingIn (ctxPart s.ctx) then d
      else if (d.ctx s.ctx).st ≠ .opened ∨ !d.inDispatch s then d.dropReplay l r
      else
        let d := d.undoAside l
        if (d.lt l).undo.isSome then d else (d.endRun l r s f).getD d

/-! ### GETR (07 R207, 03 R95) -/

/-- The answered GET leaves the list. -/
def Dev.takeGet (d : Dev) (p ctr : Nat) : Dev :=
  d.setSh p { d.sh p with rgets := (d.sh p).rgets.filter fun g => g.ctr ≠ ctr }

/-- Data of a GETR for the running pick is written into D on arrival; what answers a GET of a replay run is kept for the run. -/
def Dev.getrData (d : Dev) (g : RGet) (m : Msg) : Dev :=
  let bs := m.payload.take g.len
  let own : Bool := match (d.lt g.tile).pick with
    | some k => k.serial = g.serial
    | none => false
  if own then
    match d.runCtx g.tile with
    | none => d
    | some ctx =>
      if m.status ≠ 0 then d.stopPick g.tile 0x58 g.op
      else
        let o : Opnd := { addr := g.addr, loc := if g.store then 1 else 0, key := g.key, stride := 0 }
        match d.writeAt ctx g.tile 0 o g.addr bs with
        | .ok d _ => d
        | .fail d st => d.stopPick g.tile st g.op
        | .hold => d
  else
    match (d.lt g.tile).replay with
    | some r =>
      if r.on.any fun e => e.2 = g.serial then
        d.setLt g.tile { d.lt g.tile with replay := some { r with
          got := r.got ++ [{ serial := g.serial, op := g.op, addr := g.addr, status := m.status, data := bs }] } }
      else d
    | none => d

/-- A GETR arrives. -/
def Dev.onGetr (d : Dev) (port : Nat) (m : Msg) : Dev :=
  d.deliver port 4 m fun d p m =>
    match (d.sh p).rgets.find? fun g => g.ctr = m.reqCtr with
    | none => d
    | some g => (d.takeGet p g.ctr).getrData g m

end Sys2Proof.Machine
end

