-- ==== Sys2Proof/Machine/RingRows.lean ====
section
/-! DEFINITION. The rows of the rings: doorbell, acceptance, completion, `NOP`, `DISPATCH`, `FENCE`, `QUERY`, enabling and disabling
a ring (10 R290 to R302, R311 to R315, R323). -/

namespace Sys2Proof.Machine

/-! ### Doorbells (R290, R291, R295) -/

/-- The ring belongs to the presented model: a native ring of a partition, or a ring of a resident P8 context. -/
def Dev.ringServed (d : Dev) (r : Nat) : Bool :=
  if r < 256 then !d.p8 && r / 64 < d.parts else d.p8 && (d.ctx (ringCtx r)).resident

/-- The ring's doorbell line is read (R290, R295, 15 R441). -/
def Dev.hears (d : Dev) (r : Nat) : Bool :=
  d.serving && d.recovered (ringPart r) && d.hostUp && d.ctxOpen (ringCtx r) && d.ringServed r && (d.ring r).st = .active

/-- The ring is fetched now: `ENABLE` of `HX_CTRL` lets the device fetch rings (Table 10-13). -/
def Dev.fetches (d : Dev) (r : Nat) : Bool := d.hears r && d.fld 0x4000 0 1 = 1

/-- `ERROR`: the ring's fetching stops. -/
def Dev.ringError (d : Dev) (r : Nat) : Dev :=
  ((d.setRing r { d.ring r with st := .error }).writeStatus r).recordCtx 1 0x0202 (ringCtx r) (ringNo r)

/-- With CXL.cache the line read is held in the Shared state, at most 256 of them (11 R328). -/
def Dev.shareLine (d : Dev) (a : Nat) : Dev :=
  if d.cxl.cache ∧ d.cxl.lines.length < 256 ∧ !d.cxl.lines.contains a then { d with cxl := { d.cxl with lines := a :: d.cxl.lines } } else d

/-- The device gives the line up. -/
def Dev.dropLine (d : Dev) (a : Nat) : Dev := { d with cxl := { d.cxl with lines := d.cxl.lines.filter (· ≠ a) } }

/-- Read the doorbell line; without budget for it the read waits for the next tick. -/
def Dev.readDoorbell (d : Dev) (r : Nat) : Dev :=
  let x := d.ring r
  let a := d.ringDoorbell r
  let t := leNat (d.hostBytes (physBase + a) 8)
  if !(d.hears r && d.hostMay false (ringPart r) 64) then d
  else
  let d := (d.hostCount false (ringCtx r) 64).shareLine a
  if t < x.tail then d.recordCtx 1 0x0201 (ringCtx r) (ringNo r + t * 64)
  else if x.completed + d.ringSize r < t then d.ringError r
  else d.setRing r { x with tail := t }

/-- Rings newly enabled or whose context has just come in are looked at at once; without CXL.cache the next tick reads their
doorbell lines (11 R331). -/
def Dev.firstLook (d : Dev) (r : Nat) : Dev := if d.cxl.cache then d.readDoorbell r else d

/-- A host write of the doorbell line, after the host's other writes `host`. It invalidates the device's copy, and the device
re-reads the line; without a copy it sees the write at the next tick (R290, 11 R331). -/
def Dev.doorbell (d : Dev) (r tail : Nat) (host : Cells) : Dev :=
  let a := d.ringDoorbell r
  let d := (d.hostCells host).hostWrite (physBase + a) (leBytes 8 tail)
  if d.cxl.lines.contains a then (d.dropLine a).readDoorbell r else d

/-- The tick re-reads the doorbell line of every enabled ring (R290). -/
def Dev.readDoorbells (d : Dev) : Dev := (d.rings.map Prod.fst).foldl Dev.readDoorbell d

/-! ### Acceptance (R292, R296, R300, R317) -/

/-- How a descriptor stands once accepted: finished when its header or its context already decides it. -/
def Dev.acceptPhase (d : Dev) (r : Nat) (x : RingDesc) : Phase :=
  let op := descOpcode x
  if headerBad x then .done (Verdict.of 1)
  else if d.p8 ∧ [0x40, 0x41, 0x50, 0x70].contains op then .done (Verdict.of 9)
  else if op = 1 ∧ (d.ctx (ringCtx r)).st = .stopped then .done (Verdict.of 3)
  else if op = 1 ∧ 4194304 < dbyte x 28 0 23 then .done (Verdict.of 0x46)
  else .waiting

/-- A P8 context's rings were busy just now (R310). -/
def Dev.ringUsed (d : Dev) (r : Nat) : Dev :=
  if r < 256 then d else d.setCtx (ringCtx r) { d.ctx (ringCtx r) with lastUse := d.now }

/-- Entry `s` of the ring as it lies in host memory. -/
def Dev.ringEntry (d : Dev) (r s : Nat) : RingDesc :=
  BitVec.ofNat 1024 (leNat (d.hostBytes (d.ringAddr r + s % d.ringSize r * 128) 128))

/-- The logical tiles of a `DISPATCH` descriptor's rectangle in row-major order. -/
def rectangle (x : RingDesc) : List Nat :=
  (List.range (dbyte x 27 0 5 + 1)).flatMap fun j => (List.range (dbyte x 26 0 5 + 1)).map fun i =>
    (dbyte x 25 0 5 + j) * 32 + dbyte x 24 0 5 + i

/-- A test in progress on the tile that carries `l` stops and does not count (09 R272). -/
def Dev.stopTest (d : Dev) (l : Nat) : Dev :=
  match d.physOf l with
  | none => d
  | some t =>
    if d.tileState t = 5 then (d.setUnit .tile t { d.unit .tile t with testing := false }).restState l else d

/-- The partition, or the P8 context, may dispatch to the tile (R299, Table 10-16). -/
def Dev.ownsTile (d : Dev) (ctx l : Nat) : Bool := tilePart d.parts l = ctxPart ctx && (ctx < 4 || l < (d.ctx ctx).ntiles)

/-- The tiles that a descriptor of ring `r` dispatches to: the context's own among its rectangle, when it is a `DISPATCH`. -/
def Dev.tilesNamed (d : Dev) (r : Nat) (x : RingDesc) : List Nat :=
  if descOpcode x = 1 then (rectangle x).filter (d.ownsTile (ringCtx r)) else []

/-- An accepted dispatch stops the tests of its tiles (09 R272, assumption log 135). -/
def Dev.stopTests (d : Dev) (r : Nat) (x : RingDesc) (ph : Phase) : Dev :=
  if ph = .waiting then (d.tilesNamed r x).foldl Dev.stopTest d else d

/-- `DESCRIPTOR_ACCEPT`; a stream descriptor is judged by the epoch before it as far as that epoch is known. -/
def Dev.accept (d : Dev) (r : Nat) : Dev :=
  let x := d.ring r
  if !(d.fetches r && d.hostMay false (ringPart r) 128 && d.hostMay true (ringPart r) 64) ∨ x.tail ≤ x.accepted ∨ 256 ≤ x.pend.length then d
  else
    let desc := d.ringEntry r x.accepted
    let ph := d.acceptPhase r desc
    let d := d.setRing r { x with accepted := x.accepted + 1, pend := x.pend ++ [{ seq := x.accepted, desc := desc, phase := ph }] }
    let d := (((d.hostCount false (ringCtx r) 128).putStatus r).ringUsed r).stopTests r desc ph
    if judgedStream desc then d.judgeOne r x.accepted else d

/-! ### Completion (R294, R295, R297, R343) -/

/-- The 32 bytes of a completion record (Table 10-3). -/
def completionBytes (a : Accepted) (v : Verdict) : List Byte :=
  leBytes 8 a.seq ++ leBytes 4 (dfield a.desc 32 32) ++ leBytes 1 (descOpcode a.desc) ++ [0, 0, 0] ++ leBytes 1 v.code ++ [0] ++
    leBytes 2 v.nfail ++ leBytes 4 v.aux ++ leBytes 8 v.info

/-- The vector lies among the ring vectors of the partition (R343). -/
def Dev.ringVectorOk (d : Dev) (p v : Nat) : Bool := d.partVector p 16 ≤ v && v < d.partVector p (1920 / d.parts)

/-- The record of the oldest descriptor is written. -/
def Dev.writeRecord (d : Dev) (r : Nat) (a : Accepted) (v : Verdict) : Dev :=
  let x := d.ring r
  let k := ringCtx r
  let d := d.hostPut k (d.ringRecords r + 4096 + a.seq % d.ringSize r * 32) (completionBytes a v)
  let rest := x.pend.drop 1
  let d := d.setRing r { x with completed := a.seq + 1, pend := rest,
                                st := if x.st = .draining ∧ rest.isEmpty then .disabled else x.st }
  let d := ((d.putStatus r).account k 6 1).ringUsed r
  let op := descOpcode a.desc
  let d := if (op = 0x40 ∨ op = 0x41) ∧ v.code ≠ 0 then d.bump (wfReg (ctxPart k) + 0x30) 1 else d
  if dfield a.desc 8 1 = 1 ∧ d.ringVectorOk (ctxPart k) (d.ringVector r) then d.raise (d.ringVector r) else d

/-- `COMPLETION_RECORD`: only the oldest descriptor's record may be written. -/
def Dev.completion (d : Dev) (r : Nat) : Dev :=
  match (d.ring r).pend with
  | [] => d
  | a :: _ =>
    match a.phase with
    | .done v => if d.hostMay true (ringPart r) 96 then d.writeRecord r a v else d
    | _ => d

/-! ### `NOP` (Table 10-2) and `QUERY` (R323) -/

def Dev.nopRow (d : Dev) (r : Nat) : Dev :=
  d.startNext r 0x00 (fun _ => true) fun d a => d.finish r a.seq (Verdict.of (if a.desc.toNat >>> 128 = 0 then 0 else 1))

def Dev.queryRow (d : Dev) (r : Nat) : Dev :=
  d.startNext r 0x03 (fun _ => true) fun d a =>
    let addr := dbyte a.desc 16 0 64
    if a.desc.toNat >>> 192 ≠ 0 ∨ addr % 64 ≠ 0 then d.finish r a.seq (Verdict.of 1)
    else if !d.hostMay true (ringPart r) 64 then d
    else (d.hostPut (ringCtx r) addr ((d.ctx (ringCtx r)).acc.flatMap (leBytes 8))).finish r a.seq (Verdict.of 0)

/-! ### `DISPATCH` (R299 to R302) -/

def dispatchFields : List (Nat × Nat) :=
  [(0, 41), (41, 12), (64, 5), (72, 5), (80, 5), (88, 5), (96, 23), (128, 14), (144, 1), (192, 64)]

def Dev.dispatchBad (d : Dev) (ctx : Nat) (x : RingDesc) : Bool :=
  !onlyFields (x.toNat >>> 128) dispatchFields || dbyte x 16 0 41 % 64 ≠ 0 || dbyte x 16 41 12 = 0 ||
    32 < dbyte x 24 0 5 + dbyte x 26 0 5 + 1 || 32 < dbyte x 25 0 5 + dbyte x 27 0 5 + 1 ||
    !((rectangle x).all (d.ownsTile ctx))

/-- An entry of the tile table: op list and key, nothing for an empty one; none when it breaks the layout. -/
def dispatchEntry (tile : Nat) (bs : List Byte) : Option (List DPart) :=
  let v := leNat bs
  if v = 0 then some []
  else if onlyFields v [(0, 41), (41, 12)] then some [{ tile := tile, list := bits v 0 41, key := bits v 41 12, out := .queued }]
  else none

/-- A part queues for its tile and takes a free slot; on an unbacked tile it fails (03 R80). -/
def Dev.queuePart (d : Dev) (r seq ctx : Nat) (p : DPart) : Dev :=
  match d.physOf p.tile with
  | none => d.partOutcome r seq p.tile (.failed 0x55 0 0)
  | some _ =>
    let s : Slot := { ring := r, seq := seq, ctx := ctx, list := p.list, key := p.key, op := 0, unit := 0, wait := none,
                      carry := Carry.blank }
    let x := d.lt p.tile
    let d := (d.setLt p.tile { x with queue := x.queue ++ [s] }.fillSlots).stopTest p.tile
    if (d.lt p.tile).pick.isNone ∧ (d.lt p.tile).replay.isNone then d.restState p.tile else d

/-- A tile table that cannot be read: as though every tile of the rectangle had failed. -/
def tableFailure (x : RingDesc) (w : MemFail) : Verdict :=
  { code := opStatus w, nfail := (rectangle x).length, aux := (rectangle x).headD 0, info := 0 }

/-- The dispatch is in progress with these parts; without one it completes. -/
def Dev.beginDispatch (d : Dev) (r seq ctx : Nat) (ps : List DPart) : Dev :=
  let d := { d with dispatches := d.dispatches ++ [({ ring := r, seq := seq, ctx := ctx, parts := ps } : Dispatch)] }
  (ps.foldl (fun d p => d.queuePart r seq ctx p) (d.setPhase r seq .started)).settleDispatches

/-- `DISPATCH` waits while `ENABLE` of `TL_CTRL` keeps the tiles from accepting dispatches (03 Table 03-15). -/
def Dev.dispatchRow (d0 : Dev) (r : Nat) : Dev :=
  d0.startNext r 0x01 (fun _ => true) fun d a =>
    let k := ringCtx r
    let x := a.desc
    if d.fld 0x20000 0 1 = 0 then d
    else if d.dispatchBad k x then d.finish r a.seq (Verdict.of 1)
    else match d.read (tileReq k (dbyte x 16 41 12)) (dbyte x 16 0 41) (16 * (rectangle x).length) with
      | .fail d w => d.finish r a.seq (tableFailure x w)
      | .ok d bs =>
        match ((rectangle x).zip (chunksOf 16 1024 bs)).mapM fun e => dispatchEntry e.1 e.2 with
        | none => d.finish r a.seq (Verdict.of 1)
        | some es =>
          d.beginDispatch r a.seq k es.flatten

/-! ### `FENCE` (R313 to R315) -/

def fenceFields : List (Nat × Nat) := [(0, 3), (16, 14), (32, 12), (48, 3), (64, 64)]

def fOp (x : RingDesc) : Nat := dbyte x 16 0 3
def fId (x : RingDesc) : Nat := dbyte x 18 0 14
def fCtx (x : RingDesc) : Nat := dbyte x 20 0 12
def fValue (x : RingDesc) : Nat := dbyte x 24 0 64

/-- A `FENCE` descriptor with an operation of `ops`; `run` gives the device and the verdict. -/
def Dev.fenceRow (d : Dev) (r : Nat) (ops : List Nat) (run : Dev → Nat → RingDesc → Dev × Verdict) : Dev :=
  d.startNext r 0x02 (fun x => ops.contains (fOp x)) fun d a =>
    let x := a.desc
    if !(onlyFields (x.toNat >>> 128) fenceFields) ∨ 5 < fOp x then d.finish r a.seq (Verdict.of 1)
    else if !(d.fenceIn (ringCtx r) (fId x)) then d.finish r a.seq (Verdict.of 7)
    else
      let e := run d (ringCtx r) x
      e.1.finish r a.seq e.2

/-- `SIGNAL`; an operation that Table 10-9 reserves completes here, `DESC_INVALID`. -/
def Dev.fenceSignal (d : Dev) (r : Nat) : Dev :=
  d.fenceRow r [0, 6, 7] fun d k x =>
    let (d, s) := d.signal k (fId x) (fValue x) false
    (d, Verdict.of s)

def Dev.fenceCreate (d : Dev) (r : Nat) : Dev :=
  d.fenceRow r [1] fun d k x =>
    if (d.fence (fId x)).st ≠ .free then (d, Verdict.of 8)
    else (d.setFence (fId x) { value := fValue x, st := .live, owner := k, remote := dbyte x 22 2 1 = 1, shares := [] }, Verdict.of 0)

/-- Tile parts at `FWAIT` on a fence that `f` names fail `OWNER_LOST`. -/
def Dev.loseParts (d : Dev) (f : Nat → Bool) : Dev :=
  (d.tiles.logical.map Prod.fst).foldl (fun d l =>
    ((List.range (d.lt l).slots.length).reverse.foldl (fun d i =>
      match (d.lt l).slots[i]? with
      | none => d
      | some s =>
        match s.wait with
        | some (g, v) => if f g ∧ (d.fence g).value < v then d.endPart l i (.failed 2 s.op s.op) else d
        | none => d) d)) d

/-- Updates that wait for `NORM_FENCE`, or with a sealed block for `STASH_FENCE`, end `OWNER_LOST`. -/
def Dev.loseUpdates (d : Dev) (f : Nat → Bool) : Dev :=
  (List.range 4).foldl (fun d p =>
    match (d.bt p).update with
    | none => d
    | some u =>
      let norm : Bool := u.gate = .waiting && f (uNormFence u.desc)
      let stash : Bool := u.stashFrom.isSome && !u.stash && f (uStashFence u.desc)
      if norm ∨ stash then d.endUpdate p 2 false else d) d

/-- Every waiter present on the fences that `f` names completes `OWNER_LOST` (R313, R315). -/
def Dev.loseWaits (d : Dev) (f : Nat → Bool) : Dev := ((d.loseHeaders f).loseParts f).loseUpdates f

/-- `DESTROY` is the owner's. -/
def Dev.fenceDestroy (d : Dev) (r : Nat) : Dev :=
  d.fenceRow r [2] fun d k x =>
    let y := d.fence (fId x)
    if y.st = .broken then (d, Verdict.of 2)
    else if y.st ≠ .live ∨ y.owner ≠ k then (d, Verdict.of 7)
    else ((d.loseWaits fun g => g = fId x).setFence (fId x) Fence.reset, Verdict.of 0)

/-- The context that a `CTX` field names, seen from context `k`: a P8 context, or a partition's native one. -/
def ctxNamed (k c : Nat) : Nat := if k < 4 then c else 4 + c

/-- A context of the same partition, open or stopped. -/
def Dev.peerCtx (d : Dev) (k c : Nat) : Bool := (4 ≤ k || c = k) && d.ctxOpen (ctxNamed k c)

def Dev.fenceShare (d : Dev) (r : Nat) : Dev :=
  d.fenceRow r [3] fun d k x =>
    let y := d.fence (fId x)
    let c := ctxNamed k (fCtx x)
    let rest := y.shares.filter fun s => s.ctx ≠ c
    if y.st = .broken then (d, Verdict.of 2)
    else if y.st ≠ .live ∨ y.owner ≠ k ∨ c = k ∨ !(d.peerCtx k (fCtx x)) ∨ 4 ≤ rest.length then (d, Verdict.of 7)
    else (d.setFence (fId x) { y with shares := rest ++ [{ ctx := c, wait := dbyte x 22 0 1 = 1, sig := dbyte x 22 1 1 = 1 }] },
      Verdict.of 0)

/-- `UNSHARE` is the owner's, and a shared context's for itself, on a broken fence too. -/
def Dev.fenceUnshare (d : Dev) (r : Nat) : Dev :=
  d.fenceRow r [4] fun d k x =>
    let y := d.fence (fId x)
    let c := ctxNamed k (fCtx x)
    let own : Bool := y.st = .live && y.owner = k
    let self : Bool := c = k && y.shares.any fun s => s.ctx = k
    if y.st = .free ∨ !(own || self) then (d, Verdict.of (if y.st = .broken then 2 else 7))
    else (d.setFence (fId x) { y with shares := y.shares.filter fun s => s.ctx ≠ c }, Verdict.of 0)

/-- `READ` needs a right on a live fence; a broken one stays readable. -/
def Dev.fenceRead (d : Dev) (r : Nat) : Dev :=
  d.fenceRow r [5] fun d k x =>
    let y := d.fence (fId x)
    if y.st = .broken ∨ (y.st = .live ∧ (y.mayWait k ∨ y.maySignal k)) then (d, { Verdict.of 0 with info := y.value })
    else (d, Verdict.of 7)

/-! ### Landing groups (07 R201) -/

/-- Opcode 0x50: complete as soon as the group is open. -/
def Dev.landingRow (d : Dev) (r : Nat) : Dev :=
  d.startNext r 0x50 (fun _ => true) fun d a =>
    if d.p8 then d.finish r a.seq (Verdict.of 9)
    else
      let x := d.openLanding (ringCtx r) a.desc
      x.1.finish r a.seq (Verdict.of x.2)

/-! ### Enabling and disabling a ring (R295) -/

/-- `ENABLE` of `HX_RING_CTRL` written 1 on a ring that is not enabled. -/
def Dev.ringEnable (d : Dev) (r : Nat) : Dev :=
  let x := d.ring r
  let o := ringReg r + 0x18
  d.onWrite o ((d.reg o).toNat + 1) fun d =>
  if 256 ≤ r then d
  else if x.st = .draining then d.recordReg 0x0003 o ((d.reg o).toNat + 1)
  else if x.st ≠ .disabled then d
  else (((d.setFld o 0 1 1).setRing r { Ring.reset with st := .active }).writeStatus r).firstLook r

/-- `ENABLE` cleared: fetching stops; the ring reads `DRAINING` until every accepted descriptor has completed. -/
def Dev.ringDisable (d : Dev) (r : Nat) : Dev :=
  let x := d.ring r
  let o := ringReg r + 0x18
  d.onWrite o ((d.reg o).toNat - 1) fun d =>
  if 256 ≤ r ∨ x.st = .disabled ∨ x.st = .draining then d
  else (((d.setFld o 0 1 0).setRing r { x with st := if x.pend.isEmpty then .disabled else .draining }).writeStatus r).dropLine (d.ringDoorbell r)

end Sys2Proof.Machine
end

