-- ==== Sys2Proof/Machine/Contexts.lean ====
section
/-! DEFINITION. Stage balance; contexts: opening, the recovery stop, the sending epoch, teardown, the P8 model; staging channels
(05 R148, 10 R309, R310, R315 to R320, R482, 11 R346). -/

namespace Sys2Proof.Machine

/-! ### Stage balance (05 R148) -/

def mbReg (p : Nat) : Nat := 0x26000 + 0x40 * p

def Dev.mb (d : Dev) (p : Nat) : MbPart := Sparse.get (fun _ => { origin := none, durations := [] }) d.tiles.mb p

def Dev.setMb (d : Dev) (p : Nat) (x : MbPart) : Dev :=
  { d with tiles := { d.tiles with mb := Sparse.set (fun _ => { origin := none, durations := [] }) d.tiles.mb p x } }

/-- Mean rounded down; 0 of none. -/
def meanOf (l : List Nat) : Nat := if l.isEmpty then 0 else l.foldl (· + ·) 0 / l.length

/-- A duration above the threshold. Entry 0x0A01 names the partition in `PART` and the duration in `DETAIL` (09 Table 09-6); the
fence it names through its unit, the partition's `TL_MB_CTRL`, whose `FENCE` is fixed while `ENABLE` is 1 (DESIGN CHOICE, log 118). -/
def Dev.mbOver (d : Dev) (p dur : Nat) : Dev :=
  let ds := (d.mb p).durations
  if 4 ≤ ds.length ∧ d.fld (mbReg p) 16 8 * meanOf ds < dur * 8 then
    let set := d.fld (mbReg p + 0x30) 0 1 = 0
    let d := ((d.setFld (mbReg p + 0x30) 0 1 1).bump (mbReg p + 0x28) 1).record 0 0x0A01 .register (mbReg p / 4) (some p) dur
    if set then d.raisePart p 3 else d
  else d

/-- A signal of fence `f` was applied: the micro-batch fence's is stamped. -/
def Dev.mbSignal (d : Dev) (p f : Nat) : Dev :=
  if d.fld (mbReg p) 14 1 = 1 ∧ d.fld (mbReg p) 0 14 = f then
    match (d.mb p).origin with
    | none => d.setMb p { d.mb p with origin := some d.now }
    | some t =>
      let dur := d.now - t
      let d := d.mbOver p dur
      let ds := (dur :: (d.mb p).durations).take 16
      let d := (d.setMb p { origin := some d.now, durations := ds }).bump (mbReg p + 8) 1
      let d := (d.setReg (mbReg p + 0x10) (BitVec.ofNat 64 dur)).setReg (mbReg p + 0x18) (BitVec.ofNat 64 (meanOf ds))
      d.setReg (mbReg p + 0x20) (BitVec.ofNat 64 (max (d.reg (mbReg p + 0x20)).toNat dur))
  else d

/-- `ENABLE` goes from 0 to 1: every counter and the history start anew. -/
def Dev.mbStart (d : Dev) (p : Nat) : Dev :=
  ([8, 0x10, 0x18, 0x20, 0x28].foldl (fun d i => d.setReg (mbReg p + i) 0) d).setMb p { origin := none, durations := [] }

/-! ### Opening (R309, R315) -/

def ctxReg (p : Nat) : Nat := 0x4100 + 0x100 * p

/-- A context's state changes and its vector is raised (11 Table 11-7). -/
def Dev.moveCtx (d : Dev) (k : Nat) (st : CtxState) : Dev :=
  if (d.ctx k).st = st then d else (d.setCtx k { d.ctx k with st := st }).raisePart (ctxPart k) 1

/-- A key-and-granule register names a granted area of `n` bytes in a protected region. -/
def Dev.areaOk (d : Dev) (ctx base key n : Nat) : Bool := key ≠ 0 && d.rangeAccess (engineReq ctx key) true base n

/-- The life-cycle state admits contexts (14 Table 14-1). -/
def LifeCycle.opens (l : LifeCycle) : Bool := l ≠ .blank && l ≠ .endOfLife

def Dev.canOpen (d : Dev) (lc : LifeCycle) (p : Nat) : Bool :=
  let o := ctxReg p
  p < d.parts && !d.p8 && d.servingIn p && lc.opens && (d.ctx p).st = .closed && (d.ctx p).seedSet && d.fld (o + 0x10) 0 12 ≠ 0 &&
    d.areaOk p (d.fld (o + 0x20) 21 20 * granuleBytes) (d.fld (o + 0x20) 41 12) granuleBytes &&
    d.fld (o + 0x28) 53 7 ≠ 0 &&
    d.areaOk p (d.fld (o + 0x28) 21 20 * granuleBytes) (d.fld (o + 0x28) 41 12) (d.fld (o + 0x28) 53 7 * 2 ^ 20)

/-- The context holds: accounting from zero, broken fences without sharers free, entry 0x0203; its rings are looked at. -/
def Dev.holdCtx (d : Dev) (k : Nat) (x : Ctx) : Dev :=
  let p := ctxPart k
  let d := (d.setCtx k { x with phase := 0, acc := [0, 0, 0, 0, 0, 0, 0, 0], lastUse := d.now }).moveCtx k .opened
  (d.freeBroken p).recordCtx 0 0x0203 k (ctxId k)

/-- `OPEN`: the journal is zeroed (R309); the first message of a source on a channel is accepted with any `CSEQ` (07 R195). -/
def Dev.openCtx (d : Dev) (lc : LifeCycle) (p : Nat) : Dev :=
  d.onWrite (ctxReg p) 1 fun d =>
    if !(d.canOpen lc p) then d.recordReg 0x0003 (ctxReg p) 1
    else
      let j := d.fld (ctxReg p + 0x20) 21 20 * granuleBytes
      let d := { d with mem := Sparse.clear d.mem j (j + granuleBytes) }
      let d := ((d.holdCtx p (d.ctx p)).setReg (ctxReg p + 0xD8) 0).setReg (ctxReg p + 0xF8) 0
      let d := (d.setWf p { d.wf p with nextHalf := 0 }).setSh p { d.sh p with ingress := [] }
      (rangeFrom (64 * p) 64).foldl Dev.firstLook d

/-! ### Stopping a context's work (R316, R319) -/

/-- The tiles drop the context's work: its running picks are abandoned, its parts leave slots and queues. -/
def Dev.stopTile (d : Dev) (k l : Nat) : Dev :=
  let d := if d.runCtx l = some k then d.abandonPick l else d
  let x := d.lt l
  if (x.slots ++ x.queue).any fun s => s.ctx = k then
    (d.setLt l ({ x with slots := x.slots.filter (fun s => s.ctx ≠ k), queue := x.queue.filter fun s => s.ctx ≠ k } : LTile).fillSlots).restState l
  else d

/-- Picks under replay keep their slot until the replay ends (R320); the context's dispatches are no longer in progress. -/
def Dev.stopTiles (d : Dev) (k : Nat) : Dev :=
  let ls := (d.tiles.logical.filter fun e => e.2.replay.isNone).map Prod.fst
  let d := ls.foldl (fun d l => d.stopTile k l) d
  { d with dispatches := d.dispatches.filter fun x => x.ctx ≠ k }

/-- Pleach, landing groups and Weft of a partition stop (R316). -/
def Dev.stopEngines (d : Dev) (p : Nat) : Dev :=
  ((d.abandonGen p).closeGroups p fun _ => false).weftDrop p

/-- The opcodes whose descriptors the stop completes (R316). -/
def stoppedOpcode (x : RingDesc) : Bool := [1, 0x40, 0x41, 0x50].contains (descOpcode x)

/-- Entering the recovery stop; `asked` when the runtime requests it. -/
def Dev.recoveryStop (d : Dev) (k : Nat) (asked : Bool) : Dev :=
  if (d.ctx k).st ≠ .opened then d
  else
    let d := (d.moveCtx k .stopped).recordCtx 0 0x0205 k (ctxId k + b2n asked * 2 ^ 12)
    let d := (d.stopTiles k).finishAll k 3 stoppedOpcode
    if k < 4 then (d.endUpdate k 3 false).stopEngines k else d

def Dev.stopCtx (d : Dev) (k off v : Nat) : Dev :=
  d.onWrite off v fun d => if (d.ctx k).st = .opened then d.recoveryStop k true else d.recordReg 0x0003 off v

/-- `RESUME` (R318). -/
def Dev.resumeCtx (d : Dev) (k off v : Nat) : Dev :=
  d.onWrite off v fun d => if (d.ctx k).st = .stopped then d.moveCtx k .opened else d.recordReg 0x0003 off v

/-! ### The sending epoch (R317) -/

def Dev.sendingEpoch (d : Dev) (p v : Nat) : Dev :=
  let o := ctxReg p + 0x18
  d.onWrite o v fun d =>
    let x := d.sh p
    if d.ctxOpen p ∧ x.epoch < v then
      ((d.setSh p { x with epoch := v, ctr := 0, ingress := [], floor := v }).setFld (shReg p + 0x48) 0 32 v).setFld o 0 32 v
    else d.recordReg 0x0003 o v

/-! ### Teardown (R319, R320, R315) -/

/-- A staging copy of the partition ends with a status (11 R346). -/
def Dev.staging_ (d : Dev) (i : Nat) : Staging := Sparse.get (fun _ => Staging.reset) d.staging i

def Dev.setStaging (d : Dev) (i : Nat) (x : Staging) : Dev :=
  { d with staging := Sparse.set (fun _ => Staging.reset) d.staging i x }

/-- Channel `c` of partition `p` ends: state, status, entry 0x0209 for a failure, its vector. -/
def Dev.endStaging (d : Dev) (p c status copied : Nat) : Dev :=
  let d := d.setStaging (2 * p + c) { st := if status = 0 then 2 else 3, status := status, copied := copied }
  let d := if status = 2 then d.record 0 0x0209 .context p (some p) (c + status * 2 + copied * 2 ^ 16) else d
  d.raisePart p (4 + c)

def Dev.stopStaging (d : Dev) (p : Nat) : Dev :=
  [0, 1].foldl (fun d c => if (d.staging_ (2 * p + c)).st = 1 then d.endStaging p c 3 (d.staging_ (2 * p + c)).copied else d) d

/-- A teardown begins: fetching stops, picks are abandoned, the engines stop the context's work. -/
def Dev.beginTeardown (d : Dev) (k : Nat) : Dev :=
  let p := ctxPart k
  let d := (d.recordCtx 0 0x0204 k (ctxId k)).moveCtx k .tearing
  let d := (d.setCtx k { d.ctx k with phase := 1, asked := none }).stopTiles k
  if k < 4 then
    let d := (((d.clearBattens p).setBt p BtPart.reset).stopEngines p).stopStaging p
    d.setPl p { d.pl p with op := none }
  else d

/-- `TEARDOWN`. -/
def Dev.teardown (d : Dev) (k off v : Nat) : Dev :=
  d.onWrite off v fun d => if !(d.ctxOpen k) then d.recordReg 0x0003 off v else d.beginTeardown k

/-- Some replay of the context's has not ended. -/
def Dev.replaying (d : Dev) (k : Nat) : Bool :=
  d.tiles.logical.any fun e => match e.2.replay with
    | some r => ((e.2.slots[r.pick.slot]?).map Slot.ctx) = some k
    | none => false

/-- Owned fences break; their waiters and the context's descriptors complete. -/
def Dev.breakOwned (d : Dev) (k : Nat) : Dev :=
  let own (f : Nat) : Bool := (d.fence f).st = .live && (d.fence f).owner = k
  let e := ((d.loseWaits own).breakFences k).finishAll k 4 fun _ => true
  e.setCtx k { d.ctx k with phase := 2 }

/-- Tiles that still restore in-place lines of the context's (R304). -/
def Dev.undoing (d : Dev) (k : Nat) : List Nat := (d.tiles.logical.filter fun e => e.2.undo.any fun u => u.ctx = k).map Prod.fst

/-- Once tiles and engines have stopped and every in-place line is restored. -/
def Dev.breakRow (d : Dev) (k : Nat) : Dev :=
  let x := d.ctx k
  if !d.serving ∨ !d.recovered (ctxPart k) ∨ x.st ≠ .tearing ∨ x.phase ≠ 1 ∨ d.replaying k then d
  else
    let d := (d.undoing k).foldl Dev.undoAside d
    if (d.undoing k).isEmpty then d.breakOwned k else d

/-- The working stores of the context's tiles are zeroed (03 R74); a P8 context's also in its save area. -/
def Dev.zeroTiles (d : Dev) (k : Nat) : Dev :=
  let ls := (d.tiles.logical.filter fun e =>
    if k < 4 then tilePart d.parts e.1 = k else e.2.cur = k).map Prod.fst
  let d := ls.foldl (fun d l => d.setLt l { (d.lt l).zeroed with cur := if k < 4 then (d.lt l).cur else 0, undo := none }) (d.setAside k 0)
  { d with tiles := { d.tiles with saved := if k < 4 then d.tiles.saved else Sparse.clear d.tiles.saved (k * 1024) (k * 1024 + 1024) } }

/-- Stores zeroed, regions scrubbed, key slots released: the context is `CLOSED`. -/
def Dev.finishTeardown (d : Dev) (k : Nat) : Dev :=
  let x := d.ctx k
  let p := ctxPart k
  let d := d.zeroTiles k
  let d := if k < 4 then
      let s := d.sh p
      (((d.returnRegions p).freeKeys p).setSh p { s with rx := [], rgets := [], groups := [], ingress := [] }).setRtpPart p
        { d.rtpPart p with held := false }
    else d
  (d.moveCtx k .closed).setCtx k { Ctx.reset with seedSet := x.seedSet && decide (k < 4) }

/-- Every descriptor that the context's rings accepted has its completion record (R294). -/
def Dev.ringsDone (d : Dev) (k : Nat) : Bool := d.rings.all fun e => ringCtx e.1 ≠ k || e.2.pend.isEmpty

/-- Once the last `TORN_DOWN` record is written. -/
def Dev.closeRow (d : Dev) (k : Nat) : Dev :=
  let x := d.ctx k
  if !d.servingIn (ctxPart k) ∨ x.st ≠ .tearing ∨ x.phase ≠ 2 ∨ !d.ringsDone k then d else d.finishTeardown k

/-! ### The P8 model (R310, R482, Table 10-16) -/

def p8Cmd : Nat := 0x4018

/-- The image's fields. -/
def imgField (img : List Byte) (byte n : Nat) : Nat := leNat ((img.drop byte).take n)

/-- A ring of an image keeps to Table 10-14. -/
def p8RingOk (img : List Byte) (i : Nat) : Bool :=
  let w (j : Nat) : Nat := imgField img (32 * i + 8 * j) 8
  bits (w 0) 0 4 ≤ 10 && bits (w 0) 6 6 = 0 && bits (w 1) 0 6 = 0 && bits (w 2) 0 12 = 0 &&
    onlyFields (w 3) [(0, 1), (1, 2), (16, 11)]

def p8ImageOk (img : List Byte) : Bool :=
  (List.range 4).all (p8RingOk img) && 1 ≤ imgField img 136 2 && imgField img 136 2 ≤ 1024 && imgField img 138 6 = 0 &&
    onlyFields (imgField img 144 8) [(0, 41), (41, 12)] && onlyFields (imgField img 152 8) [(21, 20), (41, 12)] &&
    onlyFields (imgField img 160 8) [(21, 20), (41, 12), (53, 7)] && imgField img 168 344 = 0 &&
    bits (imgField img 160 8) 53 7 ≤ 64

/-- The areas that the image names are granted. -/
def Dev.p8AreasOk (d : Dev) (k : Nat) (img : List Byte) : Bool :=
  let sv := imgField img 144 8
  let jr := imgField img 152 8
  let wa := imgField img 160 8
  d.areaOk k (bits sv 0 41) (bits sv 41 12) (imgField img 136 2 * 2 ^ 22) &&
    d.areaOk k (bits jr 21 20 * granuleBytes) (bits jr 41 12) granuleBytes && bits wa 53 7 ≠ 0 &&
    d.areaOk k (bits wa 21 20 * granuleBytes) (bits wa 41 12) (bits wa 53 7 * 2 ^ 20)

/-- The rings of the image: their settings, and `ACTIVE` from sequence number 0 where enabled. -/
def Dev.p8Rings (d : Dev) (k : Nat) (img : List Byte) : Dev :=
  (List.range 4).foldl (fun d i =>
    let r := 256 + 4 * (k - 4) + i
    let old := d.ringDoorbell r
    let d := (List.range 4).foldl (fun d j => d.setReg (ringReg r + 8 * j) (BitVec.ofNat 64 (imgField img (32 * i + 8 * j) 8))) d
    let on : Bool := imgField img (32 * i + 24) 8 % 2 = 1
    let d := d.dropLine old
    (d.setRing r { Ring.reset with st := if on then .active else .disabled }).setFld (ringReg r + 0x18) 1 2 0) d

/-- The image has been read: the P8 context opens, or the image is refused. -/
def Dev.p8Take (d : Dev) (k v : Nat) (img : List Byte) : Dev :=
  if !(p8ImageOk img) then d.recordReg 0x0001 p8Cmd v
  else if !(d.p8AreasOk k img) then d.recordReg 0x0003 p8Cmd v
  else
    let x : Ctx := { Ctx.reset with seedSet := true, ntiles := imgField img 136 2, seed := imgField img 128 8,
                                    save := imgField img 144 8, journal := imgField img 152 8, waside := imgField img 160 8 }
    (d.holdCtx k x).p8Rings k img

/-- `OPEN` of a P8 context; the image lies at host address `image`. Without link or budget to read it the command waits. -/
def Dev.p8Open (d : Dev) (lc : LifeCycle) (c image : Nat) : Dev :=
  let v := c + image / 2 ^ 15 * 2 ^ 15
  d.onWrite p8Cmd v fun d =>
    let k := 4 + c
    if !d.p8 ∨ 4096 ≤ c ∨ !d.servingIn 0 ∨ !lc.opens ∨ (d.ctx k).st ≠ .closed ∨ d.fld 0x4010 41 12 = 0 ∨ d.fld 0x4110 0 12 = 0 then
      d.recordReg 0x0003 p8Cmd v
    else if !d.hostMay false 0 512 then d.setCtx k { d.ctx k with asked := some (image / 2 ^ 15 * 2 ^ 15) }
    else (d.hostCount false k 512).p8Take k v (d.hostBytes (image / 2 ^ 15 * 2 ^ 15) 512)

/-- The resident contexts. -/
def Dev.residents (d : Dev) : List Nat := (d.ctxs.filter fun e => e.2.resident).map Prod.fst

/-- The context holds a part on some tile. -/
def Dev.holdsPart (d : Dev) (k : Nat) : Bool := d.tiles.logical.any fun e => (e.2.slots ++ e.2.queue).any fun s => s.ctx = k

/-- The resident context whose rings have been idle longest. -/
def Dev.p8Victim (d : Dev) : Option Nat :=
  d.residents.foldl (fun b k =>
    match b with
    | none => some k
    | some j => if (d.ctx k).lastUse < (d.ctx j).lastUse then some k else some j) none

def Dev.enterResident (d : Dev) (k : Nat) : Dev :=
  (rangeFrom (256 + 4 * (k - 4)) 4).foldl Dev.firstLook (d.setCtx k { d.ctx k with resident := true, asked := none })

/-- A context asked for comes in: into a free slot, or for the one idle longest once that holds no part (R310). -/
def Dev.seatCtx (d : Dev) (k : Nat) : Dev :=
  if d.residents.length < 48 then d.enterResident k
  else match d.p8Victim with
    | some j => if d.holdsPart j then d else (d.setCtx j { d.ctx j with resident := false }).enterResident k
    | none => d

/-- The P8 commands that wait go on where they can, lowest context first: looked at on every tick (DESIGN CHOICE, log 138). -/
def Dev.p8Waiting (d : Dev) (lc : LifeCycle) : Dev :=
  (d.ctxs.filter fun e => e.2.asked.isSome).foldl (fun d e =>
    if d.ctxOpen e.1 then d.seatCtx e.1
    else (d.setCtx e.1 { d.ctx e.1 with asked := none }).p8Open lc (e.1 - 4) (e.2.asked.getD 0)) d

/-- `MAKE_RESIDENT`; it waits while none can leave. -/
def Dev.makeResident (d : Dev) (c : Nat) : Dev :=
  let v := c + 2 ^ 12
  d.onWrite p8Cmd v fun d =>
    let k := 4 + c
    if !d.p8 ∨ 4096 ≤ c ∨ !(d.ctxOpen k) then d.recordReg 0x0003 p8Cmd v
    else if (d.ctx k).resident then d
    else (d.setCtx k { d.ctx k with asked := some 0 }).seatCtx k

/-! ### Staging channels (11 R346, R347) -/

def stgReg (p c : Nat) : Nat := ctxReg p + 0xC0 + 0x20 * c

/-- `GO`: the channel is busy. -/
def Dev.stagingGo (d : Dev) (p c : Nat) : Dev :=
  let o := stgReg p c + 0x10
  d.onWrite o (2 ^ 40) fun d =>
    if 4 ≤ p ∨ 2 ≤ c then d
    else if (d.staging_ (2 * p + c)).st = 1 then d.recordReg 0x0101 o o
    else d.setStaging (2 * p + c) { st := 1, status := 0, copied := 0 }

def stagingReq (p : Nat) : Req := { ctx := p, cls := 2, key := 0 }

/-- The device range lies in open staging regions. -/
def Dev.stagingGranted (d : Dev) (p a n : Nat) : Bool :=
  n = 0 || (d.rangeAccess (stagingReq p) false a n)

/-- The 64-byte lines in ascending order; how many were copied, and whether a bad line stopped the copy. -/
def Dev.copyLines (d : Dev) (p : Nat) (out : Bool) (h a : Nat) : Nat → Nat → Dev × Nat × Bool
  | 0, n => (d, n, false)
  | k + 1, n =>
    if out then
      match d.read (stagingReq p) a 64 with
      | .ok d bs => Dev.copyLines (d.hostPut p h bs) p out (h + 64) (a + 64) k (n + 1)
      | .fail d _ => (d, n, true)
    else
      match d.write (stagingReq p) a (d.hostBytes h 64) with
      | .ok d _ => Dev.copyLines (d.hostCount false p 64) p out (h + 64) (a + 64) k (n + 1)
      | .fail d _ => (d, n, true)

/-- The fence signal of a copy that ends `OK`, with the new count. -/
def Dev.stagingOk (d : Dev) (p c n : Nat) : Dev :=
  let o := stgReg p c
  let d := (d.bump (o + 0x18) 1).endStaging p c 0 n
  if d.fld (o + 0x10) 25 1 = 1 then (d.engineSignal p (d.fld (o + 0x10) 26 14) (d.reg (o + 0x18)).toNat).1 else d

/-- `LINES` of the channel. -/
def Dev.stagingLines (d : Dev) (p c : Nat) : Nat := d.fld (stgReg p c + 0x10) 0 24

/-- A busy copy goes on up to line `k`, as far as the window's budget admits (10 R321); `last` takes the lines copied so far. -/
def Dev.stagingRun (d : Dev) (p c k : Nat) (last : Dev → Nat → Dev) : Dev :=
  let o := stgReg p c
  let a := d.fld (o + 8) 6 35 * 64
  let out : Bool := d.fld (o + 0x10) 24 1 = 1
  let m := (d.staging_ (2 * p + c)).copied
  if (d.staging_ (2 * p + c)).st ≠ 1 ∨ !d.servingIn p ∨ !d.hostUp then d
  else if m = 0 ∧ !(d.stagingGranted p a (64 * d.stagingLines p c)) then d.endStaging p c 1 0
  else match d.copyLines p out (d.fld o 6 58 * 64 + 64 * m) (a + 64 * m) (min (k - m) (d.hostLeft out p / 64)) m with
    | (d, n, true) => d.endStaging p c 1 n
    | (d, n, false) => last d n

/-- The copy is at line `m` and stays busy. -/
def Dev.stagingAt (d : Dev) (p c m : Nat) : Dev := d.setStaging (2 * p + c) { d.staging_ (2 * p + c) with copied := m }

/-- A busy copy ends once its last line is moved; `err` says after how many lines the host returned an error completion. -/
def Dev.stagingDone (d : Dev) (p c : Nat) (err : Option Nat) : Dev :=
  let n := d.stagingLines p c
  d.stagingRun p c (min n (err.getD n)) fun d m =>
    if n ≤ m then d.stagingOk p c m
    else if err.getD n ≤ m then d.endStaging p c 2 m
    else d.stagingAt p c m

/-- What the window that ends leaves idle has moved lines of the partition's busy copies (DESIGN CHOICE, log 137). -/
def Dev.stagingGoOn (d : Dev) (p : Nat) : Dev :=
  [0, 1].foldl (fun d c => d.stagingRun p c (d.stagingLines p c) fun d m => d.stagingAt p c m) d

end Sys2Proof.Machine
end

