-- ==== Sys2Proof/Machine/RegCore.lean ====
section
/-! DEFINITION. A register write as every register takes it: access codes, lock, reserved encodings (00 R12 to R16). -/

namespace Sys2Proof.Machine

/-- The register with the `LOCK` bit that guards the RWL fields at `off`, and that bit. -/
def lockAt (off : Nat) : Option (Nat × Nat) :=
  if off < 0x4000 then none
  else if 0xC000 ≤ off ∧ off < 0x10000 then some (0xC000, 2)
  else if 0x15000 ≤ off ∧ off < 0x18000 then some (0x15000, 1)
  else if 0x20000 ≤ off then some (if off < 0x2C000 then 0x20000 else 0x2C000, 1)
  else some (off / 0x4000 * 0x4000, 1)

/-- Bases, strides and counts of the registers that R269 lists beside the RWL fields and `LOCK` bits: `PV_CONFIG`, `TL_RETAIN`,
`TL_MAP`, holes, slice and substitution entries, `SH_INGRESS`, Batten log place, the Pleach set-up, Weft profiles and filter
taps, `CP_CTRL`, `CP_SPOT`, region table and key-slot attributes. -/
def hardenedRows : List (Nat × Nat × Nat) :=
  [(0x1C, 4, 1), (0x20100, 0x40, 4), (0x23000, 4, 1024), (0x14200, 4, 256), (0x14600, 0x200, 4), (0x14604, 0x200, 4),
   (0x14608, 0x200, 4), (0x1460C, 0x200, 4), (0x14700, 4, 64), (0x14900, 4, 64), (0x14B00, 4, 64), (0x14D00, 4, 64),
   (0x15100, 0x80, 4), (0x1C100, 0x20, 16), (0x1C108, 0x20, 16), (0x2C100, 0x100, 4), (0x2C108, 0x100, 4), (0x2C110, 0x100, 4),
   (0x2C118, 0x100, 4), (0x2C120, 0x100, 4), (0x2C128, 0x100, 4), (0x2C130, 0x100, 4), (0x19000, 8, 512), (0x1A000, 4, 128),
   (0x8000, 4, 1), (0x8100, 0x80, 4), (0x10108, 8, 1), (0x10110, 4, 1), (0x10118, 4, 1), (0x10208, 8, 1)]

/-- The register at `off` holds a hardened field (09 R269). -/
def hardenedAt (off : Nat) : Bool :=
  (hardenedRows.any fun e => e.1 ≤ off && (off - e.1) % e.2.1 = 0 && (off - e.1) / e.2.1 < e.2.2) ||
    match regAt off with
    | some (s, o) => o = off && s.fields.any fun f => f.acc = .rwl
    | none => false

/-- The hardened fields of the register at `off`: all of a register of the list, else its RWL fields and its `LOCK` bit. -/
def hardenedFields (off : Nat) : List (Nat × Nat) :=
  match regAt off with
  | some (s, _) =>
    let all := hardenedRows.any fun e => e.1 ≤ off && (off - e.1) % e.2.1 = 0 && (off - e.1) / e.2.1 < e.2.2
    (s.fields.filter fun f => all || f.acc = .rwl || lockAt off = some (off, f.lo)).map fun f => (f.lo, f.w)
  | none => []

/-- The RWL fields at `off` are locked. -/
def Dev.locked (d : Dev) (off : Nat) : Bool :=
  match lockAt off with
  | some (o, b) => d.fld o b 1 = 1
  | none => false

/-- A write under way: the register's value so far, a reserved encoding met, a locked field that the write would change. -/
structure Merge where
  value : Nat
  reserved : Bool
  locked : Bool
  deriving DecidableEq, Repr

/-- Apply one field of a write of bits `[lo + w - 1 : lo]` that holds `new` in register position; a field of which no bit is
written is left alone. -/
def mergeField (lk : Bool) (lo w new : Nat) (m : Merge) (f : RegField) : Merge :=
  if f.lo + f.w ≤ lo ∨ lo + w ≤ f.lo then m
  else
    let old := bits m.value f.lo f.w
    let x := bits (setBits m.value lo w (bits new lo w)) f.lo f.w
    match f.acc with
    | .ro => m
    | .wo => m
    | .rw1c => { m with value := setBits m.value f.lo f.w (old - (old &&& bits new f.lo f.w)) }
    | .rw => if x < f.least ∨ f.most < x then { m with reserved := true } else { m with value := setBits m.value f.lo f.w x }
    | .rwl =>
      if lk then { m with locked := m.locked || x ≠ old }
      else if x < f.least ∨ f.most < x then { m with reserved := true }
      else { m with value := setBits m.value f.lo f.w x }

/-- The whole write; a `LOCK` bit that is 1 stays 1. -/
def Dev.mergeWrite (d : Dev) (s : RegSpec) (o lo w v : Nat) : Merge :=
  let m := s.fields.foldl (mergeField (d.locked o) lo w (v * 2 ^ lo)) { value := (d.reg o).toNat, reserved := false, locked := false }
  match lockAt o with
  | some (l, b) => if l = o && d.locked o then { m with value := setBits m.value b 1 1 } else m
  | none => m

/-- The write of `w` bits of `v` to bit `lo` of the register at `o`: the field changes, entry 0x0001 for reserved encodings,
entry 0x0002 for a locked field that would change. -/
def Dev.applyWrite (d : Dev) (s : RegSpec) (o lo w v : Nat) : Dev :=
  let m := d.mergeWrite s o lo w v
  let d := d.setReg o (BitVec.ofNat 64 m.value)
  let d := if m.reserved then d.recordReg 0x0001 o (v % 2 ^ w) else d
  if m.locked then d.recordReg 0x0002 o (v % 2 ^ w) else d

/-- The value that a field would hold after the write, whatever its access code. -/
def Dev.wouldBe (d : Dev) (o lo w v flo fw : Nat) : Nat := bits (setBits (d.reg o).toNat lo w (v % 2 ^ w)) flo fw

/-- A write of the whole register at `o` under its access codes. -/
def Dev.plainWrite (d : Dev) (o v : Nat) : Dev :=
  match regAt o with
  | some (s, _) => d.applyWrite s o 0 (8 * s.bytes) v
  | none => d

end Sys2Proof.Machine
end

