-- ==== Sys2Proof/Machine/Faults.lean ====
section
/-! DEFINITION. Coppice: error signals and fencing, in-field tests and re-admission, the fault log's controls, injection;
the overflow clears, stage-balance control and the partition count (01 R21, 05 R148, R149, 06 R182, 09 R269 to R287). -/

namespace Sys2Proof.Machine

/-! ### What a fencing does beyond its record (Table 09-3) -/

/-- Link ports of compute die `k` (00 Table 00-3). -/
def diePorts (k : Nat) : List Nat :=
  match k with
  | 0 => [1, 7]
  | 1 => [0, 6]
  | 2 => [3, 5]
  | _ => [2, 4]

/-- Regions not closed with a granule on stack `k`. -/
def Dev.regionsOn (d : Dev) (k : Nat) : List Nat :=
  (d.regions.filter fun e => e.2.st ≠ .closed && e.2.st ≠ .lost &&
    (List.range (min e.2.granules 16)).any fun i => d.stackOf ((e.2.base + i) * granuleBytes) = k).map Prod.fst

/-- A stack with its controller, Selvedge and Batten is gone: its regions are lost, and each context that owns one receives a
C3 entry, whose cause and detail the spec does not give (assumption log 40). -/
def Dev.stackGone (d : Dev) (k : Nat) : Dev :=
  let ps := (d.regionsOn k).map d.regionPart
  let cs := d.heldCtxs.filter fun c => ps.contains (ctxPart c)
  cs.foldl (fun d c =>
    let (v, d) := d.draw
    d.recordC3 (v % 65536) c (v / 65536)) ((d.loseRegions k).loseBatten k)

/-- Logical tiles with a replay run on tile `t`. -/
def Dev.runsOn (d : Dev) (t : Nat) : List Nat :=
  (d.tiles.logical.filter fun e => match e.2.replay with
    | some r => r.on.any fun e => e.1 = t
    | none => false).map Prod.fst

/-- A replay run of logical tile `l` on tile `t` moves to another permitted spare, or to the first tile (R266). -/
def Dev.moveRun (d : Dev) (t l : Nat) : Dev :=
  match (d.lt l).replay with
  | some r =>
    let n := (d.spareFor r.first).getD r.first
    let d := if n = r.first then d else d.setTileState n 2
    d.setLt l { d.lt l with replay := some { r with on := r.on.map fun e => if e.1 = t then (n, e.2) else e } }
  | none => d

/-- A fenced tile: an uncommitted pick is replayed, its logical tile leaves at the pick boundary. A broken pair is a cause of R262;
another reason for the fencing is none, and its number is free (assumption log 130). -/
def Dev.tileGone (d : Dev) (t : Nat) : Dev :=
  match d.logicalOf t with
  | some l =>
    let d := d.setLeaving t 2
    if (d.lt l).pick.isSome ∧ (d.lt l).replay.isNone then
      d.suspect l (Config.suspectCause (if (d.unit .tile t).reason = 3 then 3 else 5) % 32)
    else d
  | none => ((d.runsOn t).foldl (fun d l => d.moveRun t l) d).setTileState t 7

/-- A compute die: its tiles, stacks and ports together. -/
def Dev.dieGone (d : Dev) (k : Nat) : Dev :=
  let d := ((List.range 1088).filter fun t => tileDie t = k).foldl Dev.tileGone d
  let d := (rangeFrom (4 * k) 4).foldl Dev.stackGone d
  (diePorts k).foldl Dev.portFence d

/-- Coppice fences a unit (R275): Privet, the RTP, the hub fabric and the CXL port are device-fatal and record the C4 entry
alone; a stack's Selvedge takes its stack with it. -/
def Dev.fenceUnit (d : Dev) (u : UnitType) (id reason : Nat) : Dev :=
  if d.fenced u id then d
  else match u with
    | .tile => (d.markFenced .tile id reason).tileGone id
    | .batten => d.fenceBatten id reason
    | .stack => (d.markFenced .stack id reason).stackGone id
    | .selvedge =>
      let d := d.markFenced .selvedge id reason
      if id < 16 then (d.setUnit .stack id { d.unit .stack id with fenced := true, reason := reason }).stackGone id else d
    | .die => (d.markFenced .die id reason).dieGone id
    | .port => (d.markFenced .port id reason).portFence id
    | .lane => (d.markFenced .lane id reason).laneFault (id / 8)
    | .videoEngine => d.markFenced .videoEngine id reason
    | .audioEngine =>
      match d.unitPart .audioEngine id with
      | some p => (d.markFenced .audioEngine id reason).audioLost p
      | none => d.markFenced .audioEngine id reason
    | .hub =>
      if id < 4 then
        let up := d.minimumUp
        (d.setUnit .hub id { d.unit .hub id with fenced := true, reason := reason }).checkMinimum up .hub id
      else d.markFenced .hub id reason
    | .device => d
    | .register => d
    | .context => d
    | .peer => d

/-! ### Error signals (R275, R279) -/

/-- A corrected error counts in the hour of its stamp; the 17th of an hour fences the unit (R275). -/
def Dev.countCorrected (d : Dev) (u : UnitType) (id : Nat) : Dev :=
  let r := d.unit u id
  let n := if r.hour = d.hour then r.corrected + 1 else 1
  let d := d.setUnit u id { r with hour := d.hour, corrected := n }
  if 16 < n then d.fenceUnit u id 4 else d

/-- A broken pair fences its source (Table 09-4). -/
def Dev.pairBroken (d : Dev) (u : UnitType) (id : Nat) : Dev := (d.bump 0x8088 1).fenceUnit u id 3

/-- Sources of error signals: units of the device in service. -/
def isSource (u : UnitType) (id : Nat) : Bool :=
  match u with
  | .tile => id < 1088
  | .batten => id < 16
  | .stack => id < 16
  | .videoEngine => id < 32
  | .audioEngine => id < 4
  | .port => id < 8
  | .lane => id < 64
  | .selvedge => id ≤ 16
  | .die => id < 4
  | .hub => id < 6
  | _ => false

/-- What a sample of a pair reads (Table 09-4). -/
inductive PairState where
  | quiet | error | broken
  deriving DecidableEq, Repr

def pairState (s : PairSample) : PairState := if s.e = s.n then .broken else if s.e then .error else .quiet

/-- A source whose signals count: in service, not fenced; a fenced unit's signals count only towards its re-admission test (R275). -/
def Dev.hearsSource (d : Dev) (u : UnitType) (id : Nat) : Bool := d.on && isSource u id && !d.fenced u id

/-- An error is classified by its cause (Table 09-6). -/
def Dev.classify (d : Dev) (u : UnitType) (id : Nat) : ErrorCause → Dev
  | .corrected line => (d.record 1 0x0304 u id (d.unitPart u id) line).countCorrected u id
  | .uncorrectable => d.fenceUnit u id (if u = .lane then 7 else 2)

/-- `ERROR_SIGNAL`: a state that holds for fewer than both samples is ignored (R279). -/
def Dev.errorSignal (d : Dev) (u : UnitType) (id : Nat) (r : PairReading) : Dev :=
  if !d.hearsSource u id ∨ pairState r.first ≠ pairState r.second then d
  else match pairState r.first with
    | .quiet => d
    | .error => d.classify u id r.cause
    | .broken => d.pairBroken u id

/-- Some sample of the strobe is not as R280 expects of a whole pair. -/
def strobeFails (r : StrobeReading) : Bool :=
  ([r.in1, r.in2, r.after1, r.after2].any fun s => pairState s = .broken) || [r.in1, r.in2].any fun s => pairState s = .quiet

/-- A source's pair at a tick: broken, or, with both samples after the window an error, classified (R280). -/
def Dev.strobe (d : Dev) (r : StrobeReading) : Dev :=
  if !d.hearsSource r.unit r.id then d
  else if strobeFails r then d.pairBroken r.unit r.id
  else if pairState r.after1 = .error ∧ pairState r.after2 = .error then d.classify r.unit r.id r.cause
  else d

/-! ### In-field tests (R271 to R274, Table 09-2) -/

/-- 60 minutes, 10 minutes of grace, in ns. -/
def testPeriod : Nat := 3600000000000

def testGrace : Nat := 600000000000

/-- A dispatch for logical tile `l` has been accepted and waits in its ring (R272). -/
def Dev.dispatchWaits (d : Dev) (l : Nat) : Bool :=
  d.rings.any fun e => e.2.pend.any fun a => a.phase = .waiting && (d.tilesNamed e.1 a.desc).contains l

/-- The logical tile that `t` carries holds no part, and no dispatch for it is accepted. -/
def Dev.tileFree (d : Dev) (t : Nat) : Bool :=
  match d.logicalOf t with
  | some l => (d.lt l).slots.isEmpty && (d.lt l).queue.isEmpty && (d.lt l).replay.isNone && !d.dispatchWaits l
  | none => true

/-- A region re-encrypts on the spare lane of Selvedge `k`. -/
def Dev.laneHeld (d : Dev) (k : Nat) : Bool :=
  d.regions.any fun e => e.2.st = .reencrypting && (List.range (min e.2.granules 16)).any fun i =>
    d.stackOf ((e.2.base + i) * granuleBytes) = k

/-- The unit may begin its test now. A decode engine begins when it holds no segment, as the row says by occurring. -/
def Dev.mayTest (d : Dev) (u : UnitType) (id : Nat) : Bool :=
  match u with
  | .tile => id < 1088 && [0, 1, 6].contains (d.tileState id) && d.tileFree id && !d.power.lastOver
  | .batten => id < 16 && (d.bt (stackPart d.parts id)).update.isNone
  | .videoEngine => id < 32
  | .audioEngine => id < 4
  | .selvedge => id ≤ 16 && !d.laneHeld id
  | _ => false

/-- The test is due: 60 minutes after the last, or out of turn for a tile that waits for it without a logical tile. -/
def Dev.testDue (d : Dev) (u : UnitType) (id : Nat) : Bool :=
  (d.unit u id).lastTest + testPeriod ≤ d.now || (u = .tile && d.leavingFor id = 1 && (d.logicalOf id).isNone)

def Dev.testStart (d : Dev) (u : UnitType) (id : Nat) : Dev :=
  let r := d.unit u id
  if !d.testsOn ∨ d.fenced u id ∨ r.testing ∨ !(d.testDue u id) ∨ !(d.mayTest u id) then d
  else
    let d := d.setUnit u id { r with testing := true }
    if u = .tile then d.setTileState id 5 else d

/-- The tile has passed: it goes on with its logical tile, its forced swap no longer due, or is a spare; a forced swap is counted
(R273). -/
def Dev.testPassed (d : Dev) (t : Nat) : Dev :=
  match d.logicalOf t with
  | some l => (if d.leavingFor t = 3 then d.setLeaving t 0 else d).restState l
  | none =>
    let d := if d.leavingFor t = 3 then d.bump 0x8070 1 else d
    (d.setLeaving t 0).setTileState t 6

/-- The tile has failed: fenced, its logical tile taken over at once (R274). -/
def Dev.testFailed (d : Dev) (t : Nat) : Dev :=
  let d := d.fenceUnit .tile t 1
  if (d.logicalOf t).isSome then d.replaceTile t true else (d.setLeaving t 0).setTileState t 7

/-- An armed injection of kind 9 makes the test fail. -/
def Dev.testVerdict (d : Dev) (u : UnitType) (id : Nat) (passed : Bool) : Dev × Bool :=
  if d.armedFor 9 u id then (d.injected u id, false) else (d, passed)

def Dev.testEnd (d : Dev) (u : UnitType) (id : Nat) (passed : Bool) : Dev :=
  let r := d.unit u id
  if !d.on ∨ !r.testing then d
  else
    let (d, ok) := d.testVerdict u id passed
    let d := (d.setUnit u id { r with testing := false, lastTest := d.now, overdue := false }).bump 0x8068 1
    if ok then (if u = .tile then d.testPassed id else d)
    else
      let d := d.bump 0x8078 1
      if u = .tile then d.testFailed id else d.fenceUnit u id 1

/-- Due for 10 minutes: a tile is swapped for a spare at its next pick boundary, or, with none free, recorded once; a decode
engine is withdrawn; Batten and Selvedge wait. -/
def Dev.testOverdue (d : Dev) (u : UnitType) (id : Nat) : Dev :=
  let r := d.unit u id
  if !d.testsOn ∨ d.fenced u id ∨ r.testing ∨ d.now < r.lastTest + testPeriod + testGrace then d
  else match u with
    | .tile =>
      if 1088 ≤ id ∨ (d.logicalOf id).isNone ∨ d.leavingFor id ≠ 0 then d
      else if (d.spareFor id).isSome then (d.setLeaving id 3).replaceTile id true
      else if r.overdue then d
      else (d.setUnit .tile id { r with overdue := true }).record 1 0x0307 .tile id (d.unitPart .tile id)
        ((d.now - (r.lastTest + testPeriod)) / 60000000000)
    | .videoEngine => if id < 32 then d.setUnit u id { r with testing := true } else d
    | .audioEngine => if id < 4 then d.setUnit u id { r with testing := true } else d
    | _ => d

/-- A fenced tile, Batten or decode engine is tested again; the third pass in a row re-admits it (R277). -/
def Dev.retest (d : Dev) (u : UnitType) (id : Nat) (passed : Bool) : Dev :=
  let r := d.unit u id
  let kind : Bool := u = .tile || u = .batten || u = .videoEngine || u = .audioEngine
  if !d.testsOn ∨ !kind ∨ !r.fenced ∨ d.wholeFenced u id ∨ r.permanent ∨ d.now < r.lastTest + testPeriod then d
  else
    let (d, ok) := d.testVerdict u id passed
    let d := d.bump 0x8068 1
    if !ok then (d.setUnit u id { r with passes := 0, lastTest := d.now }).bump 0x8078 1
    else if r.passes + 1 < 3 then d.setUnit u id { r with passes := r.passes + 1, lastTest := d.now }
    else
      let d := d.setUnit u id { r with fenced := false, reason := 0, passes := 0, lastTest := d.now, corrected := 0 }
      let d := d.record 0 0x0311 u id (d.unitPart u id) r.fencings
      if u = .tile ∧ !d.fenced .tile id then d.setTileState id 6 else d

/-! ### Controls of the fault log (R283, R285) -/

/-- `CLEAR_ALL`. -/
def Dev.clearAll (d : Dev) : Dev :=
  d.onWrite 0x800C 1 fun d =>
    let es := d.log.entries.map fun e => (e.1, e.2.map fun x => { x with cleared := x.cleared || 2 ≤ x.cls })
    { d with log := { d.log with uncleared := 0, lostTop := 0, entries := es } }

/-- `UNPIN`: the next 64 entries pin. -/
def Dev.unpin (d : Dev) : Dev := d.onWrite 0x800C 2 fun d => { d with log := { d.log with pinned := 0 } }

/-- `CP_CLEAR`: an uncleared entry is cleared; a saturated count stays. -/
def Dev.clearEntry (d : Dev) (i : Nat) : Dev :=
  d.onWrite 0x8010 i fun d =>
    match d.log.entry i with
    | some e =>
      if e.cls < 2 ∨ e.cleared then d
      else { d with log := { d.log with
        entries := Sparse.set (fun _ => none) d.log.entries i (some { e with cleared := true })
        uncleared := if d.log.uncleared = 0xFFFF then 0xFFFF else d.log.uncleared - 1 } }
    | none => d

/-! ### Fault injection (R287) -/

/-- A write of `written` to `CP_INJECT`, which leaves the register at `v`. -/
def Dev.injectArm (d : Dev) (lc : LifeCycle) (v written : Nat) : Dev :=
  d.onWrite 0x8060 written fun d =>
    if lc ≠ .test then d.recordReg 0x0320 0x8060 written
    else if d.fld 0x8060 63 1 = 1 then d.recordReg 0x0003 0x8060 written
    else d.plainWrite 0x8060 v

def unitOfCode (c : Nat) : Option UnitType :=
  [UnitType.device, .tile, .batten, .stack, .videoEngine, .audioEngine, .port, .lane, .selvedge, .die, .register, .context,
   .hub, .peer].find? fun u => unitCode u = c

/-! ### The three copies of a hardened field (R269, R270) -/

/-- Bits `m` of copy `i` flip. -/
def Copies.flip (x : Copies) (i : Nat) (m : Word64) : Copies :=
  match i with
  | 0 => { x with a := x.a ^^^ m }
  | 1 => { x with b := x.b ^^^ m }
  | _ => { x with c := x.c ^^^ m }

def Dev.copies (d : Dev) (off : Nat) : Copies := Sparse.get copiesReset d.regs off

def Dev.setCopies (d : Dev) (off : Nat) (x : Copies) : Dev := { d with regs := Sparse.set copiesReset d.regs off x }

/-- The bits of the hardened fields of the register at `off`. -/
def hardenedMask (off : Nat) : Word64 :=
  (hardenedFields off).foldl (fun m f => m ||| BitVec.ofNat 64 ((2 ^ f.2 - 1) * 2 ^ f.1)) 0

/-- An upset of one copy reaches the hardened fields of the register alone: the rest of it is not held in copies. -/
def Dev.flipCopy (d : Dev) (f : CopyFlip) : Dev :=
  if hardenedAt f.off then d.setCopies f.off ((d.copies f.off).flip f.copy (f.mask &&& hardenedMask f.off)) else d

/-- Field `[lo + w - 1 : lo]` of the register at `off` compared as a whole value: a copy that differs is rewritten from the two
equal ones, entry 0x0305; three that differ from one another leave no trusted value, entry 0x0306. -/
def Dev.compareField (d : Dev) (off : Nat) (f : Nat × Nat) : Dev :=
  let x := d.copies off
  let a := bits x.a.toNat f.1 f.2
  let b := bits x.b.toNat f.1 f.2
  let c := bits x.c.toNat f.1 f.2
  let put (v : Word64) (n : Nat) : Word64 := BitVec.ofNat 64 (setBits v.toNat f.1 f.2 n)
  let mend (n : Nat) : Dev :=
    (d.setCopies off { a := put x.a n, b := put x.b n, c := put x.c n }).record 1 0x0305 .register (off / 4) none off
  if a = b ∧ b = c then d
  else if a = b ∨ a = c then mend a
  else if b = c then mend b
  else d.record 4 0x0306 .register (off / 4) none off

/-- Coppice compares the copies of every hardened field; a register that holds its reset value has none that differ. -/
def Dev.compareCopies (d : Dev) : Dev :=
  ((d.regs.map Prod.fst).filter hardenedAt).foldl (fun d o => (hardenedFields o).foldl (fun d f => d.compareField o f) d) d

/-- An injection of kind 8 flips bit `BIT` of one copy of the register that `UNIT_ID` names by its word, where that bit belongs to
a hardened field; it waits for ever where it does not (assumption log 133). -/
def Dev.injectCopy (d : Dev) (u : UnitType) (id : Nat) : Dev :=
  match regAt (4 * id) with
  | none => d
  | some (_, o) =>
    let m : Word64 := BitVec.ofNat 64 (2 ^ (d.fld 0x8060 28 5 + 8 * (4 * id - o)))
    if u = .register ∧ hardenedAt o ∧ m &&& hardenedMask o ≠ 0 then (d.injected u id).flipCopy { off := o, copy := 0, mask := m } else d

/-- The armed fault of a kind that meets its unit at a tick: its pair is driven (0, 1), an SRAM word or a hardened copy flips
(6 to 8). What the spec leaves open of kind 0 and 6 is free (assumption log 41). -/
def Dev.injectTick (d : Dev) : Dev :=
  let k := d.fld 0x8060 0 4
  let id := d.fld 0x8060 12 16
  match unitOfCode (d.fld 0x8060 4 8) with
  | none => d
  | some u =>
    if d.fld 0x8060 63 1 = 0 then d
    else if k = 8 then d.injectCopy u id
    else if !isSource u id ∨ d.fenced u id then d
    else if k = 0 ∨ k = 6 then
      let (v, d) := (d.injected u id).draw
      d.classify u id (.corrected v)
    else if k = 1 then (d.injected u id).pairBroken u id
    else if k = 7 then (d.injected u id).classify u id .uncorrectable
    else d

/-! ### Overflow clears, stage balance, partition count -/

def Dev.tlOvfClear (d : Dev) (p : Nat) : Dev :=
  d.onWrite (0x20130 + 0x40 * p) 1 fun d =>
    let ls := Sparse.alter (fun _ => LTile.reset) d.tiles.logical fun l x => if tilePart d.parts l = p then { x with sat := 0, nanint := 0 } else x
    { d with tiles := { d.tiles with logical := ls } }

def Dev.btOvfClear (d : Dev) (p : Nat) : Dev := d.onWrite (0x1C448 + 0x80 * p) 1 fun d => d.setReg (btReg p + 0x18) 0

/-- A write of `TL_MB_CTRL`: `FENCE` is left alone while `ENABLE` is 1; `ENABLE` from 0 to 1 starts the counters anew. -/
def Dev.mbControl (d : Dev) (p v : Nat) : Dev :=
  d.onWrite (mbReg p) v fun d =>
    let on : Bool := d.fld (mbReg p) 14 1 = 1
    let f := d.fld (mbReg p) 0 14
    let d := d.plainWrite (mbReg p) v
    if on then (d.setFld (mbReg p) 0 14 f).recordReg 0x0003 (mbReg p) v
    else if d.fld (mbReg p) 14 1 = 1 then d.mbStart p
    else d

/-- Every region is `CLOSED` (12 R361). -/
def Dev.allClosed (d : Dev) : Bool := d.regions.all fun e => e.2.st = .closed

/-- Host and link shares of Table 01-3. -/
def Dev.defaultShares (d : Dev) : Dev :=
  let s := 64 / d.parts
  (List.range 4).foldl (fun d p => d.setReg (0x4130 + 0x100 * p) (BitVec.ofNat 64 (if p < d.parts then s + s * 256 else 0))) d

/-- A logical tile that runs on a tile of a die which another partition owns now goes back to a tile of its own dies, unbacked
where none is free (01 R19, R20). -/
def Dev.rehome (d : Dev) (l : Nat) : Dev :=
  match d.physOf l with
  | none => d
  | some t =>
    if diePart d.parts (tileDie t) = tilePart d.parts l then d
    else
      let d := d.setMap l (d.spareFor (initialPhys l))
      let d := if (d.physOf l).isSome then (d.bump (0x20128 + 0x40 * tilePart d.parts l) 1).restState l else d
      d.freed t

/-- Every logical tile keeps to the dies of its partition. -/
def Dev.rehomeAll (d : Dev) : Dev := (d.tiles.map.map Prod.fst).foldl Dev.rehome d

/-- `PARTS` of `PV_CONFIG` is written: changed while nothing is open, or refused (R21). -/
def Dev.partitionCount (d : Dev) (v : Nat) : Dev :=
  d.onWrite 0x1C v fun d =>
    if v % 4 = 3 then d.recordReg 0x0001 0x1C v
    else if v % 4 = d.fld 0x1C 0 2 then d
    else if d.anyOpen ∨ !d.allClosed then (d.setFld 0x1C 8 1 1).recordReg 0x0003 0x1C v
    else (d.setFld 0x1C 0 2 v).defaultShares.rehomeAll

end Sys2Proof.Machine
end

