-- ==== Sys2Proof/Machine/Settle.lean ====
section
/-! DEFINITION. What a command sets off at once and the device finishes before the next: the consequences of applied fence
signals (06 R176, 13 R404, 02 R63, 08 R226, 05 R148), the recovery stop of a C3 entry (10 R316), the count of corrected lines (09 R275), the stop of a C4
entry (09 Table 09-5). -/

namespace Sys2Proof.Machine

/-! ### The aggregation floor (13 R404) -/

/-- Whether counts by owner tag hold the floor of a manifest. -/
def floorHolds (m : Manifest) (c : Sparse Nat) : Bool :=
  let total := c.foldl (fun n e => n + e.2) 0
  m.floorSamples ≤ total && m.floorOwners ≤ (c.filter fun e => 1 ≤ e.2).length &&
    c.all fun e => e.2 * 256 ≤ m.floorShare * total

/-- At a step commit the RTP evaluates the counts; held, they start again from 0. -/
def Dev.evaluateFloor (d : Dev) (p : Nat) : Dev :=
  let x := d.rtpPart p
  match x.manifest with
  | none => d
  | some m =>
    if m.floorSamples = 0 then d
    else if floorHolds m x.counts then d.setRtpPart p { x with floorOpen := true, counts := [] }
    else d.setRtpPart p { x with floorOpen := false }

/-! ### An applied signal -/

/-- The step commit that the signal brings, its floor evaluation and its checkpoint triggers. -/
def Dev.commitDue (d : Dev) (p : Nat) : Dev :=
  match d.commitStep p with
  | (d, none) => d
  | (d, some s) => (d.evaluateFloor p).evaluateCut p s

/-- Fence `f` was signalled with `v`: step commit, retired sequences, cut and keep fences, micro-batch stamp. -/
def Dev.afterSignal (d : Dev) (f v : Nat) : Dev :=
  let p := rangePart d.parts 16384 f
  (((d.commitDue p).weftRetire p).pleachSignal p f v).mbSignal p f

/-! ### A C4 entry (Table 09-5) -/

/-- Every context's rings stop, every link port goes down, tiles stop; the minimum service set lost, the device is held
(09 R278, 15 R442). -/
def Dev.fatalStop (d : Dev) : Dev :=
  let d := { d with fatalDue := false, power := { d.power with fatal := true } }
  let d := (d.ctxs.map Prod.fst).foldl (fun d k => d.recoveryStop k false) d
  let d := d.portsDown
  if d.minimumUp then d else d.setPower .held

/-! ### Settling -/

/-- Nothing is due. -/
def Dev.quiet (d : Dev) : Bool := d.sigsDue.isEmpty && d.stopsDue.isEmpty && d.sv.errs.isEmpty && !d.fatalDue

/-- Stack `k` has one corrected line more (12 R374, 09 R275); `ks` are still to be counted. -/
def Dev.countLine (d : Dev) (k : Nat) (ks : List Nat) : Dev :=
  Dev.countCorrected { d with sv := { d.sv with errs := ks } } .stack k

/-- Signals in the order in which they were applied, then stops, then counts of corrected lines; at the bound nothing is due any more. -/
def Dev.settleFrom : Nat → Dev → Dev
  | 0, d => { d with sigsDue := [], stopsDue := [], fatalDue := false, sv := { d.sv with errs := [] } }
  | n + 1, d =>
    match d.sigsDue, d.stopsDue, d.sv.errs with
    | (f, v) :: ss, _, _ => Dev.settleFrom n (Dev.afterSignal { d with sigsDue := ss } f v)
    | [], k :: ks, _ => Dev.settleFrom n (Dev.recoveryStop { d with stopsDue := ks } k false)
    | [], [], k :: ks => Dev.settleFrom n (d.countLine k ks)
    | [], [], [] => if d.fatalDue then Dev.settleFrom n d.fatalStop else d

/-- Finish what is due. A stop applies no signal of its own beyond those of its engines, so the bound is never met. -/
def Dev.settle (d : Dev) : Dev := if d.quiet then d else d.settleFrom (4096 + d.sigsDue.length + d.stopsDue.length + d.sv.errs.length)

end Sys2Proof.Machine
end

