-- ==== Sys2Proof/Machine/Rows.lean ====
section
/-! DEFINITION. How a meaning ends: the effect on the device, and what it sets off at once. -/

namespace Sys2Proof.Machine

/-- The next state after effect `f` on the device; fuses and queue stand. -/
def State.after (s : State) (f : Dev → Dev) : Host.Outcome State Fault Refusal := .next { s with dev := (f s.dev).settle }

end Sys2Proof.Machine
end

