-- ==== Sys2Proof/Machine/RowsBatten.lean ====
section
/-! DEFINITION. The meanings of the rows of this family: Batten and the update-program instructions (06). -/

namespace Sys2Proof.Machine

/-- `UPDATE` (06 R157). -/
def execUpdate (ring : Nat) (s : State) : Host.Outcome State Fault Refusal := s.after fun d => d.update ring

/-- `NORM_GATE` (06 R158). -/
def execNormGate (p : Nat) (s : State) : Host.Outcome State Fault Refusal := s.after fun d => d.normGate p

/-- `UPDATE_BLOCK` (06 R168): `errs` hit the first run, `again` the re-runs. -/
def execUpdateBlock (n : Nat) (errs again : List BlockError) (s : State) : Host.Outcome State Fault Refusal :=
  s.after fun d => d.updateBlock n (errs ++ again)

/-- `LOG_SEAL` (06 R171). -/
def execLogSeal (n : Nat) (s : State) : Host.Outcome State Fault Refusal := s.after fun d => d.logSeal n

/-- `WORKING_COPY_WRITE` (06 R174). -/
def execWorkingCopyWrite (n : Nat) (s : State) : Host.Outcome State Fault Refusal := s.after fun d => d.workingCopy n

/-- `BATTEN_LOG_RECOVERY` (06 R172). -/
def execBattenLogRecovery (n byBatten : Nat) (readable : Bool) (s : State) : Host.Outcome State Fault Refusal :=
  s.after fun d => d.logRecovery n byBatten readable

/-- `PROG_END` (06 R163). -/
def execProgEnd (n : Nat) (f : ProgFields) (s : State) : Host.Outcome State Fault Refusal := s.after fun d => d.progRow n 0x00 f

/-- `PROG_LD` (06 R163). -/
def execProgLd (n : Nat) (f : ProgFields) (s : State) : Host.Outcome State Fault Refusal := s.after fun d => d.progRow n 0x01 f

/-- `PROG_LDC` (06 R163). -/
def execProgLdc (n : Nat) (f : ProgFields) (s : State) : Host.Outcome State Fault Refusal := s.after fun d => d.progRow n 0x02 f

/-- `PROG_MOV` (06 R163). -/
def execProgMov (n : Nat) (f : ProgFields) (s : State) : Host.Outcome State Fault Refusal := s.after fun d => d.progRow n 0x03 f

/-- `PROG_ST` (06 R164). -/
def execProgSt (n : Nat) (f : ProgFields) (s : State) : Host.Outcome State Fault Refusal := s.after fun d => d.progRow n 0x04 f

/-- `PROG_STZ` (06 R164). -/
def execProgStz (n : Nat) (f : ProgFields) (s : State) : Host.Outcome State Fault Refusal := s.after fun d => d.progRow n 0x05 f

/-- `PROG_STS` (06 R165). -/
def execProgSts (n : Nat) (f : ProgFields) (s : State) : Host.Outcome State Fault Refusal := s.after fun d => d.progRow n 0x06 f

/-- `PROG_ADD` (06 R163). -/
def execProgAdd (n : Nat) (f : ProgFields) (s : State) : Host.Outcome State Fault Refusal := s.after fun d => d.progRow n 0x10 f

/-- `PROG_SUB` (06 R163). -/
def execProgSub (n : Nat) (f : ProgFields) (s : State) : Host.Outcome State Fault Refusal := s.after fun d => d.progRow n 0x11 f

/-- `PROG_MUL` (06 R163). -/
def execProgMul (n : Nat) (f : ProgFields) (s : State) : Host.Outcome State Fault Refusal := s.after fun d => d.progRow n 0x12 f

/-- `PROG_DIV` (06 R163). -/
def execProgDiv (n : Nat) (f : ProgFields) (s : State) : Host.Outcome State Fault Refusal := s.after fun d => d.progRow n 0x13 f

/-- `PROG_FMA` (06 R163). -/
def execProgFma (n : Nat) (f : ProgFields) (s : State) : Host.Outcome State Fault Refusal := s.after fun d => d.progRow n 0x14 f

/-- `PROG_MAX` (06 R163). -/
def execProgMax (n : Nat) (f : ProgFields) (s : State) : Host.Outcome State Fault Refusal := s.after fun d => d.progRow n 0x15 f

/-- `PROG_MIN` (06 R163). -/
def execProgMin (n : Nat) (f : ProgFields) (s : State) : Host.Outcome State Fault Refusal := s.after fun d => d.progRow n 0x16 f

/-- `PROG_SQRT` (06 R163). -/
def execProgSqrt (n : Nat) (f : ProgFields) (s : State) : Host.Outcome State Fault Refusal := s.after fun d => d.progRow n 0x17 f

/-- `PROG_RSQRT` (06 R163). -/
def execProgRsqrt (n : Nat) (f : ProgFields) (s : State) : Host.Outcome State Fault Refusal := s.after fun d => d.progRow n 0x18 f

/-- `PROG_RECIP` (06 R163). -/
def execProgRecip (n : Nat) (f : ProgFields) (s : State) : Host.Outcome State Fault Refusal := s.after fun d => d.progRow n 0x19 f

/-- `PROG_ABS` (06 R163). -/
def execProgAbs (n : Nat) (f : ProgFields) (s : State) : Host.Outcome State Fault Refusal := s.after fun d => d.progRow n 0x1A f

/-- `PROG_NEG` (06 R163). -/
def execProgNeg (n : Nat) (f : ProgFields) (s : State) : Host.Outcome State Fault Refusal := s.after fun d => d.progRow n 0x1B f

/-- `PROG_RNDN` (06 R163). -/
def execProgRndn (n : Nat) (f : ProgFields) (s : State) : Host.Outcome State Fault Refusal := s.after fun d => d.progRow n 0x20 f

/-- `PROG_SRND` (06 R165). -/
def execProgSrnd (n : Nat) (f : ProgFields) (s : State) : Host.Outcome State Fault Refusal := s.after fun d => d.progRow n 0x21 f

/-- `PROG_CMPLT` (06 R163). -/
def execProgCmplt (n : Nat) (f : ProgFields) (s : State) : Host.Outcome State Fault Refusal := s.after fun d => d.progRow n 0x30 f

/-- `PROG_CMPLE` (06 R163). -/
def execProgCmple (n : Nat) (f : ProgFields) (s : State) : Host.Outcome State Fault Refusal := s.after fun d => d.progRow n 0x31 f

/-- `PROG_CMPEQ` (06 R163). -/
def execProgCmpeq (n : Nat) (f : ProgFields) (s : State) : Host.Outcome State Fault Refusal := s.after fun d => d.progRow n 0x32 f

/-- `PROG_ISNAN` (06 R163). -/
def execProgIsnan (n : Nat) (f : ProgFields) (s : State) : Host.Outcome State Fault Refusal := s.after fun d => d.progRow n 0x33 f

/-- `PROG_PNOT` (06 R163). -/
def execProgPnot (n : Nat) (f : ProgFields) (s : State) : Host.Outcome State Fault Refusal := s.after fun d => d.progRow n 0x34 f

/-- `PROG_PAND` (06 R163). -/
def execProgPand (n : Nat) (f : ProgFields) (s : State) : Host.Outcome State Fault Refusal := s.after fun d => d.progRow n 0x35 f

/-- `PROG_POR` (06 R163). -/
def execProgPor (n : Nat) (f : ProgFields) (s : State) : Host.Outcome State Fault Refusal := s.after fun d => d.progRow n 0x36 f

end Sys2Proof.Machine
end

