-- ==== Sys2Proof/Machine/Hybrid.lean ====
section
/-! DEFINITION. Keys that the RTP derives: the hybrid key toward a transport key pair, AES-256-GCM under it, and the fingerprints
(13 R384, R401). ML-KEM-768 is FIPS 203's, which the spec names and does not restate: its functions are free (`Config`). -/

namespace Sys2Proof.Machine

/-- A random secret of the RTP. -/
def Dev.secret (d : Dev) : Nat × Dev := (Config.randomSecret d.rtp.drawn, { d with rtp := { d.rtp with drawn := d.rtp.drawn + 1 } })

/-- `IDH` of the device: zero before it has an identity (14 R426). -/
def ownIdh (lc : LifeCycle) : Nat := if lc = .blank ∨ lc = .test then 0 else Config.identityHash

/-! ### Fingerprints (Table 13-2) -/

/-- First 16 bytes of HKDF of a secret under a label. -/
def fingerprint (label : String) (secret : Nat) : Nat :=
  leNat (Crypt.toBytes (Crypt.hkdf (Crypt.secretBytes secret) (Crypt.ascii label) 16))

/-- Job fingerprint of a job key. -/
def jobFingerprint (secret : Nat) : Nat := fingerprint "LQ16-JOBID" secret

/-- Data-key fingerprint. -/
def keyFingerprint (dk : Nat) : Nat := fingerprint "LQ16-KEYID" dk

/-! ### The hybrid key (R401) -/

/-- Public halves of a transport key pair, from its private ones: X25519's base point is 9. -/
def publicX (x : Nat) : Nat := Crypt.x25519 x 9

def publicM (seed : Nat) : Nat := Config.mlkemPublic seed

/-- HKDF(ss₁ | ss₂, label | MH | IDH of the receiver | ephemeral public key | ct). -/
def hybridKey (ss1 ss2 : Nat) (label : List Nat) (mh idh eph ct : Nat) : Nat :=
  leNat (Crypt.toBytes (Crypt.hkdf (Crypt.secretBytes ss1 ++ Crypt.secretBytes ss2)
    (label ++ Crypt.ofBytes (leBytes 48 mh ++ leBytes 48 idh ++ leBytes 32 eph ++ leBytes 1088 ct)) 32))

/-- What the sender of a hybrid key has: the ephemeral public key and the ciphertext, which go out, and the key. -/
structure Hybrid where
  eph : Nat
  ct : Nat
  key : Nat
  deriving DecidableEq, Repr

/-- The sender's side, toward public halves `x` and `m`: an ephemeral X25519 pair and an encapsulation, both random. -/
def Dev.hybridTo (d : Dev) (label : List Nat) (mh idh x m : Nat) : Hybrid × Dev :=
  let (a, d) := d.secret
  let (r, d) := d.secret
  let ct := Config.mlkemCiphertext m r
  ({ eph := publicX a, ct := ct, key := hybridKey (Crypt.x25519 a x) (Config.mlkemShared m r) label mh idh (publicX a) ct }, d)

/-- The receiver's side, from its private halves. -/
def RtpPart.hybridFrom (r : RtpPart) (label : List Nat) (mh idh eph ct : Nat) : Nat :=
  hybridKey (Crypt.x25519 r.tpX eph) (Config.mlkemOpen r.tpM ct) label mh idh eph ct

/-! ### AES-256-GCM under such a key: nonce zero, no associated data -/

def zeroNonce : List Nat := List.replicate 12 0

/-- Ciphertext, then the 16-byte tag. -/
def sealUnder (key : Nat) (text : List Byte) : List Byte :=
  let ct := Crypt.gcmCrypt (Crypt.secretBytes key) zeroNonce (Crypt.ofBytes text)
  Crypt.toBytes (ct ++ Crypt.gcmTag (Crypt.secretBytes key) zeroNonce [] ct)

/-- The text, where the tag holds. -/
def openUnder (key : Nat) (bs : List Byte) : Option (List Byte) :=
  let ct := Crypt.ofBytes (bs.take (bs.length - 16))
  if Crypt.gcmTag (Crypt.secretBytes key) zeroNonce [] ct = Crypt.ofBytes (bs.drop (bs.length - 16)) then
    some (Crypt.toBytes (Crypt.gcmCrypt (Crypt.secretBytes key) zeroNonce ct))
  else none

def admitLabel : List Nat := Crypt.ascii "LQ16-ADMIT"

def transportLabel : List Nat := Crypt.ascii "LQ16-KT"

/-- The label, `RELEASE` and `STEP` (R407). -/
def exportLabel (release step : Nat) : List Nat := Crypt.ascii "LQ16-EXPORT" ++ Crypt.ofBytes (leBytes 4 release ++ leBytes 4 step)

end Sys2Proof.Machine
end

