-- ==== Sys2Proof/Machine/Rtp.lean ====
section
/-! DEFINITION. The root-of-trust processor: the mailbox, manifests, jobs, admission, key slots, key updates, quorum release and
evidence (13 R381 to R413). -/

namespace Sys2Proof.Machine

/-! ### The mailbox (R410, R411) -/

def lcCode : LifeCycle → Nat
  | .blank => 0
  | .test => 1
  | .production => 2
  | .endOfLife => 3
  | .analysis => 4

def rtCmdReg : Nat := 0xC008

/-- The RTP answers: powered, its firmware verified or in recovery (14 R419, R420). -/
def Dev.rtpUp (d : Dev) : Bool := d.on && (d.power.booted || d.life.recovery)

/-- The host reaches the mailbox. -/
def Dev.mailboxUp (d : Dev) : Bool := d.rtpUp && !d.power.d3

/-- Write bytes to `RT_BUF` from its start. -/
def Dev.putBuf (d : Dev) (bs : List Byte) : Dev :=
  (chunksOf 8 1025 bs).zipIdx.foldl (fun d e => d.setFld (0xE000 + 8 * e.2) 0 (8 * e.1.length) (leNat e.1)) d

/-- The bytes of `RT_BUF`. -/
def Dev.getBuf (d : Dev) (n : Nat) : List Byte :=
  ((List.range (ceilDiv n 8)).flatMap fun i => leBytes 8 (d.reg (0xE000 + 8 * i)).toNat).take n

/-- A command completes: reply, status, `BUSY` cleared, vector 2. -/
def Dev.reply (d : Dev) (st : Nat) (bs : List Byte) : Dev :=
  let d := d.putBuf (bs.take 8192)
  Dev.raise { d with rtp := { d.rtp with busy := false, cmd := none, asm := [], status := st,
                                         replyLen := min bs.length 8192, more := bs.drop 8192 } } 2

/-- A command completes with a bare status. -/
def Dev.answer (d : Dev) (st : Nat) : Dev := d.reply st []

/-- The write of `RT_CMD` that delivers a command's final chunk shows in the register; the length is not the row's to say. -/
def Dev.showCommand (d : Dev) (op p : Nat) : Dev :=
  let (n, d) := d.draw
  d.setFld rtCmdReg 0 26 (op + b2n d.rtp.asm.isEmpty * 2 ^ 8 + 2 ^ 9 + p % 4 * 2 ^ 10 + n % 8193 * 2 ^ 12)

/-- Key slots, manifests and jobs are served: TEST, or PRODUCTION with its certificate, no invasive right opened since the last
reset (14 Table 14-1, R416, R427). -/
def Dev.keysServed (d : Dev) (lc : LifeCycle) : Bool :=
  (lc = .test || (lc = .production && d.life.cert)) && !d.life.invasive

/-- The status of a command that the RTP does not serve as it stands: tampered, in recovery, held (R383, R443, 14 R420). -/
def Dev.unserved (d : Dev) (op : Nat) : Option Nat :=
  if d.rtp.tampered ∧ op < 0x40 then some 0x0A
  else if d.life.recovery ∧ !([0x43, 0x44, 0x45, 0x4A, 0x4C].contains op) then some 0x0B
  else if d.power.st = .held ∧ op < 0x40 then some 0x0B
  else none

/-- The status with which a command is turned away before it is looked at, if any (R383, R409, R443, 14 R416, R420, R427). -/
def Dev.turnedAway (d : Dev) (lc : LifeCycle) (op p : Nat) : Option Nat :=
  if (d.unserved op).isSome then d.unserved op
  else if 0x40 ≤ op then none
  else if d.parts ≤ p then some 0x01
  else if op = 0x0B then
    (if lc = .test ∨ (lc = .production ∧ d.life.cert) then none else some 0x0B)
  else if !d.keysServed lc ∨ (d.ctx p).st = .tearing then some 0x0B
  else none

/-- A mailbox command `op` for partition `p` delivered and run. While another is in progress its write is ignored, entry
0x0003. -/
def Dev.mailbox (d : Dev) (lc : LifeCycle) (op p : Nat) (run : Dev → Dev) : Dev :=
  if !d.mailboxUp then d
  else if d.rtp.busy ∧ d.rtp.cmd.map (fun c => (c.op, c.part)) ≠ some (op, p) then d.recordReg 0x0003 rtCmdReg (op + 2 ^ 31)
  else
    let d := if d.rtp.busy then d else d.showCommand op p
    match d.turnedAway lc op p with
    | some st => d.answer st
    | none => run d

/-- The next part of the reply, where the RTP serves it: the command is none of those that stay open (R383, R443, 14 R420). -/
def Dev.replyChunk (d : Dev) : Dev :=
  match d.unserved 0 with
  | some st => d.answer st
  | none => d.reply d.rtp.status d.rtp.more

/-- The commands of Tables 13-12 and 14-6. -/
def mailOpcodes : List Nat := rangeFrom 1 11 ++ rangeFrom 0x40 13

/-- The value that a write of `RT_CMD` leaves: a reserved `OP` leaves the field alone (00 R14). -/
def Dev.chunkValue (d : Dev) (v : Nat) : Nat :=
  if bits v 0 8 = 0 ∨ mailOpcodes.contains (bits v 0 8) then v else setBits v 0 8 (d.fld rtCmdReg 0 8)

/-- A chunk written with `GO` (R410): appended; the final one makes the command, for its own row to run; a reserved `OP`
is malformed, and recorded as a reserved encoding. -/
def Dev.chunk (d : Dev) (v : Nat) : Dev :=
  d.onWrite rtCmdReg v fun d =>
    let bs := if bit v 8 then d.getBuf (bits v 12 14) else d.rtp.asm ++ d.getBuf (bits v 12 14)
    if d.rtp.busy then d.recordReg 0x0003 rtCmdReg v
    else
      let reserved := !(bits v 0 8 = 0 || mailOpcodes.contains (bits v 0 8))
      let d := d.setFld rtCmdReg 0 26 (d.chunkValue v)
      let d := if reserved then d.recordReg 0x0001 rtCmdReg v else d
      if !d.rtpUp ∨ !bit v 31 then d
      else if 8192 < bits v 12 14 ∨ 2097152 < bs.length then d.answer 0x01
      else if bits v 0 8 = 0 then d.replyChunk
      else if reserved then d.answer 0x01
      else if bit v 9 then
        let c : MailCmd := { op := bits v 0 8, part := bits v 10 2, bytes := bs }
        { d with rtp := { d.rtp with asm := [], cmd := some c, busy := true } }
      else { d with rtp := { d.rtp with asm := bs } }

/-- `GO` with `OP` 0: the next part of the reply. -/
def Dev.nextReply (d : Dev) : Dev :=
  if !d.mailboxUp then d
  else if d.rtp.busy ∧ d.rtp.cmd.map MailCmd.op ≠ some 0 then d.recordReg 0x0003 rtCmdReg (2 ^ 31)
  else d.replyChunk

/-! ### Signatures (R392) -/

def sigOk (s : DualSig) : Bool := s.ed && s.mldsa

/-- An object that does not verify: counted, entry 0x0402, `RT_SIG_FAIL`. -/
def Dev.sigFail (d : Dev) (op : Nat) (s : DualSig) : Dev :=
  let d := d.bump 0xC150 1
  (d.record 0 0x0402 .hub 1 none (op + b2n (!s.ed) * 2 ^ 8 + b2n (!s.mldsa) * 2 ^ 9)).answer 0x02

/-! ### Manifests (R393, R394) -/

def Dev.calendar (d : Dev) : Nat := (d.reg 0x78).toNat

/-- The fields lie within Table 13-4. -/
def manifestFits (m : Manifest) : Bool :=
  m.magic = 0x10B34D01 && m.rsvd = 0 && 1 ≤ m.n && m.n ≤ 256 && 1 ≤ m.t && m.t ≤ m.n && m.slice < 4096 && 1 ≤ m.fwMeas.length && m.fwMeas.length ≤ 8 &&
    m.minSvn < 2 ^ 32 && 1 ≤ m.floorOwners && m.floorOwners ≤ 256 && 1 ≤ m.floorShare && m.floorShare ≤ 256

/-- Every one of the N owners has signed. -/
def manifestSigned (m : Manifest) : Bool := (List.range m.n).all m.signed.contains

def manifestExpired (m : Manifest) (now : Nat) : Bool := m.expires ≠ 0 && m.expires < now

/-- The manifest replaces the partition's, with a new transport key pair; update counters, releases, the floor's counts and the job
held go on for the job they belong to (log 143). -/
def Dev.loadManifest (d : Dev) (p : Nat) (m : Manifest) : Dev :=
  let (x, d) := d.secret
  let (y, d) := d.secret
  let r := d.rtpPart p
  let loaded : Bool := r.manifest.map Manifest.mh = some m.mh
  let same : Bool := loaded || r.sealedRec.map Sealed.mh = some m.mh
  let ctrs := if same then (if r.manifest.isSome then r.ctrs else (r.sealedRec.map Sealed.ctrs).getD []) else []
  d.setRtpPart p { r with manifest := some m, held := r.held && loaded, ctrs := ctrs,
                          lastRelease := if same then r.lastRelease else none, counts := if loaded then r.counts else [],
                          floorOpen := r.floorOpen && loaded, tpX := x, tpM := y }

def Dev.manifestLoad (d : Dev) (lc : LifeCycle) (p : Nat) (m : Manifest) (s : DualSig) : Dev :=
  d.mailbox lc 1 p fun d =>
    if !manifestFits m then d.answer 0x01
    else if !manifestSigned m ∨ !sigOk s then d.sigFail 1 s
    else if manifestExpired m d.calendar then d.answer 0x09
    else (d.loadManifest p m).answer 0

/-! ### Slots (R387, R388, R391) -/

/-- Why slot `k` cannot be installed for partition `p`. -/
def Dev.slotRefusal (d : Dev) (p k : Nat) : Option Nat :=
  if k = 0 ∨ 4096 ≤ k ∨ rangePart d.parts 4096 k ≠ p then some 0x08
  else if (d.key k).typ ≠ 0 then some 0x07 else none

/-- Why a list of slots cannot be installed together. -/
def Dev.slotsRefusal (d : Dev) (p : Nat) : List Nat → Option Nat
  | [] => none
  | k :: ks =>
    match d.slotRefusal p k with
    | some st => some st
    | none => if ks.contains k then some 0x07 else Dev.slotsRefusal d p ks

/-- The slot of a job key. -/
def jobSlot (k : Nat) (m : Manifest) (secret : Nat) : KeySlot :=
  { KeySlot.reset 1 with typ := 2, valid := true, job := k, openOut := m.openOut, secret := secret }

/-- The slot of a data key of the job in slot `j`. -/
def dataSlot (j : Nat) (x : DataKey) : KeySlot :=
  { KeySlot.reset 1 with typ := 4, valid := true, job := j, owner := x.owner, uses := x.uses, uses0 := x.uses,
                         expireRst := x.expireRst, secret := x.dk }

/-- The partition's valid data slots. -/
def Dev.dataSlots (d : Dev) (p : Nat) : List (Nat × KeySlot) :=
  d.keys.filter fun e => rangePart d.parts 4096 e.1 = p && e.2.typ = 4 && e.2.valid

/-- The job record is sealed to user flash (R397). -/
def Dev.sealJob (d : Dev) (p : Nat) : Dev :=
  let r := d.rtpPart p
  match r.manifest with
  | none => d
  | some m => d.setRtpPart p { r with sealedRec := some { mh := m.mh, secret := r.secret, keys := d.dataSlots p, ctrs := r.ctrs,
                                                          tpX := r.tpX, tpM := r.tpM } }

/-- A job key installed starts a new series of messages: `EPOCH` and `CTR` 0 (07 R215). -/
def Dev.newSeries (d : Dev) (p : Nat) : Dev :=
  (d.setSh p { d.sh p with ctr := 0, epoch := 0, floor := 0 }).setFld (shReg p + 0x48) 0 32 0

/-- The job key comes to slot `k`, from origin `o`. -/
def Dev.takeJob (d : Dev) (p k : Nat) (m : Manifest) (secret o admitter : Nat) : Dev :=
  ((d.setKey k (jobSlot k m secret)).setRtpPart p
    { d.rtpPart p with held := true, slot := k, secret := secret, origin := o, admitter := admitter }).newSeries p

/-- A slot stops being `VALID` for a cause that Table 13-14 does not number. -/
def Dev.invalidateOther (d : Dev) (k : Nat) : Dev :=
  let (c, d) := d.draw
  d.invalidate k (c % 16)

/-- The job is forgotten: its slots, record, manifest and keys go, entry 0x0409 (R394). -/
def Dev.forgetJob (d : Dev) (p : Nat) : Dev :=
  let r := d.rtpPart p
  let d := if r.held then
      let ks := (d.keys.filter fun e => e.2.job = r.slot && e.1 ≠ 0).map Prod.fst
      ks.foldl Dev.freeKey (d.invalidateOther r.slot)
    else d
  (d.setRtpPart p RtpPart.reset).record 0 0x0409 .hub 1 (some p) p

/-! ### Jobs (R397 to R400) -/

/-- The slice entry is `VALID` with the manifest's slice. -/
def Dev.sliceFor (d : Dev) (p : Nat) (m : Manifest) : Bool := d.sliceValid p && d.sliceId p = m.slice

def Dev.jobCreate (d : Dev) (lc : LifeCycle) (p k secret : Nat) : Dev :=
  d.mailbox lc 2 p fun d =>
    match (d.rtpPart p).manifest with
    | none => d.answer 0x05
    | some m =>
      if manifestExpired m d.calendar then d.answer 0x09
      else if !d.sliceFor p m then d.answer 0x0B
      else match d.slotRefusal p k with
        | some st => d.answer st
        | none =>
          if (d.rtpPart p).held then d.answer 0x07
          else ((d.takeJob p k m secret 1 0).sealJob p).answer 0

/-- The RTP sends a message toward a physical coordinate, over the management links (R399). -/
def Dev.sendRtp (d : Dev) (dest : Nat) (b : RtpBody) : Dev :=
  match d.nextHop (Coord.ofNat dest) with
  | some n => { d with rtp := { d.rtp with relayed := d.rtp.relayed ++ [(n, dest, b)] } }
  | none => d

/-- `JOB_JOIN` stays in progress until the holder answers. -/
def Dev.jobJoin (d : Dev) (lc : LifeCycle) (p coord k : Nat) (ks : List Nat) : Dev :=
  d.mailbox lc 3 p fun d =>
    let r := d.rtpPart p
    match r.manifest with
    | none => d.answer 0x05
    | some m =>
      if d.rtp.revoked.contains m.mh then d.answer 0x06
      else if manifestExpired m d.calendar then d.answer 0x09
      else match d.slotsRefusal p (k :: ks) with
        | some st => d.answer st
        | none =>
          if r.held then d.answer 0x07
          else if r.joining.isSome then d
          else
            let d := d.setRtpPart p { r with joining := some (coord, k, ks) }
            let c : MailCmd := { op := 3, part := p, bytes := [] }
            Dev.sendRtp { d with rtp := { d.rtp with busy := true, cmd := some c } } coord (.request m.mh)

/-- The first check of R398 that the evidence fails, numbered in the rule's order from 1. -/
def failedCheck (m : Manifest) (e : Evidence) : Option Nat :=
  if !(e.sigOk && e.fresh) then some 1
  else if e.lifecycle ≠ 2 ∨ e.flags % 2 = 1 then some 2
  else if !m.fwMeas.contains e.fwMeas then some 3
  else if e.fwSvn < m.minSvn then some 4
  else if e.mh ≠ m.mh then some 5
  else if e.slice ≠ m.slice then some 6
  else none

/-- Entry 0x0404. -/
def Dev.refuseAdmission (d : Dev) (p coord check : Nat) : Dev :=
  d.record 0 0x0404 .hub 1 (some p) (coord % 2 ^ 17 + check * 2 ^ 17)

/-- The keys that an admission carries: every `VALID` data key, with the uses of its original transport. -/
def Dev.admissionKeys (d : Dev) (p : Nat) : List DataKey :=
  (d.dataSlots p).map fun e => { dk := e.2.secret, owner := e.2.owner, uses := e.2.uses0, expireRst := e.2.expireRst }

/-- The text of an admission (R399). -/
def admissionText (secret : Nat) (keys : List DataKey) : List Byte :=
  Config.admissionText secret (keys.map fun x => (x.dk, x.owner, x.uses, x.expireRst))

/-- The admission goes out under the hybrid key toward the joiner's transport keys, nonce zero as for a key transport (R399; log
142). -/
def Dev.sendAdmission (d : Dev) (p coord : Nat) (m : Manifest) (e : Evidence) : Dev :=
  let (h, d) := d.hybridTo admitLabel m.mh e.idh e.tpX e.tpM
  d.sendRtp coord (.admission m.mh
    { eph := h.eph, ct := h.ct, body := sealUnder h.key (admissionText (d.rtpPart p).secret (d.admissionKeys p)) })

/-- A joiner's request reaches this device for partition `p`. Without the job, the fifth check fails. -/
def Dev.admissionRequest (d : Dev) (lc : LifeCycle) (p port coord : Nat) (e : Evidence) : Dev :=
  if !d.rtpUp ∨ d.rtp.tampered ∨ d.life.recovery ∨ !d.keysServed lc ∨ d.parts ≤ p ∨ !d.managed port then d
  else
    let r := d.rtpPart p
    let refusal (c : Nat) : Dev := (d.refuseAdmission p coord c).sendRtp coord (.refusal e.mh)
    match r.manifest with
    | none => refusal 5
    | some m =>
      match (if r.held then failedCheck m e else some 5) with
      | some c => refusal c
      | none => d.sendAdmission p coord m e

/-- Data keys into the slots named, in order. -/
def Dev.installData (d : Dev) (j : Nat) : List (Nat × DataKey) → Dev
  | [] => d
  | (k, x) :: r => Dev.installData (d.setKey k (dataSlot j x)) j r

/-- The envelope opens under the key that the joiner forms, and holds these keys. -/
def RtpPart.admits (r : RtpPart) (lc : LifeCycle) (mh : Nat) (env : Envelope) (secret : Nat) (keys : List DataKey) : Bool :=
  openUnder (r.hybridFrom admitLabel mh (ownIdh lc) env.eph env.ct) env.body = some (admissionText secret keys)

/-- The holder's answer to the `JOB_JOIN` in progress: an envelope, or a refusal. One that does not open is no answer (log 142). -/
def Dev.admission (d : Dev) (lc : LifeCycle) (p : Nat) (e : Evidence) (env : Option Envelope) (secret : Nat)
    (keys : List DataKey) : Dev :=
  let r := d.rtpPart p
  match r.joining, r.manifest with
  | some (coord, k, ks), some m =>
    if !d.rtpUp ∨ d.rtp.tampered ∨ env.any fun v => !r.admits lc m.mh v secret keys then d
    else
      let d := d.setRtpPart p { r with joining := none }
      if (d.ctx p).st = .tearing then d.answer 0x0B
      else if env.isNone then d.answer 0x06
      else match failedCheck m e with
        | some c => (d.refuseAdmission p coord c).answer 0x06
        | none =>
          if ks.length < keys.length then d.answer 0x08
          else match d.slotsRefusal p (k :: ks) with
            | some st => d.answer st
            | none => (((d.takeJob p k m secret 2 e.idh).installData k (ks.zip keys)).sealJob p).answer 0
  | _, _ => d

/-- No holder within 1 s (R411). -/
def Dev.holderUnreachable (d : Dev) (p : Nat) : Dev :=
  let r := d.rtpPart p
  if d.rtpUp ∧ r.joining.isSome then (d.setRtpPart p { r with joining := none }).answer 0x0C else d

/-- An RTP message of other devices passes through, in the dimension order of 07 R210. -/
def Dev.relay (d : Dev) (port dest : Nat) (bs : List Byte) : Dev :=
  if !d.rtpUp ∨ !d.managed port ∨ dest % 2 ^ 17 = d.here.toNat then d else d.sendRtp (dest % 2 ^ 17) (.relay bs)

/-- The running image is one that the manifest admits (14 R424). -/
def Dev.imageAdmitted (d : Dev) (m : Manifest) : Bool :=
  match d.life.running with
  | some i => m.fwMeas.contains i.measurement && m.minSvn ≤ i.svn
  | none => false

/-- The record's data keys, without those that a reset ended (R390), into the slots named. -/
def Dev.resumeKeys (d : Dev) (j : Nat) : List (Nat × KeySlot) → Dev
  | [] => d
  | (k, x) :: r => Dev.resumeKeys (d.setKey k { x with job := j }) j r

def Dev.jobResume (d : Dev) (lc : LifeCycle) (p k : Nat) (ks : List Nat) (tagOk : Bool) : Dev :=
  d.mailbox lc 4 p fun d =>
    let r := d.rtpPart p
    match r.manifest, r.sealedRec with
    | some m, some x =>
      let keys := (x.keys.map Prod.snd).filter fun y => !y.expireRst
      if x.mh ≠ m.mh then d.answer 0x05
      else if !tagOk then (d.setRtpPart p { r with sealedRec := none }).answer 0x05
      else if d.rtp.revoked.contains m.mh ∨ !d.imageAdmitted m then d.answer 0x06
      else if manifestExpired m d.calendar then d.answer 0x09
      else if ks.length < keys.length then d.answer 0x08
      else match d.slotsRefusal p (k :: ks) with
        | some st => d.answer st
        | none =>
          if r.held then d.answer 0x07
          else
            let d := (d.takeJob p k m x.secret 3 0).resumeKeys k (ks.zip keys)
            (d.setRtpPart p { d.rtpPart p with ctrs := x.ctrs, tpX := x.tpX, tpM := x.tpM }).answer 0
    | _, _ => d.answer 0x05

def Dev.jobForget (d : Dev) (lc : LifeCycle) (p : Nat) : Dev :=
  d.mailbox lc 5 p fun d =>
    if (d.rtpPart p).manifest.isNone ∧ (d.rtpPart p).sealedRec.isNone then d.answer 0x05 else (d.forgetJob p).answer 0

/-- The calendar has passed the manifest's `EXPIRES`. -/
def Dev.jobExpire (d : Dev) (p : Nat) : Dev :=
  match (d.rtpPart p).manifest with
  | some m => if d.rtpUp ∧ manifestExpired m d.calendar then d.forgetJob p else d
  | none => d

/-! ### Work slots -/

def Dev.slotAlloc (d : Dev) (lc : LifeCycle) (p k j : Nat) (expireRst : Bool) : Dev :=
  d.mailbox lc 6 p fun d =>
    match d.slotRefusal p k with
    | some st => d.answer st
    | none =>
      if !d.keyValid p j ∨ (d.key j).typ ≠ 2 then d.answer 0x05
      else
        let (s, d) := d.secret
        (d.setKey k { KeySlot.reset 1 with typ := 3, valid := true, job := j, expireRst := expireRst, secret := s }).answer 0

def Dev.slotFree (d : Dev) (lc : LifeCycle) (p k : Nat) : Dev :=
  d.mailbox lc 7 p fun d =>
    if k = 0 ∨ 4096 ≤ k ∨ rangePart d.parts 4096 k ≠ p then d.answer 0x08
    else if (d.key k).typ = 0 then d.answer 0x01
    else
      let job : Bool := (d.rtpPart p).held && (d.rtpPart p).slot = k
      let d := (d.invalidateOther k).freeKey k
      (if job then d.setRtpPart p { d.rtpPart p with held := false } else d).answer 0

/-! ### Owners' keys (R402, R403) -/

/-- The partition's manifest is `mh` and its job is held. -/
def Dev.jobIs (d : Dev) (p mh : Nat) : Option Manifest :=
  match (d.rtpPart p).manifest with
  | some m => if m.mh = mh ∧ (d.rtpPart p).held then some m else none
  | none => none

/-- The data key of a transport, decrypted under the hybrid key that the device forms (R402). -/
def unwrapped (x : Transport) (r : RtpPart) (lc : LifeCycle) : Option DataKey :=
  (openUnder (r.hybridFrom transportLabel x.mh (ownIdh lc) x.env.eph x.env.ct) x.env.body).map fun bs =>
    { dk := leNat bs, owner := x.owner, uses := x.uses, expireRst := x.expireRst }

/-- A transport that does not decrypt is malformed (`RT_INVALID`; log 142). -/
def Dev.keyTransport (d : Dev) (lc : LifeCycle) (p k len : Nat) (x : Transport) (s : DualSig) : Dev :=
  d.mailbox lc 8 p fun d =>
    if len ≠ 4761 ∨ x.magic ≠ 0x10B34B01 ∨ x.rsvd ≠ 0 ∨ x.env.body.length ≠ 48 then d.answer 0x01
    else match d.jobIs p x.mh with
      | none => d.answer 0x05
      | some m =>
        if x.idh ≠ ownIdh lc then d.answer 0x04
        else if m.n ≤ x.owner then d.answer 0x01
        else if !sigOk s then d.sigFail 8 s
        else match unwrapped x (d.rtpPart p) lc with
          | none => d.answer 0x01
          | some y => match d.slotRefusal p k with
            | some st => d.answer st
            | none => (d.setKey k (dataSlot (d.rtpPart p).slot y)).reply 0 (leBytes 16 (keyFingerprint y.dk))

/-- An accepted operation on one data slot. -/
def Dev.applyUpdate (d : Dev) (op uses k : Nat) : Dev :=
  match op with
  | 1 => d.invalidate k 1
  | 2 => d.setKey k { d.key k with uses := uses % 2 ^ 32 }
  | _ => d.setKey k { d.key k with expireRst := uses % 2 = 1 }

/-- The data slots of partition `p` that an update names: by the key's fingerprint and its owner. -/
def Dev.slotsOf (d : Dev) (p keyId owner : Nat) : List Nat :=
  (d.keys.filter fun e =>
    rangePart d.parts 4096 e.1 = p && e.2.typ = 4 && e.2.owner = owner && keyFingerprint e.2.secret = keyId).map Prod.fst

def Dev.keyUpdate (d : Dev) (lc : LifeCycle) (p len : Nat) (x : KeyUpdate) (s : DualSig) : Dev :=
  d.mailbox lc 9 p fun d =>
    let r := d.rtpPart p
    if len ≠ 3509 ∨ x.magic ≠ 0x10B35501 ∨ x.rsvd ≠ 0 then d.answer 0x01
    else match d.jobIs p x.mh with
      | none => d.answer 0x05
      | some m =>
        if x.op = 0 ∨ 3 < x.op ∨ m.n ≤ x.owner then d.answer 0x01
        else if x.idh ≠ ownIdh lc then d.answer 0x04
        else if x.counter ≠ Sparse.get (fun _ => 0) r.ctrs x.owner + 1 then
          (d.record 0 0x0403 .hub 1 (some p) (x.owner + x.counter * 2 ^ 8)).answer 0x03
        else if !sigOk s then d.sigFail 9 s
        else
          let d := d.setRtpPart p { r with ctrs := Sparse.set (fun _ => 0) r.ctrs x.owner x.counter }
          (((d.slotsOf p x.keyId x.owner).foldl (fun d k => d.applyUpdate x.op x.uses k) d).sealJob p).answer 0

/-! ### Quorum release (R406 to R408) -/

/-- Partitions that hold the job. -/
def Dev.holders (d : Dev) (mh : Nat) : List Nat := (List.range d.parts).filter fun q => (d.jobIs q mh).isSome

/-- The lowest free slot of the partition's range. -/
def Dev.freeSlot (d : Dev) (p : Nat) : Option Nat :=
  ((List.range (4096 / d.parts)).map (p * (4096 / d.parts) + ·)).find? fun k => k ≠ 0 && (d.key k).typ = 0

/-- The export slot of a release. -/
def exportKey (job secret release step notAfter : Nat) : KeySlot :=
  { KeySlot.reset 1 with typ := 5, valid := true, job := job, uses := 1, uses0 := 1, secret := secret, link := release, step := step,
                         notAfter := notAfter }

/-- An export slot in each holding partition. -/
def Dev.installExport (d : Dev) (secret release step notAfter : Nat) : List Nat → Dev
  | [] => d
  | q :: qs =>
    match d.freeSlot q with
    | some k => Dev.installExport (d.setKey k (exportKey (d.rtpPart q).slot secret release step notAfter)) secret release step notAfter qs
    | none => Dev.installExport d secret release step notAfter qs

/-- The recipient header: IDH, release, step, ephemeral key and ciphertext, the alias key pair's signatures (R407). -/
def Dev.recipientHeader (d : Dev) (lc : LifeCycle) (release step : Nat) (h : Hybrid) : List Byte × Dev :=
  let (y, d) := d.draw
  (leBytes 48 (ownIdh lc) ++ leBytes 4 release ++ leBytes 4 step ++ leBytes 32 h.eph ++ leBytes 1088 h.ct ++ leBytes 3373 y, d)

/-- A release of kind 1: the export key, hybrid toward the recipient's keys, in a slot of each holding partition. The recipient is
no device: `IDH` is that of this one, which the header gives it (log 142). -/
def Dev.releaseExport (d : Dev) (lc : LifeCycle) (x : Release) (qs : List Nat) : Dev :=
  let (h, d) := d.hybridTo (exportLabel x.release x.step) x.mh (ownIdh lc) x.rX x.rM
  let (hd, d) := (d.installExport h.key x.release x.step x.notAfter qs).recipientHeader lc x.release x.step h
  d.reply 0 hd

/-- A partition without its record of the job `mh`. -/
def RtpPart.unsealed (r : RtpPart) (mh : Nat) : RtpPart :=
  if r.sealedRec.map Sealed.mh = some mh then { r with sealedRec := none } else r

/-- A revoked job: the job slot of every holding partition and all it carries, every sealed record of it (R408). -/
def Dev.revoke (d : Dev) (mh : Nat) (qs : List Nat) : Dev :=
  let d := qs.foldl (fun d q =>
    let d := d.invalidate (d.rtpPart q).slot 5
    d.setRtpPart q { d.rtpPart q with held := false, sealedRec := none }) d
  { d with rtp := { d.rtp with revoked := insNat mh d.rtp.revoked, parts := d.rtp.parts.map fun e => (e.1, e.2.unsealed mh) } }

/-- A release identifier that the device has accepted for the job, in any partition, is as high (R406). -/
def Dev.released (d : Dev) (mh release : Nat) : Bool :=
  d.rtp.parts.any fun e => e.2.manifest.map Manifest.mh = some mh && (e.2.lastRelease.map fun l => decide (release ≤ l)).getD false

/-- Distinct owner tags of the manifest among the entries whose two signatures verify. -/
def signersOf (m : Manifest) (l : List (Nat × DualSig)) : List Nat :=
  ((l.filter fun e => e.1 < m.n && sigOk e.2).map Prod.fst).eraseDups

/-- Which of the two signatures verifies in every entry. -/
def entriesSig (l : List (Nat × DualSig)) : DualSig := { ed := l.all fun e => e.2.ed, mldsa := l.all fun e => e.2.mldsa }

def Dev.quorumRelease (d : Dev) (lc : LifeCycle) (p : Nat) (x : Release) : Dev :=
  d.mailbox lc 0x0A p fun d =>
    if x.magic ≠ 0x10B35201 ∨ x.rsvd ≠ 0 ∨ (x.kind ≠ 1 ∧ x.kind ≠ 2) ∨ x.entries = [] ∨ 255 < x.entries.length then d.answer 0x01
    else match d.jobIs p x.mh with
      | none => d.answer 0x05
      | some m =>
        if d.released x.mh x.release then d.answer 0x0D
        else if x.notAfter < d.calendar then d.answer 0x09
        else if (signersOf m x.entries).length < m.t then d.sigFail 0x0A (entriesSig x.entries)
        else
          let qs := d.holders x.mh
          if x.kind = 1 ∧ qs.any fun q => (d.freeSlot q).isNone then d.answer 0x07
          else
            let d := qs.foldl (fun d q => d.setRtpPart q { d.rtpPart q with lastRelease := some x.release }) d
            let d := d.record 0 0x0407 .hub 1 (some p) (x.release % 2 ^ 32 + x.kind * 2 ^ 32)
            if x.kind = 2 then (d.revoke x.mh qs).answer 0 else d.releaseExport lc x qs

/-- An export slot whose release's `NOT_AFTER` has passed while it awaits use (15 R457). -/
def Dev.releaseExpire (d : Dev) : Dev :=
  let ks := (d.keys.filter fun e => e.2.typ = 5 && e.2.valid && e.2.uses ≠ 0 && e.2.notAfter < d.calendar).map Prod.fst
  ks.foldl Dev.invalidateOther d

/-! ### Evidence (R396, Table 13-6) -/

/-- Bytes 0–1,535 of the evidence block for partition `p`. -/
def Dev.evidenceBody (d : Dev) (lc : LifeCycle) (p nonce : Nat) : List Byte :=
  let r := d.rtpPart p
  let held := r.held
  leBytes 4 0xE71D0001 ++ leBytes 1 (lcCode lc) ++
    leBytes 1 (b2n (d.life.rights ≠ 0) + 2 * b2n r.manifest.isSome + 4 * b2n held) ++
    leBytes 1 (if held then r.origin else 0) ++ [0] ++ leBytes 48 (ownIdh lc) ++
    leBytes 48 ((d.life.running.map FwImage.measurement).getD 0) ++ leBytes 4 ((d.life.running.map FwImage.svn).getD 0) ++
    leBytes 32 nonce ++ leBytes 48 ((r.manifest.map Manifest.mh).getD 0) ++
    leBytes 16 (if held then jobFingerprint r.secret else 0) ++
    leBytes 48 (if held ∧ r.origin = 2 then r.admitter else 0) ++ leBytes 4 (d.sliceId p) ++ leBytes 32 (publicX r.tpX) ++
    leBytes 1184 (publicM r.tpM) ++ leBytes 8 d.calendar ++ List.replicate 56 0

/-- The block, signed by the alias key pair. -/
def Dev.evidenceBlock (d : Dev) (lc : LifeCycle) (p nonce : Nat) : List Byte × Dev :=
  let (x, d) := d.draw
  (d.evidenceBody lc p nonce ++ leBytes 3373 x, d)

def Dev.evidence (d : Dev) (lc : LifeCycle) (p nonce : Nat) : Dev :=
  d.mailbox lc 0x0B p fun d =>
    let (bs, d) := d.evidenceBlock lc p nonce
    d.reply 0 bs

/-! ### Tamper and VBAT (R382, R383, 15 R457, R459) -/

/-- RS, every `NEXT_EPOCH`, the key table, the die-link keys and the RTP's working memory are erased: manifests and jobs, the bytes
of a command or reply under way, the SPDM exchange, nonce and arming. -/
def Dev.eraseKeys (d : Dev) : Dev :=
  { d with
    keys := []
    rtp := { d.rtp with rsPresent := false, nextEpoch := [], dieKeyGen := d.rtp.dieKeyGen + 1, asm := [], more := []
                        cmd := d.rtp.cmd.map fun c => { c with bytes := [] }
                        spdmVersion := false, spdmNegotiated := false, spdmKex := false, spdmSession := false
                        parts := d.rtp.parts.map fun e => (e.1, { RtpPart.reset with sealedRec := e.2.sealedRec }) }
    life := { d.life with nonce := none, eolArm := none } }

/-- The clock of the VBAT domain and the lifetime counters go to 0. -/
def Dev.clearVbat (d : Dev) : Dev :=
  [0x78, 0x90, 0x98, 0xA0, 0xA8].foldl (fun d o => d.setReg o 0) { d with power := { d.power with calPs := 0 } }

/-- Sensors 1 to 5 of Table 13-1: the VBAT monitor acts only without the 36 V input, the supply and clock monitors only with
it. -/
def Dev.tamper (d : Dev) (sensor : Nat) : Dev :=
  if sensor = 0 ∨ 5 < sensor ∨ (sensor = 4 ∧ d.on) ∨ (sensor = 5 ∧ !d.on) then d
  else
    let d := d.eraseKeys.clearVbat
    let d := { d with rtp := { d.rtp with tampered := true }, life := { d.life with tamperNote := some sensor } }
    if d.on then d.record 4 0x0401 .hub 1 none sensor else d

/-- VBAT measured at `mv` millivolts. -/
def Dev.vbatLow (d : Dev) (mv : Nat) : Dev :=
  if !d.on then d
  else
    let d := { d with rtp := { d.rtp with vbatLow := decide (mv < 2600) } }
    if mv < 2600 then d.record 1 0x0408 .hub 1 none mv else d

/-! ### SPDM (R395, R396) -/

/-- The RTP answers an SPDM message: its response code and data. -/
def Dev.spdmSay (d : Dev) (code : Nat) (data : List Nat) : Dev :=
  { d with rtp := { d.rtp with spdmOut := d.rtp.spdmOut ++ [(code, data)] } }

/-- A request over I3C or over data object exchange, served where one is enabled; in recovery or unprovisioned it gets an
error response (14 R420). `ready` says whether the exchange stands where the request may come. -/
def Dev.spdm (d : Dev) (lc : LifeCycle) (ready : Bool) (f : Dev → Dev) : Dev :=
  if !d.rtpUp ∨ (d.fld 0xC000 0 1 = 0 ∧ d.fld 0xC000 1 1 = 0) then d
  else if d.life.recovery ∨ lc = .blank ∨ !ready then d.spdmSay 0x7F []
  else f d

/-- A request that the RTP answers with a signature: none after its secret is erased (R383). -/
def Dev.canSign (d : Dev) : Bool := d.rtp.rsPresent && !d.rtp.tampered

/-- `VERSION`: SPDM 1.3. The exchange starts again. -/
def Dev.spdmVersionRow (d : Dev) (lc : LifeCycle) : Dev :=
  d.spdm lc true fun d =>
    Dev.spdmSay { d with rtp := { d.rtp with spdmVersion := true, spdmNegotiated := false, spdmKex := false, spdmSession := false } }
      0x04 [0x13]

def Dev.spdmCapabilitiesRow (d : Dev) (lc : LifeCycle) : Dev :=
  d.spdm lc d.rtp.spdmVersion fun d =>
    let (c, d) := d.draw
    d.spdmSay 0x61 [c]

/-- The algorithms of R395 as SPDM numbers them: Ed25519, SHA-512, SHA3-384, secp384r1, AES-256-GCM. -/
def spdmAlgorithms : List Nat := [0x200, 0x4, 0x20, 0x10, 0x2]

def Dev.spdmNegotiateRow (d : Dev) (lc : LifeCycle) : Dev :=
  d.spdm lc d.rtp.spdmVersion fun d =>
    Dev.spdmSay { d with rtp := { d.rtp with spdmNegotiated := true } } 0x63 spdmAlgorithms

/-- A device in PRODUCTION without its certificate has none to give (14 R416). -/
def Dev.hasCert (d : Dev) (lc : LifeCycle) : Bool := lc ≠ .production || d.life.cert

def Dev.spdmDigestsRow (d : Dev) (lc : LifeCycle) : Dev :=
  d.spdm lc d.rtp.spdmNegotiated fun d =>
    let (c, d) := d.draw
    if d.hasCert lc then d.spdmSay 0x01 [c] else d.spdmSay 0x7F [0x0B]

def Dev.spdmCertificateRow (d : Dev) (lc : LifeCycle) : Dev :=
  d.spdm lc d.rtp.spdmNegotiated fun d =>
    let (c, d) := d.draw
    if d.hasCert lc then d.spdmSay 0x02 [c] else d.spdmSay 0x7F [0x0B]

def Dev.spdmChallengeRow (d : Dev) (lc : LifeCycle) (nonce : Nat) : Dev :=
  d.spdm lc (d.rtp.spdmNegotiated && d.canSign) fun d =>
    let (s, d) := d.draw
    d.spdmSay 0x03 [nonce, s]

/-- Measurement index 3: life-cycle state and rights granted. -/
def Dev.measureState (d : Dev) (lc : LifeCycle) : Nat := lcCode lc + d.life.rights * 2 ^ 8

/-- The hardened fields (09 R269): registers, tile map, region table, key-slot attributes. -/
def Dev.hardened (d : Dev) : List Nat :=
  ((d.regs.filter fun e => hardenedAt e.1).map fun e => e.2.read.toNat) ++ (d.tiles.map.map fun e => e.1 * 2048 + e.2.getD 2047) ++
    (d.regions.flatMap fun e => [e.1, e.2.base, e.2.granules, e.2.key]) ++ d.keys.flatMap fun e => [e.1, e.2.typ, e.2.job, e.2.owner]

/-- `MEASUREMENTS`: the indices of Table 13-5; the evidence block where the life-cycle state gives one. -/
def Dev.spdmMeasurementsRow (d : Dev) (lc : LifeCycle) (nonce : Nat) : Dev :=
  d.spdm lc (d.rtp.spdmNegotiated && d.canSign) fun d =>
    let ms := [(d.life.running.map FwImage.measurement).getD 0, Config.hardenedDigest d.hardened, d.measureState lc]
    if lc = .test ∨ (lc = .production ∧ d.life.cert) then
      let p := ((List.range d.parts).find? fun p => (d.rtpPart p).held).getD 0
      let (bs, d) := d.evidenceBlock lc p nonce
      d.spdmSay 0x60 (ms ++ [leNat bs])
    else d.spdmSay 0x60 ms

def Dev.spdmKeyExchangeRow (d : Dev) (lc : LifeCycle) : Dev :=
  d.spdm lc (d.rtp.spdmNegotiated && d.canSign) fun d =>
    let (s, d) := d.draw
    Dev.spdmSay { d with rtp := { d.rtp with spdmKex := true } } 0x64 [s]

/-- `FINISH`: the session stands when the requester's verification holds. -/
def Dev.spdmFinishRow (d : Dev) (lc : LifeCycle) (ok : Bool) : Dev :=
  d.spdm lc (d.rtp.spdmKex && ok) fun d =>
    Dev.spdmSay { d with rtp := { d.rtp with spdmKex := false, spdmSession := true } } 0x65 []

def Dev.spdmEndRow (d : Dev) (lc : LifeCycle) : Dev :=
  d.spdm lc d.rtp.spdmSession fun d =>
    Dev.spdmSay { d with rtp := { d.rtp with spdmSession := false } } 0x6C []

/-- IDE_KM inside a session: a stream's keys are set, and the stream is secure; or they are stopped (11 R333). -/
def Dev.ideKm (d : Dev) (lc : LifeCycle) (cache : Bool) (stream : Nat) (install : Bool) : Dev :=
  d.spdm lc d.rtp.spdmSession fun d =>
    let f (l : List Nat) : List Nat := if install then insNat stream l else l.filter (· ≠ stream)
    let c := if cache then { d.cxl with ideCache := f d.cxl.ideCache } else { d.cxl with ideIo := f d.cxl.ideIo }
    Dev.spdmSay { d with cxl := c } 0x7E [stream]

end Sys2Proof.Machine
end

