-- ==== Sys2Proof/Machine/Resets.lean ====
section
/-! DEFINITION. Supply, resets and bring-up: what each reset keeps, boot verification, the milestones, and the recovery of a
partition from its journal after a keeping reset (15 R436 to R443, R481, 16 R465, R466, R473, 14 R419, R420, 10 R307, R308, 12
R370). -/

namespace Sys2Proof.Machine

/-! ### Debug rights (14 R428) -/

/-- Entry 0x040D and the life-log entry of an opening or a closing. -/
def Dev.noteRights (d : Dev) (notAfter : Nat) : Dev :=
  (d.record 0 0x040D .hub 1 none d.life.rights).lifeWrite 6 (leBytes 2 d.life.rights ++ List.replicate 6 0 ++ leBytes 8 notAfter)

/-- Rights that a certificate opened close; in BLANK and TEST every right stays open (14 Table 14-1). -/
def Dev.closeRights (d : Dev) (lc : LifeCycle) : Dev :=
  if lc = .blank ∨ lc = .test ∨ d.life.rights = 0 then d
  else
    let t := d.life.notAfter
    let d := { d with life := { d.life with rights := 0, notAfter := 0 },
                      tap := { d.tap with ir := min d.tap.ir 1, extest := false, halted := [] } }
    d.noteRights t

/-! ### Parts of every reset -/

/-- Units that return to service at reset, after training and test (09 Table 09-3): all but tiles, Battens and decode engines,
and none that is fenced for good. A test in progress ends. -/
def readmitUnit (k : Nat) (r : UnitRec) : UnitRec :=
  let u := k / 65536
  let at_ : Bool := u = 3 || (6 ≤ u && u ≤ 9) || u = 12
  if at_ ∧ r.fenced ∧ !r.permanent then { r with fenced := false, reason := 0, passes := 0, testing := false }
  else { r with testing := false }

def Dev.readmit (d : Dev) : Dev := { d with units := Sparse.alter (fun _ => UnitRec.reset) d.units readmitUnit }

/-- Physical tiles still fenced. -/
def Dev.fencedTiles (d : Dev) : List Nat := (List.range 1088).filter (d.fenced .tile)

/-- A fenced tile's logical tile goes to a spare, or is unbacked (03 R78, R80). -/
def Dev.remapTile (d : Dev) (t : Nat) : Dev :=
  match d.logicalOf t with
  | none => d.setTileState t 7
  | some l =>
    match d.spareFor t with
    | some s => ((d.setMap l (some s)).setTileState t 7).setTileState s 0
    | none => (d.setMap l none).setTileState t 7

/-- The map of R77, less the fenced tiles. -/
def Dev.remapTiles (d : Dev) : Dev :=
  let d := { d with tiles := { d.tiles with map := [], phys := [], leaving := [] } }
  d.fencedTiles.foldl Dev.remapTile d

/-- Registers with a `LOCK` bit, and the bit (R481). -/
def lockBits : List (Nat × Nat) :=
  [(0x4000, 1), (0x8000, 1), (0xC000, 2), (0x10000, 1), (0x14000, 1), (0x15000, 1), (0x18000, 1), (0x1C000, 1), (0x20000, 1),
   (0x2C000, 1)]

/-- The registers below BAR0 that live in the VBAT domain (15 R459). -/
def vbatRegs : List Nat := [0x78, 0x90, 0x98, 0xA0, 0xA8]

/-- `PV_RESET_CAUSE` and the count of resets. -/
def Dev.countReset (d : Dev) (typ : Nat) (kept : Bool) : Dev :=
  let d := d.setReg 0x5C (BitVec.ofNat 64 (typ + 16 * b2n kept))
  if typ = 0 then d.setFld 0x98 0 32 (d.fld 0x98 0 32 + 1) else d.setFld 0x98 32 32 (d.fld 0x98 32 32 + 1)

/-- The power state of a reset device: sensors, pins, the timebase and what was not begun go on. -/
def Power.restart (w : Power) (typ : Nat) (kept acted : Bool) : Power :=
  { Power.reset with st := w.st, perst := w.perst, thermIn := w.thermIn, hot := w.hot, sampleNo := w.sampleNo, thermStep := w.thermStep,
                     energy := w.energy, refclk := w.refclk, edge := w.edge, edges := w.edges, slewing := w.slewing,
                     timeSet := w.timeSet, backward := w.backward, calPs := w.calPs, uart := w.uart, ticks := w.ticks,
                     resetNote := some (typ, kept, acted) }

/-- What the RTP loses at any reset: the mailbox command, a join under way, SPDM; the die-link keys are new. -/
def Rtp.restart (r : Rtp) : Rtp :=
  { r with asm := [], cmd := none, busy := false, more := [], dieKeyGen := r.dieKeyGen + 1, spdmVersion := false,
           spdmNegotiated := false, spdmKex := false, spdmSession := false,
           parts := r.parts.map fun e => (e.1, { e.2 with joining := none }) }

/-- What a reset that empties the key table leaves of the RTP: flash and the battery-backed store. -/
def Rtp.cleared (r : Rtp) : Rtp :=
  { Rtp.reset with rsPresent := r.rsPresent, tampered := r.tampered, vbatLow := r.vbatLow, nextEpoch := r.nextEpoch,
                   revoked := r.revoked, drawn := r.drawn, dieKeyGen := r.dieKeyGen + 1, relayed := r.relayed, spdmOut := r.spdmOut,
                   parts := r.parts.map fun e => (e.1, { RtpPart.reset with sealedRec := e.2.sealedRec, lastRelease := e.2.lastRelease }) }

/-- Flash state across a reset: no image runs, no certificate is armed or open. -/
def Life.restart (l : Life) (lc : LifeCycle) : Life :=
  { l with eolArm := none, nonce := none, invasive := false, running := none, recovery := false, fwState := 0, fwBytes := 0,
           fwEnd := 0,
           rights := if lc = LifeCycle.blank ∨ lc = LifeCycle.test then l.rights else 0, notAfter := 0 }

/-! ### Keeping resets (15 R438, R481) -/

/-- The slots with `EXPIRE_RST` stop being valid, cause 4 (13 R390). -/
def Dev.expireKeys (d : Dev) : Dev :=
  ((d.keys.filter fun e => e.2.expireRst && e.2.valid).map Prod.fst).foldl (fun d k => d.invalidate k 4) d

/-- A block in progress goes back, a sealed one stays in the log; no log has been looked at again (06 R172). -/
def Dev.resetBattens (d : Dev) : Dev :=
    let us := d.btParts.map fun (e : Nat × BtPart) => (e.1, { e.2 with update := e.2.update.map fun u => { u with taken := u.finished } })
  { d with battens := [], btParts := us }

/-- Started `PLEACH` descriptors of ring `r` start again (10 Table 10-6). -/
def Ring.restartPleach (x : Ring) : Ring :=
  { x with pend := x.pend.map fun a => if descOpcode a.desc = 0x70 ∧ a.phase = .started then { a with phase := .waiting } else a }

/-- Engines of partition `p` at a keeping reset. -/
def Dev.resetEngines (d : Dev) (p : Nat) : Dev :=
  let d := ((d.abandonGen p).weftAgain p).stopStaging p
  (d.setPl p { d.pl p with op := none }).setReg (plReg p + 0x60) 0

/-- Partitions with a journal to recover. -/
def Dev.journalled (d : Dev) : List Nat :=
  (List.range d.parts).filter fun p => d.ctxs.any fun e => ctxPart e.1 = p && e.2.st ≠ .closed

/-- A keeping reset of type `typ` (R438): HBM, key table, fault log and registers stand, links go down, nothing is served until
bring-up and recovery. -/
def Dev.keptReset (d : Dev) (lc : LifeCycle) (typ : Nat) : Dev :=
  let d := (d.closeRights lc).expireKeys
  let d := { d with msix := [], msixPend := [] }
  let d := (List.range d.parts).foldl Dev.resetEngines d.resetBattens
  let d := lockBits.foldl (fun (d : Dev) (e : Nat × Nat) => d.setFld e.1 e.2 1 0) (d.portsDown.countReset typ true)
  let recover := d.journalled
  let bufs := (List.range 16).filter fun k => d.laneHeld k || !(d.stepBufs k).isEmpty
  let d := { d with
    rings := d.rings.map fun (e : Nat × Ring) => (e.1, e.2.restartPleach)
    ctrCache := []
    used := []
    cxl := Cxl.reset
    tap := { Tap.reset with trace := d.tap.trace, full := d.tap.full, dropped := d.tap.dropped }
    shuttle := { d.shuttle with held := [], queue := [] }
    rtp := d.rtp.restart
    life := d.life.restart lc
    power := { d.power.restart typ true false with recover := recover, stepBufs := bufs } }
  d.readmit.remapTiles.setPower .bringup

/-! ### Clearing and power-on resets -/

/-- What survives the loss of HBM and registers: host memory, the VBAT domain, flash, lives of the units, interrupts sent. -/
def Dev.wiped (d : Dev) (lc : LifeCycle) : Dev :=
  vbatRegs.foldl (fun e o => e.setReg o (d.reg o))
    { Dev.reset with hostMem := d.hostMem, irqs := d.irqs, units := d.units, rtp := d.rtp.cleared, life := d.life.restart lc, draws := d.draws }

/-- A clearing reset of type `typ`, or a keeping one that acts as one: every region is `CLOSED`, the key table empty; fault
log, `PV_TIME` and tick go on. -/
def Dev.clearedReset (d : Dev) (lc : LifeCycle) (typ : Nat) (acted : Bool) : Dev :=
  let d := d.closeRights lc
  let e := { d.wiped lc with timePs := d.timePs, log := d.log, power := d.power.restart typ false acted,
                             tiles := { Tiles.reset with suspects := d.tiles.suspects } }
  (e.countReset typ false).readmit.remapTiles.setPower .bringup

/-- Stamps of a unit's life start again with `PV_TIME`. -/
def rebaseUnit (_ : Nat) (r : UnitRec) : UnitRec := { r with lastTest := 0, hour := 0, corrected := 0, overdue := false }

/-- PGOOD low: only the VBAT domain and flash remain (16 R466). -/
def Dev.powerLoss (d : Dev) (lc : LifeCycle) : Dev :=
  if !d.on then d
  else
    let e := d.wiped lc
    { e with units := Sparse.alter (fun _ => UnitRec.reset) e.units rebaseUnit
             power := { Power.reset with st := .off, perst := d.power.perst, calPs := d.power.calPs, energy := d.power.energy,
                                         backward := d.power.backward, resetNote := none } }

/-- PGOOD rises: a power-on reset. -/
def Dev.powerOn (d : Dev) : Dev :=
  if d.on then d
  else
    let d := (d.countReset 0 false).readmit.remapTiles
    Dev.setPower { d with power := { d.power with resetNote := some (0, false, false) } } .bringup

/-- An uncleared C4 of cause 0x0306 names a register of the Selvedge block (R439). -/
def Dev.tableUntrusted (d : Dev) : Bool :=
  d.log.entries.any fun e => match e.2 with
    | some x => x.cause = 0x0306 && !x.cleared && 0x10000 ≤ 4 * x.unitId && 4 * x.unitId < 0x14000
    | none => false

/-- A reset that keeps HBM where it can. -/
def Dev.keepingReset (d : Dev) (lc : LifeCycle) (typ : Nat) : Dev :=
  if d.tableUntrusted then d.clearedReset lc typ true else d.keptReset lc typ

/-- PERST_N is asserted with PGOOD high: a reset, or, during bring-up, bring-up from the CXL milestone on (16 R473). A
`PV_RESET` not yet begun is discarded. -/
def Dev.perstN (d : Dev) (lc : LifeCycle) : Dev :=
  if !d.on then d
  else
    let d := { d with power := { d.power with perst := true, resetDue := none } }
    if d.power.st = .bringup then { d with cxl := Cxl.reset } else d.keepingReset lc 1

def Dev.perstRelease (d : Dev) : Dev := { d with power := { d.power with perst := false } }

/-- A hot reset (2) or a link disable (3) comes over the CXL link. -/
def Dev.linkReset (d : Dev) (lc : LifeCycle) (typ : Nat) : Dev :=
  if d.on ∧ d.cxl.up then d.keepingReset lc typ else d

/-- The reset that `PV_RESET` asked for begins. -/
def Dev.registerReset (d : Dev) (lc : LifeCycle) (keep : Bool) : Dev :=
  d.onWrite 0x58 (1 + 2 * b2n keep) fun d =>
    if d.power.resetDue = some (!keep) then d
    else
      let d := { d with power := { d.power with resetDue := none } }
      if keep then d.keepingReset lc 4 else d.clearedReset lc 5 false

/-- `PV_RESET` is written: a reset is asked for. -/
def Dev.resetWrite (d : Dev) (v : Nat) : Dev :=
  d.onWrite 0x58 v fun d => if bit v 0 then { d with power := { d.power with resetDue := some (bit v 1) } } else d

/-! ### Boot verification (14 R419, R420) -/

/-- The first step of R419 that fails, from 0. -/
def bootStep (image : Option FwImage) (found : FwImage) (fused : Nat) : Option Nat :=
  match image with
  | none => some 0
  | some i =>
    if !(i.readable && found.readable) then some 0
    else if !(i.hashOk && found.hashOk) then some 1
    else if !(sigOk i.sig && sigOk found.sig) then some 2
    else if 63 < i.svn ∨ i.svn < fused then some 3
    else none

/-- Entry 0x010B of the reset not yet recorded, and the life-log entry of a tamper since the last boot. -/
def Dev.privetAnswers (d : Dev) : Dev :=
  let d := match d.power.resetNote with
    | some (typ, kept, acted) =>
      Dev.record { d with power := { d.power with resetNote := none } } 0 0x010B .device 0 none (typ + 16 * b2n kept + 32 * b2n acted)
    | none => d
  match d.life.tamperNote with
  | some s => Dev.lifeWrite { d with life := { d.life with tamperNote := none } } 7 [BitVec.ofNat 8 s]
  | none => d

/-- The image runs: alias key derived, `PV_FW` shows it. In BLANK and TEST every debug right is open. -/
def Dev.bootImage (d : Dev) (lc : LifeCycle) (i : Option FwImage) : Dev :=
  let d := { d with power := { d.power with booted := true },
                    life := { d.life with running := i, rights := if lc = LifeCycle.blank ∨ lc = LifeCycle.test then 0x3F else d.life.rights } }
  d.setReg 0x10 (BitVec.ofNat 64 ((i.map FwImage.version).getD 0 % 2 ^ 32 + (i.map FwImage.svn).getD 0 * 2 ^ 32))

/-- `BOOT_VERIFY`: `found` says what the boot ROM finds of the image in flash. A device in BLANK runs the boot ROM alone. -/
def Dev.bootVerify (d : Dev) (z : Fuses) (found : FwImage) : Dev :=
  if !d.on ∨ d.power.st ≠ .bringup ∨ d.power.booted ∨ d.life.recovery then d
  else
    let d := d.privetAnswers
    if z.lc = .blank then d.bootImage z.lc none
    else match bootStep d.life.image found z.svn with
      | none => d.bootImage z.lc d.life.image
      | some n =>
        let d := { d with life := { d.life with recovery := true, running := none } }
        (((d.setReg 0x10 0).record 4 0x040C .hub 1 none n)).setPower .held

/-! ### Bring-up (15 R440, R441) -/

/-- Milestones past the CXL link: firmware verified, PERST_N released, no C4 entry since the reset. -/
def Dev.bringsUp (d : Dev) : Bool := d.on && d.power.booted && !d.power.perst && !d.power.fatal

/-- A stack and a compute die of the minimum set are ready. -/
def Dev.minimumReady (d : Dev) : Bool :=
  d.minimumUp && ((List.range 16).any fun k => d.stackUp k && !d.unready .stack k) &&
    (List.range 4).any fun k => d.dieUp k && !d.unready .die k

/-- `REDUCED`; `late` lists the units not ready yet. -/
def Dev.bringupReduced (d : Dev) (late : List (UnitType × Nat)) : Dev :=
  if !d.bringsUp ∨ d.power.st ≠ .bringup then d
  else
    let e := { d with power := { d.power with notReady := late.map fun (x : UnitType × Nat) => (unitCode x.1, x.2) } }
    if Dev.minimumReady { e with power := { e.power with st := .reduced } } then e.setPower .reduced else d

/-- The minimum service set is not up: entry 0x0312, whose unit the spec does not name here, and `HELD` (R440). -/
def Dev.belowMinimum (d : Dev) : Dev :=
  let (v, d) := d.draw
  (d.record 4 0x0312 .device 0 none (v % 2 ^ 24)).setPower .held

/-- `FULL`: `bad` lists the units that failed bring-up, each fenced; one that takes the minimum set away is recorded as it is fenced.
A stack that lost its contents is among them (R439). -/
def Dev.bringupFull (d : Dev) (bad : List (UnitType × Nat)) : Dev :=
  if !d.bringsUp ∨ (d.power.st ≠ .bringup ∧ d.power.st ≠ .reduced) then d
  else
    let d := { d with power := { d.power with notReady := [] } }
    let wasUp := d.minimumUp
    let d := bad.foldl (fun (d : Dev) (x : UnitType × Nat) => if isSource x.1 x.2 then d.fenceUnit x.1 x.2 1 else d) d
    if d.minimumUp then d.setPower .full else if wasUp then d.setPower .held else d.belowMinimum

/-- 4 s without the minimum service set. -/
def Dev.bringupTimeout (d : Dev) : Dev := if !d.on ∨ d.power.st ≠ .bringup ∨ d.life.recovery then d else d.belowMinimum

/-! ### Journal recovery (10 R307, R308, Table 10-6) -/

/-- Logical tiles of the partition that hold anything. -/
def Dev.tilesOf (d : Dev) (p : Nat) : List Nat := (d.tiles.logical.map Prod.fst).filter fun l => tilePart d.parts l = p

/-- The in-place lines that tile `l` would restore, with their context: of its uncommitted pick, or of an earlier one. -/
def Dev.asideOwed (d : Dev) (l : Nat) : Nat × List (Nat × Nat × List Byte) :=
  match (d.lt l).pick, d.runCtx l, (d.lt l).undo with
  | some p, some ctx, _ => (ctx, p.saved)
  | _, _, some u => (u.ctx, u.lines)
  | _, _, _ => (0, [])

/-- Those lines come back from write-aside. -/
def Dev.restorePick (d : Dev) (l : Nat) : Dev := (d.unaside (d.asideOwed l).1 l (d.asideOwed l).2).1

/-- A write-aside line that recovery needs cannot be read (12 Table 12-6). -/
def Dev.asideLost (d : Dev) (p : Nat) : Bool :=
  (d.tilesOf p).any fun l =>
    let o := d.asideOwed l
    o.2.any fun e => match d.read (engineReq o.1 (bits (d.asideWord o.1) 41 12)) (d.asideAddr o.1 l e.1) 128 with
      | .ok _ _ => false
      | .fail _ _ => true

/-- The first uncommitted op of a part on tile `l`. -/
def Dev.firstOp (d : Dev) (ring seq l : Nat) : Nat :=
  ((((d.lt l).slots ++ (d.lt l).queue).find? fun s => s.ring = ring && s.seq = seq).map Slot.op).getD 0

/-- A dispatch with some part begun: what is neither ended nor failed is lost with the reset. -/
def Dev.lostParts (d : Dev) (x : Dispatch) : Dispatch :=
  if x.parts.all fun q => q.out = .queued then x
  else { x with parts := x.parts.map fun q =>
    if q.out.isOver then q else { q with out := .failed 5 (d.firstOp x.ring x.seq q.tile) (d.firstOp x.ring x.seq q.tile) } }

/-- The tile stores and what stood in the tile's slots are lost. -/
def Dev.emptyTile (d : Dev) (l : Nat) : Dev :=
  d.setLt l { (d.lt l).zeroed with pick := none, replay := none, slots := [], queue := [], cur := 0, waitFrom := none, undo := none }

/-- A dispatch without a part begun queues its parts again. -/
def Dev.requeue (d : Dev) (x : Dispatch) : Dev :=
  if x.parts.all fun q => q.out = .queued then x.parts.foldl (fun d q => d.queuePart x.ring x.seq x.ctx q) d else d

/-- Write-aside space of the partition's contexts is free. -/
def Dev.freeAside (d : Dev) (p : Nat) : Dev :=
  { d with tiles := { d.tiles with aside := d.tiles.aside.filter fun e => ctxPart e.1 ≠ p } }

/-- Rings of the partition. -/
def Dev.ringsOf (d : Dev) (p : Nat) : List Nat := (d.rings.map Prod.fst).filter fun r => ringPart r = p

/-- Battens of the partition whose log carries a control line: service waits for them too (06 R172, 15 R440). -/
def Dev.logsDue (d : Dev) (p : Nat) : List Nat :=
  (List.range 16).filter fun n => stackPart d.parts n = p && d.logSet n && leNat (d.bytes (d.logBase n) 4) = 0xBA770C01

/-- The journal is readable: picks undone, fences as mirrored, dispatches as Table 10-6 says, status lines rewritten. -/
def Dev.recoverPart (d : Dev) (p : Nat) : Dev :=
  let ls := d.tilesOf p
  let d := ls.foldl Dev.restorePick d
  let mine := d.dispatches.filter fun x => ctxPart x.ctx = p
  let d := { d with dispatches := d.dispatches.map fun x => if ctxPart x.ctx = p then d.lostParts x else x }
  let d := (ls.foldl Dev.emptyTile d).freeAside p
  let d := d.setSh p { d.sh p with rgets := [] }
  let d := (mine.foldl Dev.requeue d).settleDispatches
  let d := { d with power := { d.power with recover := d.power.recover.filter (· ≠ p) ++ (d.logsDue p).map (4 + ·) } }
  (d.ringsOf p).foldl (fun d r => (if (d.ring r).st = .disabled then d else d.writeStatus r).firstLook r) d

/-- The journal or write-aside cannot be read: as for a reset that keeps no HBM, the partition's contexts close and its rings
get no further record (R308, 12 Table 12-6). -/
def Dev.closePart (d : Dev) (p : Nat) : Dev :=
  let d := (d.ringsOf p).foldl (fun d r => (d.setRing r Ring.reset).setFld (ringReg r + 0x18) 0 1 0) d
  let d := { d with dispatches := d.dispatches.filter fun x => ctxPart x.ctx ≠ p
                    fences := d.fences.filter fun e => rangePart d.parts 16384 e.1 ≠ p
                    power := { d.power with recover := d.power.recover.filter (· ≠ p) } }
  let d := ((d.tilesOf p).foldl Dev.emptyTile d).freeAside p
  let d := ((d.clearBattens p).setBt p BtPart.reset).stopEngines p
  let d := d.setSh p { d.sh p with rgets := [], rx := [], groups := [] }
  let ks := (d.ctxs.map Prod.fst).filter fun k => ctxPart k = p
  ks.foldl (fun d k => (d.moveCtx k .closed).setCtx k { Ctx.reset with seedSet := (d.ctx k).seedSet && decide (k < 4) }) d

def Dev.journalRecovery (d : Dev) (p : Nat) (readable : Bool) : Dev :=
  if !d.serving ∨ !d.memReady p ∨ !d.power.recover.contains p then d
  else if d.power.stepBufs.any fun k => stackPart d.parts k = p then d
  else if readable ∧ !d.asideLost p then d.recoverPart p else d.closePart p

/-- A Selvedge writes its valid step buffers in place before it grants any access (12 R370). -/
def Dev.stepBufferRecovery (d : Dev) (k : Nat) : Dev :=
  if !d.serving ∨ d.unready .stack k ∨ !d.power.stepBufs.contains k then d
  else (d.stepBufs k).foldl (fun d b => d.drainBuf k b) { d with power := { d.power with stepBufs := d.power.stepBufs.filter (· ≠ k) } }

end Sys2Proof.Machine
end

