-- ==== Sys2Proof/Machine/Life.lean ====
section
/-! DEFINITION. Life cycle, firmware and debug: transitions and the wipe, the image area, fused SVN, debug certificates, life log
and flash, the TAP and trace (14 R414 to R434, 12 R362, 15 R460). -/

namespace Sys2Proof.Machine

/-! ### Life-cycle transitions (R415 to R417) -/

/-- The command reaches the RTP and is looked at. -/
def Dev.mailRuns (d : Dev) (lc : LifeCycle) (op : Nat) : Bool :=
  d.mailboxUp && !(d.rtp.busy && d.rtp.cmd.map (fun c => (c.op, c.part)) ≠ some (op, 0)) && (d.turnedAway lc op 0).isNone

/-- A transition is recorded and logged; `PV_STATE` changes, vector 1 (11 Table 11-7). -/
def Dev.noteTransition (d : Dev) (a b : LifeCycle) (op : Nat) : Dev :=
  ((d.raise 1).record 0 0x040A .hub 1 none (lcCode a + 8 * lcCode b)).lifeWrite 3
    [BitVec.ofNat 8 (lcCode a), BitVec.ofNat 8 (lcCode b), BitVec.ofNat 8 op]

/-- `IDH` that a debug certificate must name: zero before there is an identity (R426). -/
def Dev.debugIdh (d : Dev) (lc : LifeCycle) : Nat :=
  if lc = .blank ∨ lc = .test ∨ d.life.testSecret then 0 else Config.identityHash

/-- The checks of R426 in its order; the layout and the signature first. -/
inductive CertCheck where
  | good | malformed | signature | device | nonce | state | expired
  deriving DecidableEq, Repr

/-- `want` is the life-cycle state whose bit `STATES` must hold. -/
def Dev.certCheck (d : Dev) (lc : LifeCycle) (want : Nat) (c : DebugCert) : CertCheck :=
  if c.magic ≠ 0xDB6C0001 ∨ c.rsvd ≠ 0 then .malformed
  else if !sigOk c.sig then .signature
  else if c.idh ≠ d.debugIdh lc then .device
  else if d.life.nonce ≠ some c.nonce then .nonce
  else if !bit c.states want then .state
  else if c.notAfter < d.calendar then .expired
  else .good

/-- A certificate that fails. The spec names no status for a nonce that does not match: free, and not `OK`. -/
def Dev.certFail (d : Dev) (op : Nat) (c : DebugCert) : CertCheck → Dev
  | .malformed => d.answer 0x01
  | .signature => d.sigFail op c.sig
  | .device => d.answer 0x04
  | .state => d.answer 0x0B
  | .expired => d.answer 0x09
  | .nonce =>
    let (v, d) := d.draw
    d.answer (1 + v % 16)
  | .good => d

/-- Every slot but 0 loses its key, and the sealed records and what is held for partitions go. -/
def Dev.eraseUserFlash (d : Dev) : Dev := { d with rtp := { d.rtp with parts := [] } }

/-- TEST to PRODUCTION: RS generated; the rights of TEST close. -/
def Dev.intoProduction (d : Dev) : Dev :=
  let d := Dev.eraseUserFlash { d with keys := [], life := { d.life with testSecret := false, cert := false },
                                       rtp := { d.rtp with rsPresent := true } }
  ((d.setFld 0x8060 63 1 0).closeRights .production).noteTransition .test .production 0x40

/-- The rights of a certificate in force. -/
def Dev.grantRights (d : Dev) (rights notAfter : Nat) : Dev :=
  Dev.noteRights { d with life := { d.life with rights := rights, notAfter := notAfter } } notAfter

/-- What an `LC_ADVANCE` finds: the transition, a repetition before certification, or why it is refused. -/
inductive Advance where
  | makes (dest : LifeCycle)
  | repeats
  | unauthorised
  | badCert (c : DebugCert) (why : CertCheck)
  | forbidden
  deriving DecidableEq, Repr

def Dev.advance (d : Dev) (lc : LifeCycle) (target : Nat) (authOk : Bool) (cert : Option DebugCert) : Advance :=
  match lc, target, cert with
  | .blank, 1, _ => if authOk then .makes .test else .unauthorised
  | .test, 2, _ => if authOk then .makes .production else .unauthorised
  | .production, 2, _ => if d.life.cert then .forbidden else if authOk then .repeats else .unauthorised
  | .endOfLife, 4, some c =>
    match d.certCheck lc 4 c with
    | .good => .makes .analysis
    | w => .badCert c w
  | .endOfLife, 4, none => .unauthorised
  | _, _, _ => .forbidden

/-- The attempt consumes the nonce where a debug certificate is looked at. -/
def Dev.dropNonce (d : Dev) : Dev := { d with life := { d.life with nonce := none } }

/-- The identity public keys, for certification. -/
def identityReply : List Byte := leBytes 1984 Config.identityKeys

def Dev.applyAdvance (d : Dev) (cert : Option DebugCert) : Advance → Dev
  | .makes .test => (Dev.noteTransition { d with life := { d.life with testSecret := true }, rtp := { d.rtp with rsPresent := true } }
      .blank .test 0x40).answer 0
  | .makes .production => d.intoProduction.reply 0 identityReply
  | .makes .analysis =>
    let c := cert.map fun c => (c.rights % 64, c.notAfter)
    let d := d.dropNonce.noteTransition .endOfLife .analysis 0x40
    let d := { d with life := { d.life with invasive := d.life.invasive || (c.map fun (e : Nat × Nat) => decide (e.1 / 16 % 4 ≠ 0)).getD false } }
    (d.grantRights (c.map Prod.fst |>.getD 0) (c.map Prod.snd |>.getD 0)).answer 0
  | .makes _ => d.answer 0x0B
  | .repeats => d.reply 0 identityReply
  | .unauthorised =>
    let (v, d) := d.draw
    d.sigFail 0x40 { ed := v % 3 = 1, mldsa := v % 3 = 2 }
  | .badCert c w => d.dropNonce.certFail 0x40 c w
  | .forbidden => d.answer 0x0B

/-- `LC_ADVANCE`. -/
def Dev.lcAdvance (d : Dev) (lc : LifeCycle) (target : Nat) (authOk : Bool) (cert : Option DebugCert) : Dev :=
  d.mailbox lc 0x40 0 fun d => d.applyAdvance cert (d.advance lc target authOk cert)

/-- The fuse that an `LC_ADVANCE` burns. -/
def Dev.advanceFuse (d : Dev) (z : Fuses) (target : Nat) (authOk : Bool) (cert : Option DebugCert) : Fuses :=
  if d.mailRuns z.lc 0x40 then
    match d.advance z.lc target authOk cert with
    | .makes t => { z with lc := t }
    | _ => z
  else z

def Dev.eolArm (d : Dev) (lc : LifeCycle) (v : Nat) : Dev :=
  d.mailbox lc 0x41 0 fun d =>
    if lc = .test ∨ lc = .production then Dev.answer { d with life := { d.life with eolArm := some (v, d.now) } } 0
    else d.answer 0x0B

/-- `EOL_CONFIRM` holds: armed with the same value within 10 s, a window without its end (00 R11). -/
def Dev.eolHolds (d : Dev) (lc : LifeCycle) (v : Nat) : Bool :=
  (lc = .test || lc = .production) &&
    match d.life.eolArm with
    | some (w, t) => w = v && d.now < t + 10000000000
    | none => false

/-- The replays of a context end without effect. -/
def Dev.dropReplays (d : Dev) (k : Nat) : Dev :=
  (d.tiles.logical.map Prod.fst).foldl (fun d l =>
    match (d.lt l).replay with
    | some r => if ((d.lt l).slots[r.pick.slot]?).map Slot.ctx = some k then d.dropReplay l r else d
    | none => d) d

/-- A context that is not `CLOSED` is torn down at once. -/
def Dev.forceClosed (d : Dev) (k : Nat) : Dev :=
  let d := if d.ctxOpen k then d.beginTeardown k else d
  if (d.ctx k).st ≠ .tearing then d else ((d.dropReplays k).breakOwned k).finishTeardown k

/-- The wipe after the fuse. -/
def Dev.wipe (d : Dev) (lc : LifeCycle) : Dev :=
  let d := (d.noteTransition lc .endOfLife 0x42).eraseKeys
  let d := (d.ctxs.map Prod.fst).foldl Dev.forceClosed d
  let d := (Dev.eraseUserFlash { d with life := { d.life with eolArm := none } }).closeRights .production
  let (ms, d) := d.draw
  d.record 0 0x040E .hub 1 none ms

def Dev.eolConfirm (d : Dev) (lc : LifeCycle) (v : Nat) : Dev :=
  d.mailbox lc 0x42 0 fun d => if d.eolHolds lc v then (d.wipe lc).answer 0 else d.answer 0x0B

/-- The fuse that an `EOL_CONFIRM` burns. -/
def Dev.eolFuse (d : Dev) (z : Fuses) (v : Nat) : Fuses :=
  if d.mailRuns z.lc 0x42 && d.eolHolds z.lc v then { z with lc := .endOfLife } else z

/-- `CERT_STORE`. -/
def Dev.certStore (d : Dev) (lc : LifeCycle) (s : DualSig) (matchesKeys : Bool) : Dev :=
  d.mailbox lc 0x4B 0 fun d =>
    if lc ≠ .production ∨ d.life.cert then d.answer 0x0B
    else if !sigOk s ∨ !matchesKeys then d.sigFail 0x4B s
    else Dev.answer { d with life := { d.life with cert := true } } 0

/-! ### Firmware (R418 to R424) -/

def Dev.setImage (d : Dev) (st bytes fin : Nat) (i : Option FwImage) : Dev :=
  { d with life := { d.life with fwState := st, fwBytes := bytes, fwEnd := fin, image := i } }

/-- `FW_BEGIN`: the image area is erased. -/
def Dev.fwBegin (d : Dev) (lc : LifeCycle) : Dev := d.mailbox lc 0x43 0 fun d => (d.setImage 1 0 0 none).answer 0

/-- `FW_DATA`; `programmed` is false when a block could not be programmed, and a spare block takes its place while one
remains. -/
def Dev.fwData (d : Dev) (lc : LifeCycle) (n off : Nat) (programmed : Bool) : Dev :=
  d.mailbox lc 0x44 0 fun d =>
    if d.life.fwState ≠ 1 ∧ d.life.fwState ≠ 2 then d.answer 0x0B
    else if 2097152 < n ∨ off < d.life.fwEnd ∨ 134217728 < off + n then d.answer 0x01
    else if !programmed ∧ d.life.spare = 0 then d.answer 0x10
    else
      let d := if programmed then d else { d with life := { d.life with spare := d.life.spare - 1 } }
      (d.setImage 2 (d.life.fwBytes + n) (off + n) none).answer 0

/-- What `FW_COMMIT` finds of the programmed image. -/
inductive CommitCheck where
  | good | bad | rollback
  deriving DecidableEq, Repr

def commitCheck (i : FwImage) (fused : Nat) : CommitCheck :=
  match bootStep (some i) i fused with
  | none => .good
  | some 3 => if 63 < i.svn then .bad else .rollback
  | some _ => .bad

/-- The image is complete: entry 0x040B, life-log entry; in recovery the device resets. -/
def Dev.takeImage (d : Dev) (lc : LifeCycle) (i : FwImage) : Dev :=
  let d := d.setImage 3 d.life.fwBytes d.life.fwEnd (some i)
  let d := d.record 0 0x040B .hub 1 none (i.version % 2 ^ 32 + i.svn * 2 ^ 32)
  let d := d.lifeWrite 4 (leBytes 4 i.version ++ leBytes 4 i.svn ++ leBytes 24 i.measurement)
  let d := d.answer 0
  if d.life.recovery then d.keepingReset lc 6 else d

/-- `FW_COMMIT`; the programmed image verifies as a boot does. -/
def Dev.fwCommit (d : Dev) (z : Fuses) (i : FwImage) : Dev :=
  d.mailbox z.lc 0x45 0 fun d =>
    if d.life.fwState ≠ 1 ∧ d.life.fwState ≠ 2 then d.answer 0x0B
    else match commitCheck i z.svn with
      | .good => d.takeImage z.lc i
      | .rollback => (d.setImage 1 0 0 none).answer 0x0F
      | .bad =>
        let d := d.setImage 1 0 0 none
        if bootStep (some i) i z.svn = some 2 then (d.sigFail 0x45 i.sig).answer 0x0E else d.answer 0x0E

/-- The running image's SVN when it exceeds the fused one. -/
def Dev.svnRaise (d : Dev) (z : Fuses) : Option Nat :=
  match d.life.running with
  | some i => if z.svn < i.svn ∧ i.svn ≤ 63 then some i.svn else none
  | none => none

/-- `SVN_LOCK`. -/
def Dev.svnLock (d : Dev) (z : Fuses) : Dev :=
  d.mailbox z.lc 0x46 0 fun d =>
    match d.svnRaise z with
    | some v => (d.lifeWrite 5 [BitVec.ofNat 8 z.svn, BitVec.ofNat 8 v]).answer 0
    | none => d.answer 0x0B

/-- The fuses that an `SVN_LOCK` blows. -/
def Dev.svnFuse (d : Dev) (z : Fuses) : Fuses :=
  if d.mailRuns z.lc 0x46 then
    match d.svnRaise z with
    | some v => { z with svn := v }
    | none => z
  else z

/-! ### Debug certificates (R425 to R428) -/

def Dev.debugChallenge (d : Dev) (lc : LifeCycle) (nonce : Nat) : Dev :=
  d.mailbox lc 0x47 0 fun d => Dev.reply { d with life := { d.life with nonce := some nonce } } 0 (leBytes 32 nonce)

/-- `HALT` or `SCAN` is among the rights. -/
def invasive (rights : Nat) : Bool := bit rights 4 || bit rights 5

/-- The rights that a certificate opens: reserved bits none, `SCAN` never in PRODUCTION. -/
def opened (lc : LifeCycle) (rights : Nat) : Nat := rights % (if lc = .production then 32 else 64)

/-- Every slot but 0 is invalidated, cause 6. -/
def Dev.dropAllKeys (d : Dev) : Dev := ((d.keys.map Prod.fst).filter (· ≠ 0)).foldl (fun d k => d.dropKey k 6) d

/-- An accepted certificate. In BLANK and TEST every right stays open. -/
def Dev.acceptCert (d : Dev) (lc : LifeCycle) (c : DebugCert) : Dev :=
  if lc = .blank ∨ lc = .test then d.grantRights 0x3F c.notAfter
  else
    let d := if lc = .production ∧ invasive c.rights then d.dropAllKeys else d
    let d := { d with life := { d.life with invasive := d.life.invasive || invasive c.rights } }
    d.grantRights (opened lc c.rights) c.notAfter

/-- `DEBUG_OPEN`. -/
def Dev.debugOpen (d : Dev) (lc : LifeCycle) (c : DebugCert) : Dev :=
  d.mailbox lc 0x48 0 fun d =>
    let w := d.certCheck lc (lcCode lc) c
    let e := d.dropNonce
    if lc = .endOfLife then e.answer 0x0B
    else if w ≠ .good then e.certFail 0x48 c w
    else if lc = .production ∧ invasive c.rights ∧ d.anyOpen then e.answer 0x0B
    else (e.acceptCert lc c).answer 0

def Dev.debugClose (d : Dev) (lc : LifeCycle) : Dev := d.mailbox lc 0x49 0 fun d => (d.closeRights lc).answer 0

/-- `NOT_AFTER` has passed. -/
def Dev.rightsExpire (d : Dev) (lc : LifeCycle) : Dev :=
  if d.rtpUp ∧ d.life.notAfter < d.calendar then d.closeRights lc else d

/-! ### Life log and flash (R429 to R431) -/

/-- The place in the kept log of the entry with index `i`, or of the first one kept after it. -/
def Life.place (l : Life) (i : Nat) : Nat := if i < 65536 then i else max 65536 (i - l.logFirst)

def Dev.lifelogRead (d : Dev) (lc : LifeCycle) (i n : Nat) : Dev :=
  d.mailbox lc 0x4A 0 fun d =>
    if 128 < n then d.answer 0x01 else d.reply 0 (((d.life.log.drop (d.life.place i)).take n).flatMap LifeEntry.bytes)

/-- The spare blocks remaining, as one 8-byte number. -/
def Dev.flashInfo (d : Dev) (lc : LifeCycle) : Dev := d.mailbox lc 0x4C 0 fun d => d.reply 0 (leBytes 8 d.life.spare)

/-! ### TAP and trace (R425, Table 14-3) -/

def Dev.right (d : Dev) (i : Nat) : Bool := d.life.rights.testBit i

def Dev.setTap (d : Dev) (t : Tap) : Dev := { d with tap := t }

/-- `n` bits of a number, bit 0 first. -/
def bitList (v n : Nat) : List Bool := (List.range n).map fun i => v.testBit i

/-- `IDCODE` at stepping A1. -/
def idcodeValue : Nat := 0x14C16A3B

def Dev.tapIdcode (d : Dev) : Dev :=
  if !d.on then d else d.setTap { d.tap with ir := 0, dr := bitList idcodeValue 32, extest := false, drive := [] }

def Dev.tapBypass (d : Dev) : Dev :=
  if !d.on then d else d.setTap { d.tap with ir := 1, dr := [false], extest := false, drive := [] }

/-- Without the right, every instruction selects BYPASS. -/
def Dev.underRight (d : Dev) (i : Nat) (f : Dev → Dev) : Dev := if !d.on then d else if d.right i then f d else d.tapBypass

def Dev.tapSample (d : Dev) (captured preload : List Bool) : Dev :=
  d.underRight 0 fun d => d.setTap { d.tap with ir := 2, dr := captured, bscan := preload, extest := false, drive := [] }

def Dev.tapExtest (d : Dev) (drive : List Bool) : Dev :=
  d.underRight 0 fun d => d.setTap { d.tap with ir := 3, dr := d.tap.bscan, bscan := drive, drive := drive, extest := true }

/-- The trace buffer is full. -/
def Dev.traceFull (d : Dev) : Dev := if d.on ∧ d.right 2 then d.setTap { d.tap with full := true } else d

/-- A debug-master access (12 R362, class 3) for the partition whose window holds the address. -/
def Dev.debugMaster (d : Dev) (a : Nat) (write : Bool) (data : List Byte) : Dev :=
  d.underRight 3 fun d =>
    let p := a / d.window
    let q : Req := { ctx := p, cls := 3, key := 0 }
    if d.parts ≤ p ∨ !d.servingIn p then d
    else if write then
      match d.write q a data with
      | .ok d _ => d
      | .fail d _ => d
    else match d.read q a data.length with
      | .ok d bs => d.setTap { d.tap with dr := bs.flatMap fun b => bitList b.toNat 8 }
      | .fail d _ => d

/-- One piece of the tile's pick runs, the pick commits, or the next one starts. -/
def Dev.stepTile (d : Dev) (l : Nat) : Dev :=
  match (d.lt l).pick with
  | some p =>
    match p.pieces with
    | q :: _ => d.opRow l (oCode q.desc)
    | [] => d.pickCommit l none
  | none => d.pickStart l

/-- Under `HALT`: the sequencer of logical tile `l` halts, or makes a single step and stands halted again. -/
def Dev.haltTile (d : Dev) (l : Nat) (single : Bool) : Dev :=
  d.underRight 4 fun d =>
    if 1024 ≤ l then d
    else
      let d := if single then Dev.stepTile (d.setTap { d.tap with halted := d.tap.halted.filter (· ≠ l) }) l else d
      d.setTap { d.tap with halted := insNat l d.tap.halted }

/-- Under `SCAN`: a chain of die `k` shifts; what comes out is free. -/
def Dev.scanDie (d : Dev) (k : Nat) (bits : List Bool) : Dev :=
  d.underRight 5 fun d =>
    let (v, d) := d.draw
    d.setTap { d.tap with scan := d.tap.scan ++ [(k, bits)], dr := bitList v bits.length }

end Sys2Proof.Machine
end

