-- ==== Sys2Proof/Machine/PowerOps.lean ====
section
/-! DEFINITION. Power, clocks and time: the 1 ms tick, power and thermal control, the timebase and its synchronisation, the
calendar, clock gating, D3hot, and the CXL port (15 R436, R437, R444 to R462, 09 R270, R280, 11 R331 to R333). -/

namespace Sys2Proof.Machine

/-! ### The tile clock (R446 to R450, Table 15-8) -/

def Dev.limit (d : Dev) : Nat := d.fld 0x40 0 12

/-- Fixed-clock mode. -/
def Dev.fixed (d : Dev) : Bool := d.fld 0x40 12 1 = 1

def Dev.setPw (d : Dev) (w : Power) : Dev := { d with power := w }

/-- The lowest clock requested; 0 while tiles are stopped. -/
def Dev.tileMhz (d : Dev) : Nat :=
  if d.power.fatal ∨ (d.power.st ≠ .reduced ∧ d.power.st ≠ .full) then 0
  else if d.power.st = .reduced ∨ d.power.thermIn then 1250
  else
    let own := if d.fixed then (if d.power.tripped then 1250 else 2100) else d.power.loopMhz
    min own d.power.tempMhz

/-- One step down, one step up. -/
def stepDown (mhz : Nat) : Nat := max 1250 (mhz - 25)

def stepUp (mhz : Nat) : Nat := min 2500 (mhz + 25)

/-- A change that lowers the clock in fixed-clock mode breaks it, for cause 1 trip, 2 thermal, 3 THERM_N. -/
def Dev.breaksFixed (d : Dev) (cause : Nat) (f : Dev → Dev) : Dev :=
  let e := f d
  if e.fixed ∧ e.tileMhz < d.tileMhz then (e.setFld 0x44 20 1 1).record 1 0x0107 .device 0 none cause else e

/-- A 1 ms window of samples has ended: its average, and a step up after one at or below 98% of the limit. -/
def Dev.closeWindow (d : Dev) : Dev :=
  let w := d.power
  if w.sampleCount = 0 then d
  else
    let isOver : Bool := d.limit * w.sampleCount < w.sampleSum
    let low : Bool := 100 * w.sampleSum ≤ 98 * d.limit * w.sampleCount
    let d := d.setFld 0x48 16 16 (min 65535 (w.sampleSum / w.sampleCount))
    let w := { w with sampleSum := 0, sampleCount := 0, lastOver := isOver, isOver := isOver && !d.fixed }
    if low ∧ !d.fixed then
      d.setPw (if w.idle16 ≠ 0 then { w with idle16 := w.idle16 - 1 } else { w with loopMhz := stepUp w.loopMhz })
    else d.setPw w

/-- A sample while the last window exceeded the limit: a step down, or stepping ends at or below it. -/
def Power.loop (w : Power) (watts limit : Nat) : Power :=
  if !w.isOver then w
  else if watts ≤ limit then { w with isOver := false }
  else if 1250 < w.loopMhz then { w with loopMhz := stepDown w.loopMhz }
  else { w with idle16 := min 15 (w.idle16 + 1) }

/-- A sample above 1.25 times the limit: the fast trip. -/
def Dev.trip (d : Dev) (watts : Nat) : Dev :=
  let t : Bool := 5 * d.limit < 4 * watts
  let d := d.breaksFixed 1 fun d => d.setPw { d.power with tripped := t, loopMhz := if t then 1250 else d.power.loopMhz }
  if t then (d.setPw { d.power with tripWindow := d.now / 1000000 + 1 }).record 1 0x0104 .device 0 none watts else d

/-- Input energy, in joules. -/
def Dev.addEnergy (d : Dev) (watts : Nat) : Dev :=
  let e := d.power.energy + watts
  (d.setPw { d.power with energy := e % 100000 }).bump 0xA0 (e / 100000)

/-- `POWER_SAMPLE`: due once in each 10 µs. -/
def Dev.powerSample (d : Dev) (watts : Nat) : Dev :=
  let n := d.now / 10000
  if !d.on ∨ n < d.power.sampleNo then d
  else
    let d := if (d.power.sampleNo - 1) / 100 < n / 100 then d.closeWindow else d
    let d := (d.trip watts).addEnergy watts
    let w := { d.power with sampleNo := n + 1, sampleSum := d.power.sampleSum + watts, sampleCount := d.power.sampleCount + 1 }
    d.setPw (if d.fixed then w else w.loop watts d.limit)

/-- `PV_PWR_CTRL` is written. -/
def Dev.powerControl (d : Dev) (v : Nat) : Dev :=
  d.onWrite 0x40 v fun d =>
    let low : Bool := d.fixed && bits v 0 12 < 3200
    let e := if low then (d.setFld 0x40 12 1 (v / 4096)).recordReg 0x0003 0x40 v else d.plainWrite 0x40 v
    if e.fixed ∧ !d.fixed then e.setPw { e.power with isOver := false, idle16 := 0, loopMhz := 2100 } else e

/-! ### Temperature (R448, R449, Table 15-5) -/

/-- Throttle and critical temperature of a sensor's unit. The sensors of the hub die H go by unit type hub with any ID, so that
entry 0x0105 names them as a part of the hub: Table 09-8 numbers compute dies only under unit type die, while 00 R4 encodes H as
die 4 (assumption log 110). -/
def thermalLimits : UnitType → Nat → Option (Nat × Nat)
  | .die, id => if id < 4 then some (100, 110) else none
  | .hub, _ => some (105, 115)
  | .stack, id => if id < 16 then some (95, 105) else none
  | _, _ => none

/-- Throttle temperature by unit code. -/
def throttleOf (code : Nat) : Nat := if code = unitCode .die then 100 else if code = unitCode .hub then 105 else 95

/-- The thermal throttle steps the clock down from where it is. -/
def Dev.heatStep (d : Dev) : Dev :=
  d.breaksFixed 2 fun d => d.setPw { d.power with tempMhz := stepDown (min d.power.tempMhz (if d.tileMhz = 0 then 2500 else d.tileMhz)) }

/-- The reading shows in `PV_TEMP` where it is the hottest of its kind. -/
def Dev.showTemp (d : Dev) (u : UnitType) (c : Nat) : Dev :=
  let lo := if u = .die then 0 else if u = .hub then 8 else 16
  d.setFld 0x4C lo 8 (max (d.fld 0x4C lo 8) (min c 255))

/-- A sensor reaches its throttle temperature, or its critical one: entry 0x0105 stops the tiles. -/
def Dev.thermal (d : Dev) (u : UnitType) (id c : Nat) : Dev :=
  match thermalLimits u id with
  | none => d
  | some (t, crit) =>
    if !d.on ∨ c < t then d
    else
      let d := d.showTemp u c
      let k := (unitCode u, id)
      let d := if d.power.hot.contains k then d
        else Dev.heatStep (d.setPw { d.power with hot := d.power.hot ++ [k], thermStep := d.now / 100000 + 1 })
      if crit ≤ c then d.record 4 0x0105 u id none (c % 256 + unitCode u * 256 + id % 65536 * 65536) else d

/-- The hottest reading of a sensor's kind. -/
def readingOf (code die hub hbm : Nat) : Nat := if code = unitCode .die then die else if code = unitCode .hub then hub else hbm

/-- `THERMAL_THROTTLE_STEP`: due once in each 100 µs. -/
def Dev.thermalStep (d : Dev) (die hub hbm : Nat) : Dev :=
  let n := d.now / 100000
  if !d.on ∨ n < d.power.thermStep then d
  else
    let w := d.power
    let hot := w.hot.filter fun k => throttleOf k.1 ≤ readingOf k.1 die hub hbm
    let d := d.setReg 0x4C (BitVec.ofNat 64 (min die 255 + min hub 255 * 256 + min hbm 255 * 65536))
    let d := d.setPw { w with thermStep := n + 1, hot := hot }
    if 100 ≤ die ∨ 105 ≤ hub ∨ 95 ≤ hbm then d.heatStep
    else if die ≤ 97 ∧ hub ≤ 102 ∧ hbm ≤ 92 then d.setPw { d.power with tempMhz := stepUp d.power.tempMhz }
    else d

/-- The device drives THERM_N low. -/
def Dev.thermOut (d : Dev) : Bool := !d.power.hot.isEmpty

/-- THERM_N is held low from outside, which shows only while the device does not drive it itself (16 R472). -/
def Dev.thermIn (d : Dev) : Dev :=
  if d.on ∧ !d.thermOut then d.breaksFixed 3 fun d => d.setPw { d.power with thermIn := true } else d

def Dev.thermRelease (d : Dev) : Dev := if d.on then d.setPw { d.power with thermIn := false } else d

/-! ### Clocks (R444, R445) -/

/-- A tile that is idle with no dispatch is gated. What gates another domain changes no result, order or status. -/
def Dev.gate (d : Dev) (u : UnitType) (id : Nat) : Dev :=
  if d.on ∧ u = .tile ∧ id < 1088 ∧ d.tileState id = 1 ∧ d.tileFree id then d.setTileState id 0 else d

/-- REFCLK absent for more than 10 µs. -/
def Dev.refclkLost (d : Dev) : Dev :=
  if d.on ∧ d.power.refclk then (d.setPw { d.power with refclk := false }).record 4 0x0109 .device 0 none 0 else d

def Dev.refclkReturn (d : Dev) : Dev := if d.on then d.setPw { d.power with refclk := true } else d

/-! ### Timebase (R452 to R454, R461) -/

/-- The whole second nearest to a stamp in ns. -/
def nearestEdge (t : Nat) : Nat := (t + 500000000) / 1000000000

/-- The signed error of an edge, saturating, as 16 bits. -/
def edgeError (t : Nat) : Nat :=
  let k := nearestEdge t * 1000000000
  if k ≤ t then min 32767 (t - k) else (65536 - min 32767 (k - t)) % 65536

/-- The magnitude of an error of 16 bits. -/
def errorSize (e : Nat) : Nat := if e < 32768 then e else 65536 - e

/-- A pending `PV_TIME_SET` applies, or is refused: time never moves backward. -/
def Dev.applyTimeSet (d : Dev) : Dev :=
  match d.power.timeSet with
  | none => d
  | some v =>
    let d := d.setPw { d.power with timeSet := none }
    if d.now ≤ v then { d with timePs := v * 1000 } else (d.setFld 0x64 2 1 1).record 0 0x010A .device 0 none v

/-- A rising edge on AUX0 while time sync is enabled. -/
def Dev.syncEdge (d : Dev) : Dev :=
  if !d.on ∨ d.fld 0x60 0 1 = 0 then d
  else
    let e := edgeError d.now
    let d := (d.setReg 0x70 (BitVec.ofNat 64 d.now)).setFld 0x64 16 16 e
    let d := d.setFld 0x64 0 1 (b2n (errorSize e ≤ 50))
    let w := d.power
    let d := d.setPw { w with edge := some (nearestEdge d.now), slewing := decide (e ≠ 0),
                              edges := if d.fld 0x60 1 1 = 1 then w.edges + 1 else w.edges }
    d.applyTimeSet

/-- Three expected edges have passed without one: `LOST`, entry 0x0106. The timebase runs on. -/
def Dev.syncLost (d : Dev) : Dev :=
  match d.power.edge with
  | some k =>
    if !d.on ∨ d.fld 0x60 0 1 = 0 ∨ d.now < (k + 3) * 1000000000 then d
    else
      let d := (d.setPw { d.power with edge := none }).setFld 0x64 1 1 1
      d.record 1 0x0106 .device 0 none (d.fld 0x64 16 16)
  | none => d

/-- `PV_SYNC_CTRL`: time sync takes AUX0 and AUX1, and a running UART stops. -/
def Dev.syncControl (d : Dev) (v : Nat) : Dev :=
  d.onWrite 0x60 v fun d =>
    let e := d.plainWrite 0x60 v
    if e.fld 0x60 0 1 = d.fld 0x60 0 1 then e
    else if e.fld 0x60 0 1 = 1 then e.setPw { e.power with uart := false, edge := some (e.now / 1000000000) }
    else e.setPw { e.power with slewing := false, edge := none }

/-- `PV_TIME_SET`: pending until the next edge. -/
def Dev.timeSetWrite (d : Dev) (v : Nat) : Dev :=
  d.onWrite 0x68 v fun d => Dev.setPw (d.setReg 0x68 (BitVec.ofNat 64 v)) { d.power with timeSet := some v }

/-- `PV_AUX`: the debug UART is granted, or refused while time sync holds the pins. -/
def Dev.uartWrite (d : Dev) (v : Nat) : Dev :=
  d.onWrite 0x88 v fun d =>
    let was := d.fld 0x88 0 1
    let d := d.plainWrite 0x88 v
    if bit v 0 ∧ d.fld 0x60 0 1 = 1 then ((d.setFld 0x88 0 1 was).setFld 0x88 1 1 1).record 0 0x0103 .device 0 none 0
    else d.setPw { d.power with uart := bit v 0 }

/-- The calendar adjustment as a number of seconds, backward where the sign bit is set. -/
def Dev.calendarAdjust (d : Dev) (lc : LifeCycle) (v : Word64) : Dev :=
  d.onWrite 0x80 v.toNat fun d =>
    let n := v.toNat
    if lc = .blank ∨ lc = .test then d.setReg 0x78 v
    else if n < 2 ^ 63 then d.setReg 0x78 (BitVec.ofNat 64 (d.calendar + n))
    else
      let back := 2 ^ 64 - n
      let recent := d.power.backward.filter fun e => d.calendar < e.1 + 86400
      if recent.foldl (fun s e => s + e.2) back ≤ 60 then
        Dev.setPw (d.setReg 0x78 (BitVec.ofNat 64 (d.calendar - back))) { d.power with backward := (d.calendar - back, back) :: recent }
      else d.record 0 0x0108 .device 0 none n

/-! ### Time goes on -/

/-- `ps` picoseconds of the VBAT domain: calendar and seconds powered and hot. -/
def Dev.vbatTime (d : Dev) (ps : Nat) : Dev :=
  let t := d.power.calPs + ps
  let d := d.setPw { d.power with calPs := t % 1000000000000 }
  if t < 1000000000000 then d
  else
    let d := d.bump 0x78 1
    let d := if d.on then d.bump 0x90 1 else d
    if d.on ∧ d.thermOut then d.bump 0xA8 1 else d

/-- Picoseconds of `PV_TIME` in `ns` nanoseconds: slewed by at most 100 ppm while time sync slews (R453). -/
def Dev.advancePs (d : Dev) (ns : Nat) : Nat :=
  if d.power.slewing then
    let s := Config.slew d.timePs
    let m := min s.natAbs (ns / 10)
    if 0 ≤ s then 1000 * ns + m else 1000 * ns - m
  else 1000 * ns

/-- The device runs on for one advance of its timebase: 10 ns, or 40 ns without REFCLK (R452). -/
def Dev.advanceTime (d : Dev) : Dev :=
  if !d.on then d.vbatTime 10000
  else
    let ns := if d.power.refclk then 10 else 40
    let m := d.tileMhz
    let d := if 0 < m ∧ m < (if d.fixed then 2100 else 2500) then d.bump 0x50 ns else d
    Dev.vbatTime { d with timePs := d.timePs + d.advancePs ns } (1000 * ns)

/-! ### The tick (R462) -/

/-- Regulator windows roll over (10 R321): staging copies have used what the old one left; messages and status lines held for want
of a budget go on. -/
def Dev.rollWindows (d : Dev) : Dev :=
  let d := (List.range d.parts).foldl Dev.stagingGoOn d
  ({ d with used := [] } : Dev).drainQueue.payStatus

/-- Expiry of manifests, certificates and releases. -/
def Dev.expire (d : Dev) (lc : LifeCycle) : Dev := (((List.range d.parts).foldl Dev.jobExpire d).releaseExpire).rightsExpire lc

/-- `PRIVET_TICK`: due once in each 1 ms window, in any state but Off. `strobes` lists the sources whose pair does not read as a
whole, silent one does; `flips` lists the upsets of copies since the tick before. -/
def Dev.tick (d : Dev) (lc : LifeCycle) (strobes : List StrobeReading) (flips : List CopyFlip) : Dev :=
  if !d.on ∨ d.now / 1000000 < d.power.ticks then d
  else
    let d := d.setPw { d.power with ticks := d.now / 1000000 + 1 }
    let d := ((d.rollWindows.readDoorbells).p8Waiting lc).expire lc
    let d := ((flips.foldl Dev.flipCopy (strobes.foldl Dev.strobe d)).compareCopies).injectTick
    (List.range d.parts).foldl Dev.countStepping d

/-! ### D3hot (R437) -/

/-- The contexts that are open. -/
def Dev.openCtxs (d : Dev) : List Nat := (d.ctxs.filter fun e => e.2.st = .opened).map Prod.fst

def Dev.d3hot (d : Dev) : Dev :=
  if !d.on ∨ d.power.d3 ∨ !d.cxl.up then d
  else
    let d := d.openCtxs.foldl (fun d k => d.recoveryStop k false) d
    let d := d.setPw { d.power with d3 := true, before := d.power.st }
    if d.power.st = .reduced ∨ d.power.st = .full then d.setPower .standby else d

def Dev.d0 (d : Dev) : Dev :=
  if !d.on ∨ !d.power.d3 ∨ !d.cxl.up then d
  else
    let d := d.setPw { d.power with d3 := false }
    if d.power.st = .standby then d.setPower d.power.before else d

/-! ### The CXL port (11 R331 to R333) -/

def Dev.cxlDown (d : Dev) : Dev :=
  if !d.on ∨ !d.cxl.up then d
  else d.openCtxs.foldl (fun d k => d.recordC3 0x0207 k (ctxId k)) { d with cxl := Cxl.reset }

/-- Table 11-1 offers the width, the rate (5 32 GT/s, 6 64 GT/s) and the flit: 68 B flits at 32 GT/s alone. -/
def linkOffered (width rate : Nat) (flit256 : Bool) : Bool := [1, 2, 4, 8].contains width && (rate = 6 && flit256 || rate = 5)

/-- The link trains; in firmware recovery with CXL.io alone (14 R420). Records and status lines that waited follow. -/
def Dev.cxlTrained (d : Dev) (width rate : Nat) (flit256 cache : Bool) : Dev :=
  if !d.on ∨ d.cxl.up ∨ d.power.perst ∨ !(d.power.booted || d.life.recovery) ∨ !linkOffered width rate flit256 then d
  else
    let c := cache && !d.life.recovery
    let d := { d with cxl := { up := true, width := width, rate := rate, flit256 := flit256, cache := c, ideIo := [], ideCache := [], lines := [] } }
    let d := if width < 8 ∨ rate < 6 ∨ !c then d.record 1 0x0206 .hub 3 none (width + rate * 16 + b2n c * 256) else d
    d.payStatus

/-- An IDE stream fails its integrity check: it is no longer secure, and every open context stops. A transaction since the last
verified point is none of the machine's commands: a command of the host stands for one that its stream has verified (R333,
DEDUCED, log 139). -/
def Dev.ideFails (d : Dev) (cache : Bool) (stream : Nat) : Dev :=
  let l := if cache then d.cxl.ideCache else d.cxl.ideIo
  if !d.on ∨ !d.cxl.up ∨ !l.contains stream then d
  else
    let m := l.filter (· ≠ stream)
    let d := { d with cxl := if cache then { d.cxl with ideCache := m } else { d.cxl with ideIo := m } }
    d.openCtxs.foldl (fun d k => d.recordC3 0x0208 k (b2n cache + stream % 256 * 16 + ctxId k * 65536)) d

end Sys2Proof.Machine
end

