-- ==== Sys2Proof/Machine/RegWrite.lean ====
section
/-! DEFINITION. Register writes over the host port: sizes and alignment, partition windows, the MSI-X table, and the registers
whose write does more than set its fields (11 R335, R336, R340, R342, R344 and the register rules of every chapter). -/

namespace Sys2Proof.Machine

/-- A write ignored with entry 0x0101, in the held state 0x0102: its offset and the low 32 bits of the value (R335, R340, R348). -/
def Dev.badWrite (d : Dev) (off v : Nat) : Dev :=
  d.record 0 (if d.heldOut off then 0x0102 else 0x0101) .register (off / 4 % 65536) none (off % 2 ^ 18 + v % 2 ^ 32 * 2 ^ 32)

/-! ### Writes under way: bits `[lo + w - 1 : lo]` of the register at `o` -/

/-- A register write of `w` bits of `v` at bit `lo` of the register `s` at `o`. -/
structure RegW where
  s : RegSpec
  o : Nat
  lo : Nat
  w : Nat
  v : Nat
  deriving DecidableEq, Repr

/-- The fields change under their access codes. -/
def Dev.fieldWrite (d : Dev) (r : RegW) : Dev := d.applyWrite r.s r.o r.lo r.w r.v

/-- The value that a write-only register takes: bits not written are 0. -/
def RegW.taken (r : RegW) : Nat := r.v % 2 ^ r.w * 2 ^ r.lo

/-- The value that the register would hold. -/
def Dev.merged (d : Dev) (r : RegW) : Nat := setBits (d.reg r.o).toNat r.lo r.w (r.v % 2 ^ r.w)

/-- The write is ignored, entry 0x0003. -/
def Dev.refusedWrite (d : Dev) (r : RegW) : Dev := d.recordReg 0x0003 r.o (r.v % 2 ^ r.w)

/-- A context of partition `p` is not `CLOSED`. -/
def Dev.partOpen (d : Dev) (p : Nat) : Bool := d.ctxs.any fun e => ctxPart e.1 = p && e.2.st ≠ .closed

/-! ### Identity, power and time -/

def Dev.writePv (d : Dev) (lc : LifeCycle) (r : RegW) : Dev :=
  match r.o with
  | 0x1C => Dev.partitionCount (if bit r.v 8 then d.setFld 0x1C 8 1 0 else d) r.v
  | 0x40 => d.powerControl r.v
  | 0x58 => d.resetWrite r.v
  | 0x60 => d.syncControl r.v
  | 0x68 => d.timeSetWrite (d.merged r)
  | 0x80 => d.calendarAdjust lc (BitVec.ofNat 64 r.taken)
  | 0x88 => d.uartWrite r.v
  | _ => d.fieldWrite r

/-! ### Host interface -/

/-- `P8` changes only with one partition presented and no context open (10 R310). In the P8 model `TL_RETAIN` is 0 (03 R76). -/
def Dev.writeHxCtrl (d : Dev) (r : RegW) : Dev :=
  let e := d.fieldWrite r
  if e.fld 0x4000 3 1 ≠ d.fld 0x4000 3 1 ∧ (d.fld 0x1C 0 2 ≠ 0 ∨ d.anyOpen) then (e.setFld 0x4000 3 1 (d.fld 0x4000 3 1)).refusedWrite r
  else if e.p8 then (List.range 4).foldl (fun e p => e.setFld (0x20100 + 0x40 * p) 0 6 0) e
  else e

/-- `HX_P8_CMD` (10 R482): a write that holds no bit of `CMD` is no command. -/
def Dev.writeP8Cmd (d : Dev) (lc : LifeCycle) (r : RegW) : Dev :=
  let v := r.taken
  let c := bits v 0 12
  if r.lo ≠ 0 then d
  else match bits v 12 3 with
    | 0 => d.p8Open lc c (v / 2 ^ 15 * 2 ^ 15)
    | 1 => d.makeResident c
    | 2 => d.stopCtx (4 + c) p8Cmd v
    | 3 => d.resumeCtx (4 + c) p8Cmd v
    | 4 => d.teardown (4 + c) p8Cmd v
    | _ => d.recordReg 0x0001 p8Cmd v

/-- `HX_CTX_CTRL`: at most one command (10 R482). -/
def Dev.writeCtxCtrl (d : Dev) (lc : LifeCycle) (p : Nat) (r : RegW) : Dev :=
  match r.v % 16 with
  | 0 => d
  | 1 => d.openCtx lc p
  | 2 => d.teardown p r.o 2
  | 4 => d.stopCtx p r.o 4
  | 8 => d.resumeCtx p r.o 8
  | _ => d.recordReg 0x0001 r.o r.v

/-- A region of the partition with a key is in use (10 R309). -/
def Dev.protectedRegion (d : Dev) (p : Nat) : Bool :=
  d.regions.any fun e => d.regionPart e.1 = p && e.2.key ≠ 0 && (e.2.isLive || e.2.st = .opening)

/-- The shares of a resource over all partitions if partition `p`'s were `x`. -/
def Dev.shareSum (d : Dev) (lo p x : Nat) : Nat :=
  ((List.range d.parts).map fun q => if q = p then x else d.fld (0x4130 + 0x100 * q) lo 7).foldl (· + ·) 0

def Dev.writeShare (d : Dev) (p : Nat) (r : RegW) : Dev :=
  let host := bits (d.merged r) 0 7
  let link := bits (d.merged r) 8 7
  if !d.locked r.o ∧ host ≤ 64 ∧ link ≤ 64 ∧ (64 < d.shareSum 0 p host ∨ 64 < d.shareSum 8 p link) then d.refusedWrite r else d.fieldWrite r

/-- A staging channel's control register: `GO` while busy is ignored with the whole write. -/
def Dev.writeStaging (d : Dev) (p c : Nat) (r : RegW) : Dev :=
  if !(bit r.taken 40) then d.fieldWrite r
  else if (d.staging_ (2 * p + c)).st = 1 then d.badWrite r.o r.v
  else (d.fieldWrite r).stagingGo p c

/-- Registers of partition `p`'s host interface, by offset within it. -/
def Dev.writeCtxReg (d : Dev) (lc : LifeCycle) (p i : Nat) (r : RegW) : Dev :=
  match i with
  | 0x00 => d.writeCtxCtrl lc p r
  | 0x08 =>
    if (d.ctx p).st ≠ .closed then d.refusedWrite r else (d.fieldWrite r).setCtx p { d.ctx p with seedSet := true }
  | 0x10 => if (d.ctx p).st ≠ .closed ∨ d.protectedRegion p then d.refusedWrite r else d.fieldWrite r
  | 0x18 => if r.lo = 0 then d.sendingEpoch p (r.v % 2 ^ 32) else d
  | 0x30 => d.writeShare p r
  | 0xD0 => d.writeStaging p 0 r
  | 0xF0 => d.writeStaging p 1 r
  | _ => d.fieldWrite r

/-- A ring's address fields change only while it reads `DISABLED` (10 R295). -/
def Dev.writeRingAddr (d : Dev) (ring : Nat) (r : RegW) : Dev :=
  if (d.ring ring).st = .disabled then d.fieldWrite r
  else
    let prio := r.o % 0x20 = 0
    let old := (d.reg r.o).toNat
    let new := d.merged r
    let keep := if prio then setBits old 4 2 (bits new 4 2) else old
    let mask := fun v => if prio then setBits (setBits v 4 2 0) 6 6 0 else v
    let low := if r.o % 0x20 = 8 then 6 else if prio then 0 else 12
    let e := d.setReg r.o (BitVec.ofNat 64 keep)
    if mask new / 2 ^ low ≠ mask old / 2 ^ low then e.refusedWrite r else e

/-- `HX_RING_CTRL`: `VECTOR`, and `ENABLE` set or cleared. -/
def Dev.writeRingCtrl (d : Dev) (ring : Nat) (r : RegW) : Dev :=
  if bit r.v 0 ∧ (d.ring ring).st = .draining then d.refusedWrite r
  else
    let d := d.setFld r.o 16 11 (bits r.v 16 11)
    if bit r.v 0 then d.ringEnable ring else d.ringDisable ring

def Dev.writeHx (d : Dev) (lc : LifeCycle) (r : RegW) : Dev :=
  if r.o = 0x4000 then d.writeHxCtrl r
  else if r.o = p8Cmd then d.writeP8Cmd lc r
  else if r.o < 0x4100 then d.fieldWrite r
  else if r.o < 0x4800 then d.writeCtxReg lc ((r.o - 0x4100) / 0x100) (r.o % 0x100) r
  else if r.o % 0x20 = 0x18 then d.writeRingCtrl ((r.o - 0x4800) / 0x20) r
  else d.writeRingAddr ((r.o - 0x4800) / 0x20) r

/-! ### Coppice, RTP, Selvedge -/

def Dev.writeCp (d : Dev) (lc : LifeCycle) (r : RegW) : Dev :=
  match r.o with
  | 0x800C =>
    let d := if bit r.v 0 then d.clearAll else d
    if bit r.v 1 then d.unpin else d
  | 0x8010 => d.clearEntry (r.v % 1024)
  | 0x8060 => d.injectArm lc (d.merged r) r.v
  | _ => d.fieldWrite r

def Dev.writeRt (d : Dev) (r : RegW) : Dev :=
  if r.o = rtCmdReg then d.chunk r.v
  else if 0xE000 ≤ r.o ∧ d.rtp.busy then d.refusedWrite r
  else d.fieldWrite r

/-- The registers that show the selected region's settings. -/
def Dev.regionReg (d : Dev) (o : Nat) : Nat :=
  let x := d.region d.selRegion
  match o with
  | 0x10108 => x.base * 2 ^ 21
  | 0x10110 => x.granules
  | 0x10118 => x.key + b2n x.multi * 2 ^ 12
  | _ => x.fval

/-- The selected region with one of those registers at `v`. -/
def Region.withReg (x : Region) (o v : Nat) : Region :=
  match o with
  | 0x10108 => { x with base := bits v 21 20 }
  | 0x10110 => { x with granules := bits v 0 20 }
  | 0x10118 => { x with key := bits v 0 12, multi := bit v 12 }
  | _ => { x with fval := v % 2 ^ 64 }

/-- Base, size and attributes change only while the region is `CLOSED` (12 R380). -/
def Dev.writeRegion (d : Dev) (r : RegW) : Dev :=
  let x := d.region d.selRegion
  if r.o ≠ 0x10128 ∧ x.st ≠ .closed then d.refusedWrite r
  else d.setRegion d.selRegion (x.withReg r.o (setBits (d.regionReg r.o) r.lo r.w (r.v % 2 ^ r.w)))

def Dev.writeSv (d : Dev) (r : RegW) : Dev :=
  if r.o = 0x10120 then
    match r.v % 4 with
    | 0 => d
    | 1 => d.regionOpen (bit r.v 2) (bits r.v 3 14)
    | 2 => d.regionClose (bit r.v 2) (bits r.v 3 14)
    | _ => d.reencrypt (bit r.v 2) (bits r.v 3 14)
  else if r.o = 0x10108 ∨ r.o = 0x10110 ∨ r.o = 0x10118 ∨ r.o = 0x10128 then d.writeRegion r
  else d.fieldWrite r

/-! ### Reed, Shuttle, Weft -/

/-- `RD_PORT_CTRL`: `ENABLE` starts or ends training; `ACCEPT` brings a quarantined port `UP` (07 R186, R189). -/
def Dev.portControl (d : Dev) (n v : Nat) : Dev :=
  d.onWrite (portReg n) v fun d =>
    let was := d.fld (portReg n) 0 1
    let d := d.setFld (portReg n) 1 1 (bits v 1 1)
    if v % 2 = 0 then (if was = 1 then d.portDisable n else d)
    else if was = 0 then d.portEnable n
    else if bit v 1 ∧ (d.port n).st = .quarantined then (d.movePort n { d.port n with st := .up }).releaseHeld
    else d

/-- Holes, slice and substitution entries, `SH_INGRESS` (07 R212, R220). -/
def Dev.writeRdSh (d : Dev) (r : RegW) : Dev :=
  if 0x14040 ≤ r.o ∧ r.o < 0x14140 ∧ r.o % 0x20 = 0 then d.portControl ((r.o - 0x14040) / 0x20) r.v
  else if 0x14200 ≤ r.o ∧ r.o < 0x14600 then (d.fieldWrite r).releaseHeld
  else if 0x14600 ≤ r.o ∧ r.o < 0x14E00 ∧ r.o % 0x200 < 0x100 then
    if d.partOpen ((r.o - 0x14600) / 0x200) then d.refusedWrite r else d.fieldWrite r
  else if 0x15100 ≤ r.o ∧ r.o < 0x15300 ∧ r.o % 0x80 = 0 then
    if d.partOpen ((r.o - 0x15100) / 0x80) then d.refusedWrite r else d.fieldWrite r
  else d.fieldWrite r

/-- `WF_WIN_SIZE` is even and at most 32,768; any other value is reserved. -/
def Dev.writeWf (d : Dev) (r : RegW) : Dev :=
  let v := d.merged r
  if 0x18100 ≤ r.o ∧ r.o < 0x18500 ∧ r.o % 0x100 = 8 ∧ !d.locked r.o ∧ (bits v 0 16 % 2 = 1 ∨ 32768 < bits v 0 16) then
    d.recordReg 0x0001 r.o r.v
  else d.fieldWrite r

/-! ### Batten, tiles, Pleach -/

/-- The log registers of Batten `n` stand while an update of its partition is in progress or recovering (06 R182). A log newly
placed has not been looked at. -/
def Dev.writeBtLog (d : Dev) (n : Nat) (r : RegW) : Dev :=
  if (d.bt (stackPart d.parts n)).update.isSome ∨ d.power.recover.contains (4 + n) then d.refusedWrite r
  else (d.fieldWrite r).setBatten n { d.batten n with started := false, placed := false }

def Dev.writeBt (d : Dev) (r : RegW) : Dev :=
  if 0x1C100 ≤ r.o ∧ r.o < 0x1C300 then d.writeBtLog ((r.o - 0x1C100) / 0x20) r
  else if 0x1C400 ≤ r.o ∧ r.o % 0x80 = 0x48 then (if bit r.v 0 then d.btOvfClear ((r.o - 0x1C400) / 0x80) else d)
  else d.fieldWrite r

def Dev.writeTl (d : Dev) (r : RegW) : Dev :=
  if 0x20100 ≤ r.o ∧ r.o < 0x20200 ∧ r.o % 0x40 = 0 then
    if d.p8 ∨ d.partOpen ((r.o - 0x20100) / 0x40) then d.refusedWrite r else d.fieldWrite r
  else if 0x20100 ≤ r.o ∧ r.o < 0x20200 ∧ r.o % 0x40 = 0x30 then (if bit r.v 0 then d.tlOvfClear ((r.o - 0x20100) / 0x40) else d)
  else if 0x26000 ≤ r.o ∧ r.o < 0x26100 ∧ r.o % 0x40 = 0 then d.mbControl ((r.o - 0x26000) / 0x40) r.v
  else d.fieldWrite r

/-- `PL_ARM`. -/
def Dev.plArm (d : Dev) (p v : Nat) : Dev :=
  d.onWrite (plReg p) v fun d => if v % 2 = 1 then d.arm p else if (d.pl p).armed then d.disarm p else d

/-- The set-up registers stand while `ARM` is 1 (08 R253). -/
def Dev.writePl (d : Dev) (r : RegW) : Dev :=
  let p := (r.o - 0x2C100) / 0x100
  if r.o < 0x2C100 then d.fieldWrite r
  else if r.o % 0x100 = 0 then d.plArm p r.v
  else if [0x08, 0x10, 0x18, 0x20, 0x30].contains (r.o % 0x100) ∧ (d.pl p).armed then d.refusedWrite r
  else d.fieldWrite r

/-! ### Any register -/

/-- The write reaches the register. -/
def Dev.regWrite (d : Dev) (lc : LifeCycle) (r : RegW) : Dev :=
  d.onWrite r.o r.v fun d =>
    if r.o < 0x4000 then d.writePv lc r
    else if r.o < 0x8000 then d.writeHx lc r
    else if r.o < 0xC000 then d.writeCp lc r
    else if r.o < 0x10000 then d.writeRt r
    else if r.o < 0x14000 then d.writeSv r
    else if r.o < 0x18000 then d.writeRdSh r
    else if r.o < 0x1C000 then d.writeWf r
    else if r.o < 0x20000 then d.writeBt r
    else if r.o < 0x2C000 then d.writeTl r
    else d.writePl r

/-- A write of the whole register at `o`, as a row of its own. -/
def Dev.regSet (d : Dev) (lc : LifeCycle) (o v : Nat) : Dev :=
  match regAt o with
  | some (s, _) => d.regWrite lc { s := s, o := o, lo := 0, w := 8 * s.bytes, v := v }
  | none => d

/-! ### Rows that are writes of one register -/

/-- `ENABLE` of port `n` is set or cleared. -/
def Dev.portSet (d : Dev) (n x : Nat) : Dev := if n < 8 then d.portControl n (setBits (d.reg (portReg n)).toNat 0 1 x) else d

/-- Hole-list entry `i`. -/
def Dev.holeWrite (d : Dev) (lc : LifeCycle) (i v : Nat) : Dev := if i < 256 then d.regSet lc (0x14200 + 4 * i) v else d

/-- Substitution entry `i` of partition `p`. -/
def Dev.substWrite (d : Dev) (lc : LifeCycle) (p i v : Nat) : Dev :=
  if p < 4 ∧ i < 64 then d.regSet lc (0x14700 + 0x200 * p + 4 * i) v else d

/-- A register of partition `p`'s slice entry, by its offset 0 to 12; any other offset stands for `SH_INGRESS`. -/
def Dev.sliceWrite (d : Dev) (lc : LifeCycle) (p off v : Nat) : Dev :=
  if 4 ≤ p then d
  else if off < 16 then d.regSet lc (sliceReg p + off / 4 * 4) v
  else d.regSet lc (shReg p) v

/-! ### What an offset means -/

/-- A register, data that cannot be written, or nothing that a write may reach. -/
inductive Target where
  | reg (s : RegSpec) (o : Nat)
  | fixed
  /-- the CXL component registers, whose layout is CXL 3.1's (Table 11-3) -/
  | component
  | nothing
  deriving DecidableEq, Repr

def Target.at (off : Nat) : Target :=
  if 0x7000 ≤ off ∧ off < 0x8000 then .component
  else match regAt off with
  | some (s, o) => .reg s o
  | none => .nothing

/-- An offset within the window of partition `p` of `n` (Table 11-5); registers that are read-only there are `nothing`. -/
def windowTarget (n p i : Nat) : Target :=
  if i < 0x100 then (if 0x30 ≤ i ∧ i < 0x34 then .nothing else Target.at (0x4100 + 0x100 * p + i))
  else if i < 0x180 then Target.at (0x8100 + 0x80 * p + (i - 0x100))
  else if i < 0x200 then Target.at (0x15100 + 0x80 * p + (i - 0x180))
  else if i < 0x300 then Target.at (0x18100 + 0x100 * p + (i - 0x200))
  else if i < 0x380 then Target.at (0x1C400 + 0x80 * p + (i - 0x300))
  else if i < 0x3C0 then (if i < 0x384 then .nothing else Target.at (0x20100 + 0x40 * p + (i - 0x380)))
  else if i < 0x400 then Target.at (0x26000 + 0x40 * p + (i - 0x3C0))
  else if i < 0x600 then (if stackPart n ((i - 0x400) / 0x20) = p then Target.at (0x1C100 + (i - 0x400)) else .nothing)
  else if i < 0x700 then Target.at (0x2C100 + 0x100 * p + (i - 0x600))
  else if i < 0x740 then Target.at (0x28000 + 0x40 * p + (i - 0x700))
  else if i < 0x744 then .fixed
  else if 0x800 ≤ i ∧ i < 0x1000 then Target.at (0x4800 + 0x800 * p + (i - 0x800))
  else if 0x2000 ≤ i ∧ i < 0x2000 + 4 * (1024 / n) then .fixed
  else if 0x3000 ≤ i ∧ i < 0x3000 + 8 * (1024 / n) then .fixed
  else .nothing

/-- What BAR0 offset `off` names. -/
def Dev.target (d : Dev) (off : Nat) : Target :=
  if off < 0x30000 then Target.at off
  else if off < 0x40000 then
    let size := 0x10000 / d.parts
    windowTarget d.parts ((off - 0x30000) / size) ((off - 0x30000) % size)
  else .nothing

/-- A CXL component register is written: what it then holds is free (`Config.cxlComponent`, log 140). -/
def Dev.componentWrite (d : Dev) (off v : Nat) : Dev := d.onWrite off v fun d => { d with draws := d.draws + 1 }

/-- A 4-byte write to BAR0. -/
def Dev.write4 (d : Dev) (lc : LifeCycle) (off v : Nat) : Dev :=
  match d.target off with
  | .reg s o => d.regWrite lc { s := s, o := o, lo := 8 * (off % s.bytes), w := 32, v := v % 2 ^ 32 }
  | .fixed => if d.heldOut off then d.badWrite off v else d
  | .component => d.componentWrite off v
  | .nothing => d.badWrite off v

/-- An 8-byte write: one register of 64 bits, or its two halves in turn. -/
def Dev.write8 (d : Dev) (lc : LifeCycle) (off v : Nat) : Dev :=
  match d.target off, d.target (off + 4) with
  | .nothing, .nothing => d.badWrite off v
  | .reg s o, .reg _ q =>
    if o = q then d.regWrite lc { s := s, o := o, lo := 0, w := 64, v := v }
    else (d.write4 lc off (v % 2 ^ 32)).write4 lc (off + 4) (v / 2 ^ 32)
  | _, _ => (d.write4 lc off (v % 2 ^ 32)).write4 lc (off + 4) (v / 2 ^ 32)

/-! ### BAR2 (R344) -/

/-- One 4-byte word of an MSI-X entry. -/
def MsixEntry.write (e : MsixEntry) (i v : Nat) : MsixEntry :=
  match i with
  | 0 => { e with addr := setBits e.addr 0 32 v }
  | 1 => { e with addr := setBits e.addr 32 32 v }
  | 2 => { e with data := v % 2 ^ 32 }
  | _ => { e with mask := bit v 0 }

/-- A vector that is pending and no longer masked is sent. -/
def Dev.unmasked (d : Dev) (v : Nat) : Dev :=
  if d.msixPend.contains v ∧ !(d.msixEntry v).mask then
    { d with msixPend := d.msixPend.filter (· ≠ v), irqs := v :: d.irqs }
  else d

def Dev.msixWrite4 (d : Dev) (off v : Nat) : Dev :=
  let n := off / 16
  Dev.unmasked { d with msix := Sparse.set (fun _ => MsixEntry.reset) d.msix n ((d.msixEntry n).write (off % 16 / 4) v) } n

/-- A write to BAR2 ignored, as `Dev.badWrite`; the entry names the CXL port, and its `DETAIL` holds the offset within BAR2 (DESIGN
CHOICE, log 140). -/
def Dev.badWrite2 (d : Dev) (off v : Nat) : Dev :=
  d.record 0 (if d.power.st = .held then 0x0102 else 0x0101) .hub 3 none (off % 2 ^ 18 + v % 2 ^ 32 * 2 ^ 32)

/-- A write to BAR2: table entries take it; the pending-bit array does not. -/
def Dev.bar2Write (d : Dev) (off size v : Nat) : Dev :=
  if d.power.st = .held ∨ 0x8100 ≤ off then d.badWrite2 off v
  else if off < 0x8000 then
    let d := d.msixWrite4 off (v % 2 ^ 32)
    if size = 8 then d.msixWrite4 (off + 4) (v / 2 ^ 32) else d
  else d

/-- A host write of `size` bytes (R335). -/
def Dev.portWrite (d : Dev) (lc : LifeCycle) (bar2 : Bool) (off size v : Nat) : Dev :=
  if !d.on ∨ d.power.d3 then d
  else if (size ≠ 4 ∧ size ≠ 8) ∨ off % size ≠ 0 then (if bar2 then d.badWrite2 off v else d.badWrite off v)
  else if bar2 then d.bar2Write off size v
  else if size = 4 then d.write4 lc off v
  else d.write8 lc off v

end Sys2Proof.Machine
end

