-- ==== Sys2Proof/Machine/RowsContexts.lean ====
section
/-! DEFINITION. The meanings of the rows of this family: Contexts, rings and staging channels (10, 11). -/

namespace Sys2Proof.Machine

/-- `OPEN` (10 R309). -/
def execCtxOpen (p : Nat) (s : State) : Host.Outcome State Fault Refusal :=
  s.after fun d => if p < 4 then d.openCtx s.fuses.lc p else d

/-- `TEARDOWN` (10 R319). -/
def execTeardown (p : Nat) (s : State) : Host.Outcome State Fault Refusal :=
  s.after fun d => if p < 4 then d.teardown p (ctxReg p) 2 else d

/-- `TEARDOWN_BREAK_FENCES` (10 R315). -/
def execTeardownBreakFences (c : Nat) (s : State) : Host.Outcome State Fault Refusal := s.after fun d => d.breakRow c

/-- `TEARDOWN_CLOSE` (10 R319). -/
def execTeardownClose (c : Nat) (s : State) : Host.Outcome State Fault Refusal := s.after fun d => d.closeRow c

/-- `STOP` (10 R316). -/
def execStop (p : Nat) (s : State) : Host.Outcome State Fault Refusal :=
  s.after fun d => if p < 4 then d.stopCtx p (ctxReg p) 4 else d

/-- `RESUME` (10 R318). -/
def execResume (p : Nat) (s : State) : Host.Outcome State Fault Refusal :=
  s.after fun d => if p < 4 then d.resumeCtx p (ctxReg p) 8 else d

/-- `SENDING_EPOCH_WRITE` (10 R317). -/
def execSendingEpochWrite (p : Nat) (v : BitVec 32) (s : State) : Host.Outcome State Fault Refusal :=
  s.after fun d => if p < 4 then d.sendingEpoch p v.toNat else d

/-- `P8_OPEN` (10 R310). -/
def execP8Open (c image : Nat) (s : State) : Host.Outcome State Fault Refusal := s.after fun d => d.p8Open s.fuses.lc c image

/-- `MAKE_RESIDENT` (10 R310). -/
def execMakeResident (c : Nat) (s : State) : Host.Outcome State Fault Refusal := s.after fun d => d.makeResident c

/-- `P8_STOP` (10 R482). -/
def execP8Stop (c : Nat) (s : State) : Host.Outcome State Fault Refusal := s.after fun d => d.stopCtx (4 + c) p8Cmd (c + 2 * 4096)

/-- `P8_RESUME` (10 R482). -/
def execP8Resume (c : Nat) (s : State) : Host.Outcome State Fault Refusal :=
  s.after fun d => d.resumeCtx (4 + c) p8Cmd (c + 3 * 4096)

/-- `P8_TEARDOWN` (10 R319). -/
def execP8Teardown (c : Nat) (s : State) : Host.Outcome State Fault Refusal :=
  s.after fun d => d.teardown (4 + c) p8Cmd (c + 4 * 4096)

/-- `RING_ENABLE` (10 R295). -/
def execRingEnable (ring : Nat) (s : State) : Host.Outcome State Fault Refusal := s.after fun d => d.ringEnable ring

/-- `RING_DISABLE` (10 R295). -/
def execRingDisable (ring : Nat) (s : State) : Host.Outcome State Fault Refusal := s.after fun d => d.ringDisable ring

/-- `STAGING_COPY` (11 R346). -/
def execStagingCopy (p c : Nat) (s : State) : Host.Outcome State Fault Refusal := s.after fun d => d.stagingGo p c

/-- `STAGING_DONE` (11 R346). -/
def execStagingDone (p c : Nat) (hostErrAfter : Option Nat) (s : State) : Host.Outcome State Fault Refusal :=
  s.after fun d => d.stagingDone p c hostErrAfter

end Sys2Proof.Machine
end

