-- ==== Sys2Proof/Machine/RowsCoppice.lean ====
section
/-! DEFINITION. The meanings of the rows of this family: Coppice, the clears and any register (09, 00, 11). -/

namespace Sys2Proof.Machine

/-- `ERROR_SIGNAL` (09 R279). -/
def execErrorSignal (u : UnitType) (id : Nat) (r : PairReading) (s : State) : Host.Outcome State Fault Refusal :=
  s.after fun d => d.errorSignal u id r

/-- `IN_FIELD_TEST_START` (09 R272). -/
def execInFieldTestStart (u : UnitType) (id : Nat) (s : State) : Host.Outcome State Fault Refusal :=
  s.after fun d => d.testStart u id

/-- `IN_FIELD_TEST_END` (09 R274). -/
def execInFieldTestEnd (u : UnitType) (id : Nat) (passed : Bool) (s : State) : Host.Outcome State Fault Refusal :=
  s.after fun d => d.testEnd u id passed

/-- `IFT_OVERDUE` (09 R273). -/
def execIftOverdue (u : UnitType) (id : Nat) (s : State) : Host.Outcome State Fault Refusal := s.after fun d => d.testOverdue u id

/-- `FENCED_UNIT_RETEST` (09 R277). -/
def execFencedUnitRetest (u : UnitType) (id : Nat) (passed : Bool) (s : State) : Host.Outcome State Fault Refusal :=
  s.after fun d => d.retest u id passed

/-- `CLEAR_ALL` (09 R285). -/
def execClearAll (s : State) : Host.Outcome State Fault Refusal := s.after fun d => d.clearAll

/-- `UNPIN` (09 R283). -/
def execUnpin (s : State) : Host.Outcome State Fault Refusal := s.after fun d => d.unpin

/-- `CP_CLEAR` (09 R285). -/
def execCpClear (idx : Nat) (s : State) : Host.Outcome State Fault Refusal := s.after fun d => d.clearEntry idx

/-- `INJECT_ARM` (09 R287). -/
def execInjectArm (v : Word64) (s : State) : Host.Outcome State Fault Refusal := s.after fun d => d.injectArm s.fuses.lc v.toNat v.toNat

/-- `TL_OVF_CLEAR` (03 R106). -/
def execTlOvfClear (p : Nat) (s : State) : Host.Outcome State Fault Refusal := s.after fun d => d.tlOvfClear p

/-- `BT_OVF_CLEAR` (06 R182). -/
def execBtOvfClear (p : Nat) (s : State) : Host.Outcome State Fault Refusal := s.after fun d => d.btOvfClear p

/-- `MB_TIMING_ENABLE` (05 R148). -/
def execMbTimingEnable (p : Nat) (v : BitVec 32) (s : State) : Host.Outcome State Fault Refusal :=
  s.after fun d => d.mbControl p v.toNat

/-- `PARTITION_COUNT_CHANGE` (01 R21). -/
def execPartitionCountChange (v : BitVec 2) (s : State) : Host.Outcome State Fault Refusal :=
  s.after fun d => d.partitionCount v.toNat

/-- `REGISTER_WRITE` (00 R12). -/
def execRegisterWrite (bar2 : Bool) (off size : Nat) (v : Word64) (s : State) : Host.Outcome State Fault Refusal :=
  s.after fun d => d.portWrite s.fuses.lc bar2 off size v.toNat

end Sys2Proof.Machine
end

