-- ==== Sys2Proof/Machine/RowsLife.lean ====
section
/-! DEFINITION. The meanings of the rows of this family: Life cycle, firmware, debug, TAP (14). -/

namespace Sys2Proof.Machine

/-- `LC_ADVANCE` (14 R415). -/
def execLcAdvance (target : Nat) (authOk : Bool) (cert : Option DebugCert) (s : State) : Host.Outcome State Fault Refusal :=
  .next { s with dev := Dev.settle (let d := s.dev; d.lcAdvance s.fuses.lc target authOk cert), fuses := s.dev.advanceFuse s.fuses target authOk cert }

/-- `EOL_ARM` (14 R415). -/
def execEolArm (v : Word64) (s : State) : Host.Outcome State Fault Refusal := s.after fun d => d.eolArm s.fuses.lc v.toNat

/-- `EOL_CONFIRM` (14 R417). -/
def execEolConfirm (v : Word64) (s : State) : Host.Outcome State Fault Refusal :=
  .next { s with dev := Dev.settle (let d := s.dev; d.eolConfirm s.fuses.lc v.toNat), fuses := s.dev.eolFuse s.fuses v.toNat }

/-- `CERT_STORE` (14 R415). -/
def execCertStore (sig : DualSig) (matchesKeys : Bool) (s : State) : Host.Outcome State Fault Refusal :=
  s.after fun d => d.certStore s.fuses.lc sig matchesKeys

/-- `FW_BEGIN` (14 R421). -/
def execFwBegin (s : State) : Host.Outcome State Fault Refusal := s.after fun d => d.fwBegin s.fuses.lc

/-- `FW_DATA` (14 R421). -/
def execFwData (bytes offset : Nat) (programmed : Bool) (s : State) : Host.Outcome State Fault Refusal :=
  s.after fun d => d.fwData s.fuses.lc bytes offset programmed

/-- `FW_COMMIT` (14 R421). -/
def execFwCommit (img : FwImage) (s : State) : Host.Outcome State Fault Refusal := s.after fun d => d.fwCommit s.fuses img

/-- `SVN_LOCK` (14 R423). -/
def execSvnLock (s : State) : Host.Outcome State Fault Refusal :=
  .next { s with dev := Dev.settle (let d := s.dev; d.svnLock s.fuses), fuses := s.dev.svnFuse s.fuses }

/-- `DEBUG_CHALLENGE` (14 R426). -/
def execDebugChallenge (nonce : Nat) (s : State) : Host.Outcome State Fault Refusal :=
  s.after fun d => d.debugChallenge s.fuses.lc nonce

/-- `DEBUG_OPEN` (14 R427). -/
def execDebugOpen (c : DebugCert) (s : State) : Host.Outcome State Fault Refusal := s.after fun d => d.debugOpen s.fuses.lc c

/-- `DEBUG_CLOSE` (14 R428). -/
def execDebugClose (s : State) : Host.Outcome State Fault Refusal := s.after fun d => d.debugClose s.fuses.lc

/-- `DEBUG_RIGHTS_EXPIRE` (14 R428). -/
def execDebugRightsExpire (s : State) : Host.Outcome State Fault Refusal := s.after fun d => d.rightsExpire s.fuses.lc

/-- `LIFELOG_READ` (14 R431). -/
def execLifelogRead (index count : Nat) (s : State) : Host.Outcome State Fault Refusal :=
  s.after fun d => d.lifelogRead s.fuses.lc index count

/-- `FLASH_INFO` (14 R429). -/
def execFlashInfo (s : State) : Host.Outcome State Fault Refusal := s.after fun d => d.flashInfo s.fuses.lc

/-- `IDCODE` (14 R425). -/
def execIdcode (s : State) : Host.Outcome State Fault Refusal := s.after fun d => d.tapIdcode

/-- `BYPASS` (14 R425). -/
def execBypass (s : State) : Host.Outcome State Fault Refusal := s.after fun d => d.tapBypass

/-- `SAMPLE_PRELOAD` (14 R425). -/
def execSamplePreload (captured preload : List Bool) (s : State) : Host.Outcome State Fault Refusal :=
  s.after fun d => d.tapSample captured preload

/-- `EXTEST` (14 R425). -/
def execExtest (drive : List Bool) (s : State) : Host.Outcome State Fault Refusal := s.after fun d => d.tapExtest drive

/-- `TRACE_FULL` (15 R460). -/
def execTraceFull (s : State) : Host.Outcome State Fault Refusal := s.after fun d => d.traceFull

/-- `DEBUG_MASTER_ACCESS` (12 R362). -/
def execDebugMasterAccess (addr : Nat) (write : Bool) (data : List Byte) (s : State) : Host.Outcome State Fault Refusal :=
  s.after fun d => d.debugMaster addr write data

/-- `SEQUENCER_HALT` (14 R425). -/
def execSequencerHalt (l : Nat) (singleStep : Bool) (s : State) : Host.Outcome State Fault Refusal :=
  s.after fun d => d.haltTile l singleStep

/-- `INTERNAL_SCAN` (14 R425). -/
def execInternalScan (die : Nat) (bits : List Bool) (s : State) : Host.Outcome State Fault Refusal :=
  s.after fun d => d.scanDie die bits

end Sys2Proof.Machine
end

