-- ==== Sys2Proof/Machine/RowsLinks.lean ====
section
/-! DEFINITION. The meanings of the rows of this family: Landing zones, messages and link ports (07). -/

namespace Sys2Proof.Machine

/-- `LANDING` (07 R201). -/
def execLanding (ring : Nat) (s : State) : Host.Outcome State Fault Refusal := s.after fun d => d.landingRow ring

/-- `LANDING_MERGE` (07 R204). -/
def execLandingMerge (p group unit : Nat) (s : State) : Host.Outcome State Fault Refusal :=
  s.after fun d => d.mergeUnit p group unit

/-- `PUT` (07 R196). -/
def execPut (port : Nat) (m : Msg) (s : State) : Host.Outcome State Fault Refusal := s.after fun d => d.onPut port m

/-- `ACC` (07 R203). -/
def execAcc (port : Nat) (m : Msg) (s : State) : Host.Outcome State Fault Refusal := s.after fun d => d.onAcc port m

/-- `GET` (07 R206). -/
def execGet (port : Nat) (m : Msg) (s : State) : Host.Outcome State Fault Refusal := s.after fun d => d.onGet port m

/-- `GETR` (07 R207). -/
def execGetr (port : Nat) (m : Msg) (s : State) : Host.Outcome State Fault Refusal := s.after fun d => d.onGetr port m

/-- `SIGNAL` (07 R198). -/
def execSignal (port : Nat) (m : Msg) (s : State) : Host.Outcome State Fault Refusal := s.after fun d => d.onSignal port m

/-- `COMMIT` (07 R197). -/
def execCommit (port : Nat) (m : Msg) (s : State) : Host.Outcome State Fault Refusal := s.after fun d => d.onCommit port m

/-- `RETRACT` (07 R199). -/
def execRetract (port : Nat) (m : Msg) (s : State) : Host.Outcome State Fault Refusal := s.after fun d => d.onRetract port m

/-- `REJECT` (07 R207). -/
def execReject (port : Nat) (m : Msg) (s : State) : Host.Outcome State Fault Refusal := s.after fun d => d.onReject port m

/-- `MESSAGE_FORWARD` (07 R210). -/
def execMessageForward (port : Nat) (m : Msg) (s : State) : Host.Outcome State Fault Refusal :=
  s.after fun d => d.onForward port m

/-- `TRAFFIC_EPOCH_ROLL` (07 R215). -/
def execTrafficEpochRoll (p : Nat) (s : State) : Host.Outcome State Fault Refusal := s.after fun d => d.rollEpoch p

/-- `LINK_RETRANSMIT` (07 R185). -/
def execLinkRetransmit (port : Nat) (frames : FrameCounts) (s : State) : Host.Outcome State Fault Refusal :=
  s.after fun d => d.linkRetransmit port frames.again frames.corrected

/-- `PORT_ENABLE` (07 R186). -/
def execPortEnable (port : Nat) (s : State) : Host.Outcome State Fault Refusal := s.after fun d => d.portSet port 1

/-- `PORT_TRAINING_PHASE` (07 R186). -/
def execPortTrainingPhase (port : Nat) (r : PhaseResult) (s : State) : Host.Outcome State Fault Refusal :=
  s.after fun d => d.trainPhase port r

/-- `TRAINING_RETRY` (07 R186). -/
def execTrainingRetry (port : Nat) (s : State) : Host.Outcome State Fault Refusal := s.after fun d => d.trainRetry port

/-- `MGMT_HEARTBEAT` (07 R188). -/
def execMgmtHeartbeat (port : Nat) (s : State) : Host.Outcome State Fault Refusal := s.after fun d => d.heartbeat port

/-- `MGMT_FRAME` (07 R217). -/
def execMgmtFrame (port ctr : Nat) (s : State) : Host.Outcome State Fault Refusal := s.after fun d => d.mgmtFrame port ctr

/-- `NEIGHBOUR_LOST` (07 R188). -/
def execNeighbourLost (port : Nat) (s : State) : Host.Outcome State Fault Refusal := s.after fun d => d.neighbourLost port

/-- `MGMT_REKEY` (07 R217). -/
def execMgmtRekey (port : Nat) (s : State) : Host.Outcome State Fault Refusal := s.after fun d => d.mgmtRekey port

/-- `HOLE_LIST_WRITE` (07 R212). -/
def execHoleListWrite (idx : Nat) (v : BitVec 32) (s : State) : Host.Outcome State Fault Refusal :=
  s.after fun d => d.holeWrite s.fuses.lc idx v.toNat

/-- `SUBSTITUTION_WRITE` (07 R212). -/
def execSubstitutionWrite (p idx : Nat) (v : BitVec 32) (s : State) : Host.Outcome State Fault Refusal :=
  s.after fun d => d.substWrite s.fuses.lc p idx v.toNat

/-- `SLICE_ENTRY_WRITE` (07 R220). -/
def execSliceEntryWrite (p off : Nat) (v : Word64) (s : State) : Host.Outcome State Fault Refusal :=
  s.after fun d => d.sliceWrite s.fuses.lc p off v.toNat

/-- `RESERVED_MESSAGE_TYPE` (07 R192). -/
def execReservedMessageType (port : Nat) (m : Msg) (s : State) : Host.Outcome State Fault Refusal :=
  s.after fun d => d.onReserved port m

/-- `PORT_DISABLE` (07 R186). -/
def execPortDisable (port : Nat) (s : State) : Host.Outcome State Fault Refusal := s.after fun d => d.portSet port 0

end Sys2Proof.Machine
end

