-- ==== Sys2Proof/Machine/RowsPleach.lean ====
section
/-! DEFINITION. The meanings of the rows of this family: Pleach (08). -/

namespace Sys2Proof.Machine

/-- `RESTORE` (08 R239). -/
def execRestore (ring : Nat) (lostUnits : List Nat) (others : Nat) (unreadable : Bool)
    (s : State) : Host.Outcome State Fault Refusal :=
  s.after fun d => d.restoreRow ring lostUnits others unreadable

/-- `DRAIN` (08 R245). -/
def execDrain (ring : Nat) (s : State) : Host.Outcome State Fault Refusal := s.after fun d => d.drainRow ring

/-- `RELOAD` (08 R247), after the host's writes `host`. -/
def execReload (ring : Nat) (host : Cells) (s : State) : Host.Outcome State Fault Refusal :=
  s.after fun d => (d.hostCells host).reloadRow ring

/-- `EXPORT` (08 R249). -/
def execPleachExport (ring : Nat) (s : State) : Host.Outcome State Fault Refusal := s.after fun d => d.exportRow ring

/-- `STRIPE_ROW_COPY` (08 R232). -/
def execStripeRowCopy (p : Nat) (s : State) : Host.Outcome State Fault Refusal := s.after fun d => d.rowCopy p

/-- `FORCED_ROW_COPY` (08 R233). -/
def execForcedRowCopy (p addr : Nat) (s : State) : Host.Outcome State Fault Refusal := s.after fun d => d.rowForced p addr

/-- `READY_RECORD` (08 R235). -/
def execReadyRecord (p slot step member : Nat) (s : State) : Host.Outcome State Fault Refusal :=
  s.after fun d => d.readyRecord p slot step member

/-- `COMMIT_RECORD` (08 R235). -/
def execCommitRecord (p slot step member : Nat) (s : State) : Host.Outcome State Fault Refusal :=
  s.after fun d => d.commitRecord p slot step member

/-- `PLEACH_DUE` (08 R227). -/
def execPleachDue (p : Nat) (s : State) : Host.Outcome State Fault Refusal := s.after fun d => d.pleachDue p

/-- `ARM` (08 R253). -/
def execArm (p : Nat) (s : State) : Host.Outcome State Fault Refusal := s.after fun d => d.plArm p 1

/-- `DISARM` (08 R253). -/
def execDisarm (p : Nat) (s : State) : Host.Outcome State Fault Refusal := s.after fun d => d.plArm p 0

end Sys2Proof.Machine
end

