-- ==== Sys2Proof/Machine/RowsPower.lean ====
section
/-! DEFINITION. The meanings of the rows of this family: Supply, resets, clocks, time and the CXL port (11, 15, 16). -/

namespace Sys2Proof.Machine

/-- `CXL_LINK_DOWN` (11 R332). -/
def execCxlLinkDown (s : State) : Host.Outcome State Fault Refusal := s.after fun d => d.cxlDown

/-- `CXL_LINK_UP` (11 R331). -/
def execCxlLinkUp (width rate : Nat) (flit256 cache : Bool) (s : State) : Host.Outcome State Fault Refusal :=
  s.after fun d => d.cxlTrained width rate flit256 cache

/-- `IDE_FAILURE` (11 R333). -/
def execIdeFailure (cacheStream : Bool) (stream : Nat) (s : State) : Host.Outcome State Fault Refusal :=
  s.after fun d => d.ideFails cacheStream stream

/-- `D3HOT_ENTRY` (15 R437). -/
def execD3hotEntry (s : State) : Host.Outcome State Fault Refusal := s.after fun d => d.d3hot

/-- `D0_RETURN` (15 R437). -/
def execD0Return (s : State) : Host.Outcome State Fault Refusal := s.after fun d => d.d0

/-- `POWER_ON` (16 R466). -/
def execPowerOn (s : State) : Host.Outcome State Fault Refusal := s.after fun d => d.powerOn

/-- `POWER_LOSS` (16 R465). -/
def execPowerLoss (s : State) : Host.Outcome State Fault Refusal := s.after fun d => d.powerLoss s.fuses.lc

/-- `PERST_N` (16 R473). -/
def execPerstN (s : State) : Host.Outcome State Fault Refusal := s.after fun d => d.perstN s.fuses.lc

/-- `HOT_RESET` (15 R438). -/
def execHotReset (s : State) : Host.Outcome State Fault Refusal := s.after fun d => d.linkReset s.fuses.lc 2

/-- `LINK_DISABLE` (15 R438). -/
def execLinkDisable (s : State) : Host.Outcome State Fault Refusal := s.after fun d => d.linkReset s.fuses.lc 3

/-- `KEEPING_REGISTER_RESET` (15 R438). -/
def execKeepingRegisterReset (s : State) : Host.Outcome State Fault Refusal := s.after fun d => d.registerReset s.fuses.lc true

/-- `CLEARING_REGISTER_RESET` (15 R438). -/
def execClearingRegisterReset (s : State) : Host.Outcome State Fault Refusal := s.after fun d => d.registerReset s.fuses.lc false

/-- `BOOT_VERIFY` (14 R419). -/
def execBootVerify (img : FwImage) (s : State) : Host.Outcome State Fault Refusal := s.after fun d => d.bootVerify s.fuses img

/-- `BRINGUP_REDUCED` (15 R440). -/
def execBringupReduced (badUnits : List (UnitType × Nat)) (s : State) : Host.Outcome State Fault Refusal :=
  s.after fun d => d.bringupReduced badUnits

/-- `BRINGUP_FULL` (15 R440). -/
def execBringupFull (badUnits : List (UnitType × Nat)) (s : State) : Host.Outcome State Fault Refusal :=
  s.after fun d => d.bringupFull badUnits

/-- `BRINGUP_TIMEOUT` (15 R440). -/
def execBringupTimeout (s : State) : Host.Outcome State Fault Refusal := s.after fun d => d.bringupTimeout

/-- `PRIVET_TICK` (15 R462). -/
def execPrivetTick (strobes : List StrobeReading) (flips : List CopyFlip) (s : State) : Host.Outcome State Fault Refusal :=
  s.after fun d => d.tick s.fuses.lc strobes flips

/-- `POWER_SAMPLE` (15 R446). -/
def execPowerSample (watts : Nat) (s : State) : Host.Outcome State Fault Refusal := s.after fun d => d.powerSample watts

/-- `THERMAL_THRESHOLD` (15 R448). -/
def execThermalThreshold (u : UnitType) (id celsius : Nat) (s : State) : Host.Outcome State Fault Refusal :=
  s.after fun d => d.thermal u id celsius

/-- `THERM_N_INPUT` (15 R449). -/
def execThermNInput (s : State) : Host.Outcome State Fault Refusal := s.after fun d => d.thermIn

/-- `POWER_CONTROL_WRITE` (15 R450). -/
def execPowerControlWrite (v : BitVec 32) (s : State) : Host.Outcome State Fault Refusal :=
  s.after fun d => d.powerControl v.toNat

/-- `REFCLK_LOST` (15 R445). -/
def execRefclkLost (s : State) : Host.Outcome State Fault Refusal := s.after fun d => d.refclkLost

/-- `SYNC_EDGE` (15 R453). -/
def execSyncEdge (s : State) : Host.Outcome State Fault Refusal := s.after fun d => d.syncEdge

/-- `SYNC_LOST` (15 R453). -/
def execSyncLost (s : State) : Host.Outcome State Fault Refusal := s.after fun d => d.syncLost

/-- `SYNC_ENABLE` (15 R461). -/
def execSyncEnable (v : BitVec 32) (s : State) : Host.Outcome State Fault Refusal := s.after fun d => d.syncControl v.toNat

/-- `UART_REQUEST` (15 R461). -/
def execUartRequest (v : BitVec 32) (s : State) : Host.Outcome State Fault Refusal := s.after fun d => d.uartWrite v.toNat

/-- `CALENDAR_ADJUST` (15 R458). -/
def execCalendarAdjust (v : Word64) (s : State) : Host.Outcome State Fault Refusal :=
  s.after fun d => d.calendarAdjust s.fuses.lc v

/-- `CLOCK_DOMAIN_GATE` (15 R444). -/
def execClockDomainGate (u : UnitType) (id : Nat) (s : State) : Host.Outcome State Fault Refusal := s.after fun d => d.gate u id

/-- `PERST_N_RELEASE` (16 R473). -/
def execPerstNRelease (s : State) : Host.Outcome State Fault Refusal := s.after fun d => d.perstRelease

/-- `REFCLK_RETURN` (15 R452). -/
def execRefclkReturn (s : State) : Host.Outcome State Fault Refusal := s.after fun d => d.refclkReturn

/-- `THERM_N_RELEASE` (15 R449). -/
def execThermNRelease (s : State) : Host.Outcome State Fault Refusal := s.after fun d => d.thermRelease

/-- `THERMAL_THROTTLE_STEP` (15 R448). -/
def execThermalThrottleStep (die hub hbm : Nat) (s : State) : Host.Outcome State Fault Refusal :=
  s.after fun d => d.thermalStep die hub hbm

end Sys2Proof.Machine
end

