-- ==== Sys2Proof/Machine/RowsRings.lean ====
section
/-! DEFINITION. The meanings of the rows of this family: Doorbells, acceptance, completion and the ring descriptors (10). -/

namespace Sys2Proof.Machine

/-- `DOORBELL_WRITE` (10 R290). -/
def execDoorbellWrite (ring tail : Nat) (host : Cells) (s : State) : Host.Outcome State Fault Refusal :=
  s.after fun d => d.doorbell ring tail host

/-- `DESCRIPTOR_ACCEPT` (10 R292). -/
def execDescriptorAccept (ring : Nat) (s : State) : Host.Outcome State Fault Refusal := s.after fun d => d.accept ring

/-- `COMPLETION_RECORD` (10 R294). -/
def execCompletionRecord (ring : Nat) (s : State) : Host.Outcome State Fault Refusal := s.after fun d => d.completion ring

/-- `RING_NOP` (00 R15). -/
def execRingNop (ring : Nat) (s : State) : Host.Outcome State Fault Refusal := s.after fun d => d.nopRow ring

/-- `DISPATCH` (10 R299). -/
def execDispatch (ring : Nat) (s : State) : Host.Outcome State Fault Refusal := s.after fun d => d.dispatchRow ring

/-- `FENCE_SIGNAL` (10 R314). -/
def execFenceSignal (ring : Nat) (s : State) : Host.Outcome State Fault Refusal := s.after fun d => d.fenceSignal ring

/-- `FENCE_CREATE` (10 R313). -/
def execFenceCreate (ring : Nat) (s : State) : Host.Outcome State Fault Refusal := s.after fun d => d.fenceCreate ring

/-- `FENCE_DESTROY` (10 R313). -/
def execFenceDestroy (ring : Nat) (s : State) : Host.Outcome State Fault Refusal := s.after fun d => d.fenceDestroy ring

/-- `FENCE_SHARE` (10 R313). -/
def execFenceShare (ring : Nat) (s : State) : Host.Outcome State Fault Refusal := s.after fun d => d.fenceShare ring

/-- `FENCE_UNSHARE` (10 R313). -/
def execFenceUnshare (ring : Nat) (s : State) : Host.Outcome State Fault Refusal := s.after fun d => d.fenceUnshare ring

/-- `FENCE_READ` (10 R313). -/
def execFenceRead (ring : Nat) (s : State) : Host.Outcome State Fault Refusal := s.after fun d => d.fenceRead ring

/-- `QUERY` (10 R323). -/
def execQuery (ring : Nat) (s : State) : Host.Outcome State Fault Refusal := s.after fun d => d.queryRow ring

end Sys2Proof.Machine
end

