-- ==== Sys2Proof/Machine/RowsRtp.lean ====
section
/-! DEFINITION. The meanings of the rows of this family: The root-of-trust processor and SPDM (13). -/

namespace Sys2Proof.Machine

/-- `MAILBOX_CHUNK` (13 R410). -/
def execMailboxChunk (v : BitVec 32) (s : State) : Host.Outcome State Fault Refusal := s.after fun d => d.chunk v.toNat

/-- `NEXT_REPLY_CHUNK` (13 R410). -/
def execNextReplyChunk (s : State) : Host.Outcome State Fault Refusal := s.after fun d => d.nextReply

/-- `MANIFEST_LOAD` (13 R393). -/
def execManifestLoad (p : Nat) (m : Manifest) (sig : DualSig) (s : State) : Host.Outcome State Fault Refusal :=
  s.after fun d => d.manifestLoad s.fuses.lc p m sig

/-- `JOB_CREATE` (13 R397). -/
def execJobCreate (p slot secret : Nat) (s : State) : Host.Outcome State Fault Refusal :=
  s.after fun d => d.jobCreate s.fuses.lc p slot secret

/-- `JOB_JOIN` (13 R399). -/
def execJobJoin (p coord slot : Nat) (dataSlots : List Nat) (s : State) : Host.Outcome State Fault Refusal :=
  s.after fun d => d.jobJoin s.fuses.lc p coord slot dataSlots

/-- `ADMISSION_REQUEST` (13 R398). -/
def execAdmissionRequest (p port from_ : Nat) (e : Evidence) (s : State) : Host.Outcome State Fault Refusal :=
  s.after fun d => d.admissionRequest s.fuses.lc p port from_ e

/-- `ADMISSION` (13 R399); without an envelope it is a refusal. -/
def execAdmission (p : Nat) (e : Evidence) (env : Option Envelope) (secret : Nat) (keys : List DataKey)
    (s : State) : Host.Outcome State Fault Refusal :=
  s.after fun d => d.admission s.fuses.lc p e env secret keys

/-- `RTP_MESSAGE_RELAY` (13 R399). -/
def execRtpMessageRelay (port dest : Nat) (body : List Byte) (s : State) : Host.Outcome State Fault Refusal :=
  s.after fun d => d.relay port dest body

/-- `JOB_RESUME` (13 R400). -/
def execJobResume (p slot : Nat) (dataSlots : List Nat) (tagOk : Bool) (s : State) : Host.Outcome State Fault Refusal :=
  s.after fun d => d.jobResume s.fuses.lc p slot dataSlots tagOk

/-- `JOB_FORGET` (13 R394). -/
def execJobForget (p : Nat) (s : State) : Host.Outcome State Fault Refusal := s.after fun d => d.jobForget s.fuses.lc p

/-- `JOB_EXPIRE` (13 R394). -/
def execJobExpire (p : Nat) (s : State) : Host.Outcome State Fault Refusal := s.after fun d => d.jobExpire p

/-- `SLOT_ALLOC` (13 R388). -/
def execSlotAlloc (p slot job : Nat) (expireRst : Bool) (s : State) : Host.Outcome State Fault Refusal :=
  s.after fun d => d.slotAlloc s.fuses.lc p slot job expireRst

/-- `SLOT_FREE` (13 R391). -/
def execSlotFree (p slot : Nat) (s : State) : Host.Outcome State Fault Refusal := s.after fun d => d.slotFree s.fuses.lc p slot

/-- `KEY_TRANSPORT` (13 R402). -/
def execKeyTransport (p slot len : Nat) (head : TransportHead) (mh idh : Nat) (env : Envelope) (sig : DualSig) (s : State) :
    Host.Outcome State Fault Refusal :=
  s.after fun d => d.keyTransport s.fuses.lc p slot len { head with mh := mh, idh := idh, env := env } sig

/-- `KEY_UPDATE` (13 R403). -/
def execKeyUpdate (p len : Nat) (head : UpdateHead) (mh idh counter keyId uses : Nat) (sig : DualSig) (s : State) :
    Host.Outcome State Fault Refusal :=
  s.after fun d => d.keyUpdate s.fuses.lc p len { head with mh := mh, idh := idh, counter := counter, keyId := keyId, uses := uses } sig

/-- `QUORUM_RELEASE` (13 R406). -/
def execQuorumRelease (p kind mh release step notAfter : Nat) (form : ReleaseForm) (entries : List (Nat × DualSig)) (s : State) :
    Host.Outcome State Fault Refusal :=
  s.after fun d => d.quorumRelease s.fuses.lc p
    { form with kind := kind, mh := mh, release := release, step := step, notAfter := notAfter, entries := entries }

/-- `EVIDENCE` (13 R396). -/
def execEvidence (p nonce : Nat) (s : State) : Host.Outcome State Fault Refusal := s.after fun d => d.evidence s.fuses.lc p nonce

/-- `GET_VERSION` (13 R395). -/
def execGetVersion (s : State) : Host.Outcome State Fault Refusal := s.after fun d => d.spdmVersionRow s.fuses.lc

/-- `GET_CAPABILITIES` (13 R395). -/
def execGetCapabilities (s : State) : Host.Outcome State Fault Refusal := s.after fun d => d.spdmCapabilitiesRow s.fuses.lc

/-- `NEGOTIATE_ALGORITHMS` (13 R395). -/
def execNegotiateAlgorithms (s : State) : Host.Outcome State Fault Refusal := s.after fun d => d.spdmNegotiateRow s.fuses.lc

/-- `GET_DIGESTS` (13 R395). -/
def execGetDigests (s : State) : Host.Outcome State Fault Refusal := s.after fun d => d.spdmDigestsRow s.fuses.lc

/-- `GET_CERTIFICATE` (13 R395). -/
def execGetCertificate (s : State) : Host.Outcome State Fault Refusal := s.after fun d => d.spdmCertificateRow s.fuses.lc

/-- `CHALLENGE` (13 R395). -/
def execChallenge (nonce : Nat) (s : State) : Host.Outcome State Fault Refusal :=
  s.after fun d => d.spdmChallengeRow s.fuses.lc nonce

/-- `GET_MEASUREMENTS` (13 R396). -/
def execGetMeasurements (nonce : Nat) (s : State) : Host.Outcome State Fault Refusal :=
  s.after fun d => d.spdmMeasurementsRow s.fuses.lc nonce

/-- `KEY_EXCHANGE` (13 R395). -/
def execKeyExchange (s : State) : Host.Outcome State Fault Refusal := s.after fun d => d.spdmKeyExchangeRow s.fuses.lc

/-- `FINISH` (13 R395). -/
def execFinish (ok : Bool) (s : State) : Host.Outcome State Fault Refusal := s.after fun d => d.spdmFinishRow s.fuses.lc ok

/-- `END_SESSION` (13 R395). -/
def execEndSession (s : State) : Host.Outcome State Fault Refusal := s.after fun d => d.spdmEndRow s.fuses.lc

/-- `IDE_KM` (11 R333). -/
def execIdeKm (cacheStream : Bool) (stream : Nat) (install : Bool) (s : State) : Host.Outcome State Fault Refusal :=
  s.after fun d => d.ideKm s.fuses.lc cacheStream stream install

/-- `TAMPER` (13 R382). -/
def execTamper (sensor : Nat) (s : State) : Host.Outcome State Fault Refusal := s.after fun d => d.tamper sensor

/-- `VBAT_LOW` (13 R412). -/
def execVbatLow (mv : Nat) (s : State) : Host.Outcome State Fault Refusal := s.after fun d => d.vbatLow mv

/-- `HOLDER_UNREACHABLE` (13 R411). -/
def execHolderUnreachable (p : Nat) (s : State) : Host.Outcome State Fault Refusal := s.after fun d => d.holderUnreachable p

end Sys2Proof.Machine
end

