-- ==== Sys2Proof/Machine/RowsSelvedge.lean ====
section
/-! DEFINITION. The meanings of the rows of this family: Selvedge (12). -/

namespace Sys2Proof.Machine

/-- `REGION_OPEN` (12 R360). -/
def execRegionOpen (sig : Bool) (fence : BitVec 14) (s : State) : Host.Outcome State Fault Refusal :=
  s.after fun d => d.regionOpen sig fence.toNat

/-- `REGION_OPEN_DONE` (12 R360). -/
def execRegionOpenDone (num : Nat) (s : State) : Host.Outcome State Fault Refusal := s.after fun d => d.regionOpenDone num

/-- `REGION_CLOSE` (12 R361). -/
def execRegionClose (sig : Bool) (fence : BitVec 14) (s : State) : Host.Outcome State Fault Refusal :=
  s.after fun d => d.regionClose sig fence.toNat

/-- `REGION_CLOSE_DONE` (12 R361). -/
def execRegionCloseDone (num : Nat) (s : State) : Host.Outcome State Fault Refusal := s.after fun d => d.regionCloseDone num

/-- `REENCRYPT` (12 R367). -/
def execReencrypt (sig : Bool) (fence : BitVec 14) (s : State) : Host.Outcome State Fault Refusal :=
  s.after fun d => d.reencrypt sig fence.toNat

/-- `REENCRYPT_STEP` (12 R368). -/
def execReencryptStep (num stack : Nat) (s : State) : Host.Outcome State Fault Refusal :=
  s.after fun d => d.reencryptStep num stack

/-- `FORCED_STEP` (12 R369). -/
def execForcedStep (addr : Nat) (s : State) : Host.Outcome State Fault Refusal := s.after fun d => d.stepForced addr

/-- `STEP_BUFFER_RECOVERY` (12 R370). -/
def execStepBufferRecovery (stack : Nat) (s : State) : Host.Outcome State Fault Refusal :=
  s.after fun d => d.stepBufferRecovery stack

/-- `PATROL_READ` (12 R377). -/
def execPatrolRead (addr : Nat) (found : LineFound) (s : State) : Host.Outcome State Fault Refusal :=
  s.after fun d => d.patrol addr found

/-- `JOURNAL_RECOVERY` (10 R307). -/
def execJournalRecovery (p : Nat) (readable : Bool) (s : State) : Host.Outcome State Fault Refusal :=
  s.after fun d => d.journalRecovery p readable

end Sys2Proof.Machine
end

