-- ==== Sys2Proof/Machine/RowsTiles.lean ====
section
/-! DEFINITION. The meanings of the rows of this family: Picks and ops (03, 04, 09). -/

namespace Sys2Proof.Machine

/-- `PICK_START` (10 R301). -/
def execPickStart (l : Nat) (s : State) : Host.Outcome State Fault Refusal := s.after fun d => d.pickStart l

/-- `WRITE_ASIDE_RESERVE` (10 R305). -/
def execWriteAsideReserve (l : Nat) (s : State) : Host.Outcome State Fault Refusal := s.after fun d => d.asideReserve l

/-- `PICK_COMMIT` (10 R303). -/
def execPickCommit (l : Nat) (err : Option PickError) (s : State) : Host.Outcome State Fault Refusal :=
  s.after fun d => d.pickCommit l err

/-- `PICK_REPLAY_END` (09 R263). -/
def execPickReplayEnd (l : Nat) (fault : RunFault) (s : State) : Host.Outcome State Fault Refusal :=
  s.after fun d => d.replayEnd l fault

/-- `TILE_REPLACE` (03 R79). -/
def execTileReplace (t : Nat) (readable : Bool) (s : State) : Host.Outcome State Fault Refusal :=
  s.after fun d => d.replaceTile t readable

/-- `OP_NOP` (03 R87). -/
def execOpNop (l : Nat) (s : State) : Host.Outcome State Fault Refusal := s.after fun d => d.opRow l 0x00

/-- `MMUL` (03 R89). -/
def execMmul (l : Nat) (s : State) : Host.Outcome State Fault Refusal := s.after fun d => d.opRow l 0x01

/-- `VEC2` (03 R91). -/
def execVec2 (l : Nat) (s : State) : Host.Outcome State Fault Refusal := s.after fun d => d.opRow l 0x10

/-- `VEC1` (03 R87). -/
def execVec1 (l : Nat) (s : State) : Host.Outcome State Fault Refusal := s.after fun d => d.opRow l 0x11

/-- `VFMA` (03 R87). -/
def execVfma (l : Nat) (s : State) : Host.Outcome State Fault Refusal := s.after fun d => d.opRow l 0x12

/-- `TFWD` (03 R72). -/
def execTfwd (l : Nat) (s : State) : Host.Outcome State Fault Refusal := s.after fun d => d.opRow l 0x20

/-- `TSLOPE` (05 R137). -/
def execTslope (l : Nat) (s : State) : Host.Outcome State Fault Refusal := s.after fun d => d.opRow l 0x21

/-- `TLOAD` (03 R71). -/
def execTload (l : Nat) (s : State) : Host.Outcome State Fault Refusal := s.after fun d => d.opRow l 0x22

/-- `RROW` (03 R93). -/
def execRrow (l : Nat) (s : State) : Host.Outcome State Fault Refusal := s.after fun d => d.opRow l 0x30

/-- `RCOL` (03 R93). -/
def execRcol (l : Nat) (s : State) : Host.Outcome State Fault Refusal := s.after fun d => d.opRow l 0x31

/-- `RALL` (03 R93). -/
def execRall (l : Nat) (s : State) : Host.Outcome State Fault Refusal := s.after fun d => d.opRow l 0x32

/-- `MOVE` (03 R94). -/
def execMove (l : Nat) (s : State) : Host.Outcome State Fault Refusal := s.after fun d => d.opRow l 0x40

/-- `FILL` (03 R94). -/
def execFill (l : Nat) (s : State) : Host.Outcome State Fault Refusal := s.after fun d => d.opRow l 0x41

/-- `RPUT` (03 R95). -/
def execRput (l : Nat) (s : State) : Host.Outcome State Fault Refusal := s.after fun d => d.opRow l 0x50

/-- `RACC` (03 R95). -/
def execRacc (l : Nat) (s : State) : Host.Outcome State Fault Refusal := s.after fun d => d.opRow l 0x51

/-- `RGET` (03 R95). -/
def execRget (l : Nat) (s : State) : Host.Outcome State Fault Refusal := s.after fun d => d.opRow l 0x52

/-- `RSIG` (03 R95). -/
def execRsig (l : Nat) (s : State) : Host.Outcome State Fault Refusal := s.after fun d => d.opRow l 0x53

/-- `FWAIT` (03 R96). -/
def execFwait (l : Nat) (s : State) : Host.Outcome State Fault Refusal := s.after fun d => d.fwaitRow l

/-- `FSIG` (03 R96). -/
def execFsig (l : Nat) (s : State) : Host.Outcome State Fault Refusal := s.after fun d => d.opRow l 0x61

/-- `SETRNG` (03 R97). -/
def execSetrng (l : Nat) (s : State) : Host.Outcome State Fault Refusal := s.after fun d => d.opRow l 0x70

/-- `END` (03 R98). -/
def execOpEnd (l : Nat) (s : State) : Host.Outcome State Fault Refusal := s.after fun d => d.opRow l 0x7F

end Sys2Proof.Machine
end

