-- ==== Sys2Proof/Machine/RowsWeft.lean ====
section
/-! DEFINITION. The meanings of the rows of this family: Weft (02). -/

namespace Sys2Proof.Machine

/-- `STREAM_DESCRIPTOR` (02 R32). -/
def execStreamDescriptor (ring : Nat) (s : State) : Host.Outcome State Fault Refusal := s.after fun d => d.streamRow ring

/-- `EPOCH_DESCRIPTOR` (02 R36). -/
def execEpochDescriptor (ring : Nat) (s : State) : Host.Outcome State Fault Refusal := s.after fun d => d.epochRow ring

/-- `EPOCH_TAKE_EFFECT` (02 R37). -/
def execEpochTakeEffect (p : Nat) (s : State) : Host.Outcome State Fault Refusal := s.after fun d => d.epochTakeEffect p

/-- `CHUNK_ARRIVAL` (02 R35), after the host's writes `host`. -/
def execChunkArrival (p sample : Nat) (host : Cells) (facts : Option StreamFacts) (s : State) :
    Host.Outcome State Fault Refusal :=
  s.after fun d => (d.hostCells host).chunkArrival p sample facts

/-- `PICTURE_DECODE` (02 R47). -/
def execPictureDecode (p sample idx : Nat) (pic : Option Picture) (s : State) : Host.Outcome State Fault Refusal :=
  s.after fun d => d.pictureDecode p sample idx pic

/-- `WINDOW_FILL_START` (02 R59). -/
def execWindowFillStart (p : Nat) (s : State) : Host.Outcome State Fault Refusal := s.after fun d => d.windowFill p

/-- `SAMPLE_PLACE` (02 R60). -/
def execSamplePlace (p sample : Nat) (s : State) : Host.Outcome State Fault Refusal := s.after fun d => d.samplePlace p sample

/-- `SEQUENCE_CLOSE` (02 R63). -/
def execSequenceClose (p : Nat) (s : State) : Host.Outcome State Fault Refusal := s.after fun d => d.sequenceClose p

/-- `AUDIO_FRAME_DECODE` (02 R49). -/
def execAudioFrameDecode (p sample idx : Nat) (pcm : Option (List (List Nat))) (s : State) : Host.Outcome State Fault Refusal :=
  s.after fun d => d.audioDecode p sample idx pcm

end Sys2Proof.Machine
end

