-- ==== Sys2Proof/Machine/Dispatch.lean ====
section
/-! DEFINITION. The meaning of each command: one arm per row of spec/opcode_table.json. -/

namespace Sys2Proof.Machine

/-- A command's effect on everything but the queue. -/
def exec (i : Instr) (s : State) : Host.Outcome State Fault Refusal :=
  match i with
  | .doorbellWrite ring tail host => Sys2Proof.Machine.execDoorbellWrite ring tail host s
  | .descriptorAccept ring => Sys2Proof.Machine.execDescriptorAccept ring s
  | .completionRecord ring => Sys2Proof.Machine.execCompletionRecord ring s
  | .ringNop ring => Sys2Proof.Machine.execRingNop ring s
  | .dispatch ring => Sys2Proof.Machine.execDispatch ring s
  | .fenceSignal ring => Sys2Proof.Machine.execFenceSignal ring s
  | .fenceCreate ring => Sys2Proof.Machine.execFenceCreate ring s
  | .fenceDestroy ring => Sys2Proof.Machine.execFenceDestroy ring s
  | .fenceShare ring => Sys2Proof.Machine.execFenceShare ring s
  | .fenceUnshare ring => Sys2Proof.Machine.execFenceUnshare ring s
  | .fenceRead ring => Sys2Proof.Machine.execFenceRead ring s
  | .query ring => Sys2Proof.Machine.execQuery ring s
  | .streamDescriptor ring => Sys2Proof.Machine.execStreamDescriptor ring s
  | .epochDescriptor ring => Sys2Proof.Machine.execEpochDescriptor ring s
  | .epochTakeEffect p => Sys2Proof.Machine.execEpochTakeEffect p s
  | .chunkArrival p sample host facts => Sys2Proof.Machine.execChunkArrival p sample host facts s
  | .pictureDecode p sample idx pic => Sys2Proof.Machine.execPictureDecode p sample idx pic s
  | .windowFillStart p => Sys2Proof.Machine.execWindowFillStart p s
  | .samplePlace p sample => Sys2Proof.Machine.execSamplePlace p sample s
  | .sequenceClose p => Sys2Proof.Machine.execSequenceClose p s
  | .landing ring => Sys2Proof.Machine.execLanding ring s
  | .landingMerge p group unit => Sys2Proof.Machine.execLandingMerge p group unit s
  | .update ring => Sys2Proof.Machine.execUpdate ring s
  | .normGate p => Sys2Proof.Machine.execNormGate p s
  | .updateBlock n errs again => Sys2Proof.Machine.execUpdateBlock n errs again s
  | .logSeal n => Sys2Proof.Machine.execLogSeal n s
  | .workingCopyWrite n => Sys2Proof.Machine.execWorkingCopyWrite n s
  | .battenLogRecovery n byBatten readable => Sys2Proof.Machine.execBattenLogRecovery n byBatten readable s
  | .restore ring lostUnits others unreadable => Sys2Proof.Machine.execRestore ring lostUnits others unreadable s
  | .drain ring => Sys2Proof.Machine.execDrain ring s
  | .reload ring host => Sys2Proof.Machine.execReload ring host s
  | .pleachExport ring => Sys2Proof.Machine.execPleachExport ring s
  | .stripeRowCopy p => Sys2Proof.Machine.execStripeRowCopy p s
  | .forcedRowCopy p addr => Sys2Proof.Machine.execForcedRowCopy p addr s
  | .readyRecord p slot step member => Sys2Proof.Machine.execReadyRecord p slot step member s
  | .commitRecord p slot step member => Sys2Proof.Machine.execCommitRecord p slot step member s
  | .pleachDue p => Sys2Proof.Machine.execPleachDue p s
  | .arm p => Sys2Proof.Machine.execArm p s
  | .disarm p => Sys2Proof.Machine.execDisarm p s
  | .pickStart l => Sys2Proof.Machine.execPickStart l s
  | .writeAsideReserve l => Sys2Proof.Machine.execWriteAsideReserve l s
  | .pickCommit l err => Sys2Proof.Machine.execPickCommit l err s
  | .pickReplayEnd l fault => Sys2Proof.Machine.execPickReplayEnd l fault s
  | .tileReplace t readable => Sys2Proof.Machine.execTileReplace t readable s
  | .opNop l => Sys2Proof.Machine.execOpNop l s
  | .mmul l => Sys2Proof.Machine.execMmul l s
  | .vec2 l => Sys2Proof.Machine.execVec2 l s
  | .vec1 l => Sys2Proof.Machine.execVec1 l s
  | .vfma l => Sys2Proof.Machine.execVfma l s
  | .tfwd l => Sys2Proof.Machine.execTfwd l s
  | .tslope l => Sys2Proof.Machine.execTslope l s
  | .tload l => Sys2Proof.Machine.execTload l s
  | .rrow l => Sys2Proof.Machine.execRrow l s
  | .rcol l => Sys2Proof.Machine.execRcol l s
  | .rall l => Sys2Proof.Machine.execRall l s
  | .move l => Sys2Proof.Machine.execMove l s
  | .fill l => Sys2Proof.Machine.execFill l s
  | .rput l => Sys2Proof.Machine.execRput l s
  | .racc l => Sys2Proof.Machine.execRacc l s
  | .rget l => Sys2Proof.Machine.execRget l s
  | .rsig l => Sys2Proof.Machine.execRsig l s
  | .fwait l => Sys2Proof.Machine.execFwait l s
  | .fsig l => Sys2Proof.Machine.execFsig l s
  | .setrng l => Sys2Proof.Machine.execSetrng l s
  | .opEnd l => Sys2Proof.Machine.execOpEnd l s
  | .progEnd n f => Sys2Proof.Machine.execProgEnd n f s
  | .progLd n f => Sys2Proof.Machine.execProgLd n f s
  | .progLdc n f => Sys2Proof.Machine.execProgLdc n f s
  | .progMov n f => Sys2Proof.Machine.execProgMov n f s
  | .progSt n f => Sys2Proof.Machine.execProgSt n f s
  | .progStz n f => Sys2Proof.Machine.execProgStz n f s
  | .progSts n f => Sys2Proof.Machine.execProgSts n f s
  | .progAdd n f => Sys2Proof.Machine.execProgAdd n f s
  | .progSub n f => Sys2Proof.Machine.execProgSub n f s
  | .progMul n f => Sys2Proof.Machine.execProgMul n f s
  | .progDiv n f => Sys2Proof.Machine.execProgDiv n f s
  | .progFma n f => Sys2Proof.Machine.execProgFma n f s
  | .progMax n f => Sys2Proof.Machine.execProgMax n f s
  | .progMin n f => Sys2Proof.Machine.execProgMin n f s
  | .progSqrt n f => Sys2Proof.Machine.execProgSqrt n f s
  | .progRsqrt n f => Sys2Proof.Machine.execProgRsqrt n f s
  | .progRecip n f => Sys2Proof.Machine.execProgRecip n f s
  | .progAbs n f => Sys2Proof.Machine.execProgAbs n f s
  | .progNeg n f => Sys2Proof.Machine.execProgNeg n f s
  | .progRndn n f => Sys2Proof.Machine.execProgRndn n f s
  | .progSrnd n f => Sys2Proof.Machine.execProgSrnd n f s
  | .progCmplt n f => Sys2Proof.Machine.execProgCmplt n f s
  | .progCmple n f => Sys2Proof.Machine.execProgCmple n f s
  | .progCmpeq n f => Sys2Proof.Machine.execProgCmpeq n f s
  | .progIsnan n f => Sys2Proof.Machine.execProgIsnan n f s
  | .progPnot n f => Sys2Proof.Machine.execProgPnot n f s
  | .progPand n f => Sys2Proof.Machine.execProgPand n f s
  | .progPor n f => Sys2Proof.Machine.execProgPor n f s
  | .put port m => Sys2Proof.Machine.execPut port m s
  | .acc port m => Sys2Proof.Machine.execAcc port m s
  | .get port m => Sys2Proof.Machine.execGet port m s
  | .getr port m => Sys2Proof.Machine.execGetr port m s
  | .signal port m => Sys2Proof.Machine.execSignal port m s
  | .commit port m => Sys2Proof.Machine.execCommit port m s
  | .retract port m => Sys2Proof.Machine.execRetract port m s
  | .reject port m => Sys2Proof.Machine.execReject port m s
  | .messageForward port m => Sys2Proof.Machine.execMessageForward port m s
  | .trafficEpochRoll p => Sys2Proof.Machine.execTrafficEpochRoll p s
  | .linkRetransmit port frames => Sys2Proof.Machine.execLinkRetransmit port frames s
  | .portEnable port => Sys2Proof.Machine.execPortEnable port s
  | .portTrainingPhase port r => Sys2Proof.Machine.execPortTrainingPhase port r s
  | .trainingRetry port => Sys2Proof.Machine.execTrainingRetry port s
  | .mgmtHeartbeat port => Sys2Proof.Machine.execMgmtHeartbeat port s
  | .mgmtFrame port ctr => Sys2Proof.Machine.execMgmtFrame port ctr s
  | .neighbourLost port => Sys2Proof.Machine.execNeighbourLost port s
  | .mgmtRekey port => Sys2Proof.Machine.execMgmtRekey port s
  | .holeListWrite idx v => Sys2Proof.Machine.execHoleListWrite idx v s
  | .substitutionWrite p idx v => Sys2Proof.Machine.execSubstitutionWrite p idx v s
  | .sliceEntryWrite p off v => Sys2Proof.Machine.execSliceEntryWrite p off v s
  | .ctxOpen p => Sys2Proof.Machine.execCtxOpen p s
  | .teardown p => Sys2Proof.Machine.execTeardown p s
  | .teardownBreakFences c => Sys2Proof.Machine.execTeardownBreakFences c s
  | .teardownClose c => Sys2Proof.Machine.execTeardownClose c s
  | .stop p => Sys2Proof.Machine.execStop p s
  | .resume p => Sys2Proof.Machine.execResume p s
  | .sendingEpochWrite p v => Sys2Proof.Machine.execSendingEpochWrite p v s
  | .p8Open c image => Sys2Proof.Machine.execP8Open c image s
  | .makeResident c => Sys2Proof.Machine.execMakeResident c s
  | .p8Stop c => Sys2Proof.Machine.execP8Stop c s
  | .p8Resume c => Sys2Proof.Machine.execP8Resume c s
  | .p8Teardown c => Sys2Proof.Machine.execP8Teardown c s
  | .ringEnable ring => Sys2Proof.Machine.execRingEnable ring s
  | .ringDisable ring => Sys2Proof.Machine.execRingDisable ring s
  | .stagingCopy p c => Sys2Proof.Machine.execStagingCopy p c s
  | .stagingDone p c hostErrAfter => Sys2Proof.Machine.execStagingDone p c hostErrAfter s
  | .regionOpen sig fence => Sys2Proof.Machine.execRegionOpen sig fence s
  | .regionOpenDone num => Sys2Proof.Machine.execRegionOpenDone num s
  | .regionClose sig fence => Sys2Proof.Machine.execRegionClose sig fence s
  | .regionCloseDone num => Sys2Proof.Machine.execRegionCloseDone num s
  | .reencrypt sig fence => Sys2Proof.Machine.execReencrypt sig fence s
  | .reencryptStep num stack => Sys2Proof.Machine.execReencryptStep num stack s
  | .forcedStep addr => Sys2Proof.Machine.execForcedStep addr s
  | .stepBufferRecovery stack => Sys2Proof.Machine.execStepBufferRecovery stack s
  | .patrolRead addr found => Sys2Proof.Machine.execPatrolRead addr found s
  | .journalRecovery p readable => Sys2Proof.Machine.execJournalRecovery p readable s
  | .errorSignal u id r => Sys2Proof.Machine.execErrorSignal u id r s
  | .inFieldTestStart u id => Sys2Proof.Machine.execInFieldTestStart u id s
  | .inFieldTestEnd u id passed => Sys2Proof.Machine.execInFieldTestEnd u id passed s
  | .iftOverdue u id => Sys2Proof.Machine.execIftOverdue u id s
  | .fencedUnitRetest u id passed => Sys2Proof.Machine.execFencedUnitRetest u id passed s
  | .clearAll => Sys2Proof.Machine.execClearAll s
  | .unpin => Sys2Proof.Machine.execUnpin s
  | .cpClear idx => Sys2Proof.Machine.execCpClear idx s
  | .injectArm v => Sys2Proof.Machine.execInjectArm v s
  | .tlOvfClear p => Sys2Proof.Machine.execTlOvfClear p s
  | .btOvfClear p => Sys2Proof.Machine.execBtOvfClear p s
  | .mbTimingEnable p v => Sys2Proof.Machine.execMbTimingEnable p v s
  | .partitionCountChange v => Sys2Proof.Machine.execPartitionCountChange v s
  | .registerWrite bar2 off size v => Sys2Proof.Machine.execRegisterWrite bar2 off size v s
  | .cxlLinkDown => Sys2Proof.Machine.execCxlLinkDown s
  | .cxlLinkUp width rate flit256 cache => Sys2Proof.Machine.execCxlLinkUp width rate flit256 cache s
  | .ideFailure cacheStream stream => Sys2Proof.Machine.execIdeFailure cacheStream stream s
  | .d3hotEntry => Sys2Proof.Machine.execD3hotEntry s
  | .d0Return => Sys2Proof.Machine.execD0Return s
  | .mailboxChunk v => Sys2Proof.Machine.execMailboxChunk v s
  | .nextReplyChunk => Sys2Proof.Machine.execNextReplyChunk s
  | .manifestLoad p m sig => Sys2Proof.Machine.execManifestLoad p m sig s
  | .jobCreate p slot secret => Sys2Proof.Machine.execJobCreate p slot secret s
  | .jobJoin p coord slot dataSlots => Sys2Proof.Machine.execJobJoin p coord slot dataSlots s
  | .admissionRequest p port from_ e => Sys2Proof.Machine.execAdmissionRequest p port from_ e s
  | .admission p e env secret keys => Sys2Proof.Machine.execAdmission p e env secret keys s
  | .rtpMessageRelay port dest body => Sys2Proof.Machine.execRtpMessageRelay port dest body s
  | .jobResume p slot dataSlots tagOk => Sys2Proof.Machine.execJobResume p slot dataSlots tagOk s
  | .jobForget p => Sys2Proof.Machine.execJobForget p s
  | .jobExpire p => Sys2Proof.Machine.execJobExpire p s
  | .slotAlloc p slot job expireRst => Sys2Proof.Machine.execSlotAlloc p slot job expireRst s
  | .slotFree p slot => Sys2Proof.Machine.execSlotFree p slot s
  | .keyTransport p slot len head mh idh env sig => Sys2Proof.Machine.execKeyTransport p slot len head mh idh env sig s
  | .keyUpdate p len head mh idh counter keyId uses sig => Sys2Proof.Machine.execKeyUpdate p len head mh idh counter keyId uses sig s
  | .quorumRelease p kind mh release step notAfter form entries => Sys2Proof.Machine.execQuorumRelease p kind mh release step notAfter form entries s
  | .evidence p nonce => Sys2Proof.Machine.execEvidence p nonce s
  | .getVersion => Sys2Proof.Machine.execGetVersion s
  | .getCapabilities => Sys2Proof.Machine.execGetCapabilities s
  | .negotiateAlgorithms => Sys2Proof.Machine.execNegotiateAlgorithms s
  | .getDigests => Sys2Proof.Machine.execGetDigests s
  | .getCertificate => Sys2Proof.Machine.execGetCertificate s
  | .challenge nonce => Sys2Proof.Machine.execChallenge nonce s
  | .getMeasurements nonce => Sys2Proof.Machine.execGetMeasurements nonce s
  | .keyExchange => Sys2Proof.Machine.execKeyExchange s
  | .finish ok => Sys2Proof.Machine.execFinish ok s
  | .endSession => Sys2Proof.Machine.execEndSession s
  | .ideKm cacheStream stream install => Sys2Proof.Machine.execIdeKm cacheStream stream install s
  | .tamper sensor => Sys2Proof.Machine.execTamper sensor s
  | .vbatLow mv => Sys2Proof.Machine.execVbatLow mv s
  | .lcAdvance target authOk cert => Sys2Proof.Machine.execLcAdvance target authOk cert s
  | .eolArm v => Sys2Proof.Machine.execEolArm v s
  | .eolConfirm v => Sys2Proof.Machine.execEolConfirm v s
  | .certStore sig matchesKeys => Sys2Proof.Machine.execCertStore sig matchesKeys s
  | .fwBegin => Sys2Proof.Machine.execFwBegin s
  | .fwData bytes offset programmed => Sys2Proof.Machine.execFwData bytes offset programmed s
  | .fwCommit img => Sys2Proof.Machine.execFwCommit img s
  | .svnLock => Sys2Proof.Machine.execSvnLock s
  | .debugChallenge nonce => Sys2Proof.Machine.execDebugChallenge nonce s
  | .debugOpen c => Sys2Proof.Machine.execDebugOpen c s
  | .debugClose => Sys2Proof.Machine.execDebugClose s
  | .debugRightsExpire => Sys2Proof.Machine.execDebugRightsExpire s
  | .lifelogRead index count => Sys2Proof.Machine.execLifelogRead index count s
  | .flashInfo => Sys2Proof.Machine.execFlashInfo s
  | .idcode => Sys2Proof.Machine.execIdcode s
  | .bypass => Sys2Proof.Machine.execBypass s
  | .samplePreload captured preload => Sys2Proof.Machine.execSamplePreload captured preload s
  | .extest drive => Sys2Proof.Machine.execExtest drive s
  | .traceFull => Sys2Proof.Machine.execTraceFull s
  | .powerOn => Sys2Proof.Machine.execPowerOn s
  | .powerLoss => Sys2Proof.Machine.execPowerLoss s
  | .perstN => Sys2Proof.Machine.execPerstN s
  | .hotReset => Sys2Proof.Machine.execHotReset s
  | .linkDisable => Sys2Proof.Machine.execLinkDisable s
  | .keepingRegisterReset => Sys2Proof.Machine.execKeepingRegisterReset s
  | .clearingRegisterReset => Sys2Proof.Machine.execClearingRegisterReset s
  | .bootVerify img => Sys2Proof.Machine.execBootVerify img s
  | .bringupReduced badUnits => Sys2Proof.Machine.execBringupReduced badUnits s
  | .bringupFull badUnits => Sys2Proof.Machine.execBringupFull badUnits s
  | .bringupTimeout => Sys2Proof.Machine.execBringupTimeout s
  | .privetTick strobes flips => Sys2Proof.Machine.execPrivetTick strobes flips s
  | .powerSample watts => Sys2Proof.Machine.execPowerSample watts s
  | .thermalThreshold u id celsius => Sys2Proof.Machine.execThermalThreshold u id celsius s
  | .thermNInput => Sys2Proof.Machine.execThermNInput s
  | .powerControlWrite v => Sys2Proof.Machine.execPowerControlWrite v s
  | .refclkLost => Sys2Proof.Machine.execRefclkLost s
  | .syncEdge => Sys2Proof.Machine.execSyncEdge s
  | .syncLost => Sys2Proof.Machine.execSyncLost s
  | .syncEnable v => Sys2Proof.Machine.execSyncEnable v s
  | .uartRequest v => Sys2Proof.Machine.execUartRequest v s
  | .calendarAdjust v => Sys2Proof.Machine.execCalendarAdjust v s
  | .reservedMessageType port m => Sys2Proof.Machine.execReservedMessageType port m s
  | .holderUnreachable p => Sys2Proof.Machine.execHolderUnreachable p s
  | .clockDomainGate u id => Sys2Proof.Machine.execClockDomainGate u id s
  | .perstNRelease => Sys2Proof.Machine.execPerstNRelease s
  | .refclkReturn => Sys2Proof.Machine.execRefclkReturn s
  | .thermNRelease => Sys2Proof.Machine.execThermNRelease s
  | .thermalThrottleStep die hub hbm => Sys2Proof.Machine.execThermalThrottleStep die hub hbm s
  | .portDisable port => Sys2Proof.Machine.execPortDisable port s
  | .audioFrameDecode p sample idx pcm => Sys2Proof.Machine.execAudioFrameDecode p sample idx pcm s
  | .debugMasterAccess addr write data => Sys2Proof.Machine.execDebugMasterAccess addr write data s
  | .sequencerHalt l singleStep => Sys2Proof.Machine.execSequencerHalt l singleStep s
  | .internalScan die bits => Sys2Proof.Machine.execInternalScan die bits s

end Sys2Proof.Machine
end

