-- ==== Sys2Proof/Machine/LineImage.lean ====
section
/-! DEFINITION. The 144 bytes that HBM stores of a line (12 R351, R352, R355), as a function of what the state keeps of it. -/

namespace Sys2Proof.Machine

/-- The line key of slot `k`, which differs from device to device (13 R385). -/
def slotKey (lc : LifeCycle) (secret k : Nat) : List Nat :=
  Crypt.hkdf (Crypt.secretBytes secret) (Crypt.ascii "LQ16-SLOT" ++ Crypt.ofBytes (leBytes 48 (ownIdh lc) ++ leBytes 2 k)) 32

/-- `k_enc | k_auth` of a line: from the line key of the slot it was written under, the region's `KEY` and the epoch (R355). -/
def lineKeys (lc : LifeCycle) (secret key epoch : Nat) : List Nat :=
  Crypt.hkdf (slotKey lc secret key)
    (Crypt.ascii "LQ16-LINE" ++ Crypt.ofBytes (leBytes 2 key) ++ Crypt.ofBytes (leBytes 4 epoch)) 64

/-- `le40(A >> 7) | le16(c) | byte | eight zeros` (R355). -/
def lineBlock (l c b : Nat) : List Nat :=
  Crypt.ofBytes (leBytes 5 l) ++ Crypt.ofBytes (leBytes 2 c) ++ [b] ++ List.replicate 8 0

/-- The ciphertext of the eight blocks of line `l`. -/
def lineCipher (ks : List Nat) (l c : Nat) (plain : List Nat) : List Nat :=
  let rks := Crypt.roundKeys (ks.take 32)
  Crypt.xorList plain ((List.range 8).flatMap fun i => Crypt.cipher rks (lineBlock l c i))

/-- The MAC of line `l`: the polynomial over ciphertext and address block, masked and cut to seven bytes. -/
def lineMac (ks : List Nat) (l c : Nat) (ct : List Nat) : List Nat :=
  let rks := Crypt.roundKeys (ks.drop 32)
  let h := Crypt.beNat (Crypt.cipher rks (List.replicate 16 0))
  let m := lineBlock l c 0xFF
  (Crypt.xorList (Crypt.beBytes 16 (Crypt.ghash h (ct ++ m))) (Crypt.cipher rks m)).take 7

/-- `DATA`, `MAC` and `CTR` of a line of region `x` as written (Table 12-1): clear with zeros in an open region. -/
def lineImage (lc : LifeCycle) (x : Region) (m : LineMeta) (l : Nat) (plain : List Byte) : List Byte :=
  if x.key = 0 then plain ++ List.replicate 9 0
  else
    let ks := lineKeys lc m.secret x.key m.epoch
    let ct := lineCipher ks l m.ctr (Crypt.ofBytes plain)
    Crypt.toBytes (ct ++ lineMac ks l m.ctr ct) ++ leBytes 2 m.ctr

/-- The 144 stored bytes of line `l` (Table 12-1). The spec names the code of `ECC` and not its generator: its symbols are free.
A line outside a region that stands, or whose stored bits have gone bad, holds what the spec leaves open (assumption log 104). -/
def Dev.storedLine (d : Dev) (lc : LifeCycle) (l : Nat) : List Byte :=
  match d.regionOf (128 * l) with
  | none => (List.range 144).map (Config.strayByte l)
  | some n =>
    let x := d.region n
    let m := d.lineMeta x l
    if m.bad then (List.range 144).map (Config.strayByte l)
    else
      let bs := lineImage lc x m l (d.bytes (128 * l) 128)
      bs ++ (List.range 7).map (Config.eccSymbol bs)

end Sys2Proof.Machine
end

