-- ==== Sys2Proof/Machine/View.lean ====
section
/-! DEFINITION. What a read of a register returns: the register file, with the status fields that show other state, 0 for
write-only fields and for offsets that no register occupies (00 R12, R13, 11 R335, R338, R342). Reading changes nothing. -/

namespace Sys2Proof.Machine

/-- Bit `i` set for each `i` below `n` of which `f` holds. -/
def mask (n : Nat) (f : Nat → Bool) : Nat := ((List.range n).map fun i => if f i then 2 ^ i else 0).foldl (· + ·) 0

def count {α : Type} (l : List α) (f : α → Bool) : Nat := (l.filter f).length

/-- A field of `w` bits at bit `lo`. -/
def at_ (lo x w : Nat) : Nat := x % 2 ^ w * 2 ^ lo

/-! ### Identity, power and time -/

def powerCode : PowerState → Nat
  | .off => 0
  | .bringup => 1
  | .reduced => 2
  | .full => 3
  | .held => 4
  | .standby => 5

def Dev.showState_ (d : Dev) (lc : LifeCycle) : Nat :=
  powerCode d.power.st + at_ 3 (lcCode lc) 3 + at_ 6 (b2n (d.power.st = .held)) 1 + at_ 7 (b2n (d.power.st = .reduced)) 1 +
    at_ 8 (b2n (d.power.st = .full)) 1

def Dev.showLink (d : Dev) : Nat :=
  d.cxl.width + at_ 4 d.cxl.rate 4 + at_ 8 (b2n d.cxl.flit256) 1 + at_ 9 (b2n d.cxl.cache) 1 + at_ 10 (b2n (!d.cxl.ideIo.isEmpty)) 1 +
    at_ 11 (b2n (!d.cxl.ideCache.isEmpty)) 1

def Dev.showPower (d : Dev) : Nat :=
  let full := if d.fixed then 2100 else 2500
  d.tileMhz + at_ 12 d.power.idle16 4 + at_ 16 (b2n (!d.fixed && d.power.loopMhz < full)) 1 +
    at_ 17 (b2n (d.power.tempMhz < full)) 1 + at_ 18 (b2n d.power.thermIn) 1 + at_ 19 (b2n (d.power.tripWindow = d.now / 1000000 && d.power.tripWindow ≠ 0)) 1 +
    at_ 20 (d.fld 0x44 20 1) 1

def Dev.readPv (d : Dev) (lc : LifeCycle) (o : Nat) : Nat :=
  match o with
  | 0x18 => d.showState_ lc
  | 0x20 => d.showLink
  | 0x28 => d.now % 2 ^ 64
  | 0x44 => d.showPower
  | 0x48 => Config.millivolts d.timePs % 65536 + d.fld 0x48 16 16 * 65536
  | _ => (d.reg o).toNat

/-! ### Host interface -/

def ctxStateCode : CtxState → Nat
  | .closed => 0
  | .opened => 1
  | .stopped => 2
  | .tearing => 3

/-- What picks that still wait for write-aside space of partition `p` add to `HX_WA_WAIT_NS` (10 R305). -/
def Dev.asideWaits (d : Dev) (p : Nat) : Nat :=
  (d.tiles.logical.map fun e =>
    match e.2.pick, d.runCtx e.1 with
    | some q, some k => if !q.reserved ∧ ctxPart k = p then d.now - q.askedAt else 0
    | _, _ => 0).foldl (· + ·) 0

def Dev.readHx (d : Dev) (o : Nat) : Nat :=
  if o = 0x4020 then d.residents.length
  else if o < 0x4100 then (d.reg o).toNat
  else if o < 0x4800 then
    let p := (o - 0x4100) / 0x100
    let i := o % 0x100
    if i = 0 then ctxStateCode (d.ctx p).st * 16
    else if i = 0x88 then (d.reg o).toNat + d.asideWaits p
    else if 0x40 ≤ i ∧ i < 0x80 then ((d.ctx p).acc[(i - 0x40) / 8]?).getD 0 % 2 ^ 64
    else if i = 0xD0 ∨ i = 0xF0 then
      let s := d.staging_ (2 * p + (i - 0xD0) / 0x20)
      (d.reg o).toNat + at_ 41 s.st 2 + at_ 43 s.status 8
    else (d.reg o).toNat
  else if o % 0x20 = 0x18 then setBits (d.reg o).toNat 1 2 (ringStateCode (d.ring ((o - 0x4800) / 0x20)).st)
  else (d.reg o).toNat

/-! ### Coppice -/

/-- The highest class of an uncleared entry, overwritten ones included (09 R285). -/
def FaultLog.top (l : FaultLog) : Nat :=
  if l.uncleared = 0 then 0
  else l.entries.foldl (fun t e => match e.2 with
    | some x => if 2 ≤ x.cls ∧ !x.cleared then max t x.cls else t
    | none => t) l.lostTop

/-- Word `w` of the log entry at position `i`. -/
def Dev.logWord (d : Dev) (i w : Nat) (ok : LogEntry → Bool) : Nat :=
  match d.log.entry i with
  | some e => if ok e then leNat ((e.bytes.drop (8 * w)).take 8) else 0
  | none => 0

def Dev.readCp (d : Dev) (o : Nat) : Nat :=
  if o = 0x8004 then d.log.top + at_ 3 (b2n d.faultLow) 1 + at_ 4 (b2n (d.power.st = .held)) 1
  else if o = 0x8008 then d.log.uncleared
  else if o = 0x8018 then d.log.seq % 2 ^ 64
  else if o = 0x8020 then d.log.pos + at_ 10 (b2n (64 ≤ d.log.pinned)) 1
  else if 0x8030 ≤ o ∧ o < 0x8050 then d.logWord (d.fld 0x8028 0 10) ((o - 0x8030) / 8) fun _ => true
  else if o = 0x8080 then
    mask 16 (d.fenced .stack) + at_ 16 (mask 4 (d.fenced .die)) 4 + at_ 20 d.fencedTiles.length 11
  else if 0x8100 ≤ o ∧ o < 0x8300 ∧ 0x48 ≤ o % 0x80 ∧ o % 0x80 < 0x68 then
    let p := (o - 0x8100) / 0x80
    d.logWord (d.fld (0x8140 + 0x80 * p) 0 10) ((o % 0x80 - 0x48) / 8) fun e => e.part = some p
  else (d.reg o).toNat

/-! ### RTP -/

/-- Word `w` of a number. -/
def word64 (v w : Nat) : Nat := v / 2 ^ (64 * w) % 2 ^ 64

def Dev.showFloor (d : Dev) (p : Nat) : Nat :=
  let x := d.rtpPart p
  b2n (x.manifest.isSome && d.floorAdmits p) + at_ 1 (x.counts.foldl (fun n e => n + e.2) 0) 40 +
    at_ 41 (count x.counts fun e => 1 ≤ e.2) 9

def Dev.readRt (d : Dev) (fused : Nat) (o : Nat) : Nat :=
  if o = 0xC004 then
    b2n d.rtp.busy + at_ 1 (b2n d.rtp.tampered) 1 + at_ 2 (b2n d.rtp.vbatLow) 1 +
      at_ 3 (mask 4 fun p => (d.rtpPart p).sealedRec.isSome) 4
  else if o = 0xC00C then d.rtp.status + at_ 8 d.rtp.replyLen 14 + at_ 22 (b2n (!d.rtp.more.isEmpty)) 1
  else if 0xC010 ≤ o ∧ o < 0xC110 then
    let x := d.rtpPart ((o - 0xC010) / 0x40)
    let i := (o - 0xC010) % 0x40 / 8
    if i < 2 then (if x.held then word64 (jobFingerprint x.secret) i else 0)
    else word64 ((x.manifest.map Manifest.mh).getD 0) (i - 2)
  else if o = 0xC118 then
    let k := d.key (d.fld 0xC110 0 12)
    k.typ + at_ 3 (b2n k.expireRst) 1 + at_ 32 k.uses 32
  else if o = 0xC128 then Sparse.get (fun _ => 0) (d.rtpPart (d.fld 0xC120 8 2)).ctrs (d.fld 0xC120 0 8)
  else if 0xC130 ≤ o ∧ o < 0xC150 then d.showFloor ((o - 0xC130) / 8)
  else if o = 0xC158 then d.life.rights + at_ 16 (b2n d.life.invasive) 1 + at_ 32 d.life.notAfter 32
  else if o = 0xC160 then
    d.life.fwState + at_ 2 (b2n d.life.recovery) 1 + at_ 3 fused 6 + at_ 32 (d.life.fwBytes / 1024) 32
  else (d.reg o).toNat

/-! ### Selvedge -/

def regionCode : RegionState → Nat
  | .closed => 0
  | .opening => 1
  | .live => 2
  | .reencrypting => 3
  | .closing => 4
  | .lost => 5

def Dev.readSv (d : Dev) (o : Nat) : Nat :=
  let x := d.region d.selRegion
  match o with
  | 0x1000C =>
    mask 16 (d.fenced .selvedge) + at_ 16 (b2n (d.fenced .selvedge 16)) 1 + at_ 17 (count d.regions fun e => e.2.st = .reencrypting) 13
  | 0x10108 => d.regionReg o
  | 0x10110 => d.regionReg o
  | 0x10118 => d.regionReg o
  | 0x10128 => d.regionReg o
  | 0x10130 => regionCode x.st + at_ 3 (b2n x.due) 1 + at_ 4 x.hw 16
  | 0x10138 => x.epoch + at_ 32 x.taken.length 32
  | 0x10140 => x.bad
  | 0x10208 =>
    let n := d.fld 0x10200 0 12
    let k := d.key n
    b2n k.valid + at_ 1 k.job 12 + at_ 13 k.owner 8 + at_ 21 (b2n k.openOut) 1 + at_ 32 (d.nextEpoch n) 32
  | _ => (d.reg o).toNat

/-! ### Reed, Shuttle, Weft, Batten -/

def portCode : PortState → Nat
  | .down => 0
  | .training => 1
  | .up => 2
  | .quarantined => 3
  | .fenced => 4

def Dev.readPort (d : Dev) (n i : Nat) : Option Nat :=
  let x := d.port n
  match i with
  | 0x04 => some (portCode x.st + at_ 3 x.lanes 4 + at_ 7 x.cable 4 + at_ 11 x.partner 3)
  | 0x08 => some (match x.seen with
    | some (c, q) => c % 2 ^ 17 + at_ 17 q 3 + at_ 20 1 1
    | none => 0)
  | 0x0C => some (mask 8 fun l => d.fenced .lane (8 * n + l))
  | _ => none

def Dev.readRdSh (d : Dev) (o : Nat) : Nat :=
  if o = 0x14004 then
    mask 8 (fun n => (d.port n).st = .up) + at_ 8 (mask 8 fun n => (d.port n).lanes = 4) 8 +
      at_ 16 (mask 8 fun n => (d.port n).st = .quarantined) 8
  else if 0x14040 ≤ o ∧ o < 0x14140 then (d.readPort ((o - 0x14040) / 0x20) (o % 0x20)).getD (d.reg o).toNat
  else if o = 0x15004 then mask 8 (d.fenced .port)
  else if 0x15100 ≤ o ∧ o < 0x15300 ∧ o % 0x80 = 0x50 then (d.sh ((o - 0x15100) / 0x80)).groups.length
  else (d.reg o).toNat

/-- No descriptor of the opcodes is in progress. -/
def Dev.idleOf (d : Dev) (ops : List Nat) : Bool :=
  d.rings.all fun e => e.2.pend.all fun a => !(ops.contains (descOpcode a.desc) && a.inHand)

/-- Engines of a kind that partition `p` has in service. -/
def Dev.enginesOf (d : Dev) (u : UnitType) (n p : Nat) : Nat :=
  count (List.range n) fun i => d.unitPart u i = some p && !d.fenced u i

/-- The part of a wait counter at offset `o` that a wait still running adds: packer (Table 02-10), stash (06 R174), tiles. -/
def Dev.runningWait (d : Dev) (o : Nat) : Nat :=
  (List.range 4).foldl (fun n p =>
    if o = wfReg p + 0x48 then n + d.since (d.wf p).waitFrom
    else if o = btReg p + 0x28 then
      match (d.bt p).update with
      | some u => if u.stash then n else n + d.since u.stashFrom
      | none => n
    else if o = 0x20120 + 0x40 * p then
      (d.tiles.logical.map fun e => if tilePart d.parts e.1 = p then d.since e.2.waitFrom else 0).foldl (· + ·) n
    else n) 0

def Dev.readWf (d : Dev) (o : Nat) : Nat :=
  match o with
  | 0x18004 =>
    b2n (d.idleOf [0x40, 0x41]) + at_ 1 (count (List.range 32) fun i => !d.fenced .videoEngine i) 6 +
      at_ 7 (count (List.range 4) fun i => !d.fenced .audioEngine i) 3 + at_ 10 (mask d.parts fun p => d.enginesOf .videoEngine 32 p = 0) 4
  | 0x18008 => mask 32 (d.fenced .videoEngine)
  | 0x1800C => mask 4 (d.fenced .audioEngine)
  | _ => (d.reg o).toNat + d.runningWait o

def Dev.readBt (d : Dev) (o : Nat) : Nat :=
  match o with
  | 0x1C004 => b2n (d.idleOf [0x60]) + at_ 1 (mask d.parts fun p => d.enginesOf .batten 16 p = 0) 4
  | 0x1C008 => mask 16 (d.fenced .batten)
  | _ => (d.reg o).toNat + d.runningWait o

/-! ### Tiles and fences -/

def Dev.showMap (d : Dev) (l : Nat) : Nat :=
  match d.physOf l with
  | some t => t + at_ 11 (d.tileState t) 3
  | none => 0x7FF + at_ 14 1 1

def Dev.showOvf (d : Dev) (l : Nat) : Nat := (d.lt l).sat + at_ 32 (d.lt l).nanint 32

def fenceCode : FenceState → Nat
  | .free => 0
  | .live => 1
  | .broken => 2

/-- Waiters on fence `f`: descriptors in their header wait, parts at `FWAIT`, updates. -/
def Dev.waiters (d : Dev) (f : Nat) : Nat :=
  let heads := count d.rings fun e => match nextToStart e.2.pend with
    | some a => (match d.headerWait (ringCtx e.1) a.desc with
      | .notYet => dfield a.desc 10 14 = f
      | _ => false)
    | none => false
  let parts := (d.tiles.logical.map fun e => count e.2.slots fun s => s.wait.map Prod.fst = some f).foldl (· + ·) 0
  let ups := count (List.range 4) fun p => match (d.bt p).update with
    | some u => (u.gate = .waiting && uNormFence u.desc = f) || (u.stashFrom.isSome && !u.stash && uStashFence u.desc = f)
    | none => false
  heads + parts + ups

/-- Fences of partition `p` in a state. -/
def Dev.fencesIn (d : Dev) (p : Nat) (st : FenceState) : Nat :=
  count d.fences fun e => rangePart d.parts 16384 e.1 = p && e.2.st = st

/-- The fence window of partition `p`; an ID outside its range reads as FREE with value 0 (10 Table 10-15). -/
def Dev.readFence (d : Dev) (p i : Nat) : Nat :=
  let f := d.fld (0x28000 + 0x40 * p) 0 14
  let x := d.fence f
  let own : Bool := rangePart d.parts 16384 f = p
  match i with
  | 0x08 => if own then x.value else 0
  | 0x10 => if !own then 0 else fenceCode x.st + at_ 2 (ctxId x.owner) 12 + at_ 14 (b2n x.remote) 1 + at_ 15 x.shares.length 3 + at_ 18 (min 16383 (d.waiters f)) 14
  | 0x18 => d.fencesIn p .live + at_ 15 (d.fencesIn p .broken) 15
  | _ => f

def Dev.readTl (d : Dev) (o : Nat) : Nat :=
  if o = 0x20004 then
    let backed := count (List.range 1024) fun l => (d.physOf l).isSome
    backed + at_ 11 (count (List.range 1088) fun t => d.tileState t = 6) 7 + at_ 18 (1024 - backed) 11
  else if 0x21000 ≤ o ∧ o < 0x23000 then d.showOvf ((o - 0x21000) / 8)
  else if 0x23000 ≤ o ∧ o < 0x24000 then d.showMap ((o - 0x23000) / 4)
  else if 0x24000 ≤ o ∧ o < 0x25100 then
    let t := (o - 0x24000) / 4
    d.tileState t + (match d.logicalOf t with
      | some l => at_ 3 l 10 + at_ 13 1 1
      | none => 0)
  else if 0x28000 ≤ o ∧ o < 0x28100 then d.readFence ((o - 0x28000) / 0x40) (o % 0x40)
  else (d.reg o).toNat + d.runningWait o

/-! ### Pleach -/

def showGen (g : Gen) : Nat := g.step % 2 ^ 32 + at_ 32 (b2n g.valid) 1 + at_ 33 (b2n g.counted) 1

/-- `STATE` of `PL_STATUS`: copying until the READYs are sent, committing until the generation counts (Table 08-8); an operation
that transfers to or from the host is over within its command. -/
def PlPart.stateCode (x : PlPart) : Nat :=
  if x.op.isSome then 4
  else match x.cur with
    | some k => if (x.gen k).sent then 2 else 1
    | none => 0

def Dev.readPl (d : Dev) (o : Nat) : Nat :=
  if o = 0x2C004 then mask 4 fun p => (d.pl p).armed
  else if o < 0x2C100 then (d.reg o).toNat
  else
    let p := (o - 0x2C100) / 0x100
    let x := d.pl p
    match o % 0x100 with
    | 0x00 => b2n x.armed + at_ 1 (d.member p) 3 + at_ 4 (b2n (d.groupOk p)) 1
    | 0x40 => x.stateCode + at_ 3 (d.fld o 3 1) 1 + at_ 4 (b2n (d.keptSlot p = some 1)) 1
    | 0x48 => showGen x.gen0
    | 0x50 => showGen x.gen1
    | 0x58 => firstUntaken 0 x.taken
    | _ => (d.reg o).toNat

/-! ### Any register -/

/-- A write-only field reads 0. -/
def RegSpec.hide (s : RegSpec) (v : Nat) : Nat :=
  s.fields.foldl (fun v f => if f.acc = .wo then setBits v f.lo f.w 0 else v) v

/-- What the register at BAR0 offset `o` reads. -/
def Dev.readReg (d : Dev) (z : Fuses) (s : RegSpec) (o : Nat) : Nat :=
  s.hide
    (if o < 0x4000 then d.readPv z.lc o
     else if o < 0x8000 then d.readHx o
     else if o < 0xC000 then d.readCp o
     else if o < 0x10000 then d.readRt z.svn o
     else if o < 0x14000 then d.readSv o
     else if o < 0x18000 then d.readRdSh o
     else if o < 0x1C000 then d.readWf o
     else if o < 0x20000 then d.readBt o
     else if o < 0x2C000 then d.readTl o
     else d.readPl o)

/-- The logical tile with local index `i` in partition `p`: its tiles in ascending order (R342). -/
def Dev.localTile (d : Dev) (p i : Nat) : Nat := (((List.range 1024).filter fun l => tilePart d.parts l = p)[i]?).getD 0

/-- What window offset `i` of partition `p` reads where the window holds something of its own. -/
def Dev.readWindow (d : Dev) (p i : Nat) : Nat :=
  if 0x740 ≤ i ∧ i < 0x744 then p + at_ 2 (d.fld 0x1C 0 2) 2 + at_ 16 (1024 / d.parts) 11
  else if 0x3000 ≤ i then d.showOvf (d.localTile p ((i - 0x3000) / 8))
  else if 0x2000 ≤ i then d.showMap (d.localTile p ((i - 0x2000) / 4))
  else 0

/-- Window offsets whose register is read-only there still read it. -/
def Dev.readOnlyHere (d : Dev) (z : Fuses) (p i : Nat) : Nat :=
  let o := if i < 0x100 then 0x4100 + 0x100 * p + i
    else if i < 0x400 then 0x20100 + 0x40 * p + (i - 0x380) else 0x14600 + 0x200 * p + (i - 0x1000)
  if (0x30 ≤ i ∧ i < 0x34) ∨ (0x380 ≤ i ∧ i < 0x384) ∨ (0x1000 ≤ i ∧ i < 0x1200) then
    match Target.at o with
    | .reg s o => d.readReg z s o
    | _ => 0
  else 0

/-- The register value at a BAR0 offset that a read returns, of which a read of fewer bytes returns its part. -/
def Dev.readBar0 (d : Dev) (z : Fuses) (off : Nat) : Nat :=
  let size := 0x10000 / d.parts
  match d.target off with
  | .reg s o => d.readReg z s o
  | .fixed => d.readWindow ((off - 0x30000) / size) ((off - 0x30000) % size)
  | .component => 0
  | .nothing => if 0x30000 ≤ off ∧ off < 0x40000 then d.readOnlyHere z ((off - 0x30000) / size) ((off - 0x30000) % size) else 0

/-- The byte that a read of BAR0 offset `off` returns. -/
def Dev.barByte (d : Dev) (z : Fuses) (off : Nat) : Byte :=
  let w := match d.target off with
    | .reg s _ => s.bytes
    | .fixed => if 0x3000 ≤ (off - 0x30000) % (0x10000 / d.parts) then 8 else 4
    | _ => 4
  if d.target off = .component then Config.cxlComponent off d.draws else BitVec.ofNat 8 (bits (d.readBar0 z off) (8 * (off % w)) 8)

/-- The 16 bytes of an MSI-X table entry. -/
def MsixEntry.bytes (e : MsixEntry) : List Byte := leBytes 8 e.addr ++ leBytes 4 e.data ++ leBytes 4 (b2n e.mask)

/-- The byte that a read of BAR2 offset `off` returns: MSI-X table, pending-bit array. -/
def Dev.bar2Byte (d : Dev) (off : Nat) : Byte :=
  if off < 0x8000 then ((d.msixEntry (off / 16)).bytes[off % 16]?).getD 0
  else if off < 0x8100 then BitVec.ofNat 8 (mask 8 fun i => d.msixPend.contains (8 * (off - 0x8000) + i))
  else 0

/-- A read of `n` bytes of BAR0 or BAR2 from `off`, of any size: answered in every state but Off, in D3hot by an Unsupported
Request, without a side effect (R335, R339, 15 R437). -/
def Dev.readBytes (d : Dev) (z : Fuses) (bar2 : Bool) (off n : Nat) : Option (List Byte) :=
  if d.on && !d.power.d3 then some ((List.range n).map fun i => if bar2 then d.bar2Byte (off + i) else d.barByte z (off + i)) else none

/-! ### Configuration space (R334, Table 11-2) -/

/-- Objects of the data object exchange. -/
inductive DoeObject where
  | spdm | securedSpdm
  /-- coherent device attributes: the memory ranges listed -/
  | cdat (ranges : List Nat)
  deriving DecidableEq, Repr

/-- A capability structure with what Table 11-2 and Table 11-1 say of it. -/
inductive Capability where
  | powerManagement (d3hot : Bool)
  | pciExpress (maxPayload : Nat) (tags10 extendedTags relaxedOrdering functionReset : Bool)
  | msix (vectors table pending : Nat)
  | advancedErrors
  | serialNumber (n : Nat)
  | dataObjects (l : List DoeObject)
  /-- selective CXL.io streams; CXL.cache on the link in containment mode -/
  | ide (selectiveIo cacheContainment : Bool)
  | cxlDevice (cache mem hdm : Bool)
  | flexBus (io cache flit256 flit68 : Bool)
  /-- BAR0 offsets of the register blocks located -/
  | registerLocator (blocks : List Nat)
  deriving DecidableEq, Repr

/-- The items of Table 11-2; the layouts are those of the standards it names. One function; no ATS, PRI or PASID, no SR-IOV, no MSI or
INTx: the chain lists none of them (R327). -/
structure ConfigSpace where
  vendor : Nat
  device : Nat
  revision : Nat
  classCode : Nat
  subsystemVendor : Nat
  subsystem : Nat
  /-- sizes of the 64-bit BARs 0 and 2; BAR4 and BAR5 read 0 -/
  bar0Bytes : Nat
  bar2Bytes : Nat
  bar4 : Nat
  bar5 : Nat
  /-- capability structures in the order of the chain -/
  chain : List Capability
  deriving DecidableEq, Repr

/-- Configuration space as a read finds it; in Off nothing answers (R339). -/
def Dev.configSpace (d : Dev) : Option ConfigSpace :=
  if d.on then some
    { vendor := 0x1E3B, device := 0x4C16, revision := 0x11, classCode := 0x120000, subsystemVendor := 0x1E3B, subsystem := 0x0001,
      bar0Bytes := 2 ^ 18, bar2Bytes := 2 ^ 16, bar4 := 0, bar5 := 0,
      chain := [.powerManagement true, .pciExpress 512 true true true false, .msix 2048 0 0x8000, .advancedErrors,
        .serialNumber (d.reg 0x8).toNat, .dataObjects [.spdm, .securedSpdm, .cdat []], .ide true true, .cxlDevice true false false,
        .flexBus true true true true, .registerLocator [0x7000]] }
  else none

end Sys2Proof.Machine
end

