-- ==== Sys2Proof/Safety.lean ====
section
/-! DEFINITION. What counts as a safe run of the block, in the terms the claims use: a command completes, memory keeps its one form,
the one-time fuses only ever move forward, slot 0 stays open, the log stays chained in its places. -/

namespace Sys2Proof

open Sys2Proof.Machine

/-- Both memories of the machine keep their canonical form: addresses rising, no entry that an unlisted byte reads as. -/
def Machine.Dev.memWf (d : Dev) : Bool := Sparse.wf (fun _ => 0) d.mem && Sparse.wf (fun _ => 0) d.hostMem

/-- The rank of a life-cycle state along the only direction of Table 14-2. -/
def Machine.LifeCycle.rank (l : LifeCycle) : Nat := lcCode l

/-- `t`'s fuses hold everything that `s`'s hold. -/
def FusesGrow (s t : State) : Prop := s.fuses.lc.rank ≤ t.fuses.lc.rank ∧ s.fuses.svn ≤ t.fuses.svn

/-! ### When a command has its own effect -/

/-- The state with device `d`; fuses and queue stand. -/
abbrev Machine.State.withDev (s : State) (d : Dev) : State := { s with dev := d }

/-- The oldest descriptor of ring `r` not started is `a`, of opcode `op`; its header is sound, its wait holds and the unit that
executes it can take it (10 R293). -/
def Machine.Dev.starts (d : Dev) (r op : Nat) (a : Accepted) : Prop :=
  nextToStart (d.ring r).pend = some a ∧ d.serving = true ∧ d.recovered (ringPart r) = true ∧
    d.unitsReady (ringPart r) op = true ∧ d.ctxOpen (ringCtx r) = true ∧ descOpcode a.desc = op ∧
    headerBad a.desc = false ∧ d.headerWait (ringCtx r) a.desc = .ready

/-- The register write `v` at `off` reaches its register (11 R340, 15 R437). -/
def Machine.Dev.takesWrite (d : Dev) (off : Nat) : Prop :=
  d.on = true ∧ d.power.d3 = false ∧ (d.power.st ≠ .held ∨ heldWritable off = true)

/-! ### What a register write does to a field (00 R12 to R16) -/

/-- Two fields do not meet. -/
def Machine.RegField.apart (f g : RegField) : Bool := f.lo + f.w ≤ g.lo || g.lo + g.w ≤ f.lo

/-- What a write of a whole register leaves in field `f`, which held `old`, when the write holds `x` there. -/
def Machine.RegField.after (lk : Bool) (f : RegField) (old x : Nat) : Nat :=
  match f.acc with
  | .ro => old
  | .wo => old
  | .rw1c => old - (old &&& x)
  | .rw => if x < f.least ∨ f.most < x then old else x
  | .rwl => if lk then old else if x < f.least ∨ f.most < x then old else x

/-- Registers whose write does nothing beyond changing their fields. -/
def plainAt (o : Nat) : Bool :=
  (o < 0x4000 && !([0x1C, 0x40, 0x58, 0x60, 0x68, 0x80, 0x88].contains o)) || (0x4000 < o && o < 0x4100 && o ≠ 0x4018) ||
    (0x8000 ≤ o && o < 0xC000 && !([0x800C, 0x8010, 0x8060].contains o)) || (0xC000 ≤ o && o < 0xE000 && o ≠ 0xC008) ||
    (0x10000 ≤ o && o < 0x14000 && !([0x10108, 0x10110, 0x10118, 0x10120, 0x10128].contains o)) || (0x14000 ≤ o && o < 0x14040) ||
    (0x15000 ≤ o && o < 0x15100) || (0x18000 ≤ o && o < 0x18100) || (0x18500 ≤ o && o < 0x1C100) || (0x20000 ≤ o && o < 0x20100) ||
    (0x2C000 ≤ o && o < 0x2C100)

/-- Rows that are the write of one register: the row, the register's offset, the size and the value written (00 R12). -/
def writeRows : List (Instr × Nat × Nat × Nat) :=
  [(.clearAll, 0x800C, 4, 1), (.unpin, 0x800C, 4, 2)] ++
    (List.range 4).flatMap fun p =>
      [(.ctxOpen p, 0x4100 + 0x100 * p, 4, 1), (.teardown p, 0x4100 + 0x100 * p, 4, 2), (.stop p, 0x4100 + 0x100 * p, 4, 4),
       (.resume p, 0x4100 + 0x100 * p, 4, 8), (.tlOvfClear p, 0x20130 + 0x40 * p, 4, 1), (.btOvfClear p, 0x1C448 + 0x80 * p, 4, 1)]

/-! ### Tiles (03) -/

/-- The op rows with the opcodes of Table 03-9, but for `FWAIT`. -/
def opRows : List (Nat × (Nat → Instr)) :=
  [(0x00, .opNop), (0x01, .mmul), (0x10, .vec2), (0x11, .vec1), (0x12, .vfma), (0x20, .tfwd), (0x21, .tslope), (0x22, .tload),
   (0x30, .rrow), (0x31, .rcol), (0x32, .rall), (0x40, .move), (0x41, .fill), (0x50, .rput), (0x51, .racc), (0x52, .rget),
   (0x53, .rsig), (0x61, .fsig), (0x70, .setrng), (0x7F, .opEnd)]

/-- `c` is the device of the last commit of the pick that runs on tile `l` of `d`: a line the pick shadowed holds in `c` the bytes
it kept, every other line of a store is as in `c` (03 R101). -/
def Machine.Dev.covers (c d : Dev) (l : Nat) : Prop :=
  ∃ p, (d.lt l).pick = some p ∧
    (∀ x ∈ p.shadow, x.2.2 = (c.lt x.1).bytes (64 * x.2.1) 64) ∧
    ∀ t a, (∃ x ∈ p.shadow, x.1 = t ∧ x.2.1 = a / 64) ∨
      Sparse.get (fun _ => 0) (d.lt t).store a = Sparse.get (fun _ => 0) (c.lt t).store a

/-! ### Batten (06) -/

/-- The rows of update programs with the opcodes of Table 06-7. -/
def progRows : List (Nat × (Nat → ProgFields → Instr)) :=
  [(0x00, .progEnd), (0x01, .progLd), (0x02, .progLdc), (0x03, .progMov), (0x04, .progSt), (0x05, .progStz), (0x06, .progSts),
   (0x10, .progAdd), (0x11, .progSub), (0x12, .progMul), (0x13, .progDiv), (0x14, .progFma), (0x15, .progMax), (0x16, .progMin),
   (0x17, .progSqrt), (0x18, .progRsqrt), (0x19, .progRecip), (0x1A, .progAbs), (0x1B, .progNeg), (0x20, .progRndn),
   (0x21, .progSrnd), (0x30, .progCmplt), (0x31, .progCmple), (0x32, .progCmpeq), (0x33, .progIsnan), (0x34, .progPnot),
   (0x35, .progPand), (0x36, .progPor)]

/-! ### Weft (02) -/

/-- The stream descriptor `a` of ring `r` is the next to start, is sound, belongs to epoch `e`, which is in effect, and its sample
lies in the filling window, the first of its number (02 R31, R32, R59). -/
def Machine.Dev.streamTurn (d : Dev) (r : Nat) (a : Accepted) (e : WfEpoch) : Prop :=
  d.starts r 0x40 a ∧ d.p8 = false ∧ d.fld 0x18000 0 1 = 1 ∧ d.hasEngine (ringPart r) false = true ∧ streamBad a.desc = false ∧
    a.epoch = some (e.serial, eN e.desc) ∧ (d.wf (ringPart r)).epochs = [e] ∧ e.active = true ∧ sSample a.desc < eN e.desc ∧
    e.windowIs (sSample a.desc) = .filling ∧ (e.sample (sSample a.desc)).isNone = true

/-! ### Messages (07) -/

/-- Message `m` of type `typ` arrives on the port for this device and is accepted for partition `p`, the device being `e` then and
`c` the message in clear (07 R195, R206, R208, R214). -/
def Machine.Dev.arrives (d : Dev) (port typ : Nat) (m : Msg) (e : Dev) (p : Nat) (c : Msg) : Prop :=
  m.typ = typ ∧ d.canTake port m = true ∧ (d.received port m).arrive m = .taken e p c

/-- The row that delivers a message of a type (Table 07-6). -/
def messageRow (typ port : Nat) (m : Msg) : Instr :=
  match typ with
  | 1 => .put port m
  | 2 => .acc port m
  | 3 => .get port m
  | 4 => .getr port m
  | 5 => .signal port m
  | 6 => .commit port m
  | 7 => .retract port m
  | _ => .reject port m

/-! ### The RTP mailbox (13 R410, R411) -/

/-- Command `op` for partition `p` reaches the RTP, is not turned away and is looked at. -/
def Machine.Dev.looksAt (d : Dev) (lc : LifeCycle) (op p : Nat) : Prop :=
  d.mailboxUp = true ∧ (d.rtp.busy = false ∨ d.rtp.cmd.map (fun c => (c.op, c.part)) = some (op, p)) ∧ d.turnedAway lc op p = none

/-- Command `c` completes with status `st`, in a device of which `P` holds. -/
def Completes (c : Instr) (s : State) (st : Nat) (P : Dev → Prop) : Prop :=
  ∃ f : Dev, exec c s = .next (s.withDev f.settle) ∧ f.rtp.status = st ∧ f.rtp.busy = false ∧ f.rtp.cmd = none ∧ P f

/-- Nothing that a refused mailbox command could have changed has changed. -/
def Machine.Dev.sameKeys (d f : Dev) : Prop :=
  f.keys = d.keys ∧ f.rtp.parts = d.rtp.parts ∧ f.rtp.revoked = d.rtp.revoked ∧ f.life.cert = d.life.cert ∧
    f.life.image = d.life.image ∧ f.life.rights = d.life.rights ∧ f.mem = d.mem

/-- The messages that the RTP has sent once it sends `b` toward `dest`: none more without a route (13 R399). -/
def Machine.Dev.relays (d : Dev) (dest : Nat) (b : RtpBody) : List (Nat × Nat × RtpBody) :=
  d.rtp.relayed ++ ((d.nextHop (Coord.ofNat dest)).toList.map fun n => (n, dest, b))

end Sys2Proof
end

