-- ==== Sys2Proof/Certificates/Slice0/Obligations.lean ====
section
/-! DEFINITION. The statements for the provers, one per obligation of OBLIGATIONS.json. -/

open Sys2Proof Sys2Proof.Machine

/-- A step with a command at the front of the queue is that command's meaning on the state with the queue's rest. The queue
itself is the model's (assumption log 6). -/
def Obligations.StepRunsFront : Prop :=
  ∀ (c : Instr) (cs : List Instr) (s : State), s.pending = c :: cs → step s = exec c { s with pending := cs }

/-- R290, R291; 11 R328, R331: the host writes a doorbell line, and what the device that held it makes of the line it reads. -/
def Obligations.DoorbellRead : Prop :=
  ∀ (r tail : Nat) (host : Cells) (s : State), s.dev.quiet = true → tail < 2 ^ 64 →
    let a := s.dev.ringDoorbell r
    let told := (s.dev.hostCells host).hostWrite (physBase + a) (leBytes 8 tail)
    let x := s.dev.ring r
    let d := ((told.dropLine a).hostCount false (ringCtx r) 64).shareLine a
    (s.dev.cxl.lines.contains a = false → exec (.doorbellWrite r tail host) s = .next (s.withDev told)) ∧
    (s.dev.cxl.lines.contains a = true → s.dev.hears r = false ∨ s.dev.hostMay false (ringPart r) 64 = false →
      exec (.doorbellWrite r tail host) s = .next (s.withDev (told.dropLine a))) ∧
    (s.dev.cxl.lines.contains a = true → s.dev.hears r = true → s.dev.hostMay false (ringPart r) 64 = true →
      (x.tail ≤ tail → tail ≤ x.completed + s.dev.ringSize r →
        exec (.doorbellWrite r tail host) s = .next (s.withDev (d.setRing r { x with tail := tail }))) ∧
      (tail < x.tail →
        exec (.doorbellWrite r tail host) s =
          .next (s.withDev (d.recordCtx 1 0x0201 (ringCtx r) (ringNo r + tail * 64)))) ∧
      (x.tail ≤ tail → x.completed + s.dev.ringSize r < tail →
        exec (.doorbellWrite r tail host) s =
          .next (s.withDev (((d.setRing r { x with st := .error }).writeStatus r).recordCtx 1 0x0202 (ringCtx r) (ringNo r)))))

/-- R289, R292, R296: acceptance; R31, R62 of chapter 02: a stream descriptor is judged by the epoch before it; R272 of chapter 09: a
dispatch stops the tests of its tiles. -/
def Obligations.EntryAccepted : Prop :=
  ∀ (r : Nat) (s : State), s.dev.quiet = true → s.dev.fetches r = true → s.dev.hostMay false (ringPart r) 128 = true →
    s.dev.hostMay true (ringPart r) 64 = true →
    let x := s.dev.ring r
    let e := s.dev.ringEntry r x.accepted
    let line := s.dev.ringRecords r
    (256 ≤ x.pend.length → exec (.descriptorAccept r) s = .next s) ∧
    (x.accepted < x.tail → x.pend.length < 256 → descOpcode e ≠ 0x40 →
      (∀ l ∈ s.dev.tilesNamed r e, ∀ u, s.dev.physOf l = some u → s.dev.tileState u ≠ 5) →
      ∃ t ph, exec (.descriptorAccept r) s = .next t ∧
        t.dev.ring r = { x with accepted := x.accepted + 1, pend := x.pend ++ [{ seq := x.accepted, desc := e, phase := ph }], owed := false } ∧
        (∀ q, q ≠ r → t.dev.ring q = s.dev.ring q) ∧
        t.dev.hostBytes line 64 =
          leBytes 8 (x.accepted + 1) ++ leBytes 8 x.completed ++ leBytes 1 (ringStateCode x.st) ++ List.replicate 47 0 ∧
        (∀ b, b < line ∨ line + 64 ≤ b → t.dev.host b = s.dev.host b) ∧
        (headerBad e = true → ph = .done (Verdict.of 1)) ∧
        (headerBad e = false → s.dev.p8 = false → descOpcode e ≠ 1 → ph = .waiting) ∧
        t.dev.regs = s.dev.regs ∧ t.dev.mem = s.dev.mem ∧ t.dev.fences = s.dev.fences ∧ t.fuses = s.fuses ∧
        t.pending = s.pending) ∧
    (x.accepted < x.tail → x.pend.length < 256 → s.dev.acceptPhase r e = .waiting → descOpcode e = 1 →
      exec (.descriptorAccept r) s = .next (s.withDev ((s.dev.tilesNamed r e).foldl Dev.stopTest
        ((((s.dev.setRing r { x with accepted := x.accepted + 1, pend := x.pend ++ [{ seq := x.accepted, desc := e, phase := .waiting }] }
          ).hostCount false (ringCtx r) 128).putStatus r).ringUsed r)).settle)) ∧
    (∀ (d : Dev) (l u : Nat), d.physOf l = some u → d.tileState u = 5 → ((d.stopTest l).unit .tile u).testing = false) ∧
    (x.accepted < x.tail → x.pend.length < 256 → judgedStream e = true → s.dev.p8 = false → s.dev.epochPends r x.accepted = false →
      (∀ a ∈ x.pend, a.seq < x.accepted) →
      let d := (((s.dev.setRing r { x with accepted := x.accepted + 1, pend := x.pend ++ [{ seq := x.accepted, desc := e, phase := .waiting }] }
        ).hostCount false (ringCtx r) 128).putStatus r).ringUsed r
      (∀ c y, s.dev.streamTie r e = (some c, y) → c ≠ 0x46 →
        exec (.descriptorAccept r) s = .next (s.withDev (d.finish r x.accepted (Verdict.of c)).settle)) ∧
      (∀ y, s.dev.streamTie r e = (some 0x46, y) →
        exec (.descriptorAccept r) s = .next (s.withDev ((d.finish r x.accepted (Verdict.of 0x46)).noteEnded r x.accepted e).settle)) ∧
      (∀ y, s.dev.streamTie r e = (none, y) → exec (.descriptorAccept r) s = .next (s.withDev (d.tie r x.accepted y).settle)))

/-- R300: the check at acceptance, and that the record is still written in ring order (R294). -/
def Obligations.SequenceTooLong : Prop :=
  ∀ (r : Nat) (s : State), s.dev.quiet = true → s.dev.fetches r = true → s.dev.hostMay false (ringPart r) 128 = true →
    s.dev.hostMay true (ringPart r) 64 = true →
    let x := s.dev.ring r
    let e := s.dev.ringEntry r x.accepted
    x.accepted < x.tail → x.pend.length < 256 → headerBad e = false → descOpcode e = 1 →
    (s.dev.ctx (ringCtx r)).st = .opened → 4194304 < dbyte e 28 0 23 →
    ∃ t, exec (.descriptorAccept r) s = .next t ∧
      (t.dev.ring r).pend = x.pend ++ [{ seq := x.accepted, desc := e, phase := .done (Verdict.of 0x46) }] ∧
      t.dev.dispatches = s.dev.dispatches ∧ t.dev.tiles = s.dev.tiles ∧
      (∀ a as, x.pend = a :: as → a.undone = true → exec (.completionRecord r) t = .next t)

/-- R294, R297: completion in ring order. -/
def Obligations.CompletionWritten : Prop :=
  ∀ (r : Nat) (s : State) (a : Accepted) (as : List Accepted), s.dev.quiet = true → (s.dev.ring r).pend = a :: as →
    let x := s.dev.ring r
    let line := s.dev.ringRecords r
    let st := if x.st = .draining ∧ as = [] then RingState.disabled else x.st
    (a.undone = true → exec (.completionRecord r) s = .next s) ∧
    (∀ v, a.phase = .done v → s.dev.hostMay true (ringPart r) 96 = true →
      ∃ t, exec (.completionRecord r) s = .next t ∧
        t.dev.hostBytes (line + 4096 + a.seq % s.dev.ringSize r * 32) 32 =
          leBytes 8 a.seq ++ leBytes 4 (dfield a.desc 32 32) ++ leBytes 1 (descOpcode a.desc) ++ [0, 0, 0] ++ leBytes 1 v.code ++
            [0] ++ leBytes 2 v.nfail ++ leBytes 4 v.aux ++ leBytes 8 v.info ∧
        t.dev.hostBytes line 64 =
          leBytes 8 x.accepted ++ leBytes 8 (a.seq + 1) ++ leBytes 1 (ringStateCode st) ++ List.replicate 47 0 ∧
        t.dev.ring r = { x with completed := a.seq + 1, pend := as, st := st, owed := false } ∧
        (∀ q, q ≠ r → t.dev.ring q = s.dev.ring q) ∧
        (dfield a.desc 8 1 = 0 → t.dev.irqs = s.dev.irqs) ∧
        (dfield a.desc 8 1 = 1 → s.dev.ringVectorOk (ringPart r) (s.dev.ringVector r) = true →
          s.dev.msixPend.contains (s.dev.ringVector r) = false → (s.dev.msixEntry (s.dev.ringVector r)).mask = false →
          t.dev.irqs = s.dev.ringVector r :: s.dev.irqs) ∧
        t.dev.mem = s.dev.mem ∧ t.dev.fences = s.dev.fences ∧ t.fuses = s.fuses ∧ t.pending = s.pending)

/-- Table 10-2 `NOP`, R323 `QUERY`. -/
def Obligations.NopAndQuery : Prop :=
  ∀ (r : Nat) (s : State) (a : Accepted), s.dev.quiet = true →
    (s.dev.starts r 0x00 a →
      (a.desc.toNat >>> 128 = 0 → exec (.ringNop r) s = .next (s.withDev (s.dev.finish r a.seq (Verdict.of 0)))) ∧
      (a.desc.toNat >>> 128 ≠ 0 → exec (.ringNop r) s = .next (s.withDev (s.dev.finish r a.seq (Verdict.of 1))))) ∧
    (s.dev.starts r 0x03 a →
      let addr := dbyte a.desc 16 0 64
      let acc := (s.dev.ctx (ringCtx r)).acc
      (a.desc.toNat >>> 192 ≠ 0 ∨ addr % 64 ≠ 0 →
        exec (.query r) s = .next (s.withDev (s.dev.finish r a.seq (Verdict.of 1)))) ∧
      (a.desc.toNat >>> 192 = 0 → addr % 64 = 0 → s.dev.hostMay true (ringPart r) 64 = true →
        ∃ t, exec (.query r) s = .next t ∧
          t.dev.hostBytes addr (8 * acc.length) = acc.flatMap (leBytes 8) ∧
          (∀ b, b < addr ∨ addr + 8 * acc.length ≤ b → t.dev.host b = s.dev.host b) ∧
          t.dev.ring r = (s.dev.finish r a.seq (Verdict.of 0)).ring r ∧
          t.dev.regs = s.dev.regs ∧ t.dev.mem = s.dev.mem ∧ t.dev.fences = s.dev.fences))

/-- R313, operation by operation; `a` is the descriptor, `f` its fence ID, `k` its context. -/
def Obligations.FenceOperations : Prop :=
  ∀ (r : Nat) (s : State) (a : Accepted), s.dev.quiet = true → s.dev.starts r 0x02 a →
    onlyFields (a.desc.toNat >>> 128) fenceFields = true → s.dev.fenceIn (ringCtx r) (fId a.desc) = true →
    let d := s.dev
    let k := ringCtx r
    let f := fId a.desc
    let y := d.fence f
    let c := ctxNamed k (fCtx a.desc)
    let rest := y.shares.filter fun e => e.ctx ≠ c
    let made : Fence := { value := fValue a.desc, st := .live, owner := k, remote := dbyte a.desc 22 2 1 = 1, shares := [] }
    let granted : Share := { ctx := c, wait := dbyte a.desc 22 0 1 = 1, sig := dbyte a.desc 22 1 1 = 1 }
    (fOp a.desc = 1 → y.st = .free →
      exec (.fenceCreate r) s = .next (s.withDev ((d.setFence f made).finish r a.seq (Verdict.of 0)))) ∧
    (fOp a.desc = 1 → y.st ≠ .free → exec (.fenceCreate r) s = .next (s.withDev (d.finish r a.seq (Verdict.of 8)))) ∧
    (fOp a.desc = 3 → y.st = .live → y.owner = k → 4 ≤ k → c ≠ k → d.ctxOpen c = true → rest.length < 4 →
      exec (.fenceShare r) s = .next (s.withDev ((d.setFence f { y with shares := rest ++ [granted] }).finish r a.seq (Verdict.of 0)))) ∧
    (fOp a.desc = 3 → y.st = .live → (y.owner ≠ k ∨ 4 ≤ rest.length ∨ c = k ∨ d.ctxOpen c = false ∨ k < 4) →
      exec (.fenceShare r) s = .next (s.withDev (d.finish r a.seq (Verdict.of 7)))) ∧
    (fOp a.desc = 4 → y.st = .live → (y.owner = k ∨ (c = k ∧ ∃ e ∈ y.shares, e.ctx = k)) →
      exec (.fenceUnshare r) s = .next (s.withDev ((d.setFence f { y with shares := rest }).finish r a.seq (Verdict.of 0)))) ∧
    (fOp a.desc = 4 → y.st = .live → y.owner ≠ k → (c ≠ k ∨ ∀ e ∈ y.shares, e.ctx ≠ k) →
      exec (.fenceUnshare r) s = .next (s.withDev (d.finish r a.seq (Verdict.of 7)))) ∧
    (fOp a.desc = 2 → y.st = .live → y.owner ≠ k →
      exec (.fenceDestroy r) s = .next (s.withDev (d.finish r a.seq (Verdict.of 7)))) ∧
    (fOp a.desc = 2 → y.st = .live → y.owner = k →
      exec (.fenceDestroy r) s = .next (s.withDev ((((d.loseWaits fun g => g = f).setFence f Fence.reset).finish r a.seq (Verdict.of 0)).settle))) ∧
    (fOp a.desc = 5 → y.st = .live → y.mayWait k = true ∨ y.maySignal k = true →
      exec (.fenceRead r) s = .next (s.withDev (d.finish r a.seq { Verdict.of 0 with info := y.value }))) ∧
    (fOp a.desc = 0 → y.st = .live → y.maySignal k = true → y.value < fValue a.desc →
      exec (.fenceSignal r) s = .next (s.withDev (((d.applySignal f (fValue a.desc)).finish r a.seq (Verdict.of 0)).settle)))

/-- R311, R312, R314, R315: one signal, and the `FENCE` row that carries it. -/
def Obligations.SignalsToFences : Prop :=
  (∀ (d : Dev) (k f v : Nat), let y := d.fence f
    (d.fenceIn k f = false ∨ y.st = .free ∨ (y.st = .live ∧ y.maySignal k = false) → d.signal k f v false = (d, 7)) ∧
    (d.fenceIn k f = true → y.st = .broken →
      (d.signal k f v false).2 = 2 ∧ (d.signal k f v false).1.fences = d.fences ∧
      (d.signal k f v false).1.log.seq = d.log.seq + 1) ∧
    (d.fenceIn k f = true → y.st = .live → y.maySignal k = true → v ≤ y.value →
      (d.signal k f v false).2 = 6 ∧ (d.signal k f v false).1.fences = d.fences ∧
      (d.signal k f v false).1.log.seq = d.log.seq + 1) ∧
    (d.fenceIn k f = true → y.st = .live → y.maySignal k = true → y.value < v →
      (d.signal k f v false).2 = 0 ∧ (d.signal k f v false).1.fence f = { y with value := v } ∧
      ∀ g, g ≠ f → (d.signal k f v false).1.fence g = d.fence g)) ∧
  (∀ (r : Nat) (s : State) (a : Accepted), s.dev.starts r 0x02 a → fOp a.desc = 0 →
    onlyFields (a.desc.toNat >>> 128) fenceFields = true → s.dev.fenceIn (ringCtx r) (fId a.desc) = true →
    let e := s.dev.signal (ringCtx r) (fId a.desc) (fValue a.desc) false
    exec (.fenceSignal r) s = .next (s.withDev ((e.1.finish r a.seq (Verdict.of e.2)).settle)))

/-- R33. -/
def Obligations.StreamKeyInvalid : Prop :=
  ∀ (r : Nat) (s : State) (a : Accepted) (e : WfEpoch), s.dev.quiet = true → s.dev.streamTurn r a e → sCount a.desc ≠ 0 →
    (sKey a.desc = 0 ∨ (s.dev.key (sKey a.desc)).owner ≠ sOwner a.desc) →
    ∃ t, exec (.streamDescriptor r) s = .next t ∧
      t.dev.ring r = (s.dev.finish r a.seq (Verdict.of 0x42)).ring r ∧
      t.dev.hostMem = s.dev.hostMem ∧ t.dev.ctxs = s.dev.ctxs ∧ t.dev.keys = s.dev.keys ∧ t.dev.mem = s.dev.mem ∧
      t.dev.fences = s.dev.fences ∧ t.fuses = s.fuses ∧ t.pending = s.pending

/-- R32, R50, R59, R60 and the counted use of 13 R389. -/
def Obligations.StreamTaken : Prop :=
  ∀ (r : Nat) (s : State) (a : Accepted) (e : WfEpoch), s.dev.quiet = true →
    let d := s.dev
    let p := ringPart r
    let k := sKey a.desc
    let pr := sProfile a.desc
    let taken := (d.setPhase r a.seq .started).setEpoch p (e.setSample (sSample a.desc) (Sample.blank r a.seq a.desc))
    (d.starts r 0x40 a → d.p8 = false → d.fld 0x18000 0 1 = 1 → d.hasEngine p false = true →
      (streamBad a.desc = true → exec (.streamDescriptor r) s = .next (s.withDev (d.finish r a.seq (Verdict.of 1)))) ∧
      (streamBad a.desc = false → a.epoch = none → (d.wf p).ingest ≠ some r →
        exec (.streamDescriptor r) s = .next (s.withDev (d.finish r a.seq (Verdict.of 0x4C)))) ∧
      (∀ n c, streamBad a.desc = false → a.epoch = some (n, c) → c ≤ sSample a.desc →
        exec (.streamDescriptor r) s = .next (s.withDev (d.finish r a.seq (Verdict.of 0x4D)))) ∧
      (∀ n c, streamBad a.desc = false → a.epoch = some (n, c) → sSample a.desc < c →
        (d.wf p).epochs.find? (fun e => e.serial = n) = some e → e.active = true →
        (e.windowIs (sSample a.desc) = .past →
          exec (.streamDescriptor r) s = .next (s.withDev (d.finish r a.seq (Verdict.of 0x48)))) ∧
        (e.windowIs (sSample a.desc) = .later → exec (.streamDescriptor r) s = .next s) ∧
        (e.windowIs (sSample a.desc) = .filling → (e.sample (sSample a.desc)).isSome = true →
          exec (.streamDescriptor r) s = .next (s.withDev (d.finish r a.seq (Verdict.of 0x49)))))) ∧
    (d.streamTurn r a e →
      (sCount a.desc ≠ 0 → d.dataKeyOk p k (sOwner a.desc) = true → d.ownsProfile p pr = true →
        profileOk (e.profiles.getD pr 0) = true → exec (.streamDescriptor r) s = .next (s.withDev (taken.countUse k))) ∧
      (sCount a.desc = 0 → ∃ t, exec (.streamDescriptor r) s = .next t ∧
        t.dev.ring r = (d.finish r a.seq (Verdict.of 0x4A)).ring r ∧ t.dev.keys = d.keys ∧ t.dev.hostMem = d.hostMem) ∧
      (sCount a.desc ≠ 0 → d.dataKeyOk p k (sOwner a.desc) = true →
        d.ownsProfile p pr = false ∨ profileOk (e.profiles.getD pr 0) = false →
        ∃ t, exec (.streamDescriptor r) s = .next t ∧
          t.dev.ring r = (d.finish r a.seq (Verdict.of 0x4B)).ring r ∧ t.dev.hostMem = d.hostMem))

/-- R36 to R38. -/
def Obligations.EpochAccepted : Prop :=
  (∀ (r : Nat) (s : State) (a : Accepted), s.dev.quiet = true → s.dev.starts r 0x41 a → s.dev.p8 = false →
    s.dev.fld 0x18000 0 1 = 1 → s.dev.fld (wfReg (ringPart r) + 8) 0 16 ≠ 0 → s.dev.fld (wfReg (ringPart r) + 0x18) 0 16 ≠ 0 →
    let d := s.dev
    let p := ringPart r
    let ends (c : Nat) : Dev := (d.finish r a.seq (Verdict.of c)).judgeAfter r a.seq
    (epochBad a.desc = true → exec (.epochDescriptor r) s = .next (s.withDev (ends 1).settle)) ∧
    (epochBad a.desc = false → 16777216 < ceilDiv (eN a.desc) (eWin a.desc) →
      exec (.epochDescriptor r) s = .next (s.withDev (ends 0x4D).settle)) ∧
    (epochBad a.desc = false → ceilDiv (eN a.desc) (eWin a.desc) ≤ 16777216 →
      d.fenceIn p (eReady a.desc) = false ∨ d.fenceIn p (eRetire a.desc) = false →
      exec (.epochDescriptor r) s = .next (s.withDev (ends 7).settle)) ∧
    (epochBad a.desc = false → ceilDiv (eN a.desc) (eWin a.desc) ≤ 16777216 → d.fenceIn p (eReady a.desc) = true →
      d.fenceIn p (eRetire a.desc) = true → (d.wf p).epochs = [] → (∀ b ∈ (d.ring r).pend, b.seq ≤ a.seq) →
      ∃ t e, exec (.epochDescriptor r) s = .next t ∧ t.dev.ring r = (d.finish r a.seq (Verdict.of 0)).ring r ∧
        (t.dev.wf p).epochs = [e] ∧ (t.dev.wf p).ingest = some r ∧ e.desc = a.desc ∧ e.active = true ∧
        e.profiles = (List.range 64).map d.profile ∧ e.fir2 = d.taps 0x1A000 ∧ e.fir3 = d.taps 0x1A100 ∧
        e.firstHalf = (d.wf p).nextHalf)) ∧
  (∀ (p : Nat) (s : State) (e f : WfEpoch) (l : List WfEpoch), s.dev.quiet = true → s.dev.servingIn p = true →
    (s.dev.wf p).epochs = e :: f :: l → e.finished = true →
    ∃ t g, exec (.epochTakeEffect p) s = .next t ∧ (t.dev.wf p).epochs = g :: l ∧ g.desc = f.desc ∧ g.active = true ∧
      g.profiles = (List.range 64).map s.dev.profile ∧ g.firstHalf = (s.dev.wf p).nextHalf ∧
      t.dev.mem = s.dev.mem ∧ t.dev.rings = s.dev.rings)

/-- R34, R35, R39, R41, R47, R49: `x` is the sample in decode, `e` its epoch. A chunk that verifies adds its plaintext and, where
the headers are known by it, what they say; one that does not ends the sample; a picture or an audio frame is decoded once
its bytes have arrived. -/
def Obligations.SampleDecoded : Prop :=
  ∀ (p n i : Nat) (s : State) (e : WfEpoch) (x : Sample), s.dev.quiet = true → s.dev.decoding p n = some (e, x) →
    let d := s.dev
    let pr := e.profiles.getD (sProfile x.desc) 0
    (∀ cs, let h := d.hostCells cs
      let fetched := h.hostCount false p (h.chunkCost x)
      let entry := chunkEntry (h.hostBytes (sList x.desc + 16 * x.chunks) 16)
      x.chunks < sCount x.desc → h.fetchOpen p (h.chunkCost x) = true →
      (∀ fs, entry = none → exec (.chunkArrival p n cs fs) s = .next (s.withDev (fetched.endSample p n x 1).settle)) ∧
      (∀ fs a len, entry = some (a, len) →
        openChunk (d.ingestKey (sKey x.desc)) x.desc x.chunks (h.hostBytes a len) = none →
        exec (.chunkArrival p n cs fs) s = .next (s.withDev
          (((fetched.bump (wfReg p + 0x38) 1).record 0 0x0801 .hub 4 (some p) (sOwner x.desc)).endSample p n x 0x41).settle)) ∧
      (∀ a len bs, entry = some (a, len) →
        openChunk (d.ingestKey (sKey x.desc)) x.desc x.chunks (h.hostBytes a len) = some bs →
        let more := { x with chunks := x.chunks + 1, stream := x.stream ++ bs }
        (exec (.chunkArrival p n cs none) s = .next (s.withDev (fetched.sampleCheck p n e more).settle)) ∧
        (∀ f, x.facts.isSome = true →
          exec (.chunkArrival p n cs (some f)) s = .next (s.withDev (fetched.sampleCheck p n e more).settle)) ∧
        (∀ f, x.facts = none → fetched.headerStatus p e x.desc more.stream.length f = none →
          exec (.chunkArrival p n cs (some f)) s = .next (s.withDev (fetched.sampleCheck p n e { more with facts := some f }).settle)) ∧
        (∀ f c, x.facts = none → fetched.headerStatus p e x.desc more.stream.length f = some c →
          exec (.chunkArrival p n cs (some f)) s = .next (s.withDev (fetched.endSample p n more c).settle)))) ∧
    (∀ fr, x.frames[i]? = some fr → (x.plan pr).contains i = true → x.pic i = none → d.hasEngine p false = true →
      fr.stop ≤ x.stream.length →
      (∀ q, x.refsBad (x.plan pr) fr = some false →
        ∃ out, (out = .kept q ∨ out = .decoded) ∧ exec (.pictureDecode p n i (some q)) s = .next (s.withDev
          (((d.bump (wfReg p + 0x20) 1).bump (wfReg p + 0x40) (codedLuma (sVcodec x.desc) fr)).sampleCheck p n e
            { x with pics := x.pics ++ [(i, out)] }).settle)) ∧
      (∀ pic, (x.refsBad (x.plan pr) fr = some true ∨ (x.refsBad (x.plan pr) fr = some false ∧ pic = none)) →
        exec (.pictureDecode p n i pic) s = .next (s.withDev
          ((d.bump (wfReg p + 0x28) 1).sampleCheck p n e { x with pics := x.pics ++ [(i, .dropped)] }).settle))) ∧
    (∀ pcm u, (x.audioPlan pr).contains i = true → (x.audio.any fun a => a.1 = i) = false → d.hasEngine p true = true →
      x.audioFrames[i]? = some u → u.stop ≤ x.stream.length →
      exec (.audioFrameDecode p n i pcm) s =
        .next (s.withDev (d.sampleCheck p n e { x with audio := x.audio ++ [(i, pcm)] }).settle))

/-- R59 to R63. -/
def Obligations.WindowsAndSequences : Prop :=
  ∀ (p : Nat) (s : State) (e : WfEpoch), s.dev.quiet = true → s.dev.epochOf p = some e → s.dev.servingIn p = true →
    let d := s.dev
    let w := d.wf p
    let h := e.half e.fill
    (e.active = true → e.filling = false → e.fill < e.windows → d.halfFree p e h = true →
      exec (.windowFillStart p) s = .next (s.withDev
        ((d.setWf p { (if h = 0 then { w with half0 := some (e.serial, e.fill) } else { w with half1 := some (e.serial, e.fill) }) with
            nextHalf := 1 - h }).setEpoch p { e with filling := true, used := 0 }))) ∧
    (∀ n i x d' u, e.sample n = some x → x.st = .ready → e.filling = true →
      ((List.range (e.count e.fill)).find? fun i => e.sampleAt e.fill i = n) = some i →
      (∀ k, k < i → e.sampleOver (e.sampleAt e.fill k) = true) →
      let pr := e.profiles.getD (sProfile x.desc) 0
      let bs := x.panels pr e.fir2 e.fir3
      let a := e.base + h * e.halfBytes + e.used
      (e.halfBytes < e.used + bs.length →
        exec (.samplePlace p n) s = .next (s.withDev (d.endSample p n x 0x47))) ∧
      let y : SeqEntry :=
        { sample := n, owner := sOwner x.desc, key := sKey x.desc, omitted := x.audioOmitted pr,
          vtokens := x.vtokens pr, atokens := (x.audioKept pr).length, pad := x.padTokens pr, offset := 0, panels := a, half := h }
      (e.used + bs.length ≤ e.halfBytes → d.write (engineReq p (sKey x.desc)) a bs = .ok d' u →
        exec (.samplePlace p n) s = .next (s.withDev
          ((((d'.setEpoch p ({ e with used := e.used + bs.length }.setSample n
              { x.cleared with st := .placed y })).finish x.ring x.seq
            { Verdict.of 0 with info := x.vtokens pr + (x.audioKept pr).length * 2 ^ 32 }).weftAdvance p).settle)))) ∧
    (∀ d' u, e.closeDue = true → w.out.length < 4 →
      let at_ := eRecords e.desc + e.k % 4 * (2 * granuleBytes)
      let key := ((d.regionOf at_).map fun n => (d.region n).key).getD 0
      d.write (engineReq p key) at_ (seqRecord (e.k + 1) e.tokens (e.windows ≤ e.pj) e.cur) = .ok d' u →
      let f := d'.setEpoch p (e.closed.pack (2 * e.samples.length + 2))
      exec (.sequenceClose p) s = .next (s.withDev
        (((((f.setWf p { f.wf p with out := (f.wf p).out ++ [e.ready] }).engineSignal p (eReady e.desc)
          (eBase e.desc + e.k + 1)).1.weftRetire p).notePacker p).settle)))

/-- R195, R206, R208, R317, in that order of checks. -/
def Obligations.MessageArrival : Prop :=
  ∀ (typ port : Nat) (m : Msg) (s : State), s.dev.quiet = true → 1 ≤ typ → typ ≤ 8 → m.typ = typ →
    s.dev.canTake port m = true →
    let d := s.dev.received port m
    let p := m.dest % 4
    let x := d.sh p
    let mine := p < d.parts ∧ d.sliceValid p = true ∧ d.sliceId p = m.slice ∧ d.sourceId p = m.dest
    let open_ := d.ctxOpen p = true ∧ d.fld (shReg p) 41 12 ≠ 0
    (¬ mine → exec (messageRow typ port m) s =
      .next (s.withDev ((d.bump 0x14010 1).record 1 0x0604 .hub 2 none m.slice))) ∧
    (mine → ¬ open_ → exec (messageRow typ port m) s = .next (s.withDev (d.reject p 6 m).settle)) ∧
    (mine → open_ → m.epoch < x.floor → exec (messageRow typ port m) s = .next (s.withDev (d.bump (0x4180 + 0x100 * p) 1))) ∧
    (mine → open_ → x.floor ≤ m.epoch → x.inOrder m = false ∨ msgVerifies (d.rtpPart p).secret m = false →
      exec (messageRow typ port m) s =
        .next (s.withDev (((d.bump (shReg p + 0x40) 1).recordC3 0x0702 p (m.src + m.ch * 2 ^ 19)).settle))) ∧
    (mine → open_ → x.floor ≤ m.epoch → x.inOrder m = true → msgVerifies (d.rtpPart p).secret m = true →
      ∃ e c, s.dev.arrives port typ m e p c ∧ c = { m with payload := msgCrypted (d.rtpPart p).secret m } ∧
      (e.sh p).last m = some (m.cseq, m.epoch) ∧
      e.reg (shReg p + 0x10) = (d.noteIngress p m).reg (shReg p + 0x10) + 1 ∧
      e.mem = (d.noteIngress p m).mem ∧ e.fences = (d.noteIngress p m).fences ∧ e.log = (d.noteIngress p m).log)

/-- Table 07-6, row by row. `e` is the device once the message has been accepted, `c` the message in clear. -/
def Obligations.MessageEffects : Prop :=
  ∀ (port : Nat) (m : Msg) (s : State) (e : Dev) (p : Nat) (c : Msg), s.dev.quiet = true →
    let q := engineReq p c.key
    let v := leNat (c.payload.take 8)
    let f := leNat ((c.payload.drop 8).take 2) % 2 ^ 14
    (s.dev.arrives port 1 m e p c → c.key = 0 → e.restoreUnit p c = none →
      exec (.put port m) s = .next (s.withDev (e.reject p 1 c).settle)) ∧
    (∀ d' u, s.dev.arrives port 1 m e p c → c.key ≠ 0 → e.restoreUnit p c = none →
      e.write q c.addr (c.payload.take (64 * c.len)) = .ok d' u → exec (.put port m) s = .next (s.withDev d'.settle)) ∧
    (∀ d' u x, s.dev.arrives port 1 m e p c → e.restoreUnit p c = some u → e.putUnit p u c.payload = .ok d' x →
      exec (.put port m) s = .next (s.withDev d'.settle)) ∧
    (s.dev.arrives port 2 m e p c → c.key = 0 → exec (.acc port m) s = .next (s.withDev (e.reject p 1 c).settle)) ∧
    (∀ d', s.dev.arrives port 2 m e p c → c.key ≠ 0 → e.grantAll q true (linesOf c.addr (64 * c.len)) = none →
      e.landAcc p c = .landed d' → exec (.acc port m) s = .next (s.withDev d'.settle)) ∧
    (∀ d' gi g si, e.landAcc p c = .landed d' → c.payload.length = 64 * c.len →
      (e.sh p).groups.findIdx? (fun g => g.target ≤ c.addr && c.addr + c.len * 64 ≤ g.target + 16384 * g.units) = some gi →
      (e.sh p).groups[gi]? = some g → g.source c.src = some si → ∀ i < c.len, ∃ g', (d'.sh p).groups[gi]? = some g' ∧
        g'.granule si ((c.addr - g.target) / 64 + i) = if c.eng then .committed else .held c.tile c.serial) ∧
    (s.dev.arrives port 3 m e p c → c.key = 0 → exec (.get port m) s = .next (s.withDev (e.reject p 1 c).settle)) ∧
    (∀ d' bs, s.dev.arrives port 3 m e p c → c.key ≠ 0 → e.read q c.addr (64 * c.len) = .ok d' bs →
      let answer := { Draft.blank with typ := 4, ch := c.ch, dest := c.src, eng := true, len := c.len, reqCtr := c.ctr, payload := bs }
      exec (.get port m) s = .next (s.withDev (d'.send p answer).settle)) ∧
    (s.dev.arrives port 4 m e p c → (e.sh p).rgets.find? (fun g => g.ctr = c.reqCtr) = none →
      exec (.getr port m) s = .next (s.withDev e.settle)) ∧
    (∀ g, s.dev.arrives port 4 m e p c → (e.sh p).rgets.find? (fun g => g.ctr = c.reqCtr) = some g →
      exec (.getr port m) s = .next (s.withDev ((e.takeGet p g.ctr).getrData g c).settle)) ∧
    (s.dev.arrives port 5 m e p c → e.admitsRemote p f = true → c.eng = true →
      exec (.signal port m) s = .next (s.withDev (e.remoteSignal p f v).settle)) ∧
    (s.dev.arrives port 5 m e p c → e.admitsRemote p f = true → c.eng = false →
      exec (.signal port m) s = .next (s.withDev (e.modPick p c fun x => { x with sigs := x.sigs ++ [(f, v)] }).settle)) ∧
    (∀ d' x, s.dev.arrives port 6 m e p c →
      d' = (e.markHeld p c .committed).modPick p c (fun x => { x with chans := insNat c.ch x.chans }) →
      (d'.sh p).rx.find? (·.is c) = some x →
      (x.chans.length ≠ 16 → exec (.commit port m) s = .next (s.withDev d'.settle)) ∧
      (x.chans.length = 16 → exec (.commit port m) s = .next (s.withDev
        ((d'.setSh p { d'.sh p with rx := (d'.sh p).rx.filter fun y => !y.is c }).remoteSignals p x.sigs).settle))) ∧
    (∀ d', s.dev.arrives port 7 m e p c → d' = e.markHeld p c .empty →
      exec (.retract port m) s = .next (s.withDev
        ((d'.setSh p { d'.sh p with rx := (d'.sh p).rx.filter fun y => !y.is c }).bump (shReg p + 0x30) 1).settle)) ∧
    (s.dev.arrives port 8 m e p c → ((e.pl p).stripes.any fun x => x.2 = c.reqCtr) = false →
      exec (.reject port m) s = .next (s.withDev (e.recordC3 0x0704 p (c.status + c.reqCtr * 2 ^ 8)).settle))

/-- R192. -/
def Obligations.ReservedMessage : Prop :=
  ∀ (port : Nat) (m : Msg) (s : State), s.dev.quiet = true → s.dev.linkOpen port = true →
    bits m.route 0 17 = s.dev.here.toNat → m.typ = 0 ∨ 8 < m.typ →
    ∃ t, exec (.reservedMessageType port m) s = .next t ∧ t.dev.log = s.dev.log.push (s.dev.newEntry 1 0x0701 .port port none m.src) ∧
      t.dev.shuttle = (s.dev.frameOn port).shuttle ∧ t.dev.mem = s.dev.mem ∧ t.dev.fences = s.dev.fences ∧ t.dev.rings = s.dev.rings ∧
      t.fuses = s.fuses ∧ t.pending = s.pending

/-- R185, R209, R210, R215, 10 R322. -/
def Obligations.ForwardAndCount : Prop :=
  (∀ (port : Nat) (m : Msg) (s : State), s.dev.quiet = true → s.dev.linkOpen port = true →
    bits m.route 0 17 ≠ s.dev.here.toNat →
    (∀ n, s.dev.nextHop (Coord.ofNat (bits m.route 0 17)) = some n →
      (s.dev.mayGo n none (msgWire m) = false → exec (.messageForward port m) s = .next s) ∧
      (s.dev.mayGo n none (msgWire m) = true → n ≠ 8 →
        ∃ t, exec (.messageForward port m) s = .next t ∧ t.dev.shuttle.tx = s.dev.shuttle.tx ++ [(n, s.dev.onLink n m)] ∧
          t.dev.reg 0x14018 = s.dev.reg 0x14018 + BitVec.ofNat 64 (msgWire m) ∧
          t.dev.usedBytes (transitKey n) = s.dev.usedBytes (transitKey n) + msgWire m ∧
          t.dev.mem = s.dev.mem ∧ t.dev.tiles = s.dev.tiles ∧ t.dev.ctxs = s.dev.ctxs ∧ t.dev.log = s.dev.log)) ∧
    (s.dev.nextHop (Coord.ofNat (bits m.route 0 17)) = none →
      ∃ t, exec (.messageForward port m) s = .next t ∧ t.dev.shuttle.held = s.dev.shuttle.held ++ [(none, m)] ∧
        t.dev.log = s.dev.log.push (s.dev.newEntry 2 0x0603 .port port none (bits m.route 0 17)) ∧ t.dev.mem = s.dev.mem)) ∧
  (∀ (p : Nat) (s : State), s.dev.quiet = true →
    ((s.dev.sh p).ctr < 2 ^ 36 → exec (.trafficEpochRoll p) s = .next s) ∧
    (2 ^ 36 ≤ (s.dev.sh p).ctr →
      ∃ t, exec (.trafficEpochRoll p) s = .next t ∧
        t.dev.sh p = { s.dev.sh p with ctr := 0, epoch := (s.dev.sh p).epoch + 1 } ∧
        t.dev.fld (shReg p + 0x48) 0 32 = ((s.dev.sh p).epoch + 1) % 2 ^ 32 ∧ t.dev.mem = s.dev.mem)) ∧
  (∀ (n k c : Nat) (s : State), s.dev.quiet = true → s.dev.on = true → n < 8 → (s.dev.port n).st ≠ .down → (s.dev.port n).st ≠ .fenced →
    ∃ t, exec (.linkRetransmit n ⟨k, c⟩) s = .next t ∧ t.dev.reg (portReg n + 0x18) = s.dev.reg (portReg n + 0x18) + BitVec.ofNat 64 k ∧
      t.dev.reg (portReg n + 0x10) = s.dev.reg (portReg n + 0x10) + BitVec.ofNat 64 c ∧
      (∀ o, o ≠ portReg n + 0x18 → o ≠ portReg n + 0x10 → t.dev.reg o = s.dev.reg o) ∧ t.dev.shuttle = s.dev.shuttle)

/-- R186, R187, R188, R217. -/
def Obligations.PortsAndFrames : Prop :=
  (∀ (n : Nat) (s : State), s.dev.quiet = true → n < 8 →
    let d := s.dev
    let x := d.port n
    (d.takesWrite (portReg n) → d.fld (portReg n) 0 1 = 0 → d.power.booted = true → d.power.fatal = false →
      portAbsent d.torus n = false → d.fenced .port n = false → d.power.st ≠ .held → x.st = .down →
      ∃ t, exec (.portEnable n) s = .next t ∧ t.dev.fld (portReg n) 0 1 = 1 ∧ (t.dev.port n).st = .training ∧
        (t.dev.port n).phase = 0 ∧ (t.dev.port n).cable = 0 ∧ ∀ q, q ≠ n → t.dev.port q = d.port q) ∧
    (d.takesWrite (portReg n) → d.fld (portReg n) 0 1 = 1 → x.st ≠ .fenced →
      ∃ t, exec (.portDisable n) s = .next t ∧ t.dev.fld (portReg n) 0 1 = 0 ∧ (t.dev.port n).st = .down ∧
        (t.dev.port n).lanes = 0 ∧ ∀ q, q ≠ n → t.dev.port q = d.port q) ∧
    (d.mayTrain n = true → x.st = .training →
      (x.phase < 4 → exec (.portTrainingPhase n .completed) s = .next (s.withDev (d.setPort n { x with phase := x.phase + 1 }))) ∧
      (∀ c q, x.phase = 4 → exec (.portTrainingPhase n (.verified c q)) s =
        .next (s.withDev (d.setPort n { x with
          phase := 5, mgmtKey := x.mgmtKey + 1, keyed := true, txCtr := 0, rxCtr := none, seen := some (c, q) }))) ∧
      (∃ t, exec (.portTrainingPhase n .timedOut) s = .next t ∧
        t.dev.port n = { x with st := .down, cable := phaseCode x.phase, phase := 0, retryAt := some (d.now + 100000000) } ∧
        t.dev.log.seq = d.log.seq + 1)) ∧
    (∀ at_, x.retryAt = some at_ → d.mayTrain n = true → x.st = .down →
      (d.now < at_ → exec (.trainingRetry n) s = .next s) ∧
      (at_ ≤ d.now → ∃ t, exec (.trainingRetry n) s = .next t ∧
        t.dev.port n = { x with st := .training, phase := 0, cable := 0, seen := none, partner := 0, retryAt := none }))) ∧
  (∀ (n c : Nat) (s : State), s.dev.quiet = true → s.dev.on = true →
    let d := s.dev
    let x := d.port n
    (d.managed n = false → exec (.mgmtHeartbeat n) s = .next s ∧ exec (.mgmtFrame n c) s = .next s ∧
      exec (.neighbourLost n) s = .next s ∧ exec (.mgmtRekey n) s = .next s) ∧
    (d.managed n = true →
      (x.txCtr + 1 < 2 ^ 40 → exec (.mgmtHeartbeat n) s =
        .next (s.withDev (d.setPort n { x with txCtr := x.txCtr + 1, lastSent := d.now }))) ∧
      (x.rxCtr = none ∨ (∃ l, x.rxCtr = some l ∧ l < c) → exec (.mgmtFrame n c) s =
        .next (s.withDev (d.setPort n { x with rxCtr := some c, lastFrame := d.now }))) ∧
      (∀ l, x.rxCtr = some l → c ≤ l → exec (.mgmtFrame n c) s = .next (s.withDev (d.record 1 0x0605 .port n none c))) ∧
      (d.now < x.lastFrame + 2000000 → exec (.neighbourLost n) s = .next s) ∧
      (x.lastFrame + 2000000 ≤ d.now →
        ∃ t, exec (.neighbourLost n) s = .next t ∧ t.dev.port n = { x with st := .down, lanes := 0, phase := 0 } ∧
          t.dev.log.seq = d.log.seq + 1 ∧ t.dev.mem = d.mem) ∧
      (exec (.mgmtRekey n) s = .next (s.withDev
        (d.setPort n { x with mgmtKey := x.mgmtKey + 1, keyed := true, txCtr := 0, rxCtr := none })))))

/-- R189. -/
def Obligations.CablingCheck : Prop :=
  ∀ (n c q : Nat) (s : State), s.dev.quiet = true → s.dev.mayTrain n = true → (s.dev.port n).st = .training →
    (s.dev.port n).phase = 5 → (s.dev.port n).seen = some (c, q) →
    let d := s.dev
    let want := ((neighbour d.torus d.here n).toNat, facing n)
    ∃ t, exec (.portTrainingPhase n .completed) s = .next t ∧
      ((c, q) = want → (t.dev.port n).cable = 1 ∧ (t.dev.port n).st = .up ∧ t.dev.log = d.log) ∧
      ((c, q) ≠ want →
        ((t.dev.port n).cable = 5 ∨ (t.dev.port n).cable = 6 ∨ (t.dev.port n).cable = 7) ∧
        ((t.dev.port n).cable = 5 → c ≠ want.1) ∧ ((t.dev.port n).cable = 6 → c = want.1 ∧ q ≠ want.2) ∧
        ((t.dev.port n).cable = 7 → ∃ o, o ≠ n ∧ (t.dev.port n).partner = o ∧ (c, q) = d.expects o ∧ (d.port o).seen = some want) ∧
        (t.dev.port n).st = (if d.fld (portReg n) 1 1 = 1 then .up else .quarantined) ∧
        ∃ g, d.log.push (d.newEntry 1 0x0602 .port n none ((t.dev.port n).cable + c * 2 ^ 4)) = g ∧
          (t.dev.log = g ∨ (t.dev.port n).cable = 7 ∧ t.dev.log.seq = g.seq + 1))

/-- R210, R212. -/
def Obligations.SliceTables : Prop :=
  (∀ (i : Nat) (v : BitVec 32) (s : State), s.dev.quiet = true → i < 256 → s.dev.takesWrite (0x14200 + 4 * i) →
    ∃ t, exec (.holeListWrite i v) s = .next t ∧ (∀ f ∈ [(0, 17), (17, 3), (20, 1), (21, 1)], t.dev.fld (0x14200 + 4 * i) f.1 f.2 = bits v.toNat f.1 f.2) ∧
     
      (∀ o, o ≠ 0x14200 + 4 * i → t.dev.reg o = s.dev.reg o) ∧ t.dev.mem = s.dev.mem ∧ t.dev.log = s.dev.log) ∧
  (∀ (p i : Nat) (v : BitVec 32) (s : State), s.dev.quiet = true → p < 4 → i < 64 → s.dev.takesWrite (0x14700 + 0x200 * p + 4 * i) →
    ∃ t, exec (.substitutionWrite p i v) s = .next t ∧ (∀ f ∈ [(0, 17), (17, 5), (22, 1)], t.dev.fld (0x14700 + 0x200 * p + 4 * i) f.1 f.2 = bits v.toNat f.1 f.2) ∧
     
      (∀ o, o ≠ 0x14700 + 0x200 * p + 4 * i → t.dev.reg o = s.dev.reg o) ∧ t.dev.mem = s.dev.mem ∧ t.dev.log = s.dev.log) ∧
  (∀ (p : Nat) (v : Word64) (s : State), s.dev.quiet = true → p < 4 → s.dev.takesWrite (sliceReg p) →
    (s.dev.partOpen p = false → ∃ t, exec (.sliceEntryWrite p 0 v) s = .next t ∧ (∀ f ∈ [(0, 12), (12, 1)], t.dev.fld (sliceReg p) f.1 f.2 = bits v.toNat f.1 f.2) ∧
     
      (∀ o, o ≠ sliceReg p → t.dev.reg o = s.dev.reg o) ∧ t.dev.mem = s.dev.mem ∧ t.dev.log = s.dev.log) ∧
    (s.dev.partOpen p = true → ∃ t, exec (.sliceEntryWrite p 0 v) s = .next t ∧ t.dev.regs = s.dev.regs ∧
      t.dev.log.seq = s.dev.log.seq + 1))

/-- R202, and the opening of R201. -/
def Obligations.LandingOpened : Prop :=
  ∀ (r : Nat) (s : State) (a : Accepted), s.dev.quiet = true → s.dev.starts r 0x50 a → s.dev.p8 = false →
    let d := s.dev
    let p := ringPart r
    let k := ringCtx r
    let g := landingGroup k a.desc
    let n := dbyte a.desc 28 0 7
    let free := (d.sh p).groups.length < 64 ∧ (d.sh p).groups.any g.overlaps = false
    let granted := d.rangeAccess (engineReq k g.tkey) true g.target (16384 * g.units) = true ∧
      d.rangeAccess (engineReq k g.zkey) true g.zone (n * g.units * 17408) = true
    let list := d.read (engineReq k (dbyte a.desc 48 41 12)) (dbyte a.desc 48 0 41) (4 * n)
    let sound (l : List Nat) : Prop := ascending l = true ∧ (∀ v ∈ l, v < 2 ^ 19) ∧ d.sourceId p ∉ l
    let ends (st : Nat) : Prop := ∃ e : Dev, exec (.landing r) s = .next (s.withDev (e.finish r a.seq (Verdict.of st)).settle) ∧
      (e.sh p).groups = (d.sh p).groups
    (landingBad a.desc g = true → ends 0x71) ∧
    (landingBad a.desc g = false → ¬ free → ends 0x72) ∧
    (landingBad a.desc g = false → free → ¬ granted → ends 0x73) ∧
    (∀ e w, landingBad a.desc g = false → free → granted → list = .fail e w → ends 0x73) ∧
    (∀ e bs, landingBad a.desc g = false → free → granted → list = .ok e bs →
      (¬ sound (leWords 4 bs) → ends 0x71) ∧
      (sound (leWords 4 bs) → ∃ f : Dev, exec (.landing r) s = .next (s.withDev (f.finish r a.seq (Verdict.of 0)).settle) ∧
        (f.sh p).groups = (d.sh p).groups ++ [{ g with sources := leWords 4 bs }]))

/-- R204. -/
def Obligations.LandingMerged : Prop :=
  ∀ (p gi u : Nat) (s : State) (g : LzGroup), s.dev.quiet = true → (s.dev.sh p).groups[gi]? = some g → s.dev.servingIn p = true →
    (g.complete u = false → exec (.landingMerge p gi u) s = .next s) ∧
    (∀ e zs e' t e'' x, u < g.units → g.merged.contains u = false → g.complete u = true →
      s.dev.readZones g u (List.range g.sources.length) = .ok e zs →
      (if g.mode = 0 then e.read (engineReq g.ctx g.tkey) (g.target + 16384 * u) 16384 else .ok e []) = .ok e' t →
      e'.write (engineReq g.ctx g.tkey) (g.target + 16384 * u) (mergeSum g.mode t zs) = .ok e'' x →
      exec (.landingMerge p gi u) s = .next (s.withDev (e''.mergedUnit p gi u).settle))

/-- R298, R299, R301. `e` is the device after the table was read. -/
def Obligations.DispatchBegins : Prop :=
  ∀ (r : Nat) (s : State) (a : Accepted), s.dev.quiet = true → s.dev.starts r 0x01 a → s.dev.fld 0x20000 0 1 = 1 →
    let k := ringCtx r
    let x := a.desc
    let table := s.dev.read (tileReq k (dbyte x 16 41 12)) (dbyte x 16 0 41) (16 * (rectangle x).length)
    let parts (bs : List Byte) := ((rectangle x).zip (chunksOf 16 1024 bs)).mapM fun e => dispatchEntry e.1 e.2
    (s.dev.dispatchBad k x = true →
      exec (.dispatch r) s = .next (s.withDev (s.dev.finish r a.seq (Verdict.of 1)))) ∧
    (∀ e w, s.dev.dispatchBad k x = false → table = .fail e w →
      exec (.dispatch r) s = .next (s.withDev (e.finish r a.seq (tableFailure x w)).settle)) ∧
    (∀ e bs, s.dev.dispatchBad k x = false → table = .ok e bs → parts bs = none →
      exec (.dispatch r) s = .next (s.withDev (e.finish r a.seq (Verdict.of 1)).settle)) ∧
    (∀ e bs es, s.dev.dispatchBad k x = false → table = .ok e bs → parts bs = some es → es.flatten ≠ [] →
      (∀ p ∈ es.flatten, e.physOf p.tile ≠ none) → (∀ y ∈ e.dispatches, ∃ p ∈ y.parts, p.out.isOver = false) →
      ∃ f : Dev, exec (.dispatch r) s = .next (s.withDev f.settle) ∧
        f.dispatches = e.dispatches ++ [{ ring := r, seq := a.seq, ctx := k, parts := es.flatten }] ∧
        (∀ p ∈ es.flatten, ∃ q ∈ (f.lt p.tile).slots ++ (f.lt p.tile).queue,
          q.ring = r ∧ q.seq = a.seq ∧ q.ctx = k ∧ q.list = p.list ∧ q.key = p.key ∧ q.op = 0) ∧
        f.mem = e.mem)

/-- R96, R98, R301, R305; 10 R304: what an abandoned pick still has to restore comes first. -/
def Obligations.PickStarts : Prop :=
  ∀ (l : Nat) (s : State), s.dev.quiet = true →
    let d := s.dev
    let x := d.lt l
    let best := d.nextSlot l 0
    (x.undo = none → d.tileReady l = false → exec (.pickStart l) s = .next s) ∧
    (x.undo = none → d.p8 = false → best = none → exec (.pickStart l) s = .next s) ∧
    (∀ u e r, x.undo = some u → d.unaside u.ctx l u.lines = (e, r) → r ≠ [] →
      exec (.pickStart l) s = .next (s.withDev (e.setLt l { e.lt l with undo := some { u with lines := r } }).settle)) ∧
    (∀ i y e cp, d.p8 = false → d.tileReady l = true → best = some i → x.slots[i]? = some y →
      d.cutOps y.ctx y.list y.key 65537 y.op y.unit Cut.empty = (e, cp) →
      (cp.cut.pieces ≠ [] → ∃ (f : Dev) (k : Pick), exec (.pickStart l) s = .next (s.withDev f.settle) ∧
        (f.lt l).pick = some k ∧ k.slot = i ∧ k.pieces = cp.cut.pieces ∧ k.serial = ((e.lt l).serial + 1) % 2 ^ 16 ∧
        k.nextOp = cp.op ∧ k.nextUnit = cp.unit ∧ k.sets0 = (e.lt l).sets ∧ k.segs0 = (e.lt l).segs ∧
        k.base0 = (e.lt l).base ∧ k.step0 = (e.lt l).step ∧ k.shadow = [] ∧ k.sigs = [] ∧
        (k.reserved = true ↔ e.inPlaceLines cp.cut = []) ∧ (f.lt l).store = (e.lt l).store ∧ f.mem = e.mem) ∧
      (∀ n v, cp.cut.pieces = [] → cp.close = .fwait n v → (e.lt l).slots = x.slots →
        ∃ f : Dev, exec (.pickStart l) s = .next (s.withDev f.settle) ∧ (f.lt l).pick = (e.lt l).pick ∧
          (f.lt l).slots = modifyAt (fun s => { s with op := cp.op, unit := 0, wait := some (n, v) }) x.slots i)) ∧
    (∀ p k, x.pick = some p → d.runCtx l = some k → p.reserved = false →
      (d.asideArea k < d.asideUsed k + p.asideBytes → exec (.writeAsideReserve l) s = .next s) ∧
      (d.asideUsed k + p.asideBytes ≤ d.asideArea k → ∃ t, exec (.writeAsideReserve l) s = .next t ∧
        (t.dev.lt l).pick = some { p with reserved := true } ∧ t.dev.asideUsed k = d.asideUsed k + p.asideBytes ∧
        t.dev.reg (0x4188 + 0x100 * ctxPart k) = d.reg (0x4188 + 0x100 * ctxPart k) + BitVec.ofNat 64 (d.now - p.askedAt))) ∧
    (∀ y n v, d.servingIn (tilePart d.parts l) = true → x.pick = none → x.replay = none → x.slots = [y] → y.wait = some (n, v) →
      (d.waitFence y.ctx n v = .ready → ∃ t, exec (.fwait l) s = .next t ∧
        (t.dev.lt l).slots = [{ y with op := y.op + 1, unit := 0, wait := none }] ∧ t.dev.fences = d.fences) ∧
      (d.waitFence y.ctx n v = .notYet → ∃ t, exec (.fwait l) s = .next t ∧ (t.dev.lt l).slots = [y] ∧ t.dev.fences = d.fences))

/-- R68, R102, R104; `opRows` lists the rows with the opcodes of Table 03-9. -/
def Obligations.OpRuns : Prop :=
  ∀ (row : Nat × (Nat → Instr)) (l : Nat) (s : State), s.dev.quiet = true → row ∈ opRows →
    let d := s.dev
    ((d.lt l).pick = none → exec (row.2 l) s = .next s) ∧
    (∀ p k q qs, (d.lt l).pick = some p → d.runCtx l = some k → p.pieces = q :: qs →
      (oCode q.desc ≠ row.1 → exec (row.2 l) s = .next s) ∧
      (oCode q.desc = row.1 → d.mayRun k l p = true →
        (∀ e u, d.runUnits k l q.op q.desc q.count q.first = .ok e u →
          exec (row.2 l) s = .next (s.withDev (e.modPickOf l fun p => { p with pieces := qs }).settle)) ∧
        (∀ e st, d.runUnits k l q.op q.desc q.count q.first = .fail e st →
          ((e.lt l).pick.bind Pick.suspect = none → exec (row.2 l) s = .next (s.withDev (e.failPick l st q.op).settle)) ∧
          (∀ c, (e.lt l).pick.bind Pick.suspect = some c → exec (row.2 l) s = .next (s.withDev (e.suspect l c).settle))) ∧
        (d.runUnits k l q.op q.desc q.count q.first = .hold → exec (row.2 l) s = .next s)))

/-- Table 03-9's effects, unit by unit. -/
def Obligations.OpUnits : Prop :=
  (∀ (d : Dev) (k l op u : Nat) (x : OpDesc), d.fld 0x8060 63 1 = 0 →
    let i := unitI x u
    let j := unitJ x u
    (∀ e a, d.readA k l x .fp32 i j = .ok e a → e.fld 0x8060 63 1 = 0 →
      (oCode x = 0x11 → d.runUnit k l op x u = e.putWhole k l x i j (mapPanel (vec1Op (oSub x) (dec32 (oImm x))) a)) ∧
      (oCode x = 0x20 → ∀ t, (d.lt l).set_ (oSub x) = some t →
        d.runUnit k l op x u = e.putWhole k l x i j (mapPanel ((e.lt l).tableAt t false) a)) ∧
      (∀ f b, e.readB k l x i j = .ok f b → f.fld 0x8060 63 1 = 0 →
        (oCode x = 0x10 → d.runUnit k l op x u = f.putWhole k l x i j (zipPanels (vec2Op (oSub x)) a b)) ∧
        (oCode x = 0x21 → ∀ t, (d.lt l).set_ (oSub x) = some t → d.runUnit k l op x u =
          f.putWhole k l x i j (zipPanels (fun v w => rn32 (((f.lt l).tableAt t true v).mul w)) a b)) ∧
        (oCode x = 0x12 → ∀ g c, f.readPanel k l (oD x) (fmtOf (oFmtD x)) (oBsz x) .fp32 false (oMp x) (oNp x) i j = .ok g c →
          g.fld 0x8060 63 1 = 0 → d.runUnit k l op x u = g.putWhole k l x i j
            (List.zipWith (fun (p : List (FV × FV)) (r : List FV) => List.zipWith (fun e z => rn32 ((e.1.mul e.2).add z)) p r)
              (List.zipWith List.zip a b) c)))) ∧
    (∀ e a, oCode x = 0x40 → d.readA k l x .move i j = .ok e a → e.fld 0x8060 63 1 = 0 →
      d.runUnit k l op x u = e.putWhole k l x i j a) ∧
    (oCode x = 0x41 → d.runUnit k l op x u = d.putWhole k l x i j (List.replicate 64 (List.replicate 64 (dec32 (oImm x))))) ∧
    ((oCode x = 0x20 ∨ oCode x = 0x21) → (d.lt l).set_ (oSub x) = none → d.runUnit k l op x u = .fail d 0x54) ∧
    (∀ e h t f bs, oCode x = 0x22 → d.readAt k l (oA x) (oA x).addr 64 = .ok e h → tableHeader h = some t →
      e.readAt k l (oA x) ((oA x).addr + 64) (32 * t.count) = .ok f bs →
      ((chunksOf 16 (2 * t.count) bs).map tableEntry).any Option.isNone = false →
      ∃ g, d.runUnit k l op x u = .ok g () ∧ (g.lt l).set_ (oSub x) = some t ∧ (g.lt l).store = (f.lt l).store) ∧
    (oCode x = 0x70 → ∃ e, d.runUnit k l op x u = .ok e () ∧
      e.lt l = { d.lt l with base := oFval x % 2 ^ 48, step := oImm x } ∧ ∀ m, m ≠ l → e.lt m = d.lt m) ∧
    (oCode x = 0x61 → d.signalOk k (oFence x) = true →
      d.runUnit k l op x u = .ok (d.modPickOf l fun p => { p.hold (.sig (oFence x) (oFval x)) with sigs := p.sigs ++ [(oFence x, oFval x)] }) ()) ∧
    (oCode x = 0x61 → d.signalOk k (oFence x) = false → d.runUnit k l op x u = .fail d 7) ∧
    (∀ p, oCode x = 0x53 → d.canSend k x = true → (d.lt l).pick = some p → ∃ e q, d.runUnit k l op x u = .ok e () ∧
      (e.lt l).pick = some q ∧ oDest x ∈ q.all16 ∧ e.mem = d.mem ∧ e.fences = d.fences) ∧
    ((oCode x = 0x50 ∨ oCode x = 0x51 ∨ oCode x = 0x52 ∨ oCode x = 0x53) → d.canSend k x = false →
      d.runUnit k l op x u = .fail d 0x57) ∧
    ((oCode x = 0x00 ∨ oCode x = 0x7F) → d.runUnit k l op x u = .ok d ())) ∧
  (∀ (c : Carry) (t : Fmt) (mask : List Bool) (a bt : List (List FV)) (r k : Nat), a.length = 64 → bt.length = 64 →
    r < 64 → k < 64 →
    let x : AccEl := { acc := (c.acc.getD r []).getD k FV.zero, tau := (c.tau.getD r []).getD k FV.zero,
                       sat := (c.satEl.getD r []).getD k false }
    let ps := List.zipWith FV.mul (a.getD r []) (bt.getD k [])
    let y := ((c.step t mask a bt).acc.getD r []).getD k FV.zero
    (t.isInt = true → y = (ps.foldl addInt x).acc) ∧
    (t.isInt = false → y = (addGroup (windowQ (rateClass t)) (addGroup (windowQ (rateClass t)) x (ps.take 32)) (ps.drop 32)).acc))

/-- R101: the copy of a line's committed value at its first write is enough to undo the pick. -/
def Obligations.AbandonRestores : Prop :=
  (∀ (l : Nat) (d : Dev) (p : Pick), (d.lt l).pick = some p → p.shadow = [] → d.covers d l) ∧
  (∀ (l t a : Nat) (bs : List Byte) (c d e : Dev) (u : Unit), c.covers d l → d.storeWrite l t a bs = .ok e u → c.covers e l) ∧
  (∀ (l : Nat) (c d : Dev) (p : Pick), c.covers d l → (d.lt l).pick = some p →
    ∀ t a, Sparse.get (fun _ => 0) ((d.unshadow p.shadow).lt t).store a = Sparse.get (fun _ => 0) (c.lt t).store a)

/-- R100, R303; R259, R262, and R263 items 1 and 2 for a suspect pick. -/
def Obligations.PickCommits : Prop :=
  ∀ (l : Nat) (s : State) (p : Pick) (k : Nat) (y : Slot), s.dev.quiet = true → (s.dev.lt l).pick = some p →
    s.dev.runCtx l = some k → (s.dev.lt l).slots = [y] → p.slot = 0 →
    let d := s.dev
    (∀ e, p.pieces ≠ [] ∨ d.mayRun k l p = false → exec (.pickCommit l e) s = .next s) ∧
    (∀ e, p.pieces = [] → d.mayRun k l p = true → d.causeOf (ctxPart k) p e = none → p.sent = [] → p.all16 = [] → p.close = .bound →
      ∃ f : Dev, exec (.pickCommit l e) s = .next (s.withDev f.settle) ∧ (f.lt l).pick = none ∧
        (f.lt l).store = (d.lt l).store ∧ (f.lt l).sets = (d.lt l).sets ∧ (f.lt l).base = (d.lt l).base ∧
        (f.lt l).slots = [y.after p] ∧ f.mem = d.mem ∧ f.shuttle = d.shuttle ∧
        f.asideUsed k = d.asideUsed k - p.asideBytes ∧
        (p.sigs = [] → f.fences = d.fences ∧ f.reg (0x20108 + 0x40 * ctxPart k) = d.reg (0x20108 + 0x40 * ctxPart k) + 1) ∧
        (∀ n v, p.sigs = [(n, v)] → (d.fence n).st = .live → (d.fence n).maySignal k = true → d.fenceIn k n = true →
          (d.fence n).value < v → (f.fence n).value = v ∧ ∀ m, m ≠ n → f.fence m = d.fence m)) ∧
    (∀ e c a, p.pieces = [] → d.mayRun k l p = true → d.causeOf (ctxPart k) p e = some c → d.physOf l = some a →
      ∃ (f : Dev) (r : Replay), exec (.pickCommit l e) s = .next (s.withDev f.settle) ∧ (f.lt l).pick = none ∧
        (f.lt l).replay = some r ∧ r.first = a ∧ r.runs = [] ∧ r.on ≠ [] ∧ r.pick.suspect = some c ∧ r.pick.pieces = p.whole) ∧
    (∀ e, p.suspect = none → ((∃ c, d.causeOf (ctxPart k) p (some e) = some c) ↔ d.sees (ctxPart k) p e = true)) ∧
    (∀ r n, r < 64 → d.fld (0x8100 + 0x80 * ctxPart k) 0 2 = n → n < 3 →
      (d.sees (ctxPart k) p (.spot r) = true ↔ (∃ x ∈ p.whole, spotOp (oCode x.desc) = true) ∧ (r + p.serial) % (64 / 2 ^ n) = 0))

/-- R263 items 3 to 6, R264, R266, R79, R80. -/
def Obligations.ReplayAndReplacement : Prop :=
  (∀ (l : Nat) (s : State) (w : RunFault), s.dev.quiet = true →
    let d := s.dev
    ((d.lt l).replay = none → exec (.pickReplayEnd l w) s = .next s) ∧
    (∀ r y t n ts, (d.lt l).replay = some r → (d.lt l).slots[r.pick.slot]? = some y → r.on = (t, n) :: ts →
      (d.lt l).undo = none →
      d.servingIn (ctxPart y.ctx) = true → (d.ctx y.ctx).st = .opened → d.inDispatch y = true →
      (d.awaitsGet y.ctx l n = true → exec (.pickReplayEnd l w) s = .next s) ∧
      (∀ e x, d.awaitsGet y.ctx l n = false → d.replayRun y.ctx l r t n w = some (e, x) →
        let q := { r with runs := r.runs ++ [x], on := ts }
        let g := e.setLt l { e.lt l with replay := some q }
        (r.runs = [] → ts ≠ [] → exec (.pickReplayEnd l w) s = .next (s.withDev g.settle)) ∧
        (∀ b v, r.runs = [b] → b.fin = .passed v → x.fin = .passed v →
          (∀ h, g.replayCommit y.ctx l q y b = some h → exec (.pickReplayEnd l w) s = .next (s.withDev h.settle)) ∧
          (g.replayCommit y.ctx l q y b = none → exec (.pickReplayEnd l w) s = .next s)) ∧
        (∀ b o st, r.runs = [b] → b.fin = .refusedAt o st → x.fin = .refusedAt o st →
          exec (.pickReplayEnd l w) s = .next (s.withDev (g.replayFailed l q st o).settle)) ∧
        (ts = [] → (r.runs = [] ∨ ∃ b, r.runs = [b] ∧ agree b.fin x.fin = false) → ∃ (f : Dev) (k : Replay) (v m : Nat),
          exec (.pickReplayEnd l w) s = .next (s.withDev f.settle) ∧ (f.lt l).replay = some k ∧ k.runs = q.runs ∧ k.on = [(v, m)]) ∧
        (∀ b c, r.runs = [b, c] → ts = [] → agree b.fin c.fin = false → agree b.fin x.fin = false → agree c.fin x.fin = false →
          exec (.pickReplayEnd l w) s = .next (s.withDev (g.unresolved y.ctx l q).settle))))) ∧
  (∀ (d e : Dev) (k l t a : Nat) (o : Opnd) (bs : List Byte) (u : Unit), d.holds l = true → o.loc ≠ 1 → t ≠ l →
    d.writeAt k l t o a bs = .ok e u → e.mem = d.mem ∧ (e.lt l).store = (d.lt l).store ∧ ∀ m, m ≠ l → e.lt m = d.lt m) ∧
  (∀ (d : Dev) (k l : Nat) (x : OpDesc) (w : Draft), d.holds l = true →
    (d.tileSend k l x w).shuttle = d.shuttle ∧ (d.tileSend k l x w).used = d.used) ∧
  (∀ (t l : Nat) (readable : Bool) (s : State), s.dev.quiet = true → s.dev.logicalOf t = some l →
    let d := s.dev
    (d.leavingFor t = 0 ∨ (d.lt l).pick ≠ none ∨ (d.lt l).replay ≠ none → exec (.tileReplace t readable) s = .next s) ∧
    (∀ n, d.spareFor t = some n → d.takesSpare t n = false → exec (.tileReplace t readable) s = .next s) ∧
    (∀ n, d.leavingFor t ≠ 0 → (d.lt l).pick = none → (d.lt l).replay = none → d.spareFor t = some n → d.takesSpare t n = true →
      ∃ u, exec (.tileReplace t true) s = .next u ∧ u.dev.physOf l = some n ∧ (u.dev.lt l).store = (d.lt l).store ∧
        (u.dev.lt l).sets = (d.lt l).sets ∧ (u.dev.lt l).base = (d.lt l).base ∧ (u.dev.lt l).step = (d.lt l).step ∧
        (u.dev.lt l).slots = (d.lt l).slots ∧ u.dev.mem = d.mem ∧
        u.dev.reg (0x20128 + 0x40 * tilePart d.parts l) = d.reg (0x20128 + 0x40 * tilePart d.parts l) + 1 ∧
        ∀ m, m ≠ l → u.dev.physOf m = d.physOf m ∧ u.dev.lt m = d.lt m) ∧
    (d.leavingFor t = 2 → (d.lt l).pick = none → (d.lt l).replay = none → d.spareFor t = none →
      (d.lt l).slots = [] → (d.lt l).queue = [] → (∀ y ∈ d.dispatches, ∃ p ∈ y.parts, p.out.isOver = false) →
      ∃ u, exec (.tileReplace t readable) s = .next u ∧ u.dev.physOf l = none ∧ (u.dev.lt l).store = [] ∧
        (u.dev.lt l).sets = [] ∧ u.dev.mem = d.mem))

/-- R155, R157; `e` is the device after the record of 512 bytes was read. -/
def Obligations.UpdateStarts : Prop :=
  ∀ (r : Nat) (s : State) (a : Accepted), s.dev.quiet = true → s.dev.starts r 0x60 a →
    let d := s.dev
    let p := ringPart r
    let x := a.desc
    let taken := d.fld 0x1C000 0 1 = 1 ∧ (d.bt p).update = none ∧ d.battensOf p ≠ [] ∧ d.logsReady p = true
    let ends (e : Dev) (st : Nat) := exec (.update r) s = .next (s.withDev (e.finish r a.seq (Verdict.of st)).settle)
    (d.p8 = true → ends d 0x61) ∧
    (d.p8 = false → ¬ taken → exec (.update r) s = .next s) ∧
    (d.p8 = false → taken → updateBad x = true → ends d 0x61) ∧
    (d.p8 = false → taken → updateBad x = false →
      (∀ e w, d.read (engineReq (ringCtx r) (uRecKey x)) (uRecAddr x) 512 = .fail e w → w ≠ .bad → ends e 0x65) ∧
      (∀ e bs, d.read (engineReq (ringCtx r) (uRecKey x)) (uRecAddr x) 512 = .ok e bs →
        let ss := (chunksOf 16 8 (bs.take 128)).map fun b => streamSlot (leNat b)
        let ws := leWords 4 (bs.drop 256)
        let sound := recordBitsOk bs = true ∧ e.slotsOk (ctxPart (ringCtx r)) x ss = true ∧ progOk (ss.map StreamSlot.role) ws = true
        (¬ sound → ends e 0x61) ∧
        (sound → uMaskMode x = 0 → leNat ((bs.drop 192).take 8) ≠ uStep x + 2 ^ 32 → ringCtx r < 4 →
          ∃ (f : Dev) (u : Update), exec (.update r) s = .next (s.withDev f.settle) ∧ (f.bt (ringCtx r)).update = some u ∧
            u.ring = r ∧ u.seq = a.seq ∧ u.desc = x ∧ u.slots = ss ∧ u.prog = ws ∧ u.consts = leWords 4 ((bs.drop 128).take 64) ∧
            u.gate = .waiting ∧ u.taken = [] ∧ u.finished = [] ∧
            (f.bt (ringCtx r)).commit = some (uCommitFence x, uCommitVal x, uStep x))))

/-- R158 to R160; `e` is the device after the norm record was read. -/
def Obligations.NormGate : Prop :=
  ∀ (p : Nat) (s : State), s.dev.quiet = true →
    let d := s.dev
    ((d.bt p).update = none → exec (.normGate p) s = .next s) ∧
    (∀ u, (d.bt p).update = some u → (u.gate ≠ .waiting ∨ d.servingIn p = false) → exec (.normGate p) s = .next s) ∧
    (∀ u, (d.bt p).update = some u → u.gate = .waiting → d.servingIn p = true →
      let wait := d.waitFence u.ctx (uNormFence u.desc) (uNormVal u.desc)
      (wait = .notYet → exec (.normGate p) s = .next s) ∧
      (∀ e bs, wait = .ready → d.read (engineReq u.ctx (uNormKey u.desc)) (uNormAddr u.desc) 64 = .ok e bs → (e.bt p) = d.bt p →
        let v := dec32 (leNat (bs.take 4))
        let fresh := leNat ((bs.drop 4).take 4) = uStep u.desc ∧ leNat ((bs.drop 8).take 4) = uNormCount u.desc
        let above := dec32 (uSkipAbove u.desc)
        let skip := v = .nan ∨ (∃ b, v = .inf b) ∨ (∃ m x, v = .fin true m x ∧ m ≠ 0) ∨
          (above ≠ .nan ∧ v ≠ .nan ∧ FV.cmp v above > 0)
        let root := rn32 v.sqrt
        (¬ fresh → exec (.normGate p) s = .next (s.withDev (e.endUpdate p 0x62 false).settle)) ∧
        (fresh → skip → ∃ f : Dev, exec (.normGate p) s = .next (s.withDev f.settle) ∧
          (f.bt p).update = some { u with gate := .skipped } ∧
          f.reg (btReg p + 0x10) = e.reg (btReg p + 0x10) + 1 ∧ f.log.seq = e.log.seq + 1 ∧ f.mem = e.mem) ∧
        (fresh → ¬ skip → ∃ f : Dev, exec (.normGate p) s = .next (s.withDev f.settle) ∧ f.log = e.log ∧ f.mem = e.mem ∧
          ∃ c, (f.bt p).update = some { u with gate := .passed, norm := enc32 root, clip := enc32 c } ∧
            (let clip := dec32 (uClip u.desc)
             (clip.isZero = false → clip ≠ .nan → FV.cmp root clip > 0 → c = rn32 (clip.div root)) ∧
             (clip.isZero = true ∨ clip = .nan ∨ FV.cmp root clip ≤ 0 → c = .fin false 1 0)))))

/-- R161 to R163: one instruction of one run. -/
def Obligations.ProgramRows : Prop :=
  ∀ (row : Nat × (Nat → ProgFields → Instr)) (n p : Nat) (f : ProgFields) (s : State) (u : Update) (h : Hand) (r : ProgRun) (w : Nat),
    s.dev.quiet = true → row ∈ progRows → s.dev.battenWork n = some (p, u) → u.gate = .passed →
    (s.dev.batten n).hand = some h → h.run = some r → u.prog[r.pc]? = some w →
    let d := s.dev
    let env := d.progEnv u h.block r.el (slotsPanels u h.data)
    (progOp w ≠ row.1 ∨ progFields w ≠ f → exec (row.2 n f) s = .next s) ∧
    (progOp w = row.1 → progFields w = f →
      ∃ t, exec (row.2 n f) s = .next t ∧ t.dev.mem = d.mem ∧ t.dev.regs = d.regs ∧ t.dev.fences = d.fences ∧ t.dev.bt p = d.bt p ∧
        (∀ m, m ≠ n → t.dev.batten m = d.batten m) ∧
        (row.1 = 0 → (t.dev.batten n).hand = some { h with ran := h.ran ++ [(r.el, r.stores)], run := none }) ∧
        (row.1 ≠ 0 → guardHolds f r = false → (t.dev.batten n).hand = some { h with run := some { r with pc := r.pc + 1 } }) ∧
        (row.1 ≠ 0 → guardHolds f r = true →
          (t.dev.batten n).hand = some { h with run := some { progEffect env row.1 f r with pc := r.pc + 1 } }))

/-- Table 06-7, opcode by opcode. -/
def Obligations.ProgramEffects : Prop :=
  ∀ (env : ProgEnv) (i : ProgFields) (r : ProgRun), r.f.length = 16 → r.p.length = 4 →
    let a := r.fr i.a
    let b := r.fr i.b
    let x := i.x.toNat
    let reg (op : Nat) := (progEffect env op i r).fr i.d
    let pred (op : Nat) := (progEffect env op i r).pr i.d.toNat
    let put (op : Nat) (m : Rounding) : Prop := (progEffect env op i r).stores = r.stores ++
      [{ slot := x % 8, bits := ((env.fmt (x % 8)).encode m false a).bits, sat := ((env.fmt (x % 8)).encode m false a).sat, nan := a.isNan }]
    reg 0x01 = env.load (x % 8) ∧ reg 0x02 = env.const x ∧ reg 0x03 = a ∧ reg 0x10 = rn32 (a.add b) ∧ reg 0x11 = rn32 (a.sub b) ∧
    reg 0x12 = rn32 (a.mul b) ∧ reg 0x13 = rn32 (a.div b) ∧ reg 0x14 = rn32 ((a.mul b).add (r.fr i.c)) ∧ reg 0x15 = a.max b ∧
    reg 0x16 = a.min b ∧ reg 0x17 = rn32 a.sqrt ∧ reg 0x18 = rn32 a.rsqrt ∧ reg 0x19 = rn32 ((FV.fin false 1 0).div a) ∧
    reg 0x1A = a.abs ∧ reg 0x1B = a.neg ∧
    reg 0x20 = (fmtOf (x % 16)).decode ((fmtOf (x % 16)).encode .nearest false a).bits ∧
    reg 0x21 = (fmtOf (x % 16)).decode ((fmtOf (x % 16)).encode (.stochastic (env.draw (x / 16))) false a).bits ∧
    (a = .nan ∨ b = .nan → pred 0x30 = false ∧ pred 0x31 = false ∧ pred 0x32 = false) ∧
    (a ≠ .nan → b ≠ .nan → pred 0x30 = decide (FV.cmp a b < 0) ∧ pred 0x31 = decide (FV.cmp a b ≤ 0) ∧ pred 0x32 = decide (FV.cmp a b = 0)) ∧
    pred 0x33 = a.isNan ∧ pred 0x34 = (!r.pr i.a.toNat) ∧ pred 0x35 = (r.pr i.a.toNat && r.pr i.b.toNat) ∧
    pred 0x36 = (r.pr i.a.toNat || r.pr i.b.toNat) ∧ put 0x04 .nearest ∧ put 0x05 .zero ∧ put 0x06 (.stochastic (env.draw (x / 8)))

/-- R161: the rows and `UPDATE_BLOCK` agree on a run. -/
def Obligations.ProgramInOrder : Prop :=
  ∀ (d : Dev) (u : Update) (h : Hand) (r : ProgRun) (ws : List Nat) (e : Nat), h.run = some r → (∀ w ∈ ws, progOp w ≠ 0) →
    progOp e = 0 →
    let go (h : Hand) (w : Nat) : Hand := match h.run with
      | some r => d.stepRun u h r w
      | none => h
    let env := d.progEnv u h.block r.el (slotsPanels u h.data)
    ((ws ++ [e]).foldl go h).ran = h.ran ++ [(r.el, runProg env (ws ++ [e]) r)] ∧ ((ws ++ [e]).foldl go h).run = none

/-- R168, R171, R174, 09 R260, R261. -/
def Obligations.BlocksInOrder : Prop :=
  ∀ (n : Nat) (s : State), s.dev.quiet = true →
    let d := s.dev
    (d.battenWork n = none → ∀ es fs, exec (.updateBlock n es fs) s = .next s ∧ exec (.logSeal n) s = .next s ∧
      exec (.workingCopyWrite n) s = .next s) ∧
    (∀ p u es fs, d.battenWork n = some (p, u) → (d.batten n).hand = none → u.blocks ≤ d.nextBlock p n u u.taken →
      exec (.updateBlock n es fs) s = .next s) ∧
    (∀ p u h, d.battenWork n = some (p, u) → (d.batten n).hand = some h → d.fld 0x8060 63 1 = 0 →
      let o := (d.blockOut u h).1
      (∃ t, exec (.updateBlock n [] []) s = .next t ∧
        t.dev.batten n = { d.batten n with hand := none, checked := (d.batten n).checked ++ [o] } ∧
        t.dev.reg (btReg p) = d.reg (btReg p) + BitVec.ofNat 64 (d.blockOut u h).2 ∧ t.dev.mem = d.mem ∧ t.dev.log = d.log) ∧
      (∀ bs cs, let es := bs ++ cs
        (o.hit es 0 false).same o = true → u.spotAgrees h.block o (o.hit es 0 true) = false →
        ((o.hit es 1 false).same o = true ∨ (o.hit es 2 false).same o = true) →
        ∃ f : Dev, exec (.updateBlock n bs cs) s = .next (s.withDev f.settle) ∧ f.mem = d.mem ∧ f.log.seq = d.log.seq + 1 ∧
          (f.batten n).hand = none ∧ ∃ c, (f.batten n).checked = (d.batten n).checked ++ [c] ∧ c.same o = true) ∧
      (∀ bs cs, let es := bs ++ cs
        u.settledOut h.block o es false = none → d.fenced .batten n = false →
        ∃ f : Dev, exec (.updateBlock n bs cs) s = .next (s.withDev f.settle) ∧ f.mem = d.mem ∧ f.fenced .batten n = true ∧
          (f.batten n).hand = none ∧ (f.batten n).checked = [])) ∧
    (∀ p u o os, d.battenWork n = some (p, u) → (d.batten n).checked = o :: os → u.gate ≠ .skipped →
      (d.logApplied n + d.logSlots n ≤ d.logSeq n → exec (.logSeal n) s = .next s) ∧
      (∀ e x, d.logSeq n < d.logApplied n + d.logSlots n → d.logSeq n + 1 < 2 ^ 64 →
        d.writeAll u.ctx [(0, d.logAddr n (d.logSeq n + 1) + 128, d.logKey n, payloadOf o),
          (0, d.logAddr n (d.logSeq n + 1), d.logKey n, headerLine u o (d.logSeq n + 1))] = .ok e x →
        let e := e.setReg (logReg n + 0x10) (BitVec.ofNat 64 (d.logSeq n + 1))
        (∀ g y, e.writeAll u.ctx o.stored = .ok g y →
          ∃ f : Dev, exec (.logSeal n) s = .next (s.withDev f.settle) ∧ f.mem = g.mem ∧ f.logSeq n = g.logSeq n ∧
            (f.batten n).checked = (g.batten n).checked.drop 1 ∧
            (f.batten n).logged = (g.batten n).logged ++ [{ o with seq := d.logSeq n + 1 }]) ∧
        (∀ g, e.writeAll u.ctx o.stored = .fail g .denied →
          exec (.logSeal n) s = .next (s.withDev (g.endUpdate p 0x65 false).settle)))) ∧
    (∀ p u o os, d.battenWork n = some (p, u) → (d.batten n).checked = o :: os → u.gate = .skipped →
      ∃ f : Dev, exec (.logSeal n) s = .next (s.withDev f.settle) ∧ f.mem = d.mem ∧ f.logSeq n = d.logSeq n ∧
        (f.batten n).logged = (d.batten n).logged ++ [{ o with seq := 0 }]) ∧
    (∀ p u o os, d.battenWork n = some (p, u) → (d.batten n).logged = o :: os → u.stash = false →
      d.waitFence u.ctx (uStashFence u.desc) (uStashVal u.desc) = .notYet → exec (.workingCopyWrite n) s = .next s) ∧
    (∀ p u o os, d.battenWork n = some (p, u) → (d.batten n).logged = o :: os →
      u.stash = true ∨ d.waitFence u.ctx (uStashFence u.desc) (uStashVal u.desc) = .ready →
      let g := d.openStash p u
      ∀ e x f y, g.1.writeAll u.ctx o.derived = .ok e x → e.blockDone p n g.2 o = .ok f y →
      (f.bt p).update = some { g.2 with finished := insNat o.block u.finished } →
      ((insNat o.block u.finished).length < u.blocks → exec (.workingCopyWrite n) s = .next (s.withDev f.settle)) ∧
      (u.blocks ≤ (insNat o.block u.finished).length → ∀ h z,
        f.write (engineReq u.ctx (uRecKey u.desc)) (uRecAddr u.desc + 192) (leBytes 8 (uStep u.desc + 2 ^ 32)) = .ok h z →
        exec (.workingCopyWrite n) s =
          .next (s.withDev (h.endUpdate p (if u.gate = .skipped then 0x63 else 0) true).settle))) ∧
    (∀ p u o, n < 16 → o.seq ≠ 0 → o.seq < 2 ^ 64 → d.logSet n = false → ∃ f, d.blockDone p n u o = .ok f () ∧ f.logApplied n = o.seq ∧
      (f.batten n).logged = (d.batten n).logged.drop 1 ∧ (f.bt p).update = some { u with finished := insNat o.block u.finished })

/-- R172 to R174. -/
def Obligations.LogRecovered : Prop :=
  ∀ (n : Nat) (s : State), s.dev.quiet = true →
    let d := s.dev
    let p := stackPart d.parts n
    ((d.batten n).started = true → ∀ m b, exec (.battenLogRecovery n m b) s = .next s) ∧
    (d.serving = true → d.power.recover.contains p = false → d.memReady p = true → n < 16 → (d.batten n).started = false →
      d.logSet n = true → d.fenced .batten n = false → d.ctxOpen p = true →
      ((d.batten n).placed = true → d.stashWait p = .notYet → ∀ b, ∃ f : Dev,
        exec (.battenLogRecovery n n b) s = .next (s.withDev f.settle) ∧ f.mem = d.mem ∧ f.lines = d.lines ∧ f.battens = d.battens) ∧
      ((d.batten n).placed = false ∨ d.stashWait p = .ready →
      (∀ e bs, d.read (engineReq p (d.logKey n)) (d.logBase n) 128 = .ok e bs → leNat (bs.take 4) ≠ 0xBA770C01 →
        ∃ f : Dev, exec (.battenLogRecovery n n true) s = .next (s.withDev f.settle) ∧ (f.batten n).started = true ∧
          (∀ m, m ≠ n → f.batten m = e.batten m) ∧ f.mem = e.mem) ∧
      (∀ e bs f u, d.read (engineReq p (d.logKey n)) (d.logBase n) 128 = .ok e bs → leNat (bs.take 4) = 0xBA770C01 →
        e.stashWait p = .ready →
        let g := e.takeControl p n
        g.applyEntries p n true (g.logSlots n) (leNat ((bs.drop 8).take 8) + 1) (g.bt p).update = .ok f u →
        exec (.battenLogRecovery n n true) s = .next (s.withDev
          (((((f.setBatten n { Batten.reset with started := true }).writeControls p [n]).updateDone p).logSeen n).settle))) ∧
      (∃ f : Dev, exec (.battenLogRecovery n n false) s = .next (s.withDev f.settle) ∧
        (f.bt p).update = none ∧ f.log.seq > d.log.seq ∧ p ∈ f.stopsDue))) ∧
    (∀ k, (∃ h, d.sealedAt n k = some h) ↔
      (leNat ((d.bytes (d.logAddr n k) 128).take 4) = 0xBA770E01 ∧
        leNat (((d.bytes (d.logAddr n k) 128).drop 8).take 8) = k)) ∧
    (∀ k u h e v, n < 16 → k < 2 ^ 64 → d.applyEntry p n k u h true = .ok e v → e.logApplied n = k ∧
      ∀ w, u = some w → (e.bt p).update = v ∧ let b := leNat ((h.drop 24).take 4)
        v = some { w with taken := insNat b w.taken, finished := insNat b w.finished }) ∧
    (∀ k u m e x, d.readLines (engineReq p (d.logKey n)) (linesOf (d.logAddr n k) 128) = .ok e x →
      (e.sealedAt n k = none → d.applyEntries p n true (m + 1) k u = .ok e ()) ∧
      (∀ h f v, e.sealedAt n k = some h → e.applyEntry p n k u h true = .ok f v →
        d.applyEntries p n true (m + 1) k u = f.applyEntries p n true m (k + 1) v))

/-- R221, R222, R227, R253; `e` is the device after the source list was read. -/
def Obligations.PleachArms : Prop :=
  ∀ (p : Nat) (s : State), s.dev.quiet = true → p < 4 →
    let d := s.dev
    let n := d.fld (plReg p + 0x20) 0 13
    let list := d.read (engineReq p (d.fld (plReg p + 0x18) 41 12)) (d.fld (plReg p + 0x18) 0 41) (32 * n)
    (d.takesWrite (plReg p) → (d.pl p).armed = false → d.fld 0x2C000 0 1 = 1 → d.groupOk p = true → d.sliceValid p = true →
      (∀ e bs i, list = .ok e bs → srcRanges 0 (chunksOf 32 n bs) = .inr i →
        exec (.arm p) s = .next (s.withDev (e.record 0 0x0B01 .context p (some p) i).settle)) ∧
      (∀ e w, list = .fail e w → exec (.arm p) s = .next (s.withDev (e.record 0 0x0B01 .context p (some p) 0).settle)) ∧
      (∀ e bs rs, list = .ok e bs → srcRanges 0 (chunksOf 32 n bs) = .inl rs →
        (rs.map SrcRange.units).foldl (· + ·) 0 ≤ 7 * e.section_ p →
        ∃ f : Dev, exec (.arm p) s = .next (s.withDev f.settle) ∧ (f.pl p).armed = true ∧ (f.pl p).srcs = rs ∧
          f.fld (plReg p) 0 1 = 1 ∧ f.reg (plReg p + 0x90) = 0 ∧ f.mem = e.mem)) ∧
    (d.takesWrite (plReg p) → (d.pl p).armed = true → ∃ t, exec (.disarm p) s = .next t ∧ (t.dev.pl p).armed = false ∧
      (t.dev.pl p).cur = none ∧ (t.dev.pl p).taken = (d.pl p).taken ∧ (t.dev.pl p).gen0 = (d.pl p).gen0 ∧ (t.dev.pl p).gen1 = (d.pl p).gen1 ∧
      t.dev.fld (plReg p) 0 1 = 0 ∧ t.dev.mem = d.mem) ∧
    (let due := d.on = true ∧ (d.pl p).armed = true ∧ d.fld (plReg p + 0x28) 16 16 ≠ 0 ∧
        d.fld (plReg p + 0x28) 16 16 ≤ (d.pl p).msStep ∧ d.fld (plReg p + 0x40) 3 1 = 0
     (¬ due → exec (.pleachDue p) s = .next s) ∧
     (due → ∃ t, exec (.pleachDue p) s = .next t ∧ t.dev.fld (plReg p + 0x40) 3 1 = 1 ∧
        (∀ o, o ≠ plReg p + 0x40 → t.dev.reg o = d.reg o)))

/-- R232, R233. -/
def Obligations.RowsTaken : Prop :=
  ∀ (p : Nat) (s : State), s.dev.quiet = true →
    let d := s.dev
    let x := d.pl p
    ((x.cur = none ∨ d.servingIn p = false) → exec (.stripeRowCopy p) s = .next s) ∧
    (d.servingIn p = true → exec (.stripeRowCopy p) s = .next (s.withDev (d.takeRow p (firstUntaken 0 x.taken)).settle)) ∧
    (∀ a u, a / d.window = p → d.servingIn p = true → x.cur ≠ none → unitOfAddr x.srcs a 0 = some u →
      (u / 7 ∈ x.taken → exec (.forcedRowCopy p a) s = .next s) ∧
      (u / 7 ∉ x.taken → exec (.forcedRowCopy p a) s = .next (s.withDev
        ((d.takeRow p (u / 7)).bump (plReg p + 0x78) 1).settle))) ∧
    (∀ k q, x.cur = some k → q ∉ x.taken → q < x.rows →
      (∀ e w, d.readUnits p (rangeFrom (7 * q) 7) = .fail e w → d.takeRow p q = e.abandonGen p) ∧
      (∀ e us g w, d.readUnits p (rangeFrom (7 * q) 7) = .ok e us →
        let f := (e.sendStripes p k q 0 us).bump (plReg p + 0x80) 7
        f.grantAll (engineReq p (f.holdKey p)) true (linesOf (f.holdAddr p k 7 q) 4096) = none →
        f.writeLines (engineReq p (f.holdKey p)) 33 (f.holdAddr p k 7 q) (parity us) = .ok g w →
        d.takeRow p q = ((g.setPl p { g.pl p with taken := insNat q (g.pl p).taken }).writeBitmap p q).readyIfDone p)) ∧
    (∀ rs : List Nat, rs.Pairwise (· < ·) → firstUntaken 0 rs ∉ rs ∧ ∀ q, q < firstUntaken 0 rs → q ∈ rs)

/-- R223 and R239: the copy's parity is what a restore needs. -/
def Obligations.ParityRebuilds : Prop :=
  ∀ (us : List (List Byte)) (j : Nat) (u : List Byte), (∀ x ∈ us, x.length = 4096) → us[j]? = some u →
    (us.eraseIdx j).foldl xorBytes (parity us) = u

/-- R226, R229 to R231, R235, R236; a cut writes its slot record, the record's copy and the row bitmap (Table 08-2). -/
def Obligations.GenerationCounts : Prop :=
  ∀ (p k step h : Nat) (s : State), s.dev.quiet = true → p < 4 → k < 2 → h < 8 → h ≠ s.dev.member p →
    let d := s.dev
    let x := d.pl p
    let g := x.gen k
    let outside (d : Dev) (p k a : Nat) : Prop := ∀ c ∈ [k, k + 2], a < d.holdBase p + 128 * c ∨ d.holdBase p + 128 * c + 128 ≤ a
    (x.armed = false → exec (.readyRecord p k step h) s = .next s ∧ exec (.commitRecord p k step h) s = .next s) ∧
    (d.servingIn p = true → x.armed = true →
      (g.valid = false ∨ g.step ≠ step →
        exec (.readyRecord p k step h) s = .next (s.withDev (d.record 1 0x0B04 .context p (some p) step)) ∧
        exec (.commitRecord p k step h) s = .next (s.withDev (d.record 1 0x0B04 .context p (some p) step))) ∧
      (g.valid = true → g.step = step →
        ((insNat h g.ready).length < 7 → g.commit.length < 8 → exec (.readyRecord p k step h) s =
          .next (s.withDev (d.setPl p (x.setGen k { g with ready := insNat h g.ready })))) ∧
        ((insNat h g.commit).length < 8 → exec (.commitRecord p k step h) s =
          .next (s.withDev (d.setPl p (x.setGen k { g with commit := insNat h g.commit })))) ∧
        ((insNat h g.ready).length = 7 → x.cur = some k → g.sent = true → d.member p ∉ g.commit →
          (insNat (d.member p) g.commit).length < 8 →
          let e := d.setPl p (x.setGen k { g with ready := insNat h g.ready })
          let f := e.setPl p ((e.pl p).setGen k { g with ready := insNat h g.ready, commit := insNat (d.member p) g.commit })
          exec (.readyRecord p k step h) s = .next (s.withDev ((f.writeHeld p (512 + ((k * 8 + d.member p) * 2 + 1) * 128)
            (recordBytes step k (d.member p) 1)).sendRecords p k 1).settle)) ∧
        ((insNat h g.commit).length = 8 → x.cur = some k → g.counted = false →
          ∃ f : Dev, exec (.commitRecord p k step h) s = .next (s.withDev f.settle) ∧
            (f.pl p).gen k = { g with commit := insNat h g.commit, counted := true } ∧ (f.pl p).cur = none ∧
            (f.pl p).prevCut = some x.cutAt ∧ f.reg (plReg p + 0x88) = BitVec.ofNat 64 (d.now - x.cutAt) ∧
            (∀ a, outside d p k a → f.byte a = d.byte a)))) ∧
    (∀ n, let due := (d.fld (plReg p + 0x28) 0 16 ≠ 0 ∧ n % d.fld (plReg p + 0x28) 0 16 = 0) ∨ (d.fence (d.cutFence p)).value = n ∨ x.owed = true
      let e := d.evaluateCut p n
      (x.armed = false → e = d) ∧
      (x.armed = true → (e.pl p).evaluated = some n ∧ (e.pl p).kept = x.kept ∧
        (¬ due → e = d.setPl p { x with evaluated := some n }) ∧
        (due → x.cur ≠ none ∨ x.op ≠ none → (e.pl p).owed = true ∧ (e.pl p).gen0 = x.gen0 ∧ (e.pl p).gen1 = x.gen1 ∧
          (e.pl p).cur = x.cur ∧ e.reg (plReg p + 0x68) = d.reg (plReg p + 0x68) + 1 ∧ e.mem = d.mem) ∧
        (due → x.cur = none → x.op = none → 0 < x.rows →
          (e.pl p).cur = some (d.cutSlot p) ∧
          (e.pl p).gen (d.cutSlot p) =
            { Gen.reset with step := n, valid := true, cuts := (d.reg (plReg p + 0x60) + 1).toNat } ∧
          (e.pl p).gen (1 - d.cutSlot p) = x.gen (1 - d.cutSlot p) ∧ (e.pl p).taken = [] ∧ (e.pl p).owed = false ∧
          (e.pl p).cutAt = d.now ∧ e.reg (plReg p + 0x60) = d.reg (plReg p + 0x60) + 1 ∧
          (∀ a, outside d p (d.cutSlot p) a → a < d.holdBase p + granuleBytes ∨
            d.holdBase p + granuleBytes + ceilDiv (d.section_ p) 1024 * 128 ≤ a → e.byte a = d.byte a)))) ∧
    (∀ j, d.keptSlot p = some j → d.cutSlot p = 1 - j)

/-- R238 to R252; statuses of Table 08-10. -/
def Obligations.PleachDescriptors : Prop :=
  ∀ (r : Nat) (cs : Cells) (s : State), s.dev.quiet = true →
    let d := s.dev
    let h := d.hostCells cs
    let p := ringPart r
    (∀ a, d.starts r 0x70 a → (d.pl p).op = none →
      let listed := d.hostCount false p (16 * pHostCount a.desc)
      let waits (i : Instr) := exec i s = .next s
      let ends (i : Instr) (e : Dev) (st : Nat) := exec i s = .next (s.withDev (e.finish r a.seq (Verdict.of st)).settle)
      let rows : List (Instr × Dev) := [(.restore r [] 0 false, d), (.drain r, d), (.reload r cs, h), (.pleachExport r, d)]
      (∀ i ∈ rows[pOp a.desc]?, (d.p8 = true → ends i.1 i.2 9) ∧
        (d.p8 = false → pleachBad a.desc = true ∨ (d.pl p).armed = false → ends i.1 i.2 0x81)) ∧
      (d.p8 = false → pleachBad a.desc = false → (d.pl p).armed = true →
        (pOp a.desc = 0 →
          ((d.ctx p).st ≠ .stopped → ends (.restore r [] 0 false) d 0x82) ∧
          ((d.ctx p).st = .stopped → ends (.restore r [] 2 false) d 0x85) ∧
          ((d.ctx p).st = .stopped → pLost a.desc = none → pRebuild a.desc = false → (d.pl p).countedSlot (pStep a.desc) = none →
            ends (.restore r [] 0 false) d 0x83)) ∧
        (pOp a.desc ≠ 0 → ∀ i ∈ rows[pOp a.desc]?, i.2.hostPath p (16 * pHostCount a.desc) = true → i.2.hostList a.desc = none →
          ends i.1 (i.2.hostCount false p (16 * pHostCount a.desc)) 0x81) ∧
        (∀ bufs, pOp a.desc = 1 → d.hostPath p (16 * pHostCount a.desc) = true → d.hostList a.desc = some bufs →
          ((d.pl p).countedSlot (pStep a.desc) = none → ends (.drain r) listed 0x83) ∧
          (∀ k, (d.pl p).countedSlot (pStep a.desc) = some k →
            let o := listed.drainOut p k (pStep a.desc) bufs
            let f := o.dev.hostCount true p o.off
            (o.dev.hostMay true p o.off = false → waits (.drain r)) ∧
            (o.dev.hostMay true p o.off = true → (o.status ≠ 0 → ends (.drain r) f o.status) ∧
              (o.status = 0 → exec (.drain r) s =
                .next (s.withDev (f.pleachOk p r a.seq (pFence a.desc) (pFval a.desc)).settle))))) ∧
        (∀ bufs, pOp a.desc = 2 → h.hostPath p (16 * pHostCount a.desc) = true → pRef a.desc = 0 → h.hostList a.desc = some bufs →
          let listed := h.hostCount false p (16 * pHostCount a.desc)
          let paid := listed.use (hostKey false p) (listed.hostTurn p (listed.reloadCost bufs))
          (listed.hostMay false p (listed.reloadCost bufs) = false → exec (.reload r cs) s = .next (s.withDev h)) ∧
          (∀ e st got, listed.hostMay false p (listed.reloadCost bufs) = true →
            paid.takeRecords p none (paid.drainKeys p) (paid.hostRecords bufs) [] = (e, st, got) →
            (st ≠ 0 → ends (.reload r cs) e st) ∧
            (st = 0 → (e.reloadNeeds p none).all got.contains = false → ends (.reload r cs) e 0x86) ∧
            (st = 0 → (e.reloadNeeds p none).all got.contains = true → ∃ f : Dev,
              exec (.reload r cs) s = .next (s.withDev (f.pleachOk p r a.seq (pFence a.desc) (pFval a.desc)).settle) ∧
              (f.pl p).gen0.counted = false ∧ (f.pl p).gen1.counted = false ∧
              (∀ a, a < e.holdBase p ∨ e.holdBase p + 512 ≤ a → f.byte a = e.byte a)))) ∧
        (∀ bufs, pOp a.desc = 3 → d.hostPath p (16 * pHostCount a.desc) = true → d.hostList a.desc = some bufs →
          d.exportSlot p a.desc = none ∨ d.committedIs p (pStep a.desc) = false → ends (.pleachExport r) listed 0x88) ∧
        (∀ k e bs rs bufs, pOp a.desc = 3 → d.hostPath p (16 * pHostCount a.desc) = true → d.exportSlot p a.desc = some k →
          d.committedIs p (pStep a.desc) = true → d.hostList a.desc = some bufs →
          listed.read (engineReq p (pRefKey a.desc)) (pRef a.desc) (32 * pRefCount a.desc) = .ok e bs →
          srcRanges 0 (chunksOf 32 (pRefCount a.desc) bs) = .inl rs →
          let o := Out.tensors { dev := e, bufs := bufs, off := 0, status := 0 } p (e.key k).secret a.desc 0 rs
          let f := o.dev.hostCount true p o.off
          (o.dev.hostMay true p o.off = false → waits (.pleachExport r)) ∧
          (o.dev.hostMay true p o.off = true → (o.status ≠ 0 → ends (.pleachExport r) f o.status) ∧
            (o.status = 0 → exec (.pleachExport r) s =
              .next (s.withDev ((f.countUse k).pleachOk p r a.seq (pFence a.desc) (pFval a.desc)).settle)))))) ∧
    (∀ o, (d.pl p).op = some o → o.ring = r → d.servingIn p = true → d.ctxOpen p = true →
      ((d.ctx p).st = .stopped → o.lost = none → o.left = [] →
        let x := { d.pl p with op := none }
        let f := (((d.setPl p x).setPl p { x with kept := some o.step }).zeroRetained p).battenRestored p o.step
        exec (.restore r [] 0 false) s = .next (s.withDev (f.pleachOk p r o.seq o.fence o.fval).settle)) ∧
      ((d.ctx p).st ≠ .stopped → exec (.restore r [] 0 false) s =
        .next (s.withDev ((d.setPl p { d.pl p with op := none }).finish r o.seq (Verdict.of 0x82)).settle)))

/-- R309, R310. -/
def Obligations.ContextOpens : Prop :=
  ∀ (s : State), s.dev.quiet = true →
    let d := s.dev
    let refused (off v : Nat) : Dev := d.record 0 0x0003 .register (off / 4) none v
    (∀ p, p < 4 → d.takesWrite (ctxReg p) →
      (d.canOpen s.fuses.lc p = false → exec (.ctxOpen p) s = .next (s.withDev (refused (ctxReg p) 1))) ∧
      (d.canOpen s.fuses.lc p = true → ∃ f : Dev,
        exec (.ctxOpen p) s = .next (s.withDev ((rangeFrom (64 * p) 64).foldl Dev.firstLook f).settle) ∧ (f.ctx p).st = .opened ∧
        (f.ctx p).acc = [0, 0, 0, 0, 0, 0, 0, 0] ∧
        (let j := d.fld (ctxReg p + 0x20) 21 20 * granuleBytes
         (∀ a, j ≤ a → a < j + granuleBytes → Sparse.get (fun _ => 0) f.mem a = 0) ∧
         (∀ a, a < j ∨ j + granuleBytes ≤ a → Sparse.get (fun _ => 0) f.mem a = Sparse.get (fun _ => 0) d.mem a)))) ∧
    (∀ p, d.canOpen s.fuses.lc p = true → (d.ctx p).st = .closed ∧ (d.ctx p).seedSet = true ∧ d.fld (ctxReg p + 0x10) 0 12 ≠ 0 ∧
      d.fld (ctxReg p + 0x20) 41 12 ≠ 0 ∧ d.fld (ctxReg p + 0x28) 41 12 ≠ 0 ∧ d.fld (ctxReg p + 0x28) 53 7 ≠ 0 ∧ d.p8 = false) ∧
    (∀ c image, d.takesWrite p8Cmd → d.p8 = false →
      exec (.p8Open c image) s = .next (s.withDev (refused p8Cmd (c + image / 2 ^ 15 * 2 ^ 15)))) ∧
    (∀ c image, d.takesWrite p8Cmd → d.p8 = true → c < 4096 → d.servingIn 0 = true → s.fuses.lc.opens = true →
      (d.ctx (4 + c)).st = .closed → d.fld 0x4010 41 12 ≠ 0 → d.fld 0x4110 0 12 ≠ 0 →
      (d.hostMay false 0 512 = false → exec (.p8Open c image) s =
        .next (s.withDev (d.setCtx (4 + c) { d.ctx (4 + c) with asked := some (image / 2 ^ 15 * 2 ^ 15) }))) ∧
      (let img := d.hostBytes (image / 2 ^ 15 * 2 ^ 15) 512
       d.hostMay false 0 512 = true → p8ImageOk img = true → d.p8AreasOk (4 + c) img = true →
        ∃ f : Dev, exec (.p8Open c image) s = .next (s.withDev f.settle) ∧ (f.ctx (4 + c)).st = .opened ∧
          (f.ctx (4 + c)).ntiles = imgField img 136 2 ∧ (f.ctx (4 + c)).seed = imgField img 128 8 ∧ f.mem = d.mem)) ∧
    (∀ c, d.takesWrite p8Cmd →
      (d.p8 = false ∨ d.ctxOpen (4 + c) = false → exec (.makeResident c) s = .next (s.withDev (refused p8Cmd (c + 2 ^ 12)))) ∧
      (d.p8 = true → c < 4096 → d.ctxOpen (4 + c) = true → (d.ctx (4 + c)).resident = false →
        let e := d.setCtx (4 + c) { d.ctx (4 + c) with asked := some 0 }
        (e.residents.length < 48 → ∃ f : Dev, exec (.makeResident c) s = .next (s.withDev f.settle) ∧ (f.ctx (4 + c)).resident = true) ∧
        (∀ j, 48 ≤ e.residents.length → e.p8Victim = some j →
          (e.holdsPart j = true → exec (.makeResident c) s = .next (s.withDev e)) ∧
          (e.holdsPart j = false → exec (.makeResident c) s =
            .next (s.withDev ((e.setCtx j { e.ctx j with resident := false }).enterResident (4 + c)).settle)))))

/-- R316 to R318, R482. -/
def Obligations.ContextCommands : Prop :=
  ∀ (s : State), s.dev.quiet = true →
    let d := s.dev
    let refused (off v : Nat) : Dev := d.record 0 0x0003 .register (off / 4) none v
    let rows : List (Nat × Nat × Instr × Instr × Instr × Nat × Nat × Nat) :=
      ((List.range 4).map fun p => (p, ctxReg p, .stop p, .resume p, .teardown p, 4, 8, 2)) ++
      (List.range 4096).map fun c => (4 + c, p8Cmd, .p8Stop c, .p8Resume c, .p8Teardown c, c + 2 * 4096, c + 3 * 4096, c + 4 * 4096)
    (∀ k off stop resume teardown v w x, (k, off, stop, resume, teardown, v, w, x) ∈ rows → d.takesWrite off →
      ((d.ctx k).st ≠ .opened → exec stop s = .next (s.withDev (refused off v))) ∧
      ((d.ctx k).st ≠ .stopped → exec resume s = .next (s.withDev (refused off w))) ∧
      ((d.ctx k).st ≠ .opened → (d.ctx k).st ≠ .stopped → exec teardown s = .next (s.withDev (refused off x))) ∧
      ((d.ctx k).st = .stopped → ∃ t, exec resume s = .next t ∧ (t.dev.ctx k).st = .opened ∧ (∀ j, j ≠ k → t.dev.ctx j = d.ctx j) ∧
        t.dev.mem = d.mem ∧ t.dev.fences = d.fences ∧ t.dev.rings = d.rings ∧ t.dev.tiles = d.tiles) ∧
      ((d.ctx k).st = .opened → d.tiles.logical = [] → (k < 4 → (d.bt k).update = none) → ∃ f : Dev,
        exec stop s = .next (s.withDev f.settle) ∧ (f.ctx k).st = .stopped ∧ (∀ y ∈ f.dispatches, y.ctx ≠ k) ∧
        f.mem = d.mem ∧ f.fences = d.fences ∧ (k < 4 → (f.sh k).groups = [] ∧ (f.pl k).cur = none)) ∧
      ((d.ctx k).st = .opened ∨ (d.ctx k).st = .stopped → d.tiles.logical = [] → ∃ f : Dev,
        exec teardown s = .next (s.withDev f.settle) ∧ (f.ctx k).st = .tearing ∧ (f.ctx k).phase = 1 ∧
        (∀ y ∈ f.dispatches, y.ctx ≠ k) ∧ f.mem = d.mem ∧ f.fences = d.fences ∧
        (k < 4 → (f.bt k).update = none ∧ (f.sh k).groups = [] ∧ (f.pl k).cur = none ∧ (f.pl k).op = none))) ∧
    (∀ p v, p < 4 → d.takesWrite (ctxReg p + 0x18) →
      (d.ctxOpen p = true → (d.sh p).epoch < v.toNat → ∃ t, exec (.sendingEpochWrite p v) s = .next t ∧
        t.dev.sh p = { d.sh p with epoch := v.toNat, ctr := 0, ingress := [], floor := v.toNat } ∧
        t.dev.fld (ctxReg p + 0x18) 0 32 = v.toNat ∧ t.dev.fld (shReg p + 0x48) 0 32 = v.toNat ∧ t.dev.mem = d.mem) ∧
      (d.ctxOpen p = false ∨ v.toNat ≤ (d.sh p).epoch →
        exec (.sendingEpochWrite p v) s = .next (s.withDev (refused (ctxReg p + 0x18) v.toNat))))

/-- R315, Table 10-10. -/
def Obligations.TeardownSteps : Prop :=
  ∀ (k : Nat) (s : State), s.dev.quiet = true →
    let d := s.dev
    let x := d.ctx k
    ((x.st ≠ .tearing ∨ x.phase ≠ 1 ∨ d.replaying k = true) → exec (.teardownBreakFences k) s = .next s) ∧
    (∀ e, x.st = .tearing → x.phase = 1 → d.replaying k = false → d.serving = true → d.recovered (ctxPart k) = true →
      e = (d.undoing k).foldl Dev.undoAside d → e.undoing k ≠ [] → exec (.teardownBreakFences k) s = .next (s.withDev e.settle)) ∧
    (x.st = .tearing → x.phase = 1 → d.replaying k = false → d.serving = true → d.recovered (ctxPart k) = true → d.undoing k = [] →
      ∃ f : Dev, exec (.teardownBreakFences k) s = .next (s.withDev f.settle) ∧ (f.ctx k).phase = 2 ∧
        let e := d.loseWaits fun n => (d.fence n).st = .live && (d.fence n).owner = k
        ∀ n, f.fence n = (if (e.fence n).st = .live ∧ (e.fence n).owner = k then { e.fence n with st := .broken }
          else { e.fence n with shares := (e.fence n).shares.filter fun y => y.ctx ≠ k })) ∧
    ((x.st ≠ .tearing ∨ x.phase ≠ 2 ∨ d.ringsDone k = false) → exec (.teardownClose k) s = .next s) ∧
    (x.st = .tearing → x.phase = 2 → d.servingIn (ctxPart k) = true → d.ringsDone k = true →
      ∃ f : Dev, exec (.teardownClose k) s = .next (s.withDev f.settle) ∧ (f.ctx k).st = .closed ∧
        (f.ctx k).acc = Ctx.reset.acc ∧ (f.ctx k).phase = Ctx.reset.phase ∧
        (k < 4 → (f.sh k).groups = [] ∧ (f.sh k).rx = [] ∧ (∀ n, d.regionPart n = k → (f.region n).st = .closed) ∧
          ∀ j, j ≠ 0 → rangePart d.parts 4096 j = k → f.key j = KeySlot.reset j) ∧ f.fences = d.fences)

/-- R291, R295, 11 R346. -/
def Obligations.RingsAndStaging : Prop :=
  ∀ (s : State), s.dev.quiet = true →
    let d := s.dev
    (∀ r, r < 256 → d.takesWrite (ringReg r + 0x18) →
      let o := ringReg r + 0x18
      ((d.ring r).st = .disabled → d.hostMay true (ringPart r) 64 = true →
        ∃ f : Dev, exec (.ringEnable r) s = .next (s.withDev (f.firstLook r).settle) ∧
        f.ring r = { Ring.reset with st := .active } ∧ f.fld o 0 1 = 1 ∧
        f.hostBytes (f.ringRecords r) 64 = leBytes 8 0 ++ leBytes 8 0 ++ leBytes 1 (ringStateCode .active) ++ List.replicate 47 0) ∧
      ((d.ring r).st = .draining → exec (.ringEnable r) s =
        .next (s.withDev (d.record 0 0x0003 .register (o / 4) none ((d.reg o).toNat + 1)))) ∧
      ((d.ring r).st = .active ∨ (d.ring r).st = .error → exec (.ringEnable r) s = .next s ∧
        ∃ t, exec (.ringDisable r) s = .next t ∧ t.dev.fld o 0 1 = 0 ∧ (t.dev.ring r).pend = (d.ring r).pend ∧
          (t.dev.ring r).st = (if (d.ring r).pend = [] then .disabled else .draining) ∧ ∀ q, q ≠ r → t.dev.ring q = d.ring q) ∧
      ((d.ring r).st = .disabled ∨ (d.ring r).st = .draining → exec (.ringDisable r) s = .next s)) ∧
    (∀ p c, p < 4 → c < 2 →
      let o := stgReg p c
      let n := d.stagingLines p c
      let a := d.fld (o + 8) 6 35 * 64
      let out : Bool := d.fld (o + 0x10) 24 1 = 1
      let m := (d.staging_ (2 * p + c)).copied
      (d.takesWrite (o + 0x10) → (d.staging_ (2 * p + c)).st ≠ 1 →
        exec (.stagingCopy p c) s = .next (s.withDev (d.setStaging (2 * p + c) { st := 1, status := 0, copied := 0 }))) ∧
      (∀ e, (d.staging_ (2 * p + c)).st ≠ 1 → exec (.stagingDone p c e) s = .next s) ∧
      (∀ e, (d.staging_ (2 * p + c)).st = 1 → d.servingIn p = true → d.hostUp = true →
        (m = 0 → d.stagingGranted p a (64 * n) = false → ∃ t, exec (.stagingDone p c e) s = .next t ∧
          t.dev.staging_ (2 * p + c) = { st := 3, status := 1, copied := 0 } ∧ t.dev.mem = d.mem ∧ t.dev.hostMem = d.hostMem) ∧
        (∀ f q, m ≠ 0 ∨ d.stagingGranted p a (64 * n) = true →
          d.copyLines p out (d.fld o 6 58 * 64 + 64 * m) (a + 64 * m) (min (min n (e.getD n) - m) (d.hostLeft out p / 64)) m = (f, q, false) →
          (n ≤ q → ∃ g : Dev, exec (.stagingDone p c e) s = .next (s.withDev g.settle) ∧
            g.staging_ (2 * p + c) = { st := 2, status := 0, copied := q } ∧ g.mem = f.mem ∧
            g.reg (o + 0x18) = f.reg (o + 0x18) + 1) ∧
          (q < n → e.getD n ≤ q → exec (.stagingDone p c e) s = .next (s.withDev (f.endStaging p c 2 q).settle)) ∧
          (q < n → q < e.getD n → exec (.stagingDone p c e) s = .next (s.withDev (f.stagingAt p c q).settle)))))

/-- R352, R353, R362, R363, R376. -/
def Obligations.MemoryAccess : Prop :=
  ∀ (d : Dev) (q : Req) (a : Nat),
    let p := ctxPart q.ctx
    (∀ w n, d.access q a w = .granted n ↔
      (d.inWindow p a = true ∧ d.regionOf a = some n ∧ d.regionPart n = p ∧
        (q.key = (d.region n).key ∨ ((d.region n).multi = true ∧ q.key ≠ 0 ∧ (d.key q.key).job = (d.key (d.region n).key).job)) ∧
        d.keyValid p q.key = true ∧ ((d.region n).key ≠ 0 → d.keyValid p (d.region n).key = true ∧ d.fld 0x10000 0 1 ≠ 0) ∧
        (q.cls = 0 → w = true → (d.region n).key = 0 → d.openOut p = true ∧ d.floorAdmits p = true) ∧
        (q.cls = 1 → q.key ≠ 0) ∧ (2 ≤ q.cls → (d.region n).key = 0))) ∧
    (∀ bs,
      (∀ e, d.write q a bs = .ok e () → e.bytes a bs.length = bs ∧
        ∀ b, b < a ∨ a + bs.length ≤ b → e.byte b = (d.forceRows (linesOf a bs.length)).byte b) ∧
      ((∃ l ∈ linesOf a bs.length, ∀ n, d.access q (128 * l) true ≠ .granted n) →
        ∃ e w, d.write q a bs = .fail e w ∧ (w = .bounds ∨ w = .denied) ∧ e.mem = d.mem ∧ e.lines = d.lines) ∧
      (∀ e n, let d0 := d.forceRows (linesOf a bs.length)
        a % 128 = 0 → bs.length = 128 → d0.regionOf a = some n → (d0.region n).st = .live → (d0.region n).key ≠ 0 →
        d.write q a bs = .ok e () →
          let m := d0.lineMeta (d0.region n) (a / 128)
          let bad := m.bad = true ∨ (d0.cached (a / 128) = false ∧ (d0.latent (a / 128) = .badEcc ∨ d0.latent (a / 128) = .badMac))
          Sparse.get (fun _ => none) e.lines (a / 128) =
            some { key := q.key, secret := (d0.key q.key).secret, epoch := (d0.region n).epoch,
                   ctr := if bad then (d0.region n).hw + 1 else m.ctr + 1, bad := false, ecc := false })) ∧
    (∀ n e bs, d.read q a n = .ok e bs → bs = d.bytes a n ∧ e.mem = d.mem ∧ e.lines = d.lines ∧
      ∀ l ∈ linesOf a n, ∃ r, d.regionOf (128 * l) = some r ∧ 
        (d.lineMeta (d.region r) l).failsUnder (d.region r) l q.key (d.key q.key).secret = false)

/-- R360, R361, R365, R367; the refusals' reasons are Table 12-7's. -/
def Obligations.RegionCommands : Prop :=
  ∀ (s : State) (sig : Bool) (fence : BitVec 14), s.dev.quiet = true →
    let d := s.dev
    let n := d.selRegion
    let x := d.region n
    let refused (r : Nat) : Dev := d.record 0 0x0506 .selvedge 16 (some (d.regionPart n)) (n + r * 2 ^ 12)
    let due := if sig then some (fence.toNat, x.fval) else none
    let changed (t : State) (y : Region) : Prop := t.dev.region n = y ∧ (∀ m, m ≠ n → t.dev.region m = d.region m) ∧
      t.dev.mem = d.mem ∧ t.dev.lines = d.lines ∧ t.dev.fences = d.fences ∧ t.dev.log = d.log
    (d.openReason n x = 0 ↔ (x.st = .closed ∧ d.granulesOk (d.regionPart n) x.base x.granules = true ∧ d.regionOverlaps n x = false ∧
      (x.key ≠ 0 → d.keyValid (d.regionPart n) x.key = true ∧
        (d.key x.key).job = d.fld (0x4110 + 0x100 * d.regionPart n) 0 12 ∧ d.nextEpoch x.key ≠ 0xFFFFFFFF) ∧
      (x.key = 0 → x.multi = false))) ∧
    (d.takesWrite 0x10120 →
      (d.openReason n x ≠ 0 → exec (.regionOpen sig fence) s = .next (s.withDev (refused (d.openReason n x)))) ∧
      (d.openReason n x = 0 → ∃ t, exec (.regionOpen sig fence) s = .next t ∧
        changed t { x with st := .opening, secret := (d.key x.key).secret, epoch := if x.key = 0 then 0 else d.nextEpoch x.key,
                           prior := 0, hw := 0, due := false, taken := [], bad := 0, sig := due } ∧
        ∀ k, t.dev.nextEpoch k = if x.key ≠ 0 ∧ k = x.key then d.nextEpoch k + 1 else d.nextEpoch k) ∧
      ((x.st = .closed ∨ x.st = .closing) → exec (.regionClose sig fence) s = .next (s.withDev (refused 8))) ∧
      (x.st ≠ .closed → x.st ≠ .closing → ∃ t, exec (.regionClose sig fence) s = .next t ∧
        changed t { x with st := .closing, taken := [], due := false, sig := due }) ∧
      ((x.st ≠ .live ∨ x.key = 0) → exec (.reencrypt sig fence) s = .next (s.withDev (refused 7))) ∧
      (x.st = .live → x.key ≠ 0 → d.nextEpoch x.key = 0xFFFFFFFF → exec (.reencrypt sig fence) s = .next (s.withDev (refused 6))) ∧
      (x.st = .live → x.key ≠ 0 → d.nextEpoch x.key ≠ 0xFFFFFFFF → ∃ t, exec (.reencrypt sig fence) s = .next t ∧
        changed t { x with st := .reencrypting, epoch := d.nextEpoch x.key, prior := x.epoch, hw := 0, due := false, taken := [], sig := due } ∧
        t.dev.nextEpoch x.key = d.nextEpoch x.key + 1)) ∧
    (∀ m, let y := d.region m
      let zeroed (f : Dev) : Prop :=
        (∀ a, y.base * granuleBytes ≤ a → a < (y.base + y.granules) * granuleBytes →
          f.byte a = if d.fenced .stack (d.stackOf a) = true then d.byte a else 0) ∧
        ∀ a, a < y.base * granuleBytes ∨ (y.base + y.granules) * granuleBytes ≤ a → f.byte a = d.byte a
      (y.st ≠ .opening → exec (.regionOpenDone m) s = .next s) ∧ (y.st ≠ .closing → exec (.regionCloseDone m) s = .next s) ∧
      (d.serving = true → d.memReady (d.regionPart m) = true →
        (y.st = .opening → d.onFencedStack y = true → ∃ t, exec (.regionOpenDone m) s = .next t ∧
          t.dev.region m = { y with st := .lost, sig := none } ∧ t.dev.mem = d.mem) ∧
        (y.st = .opening → d.onFencedStack y = false → ∃ f : Dev, exec (.regionOpenDone m) s = .next (s.withDev f.settle) ∧
          f.region m = { y with st := .live, sig := none } ∧ zeroed f ∧ (y.sig = none → f.fences = d.fences)) ∧
        (y.st = .closing → ∃ f : Dev, exec (.regionCloseDone m) s = .next (s.withDev f.settle) ∧
          f.region m = { y with st := .closed, sig := none } ∧ zeroed f ∧ (y.sig = none → f.fences = d.fences))))

/-- R368, R369, R370, R373 to R377. -/
def Obligations.StepsAndPatrol : Prop :=
  ∀ (s : State), s.dev.quiet = true →
    let d := s.dev
    let steps (n i forced : Nat) (c : Instr) : Prop :=
      let x := d.region n
      let first := x.base * 16384 + i * 512
      ∃ f : Dev, exec c s = .next (s.withDev f.settle) ∧ f.mem = d.mem ∧ f.reg 0x10038 = d.reg 0x10038 + 1 ∧
        f.reg 0x10040 = d.reg 0x10040 + BitVec.ofNat 64 forced ∧
        (∀ e ∈ f.lines, first ≤ e.1 → e.1 < first + 512 →
          ∃ m, e.2 = some m ∧ (m.bad = true ∨ (m.ctr = 0 ∧ m.epoch = x.epoch) ∨ m = d.lineMeta x e.1)) ∧
        (∀ e, e.1 < first ∨ first + 512 ≤ e.1 → (e ∈ f.lines ↔ e ∈ d.lines)) ∧
        ((∀ l, first ≤ l → l < first + 512 → d.latent l = .good) →
          (∀ l, first ≤ l → l < first + 512 → let m := d.lineMeta x l
            m.failsUnder x l m.key (d.key m.key).secret = false →
            Sparse.get (fun _ => none) f.lines l = none ∨
              Sparse.get (fun _ => none) f.lines l = some { m with epoch := x.epoch, ctr := 0 }) ∧
          ((insNat i x.taken).length < x.granules * 32 → f.region n = { x with taken := insNat i x.taken }) ∧
          (x.granules * 32 ≤ (insNat i x.taken).length → x.due = false → x.sig = none →
            f.region n = { x with st := .live, taken := [], sig := none, due := false } ∧ f.log.seq = d.log.seq + 1))
    (∀ n k, d.serving = true → d.power.stepBufs.contains k = false → d.unready .stack k = false → d.fenced .stack k = false →
      d.fenced .selvedge k = false →
      (d.nextStep (d.region n) k = none → exec (.reencryptStep n k) s = .next s) ∧
      ((d.region n).st ≠ .reencrypting → exec (.reencryptStep n k) s = .next s) ∧
      (∀ i, d.nextStep (d.region n) k = some i → (d.region n).st = .reencrypting →
        d.keyValid (d.regionPart n) (d.region n).key = true → steps n i 0 (.reencryptStep n k))) ∧
    (∀ a, (d.regionOf a = none → exec (.forcedStep a) s = .next s) ∧
      (∀ n, d.regionOf a = some n → d.servingIn (d.regionPart n) = true →
        let x := d.region n
        let i := x.stepOf (a / 128)
        ((x.st ≠ .reencrypting ∨ x.taken.contains i = true) → exec (.forcedStep a) s = .next s) ∧
        (x.st = .reencrypting → x.taken.contains i = false → i < x.granules * 32 → d.keyValid (d.regionPart n) x.key = true →
          steps n i 1 (.forcedStep a)))) ∧
    (∀ k, d.serving = true → d.unready .stack k = false →
      let e : Dev := { d with power := { d.power with stepBufs := d.power.stepBufs.filter (· ≠ k) } }
      (k ∈ d.power.stepBufs → d.stepBufs k = [] → exec (.stepBufferRecovery k) s = .next (s.withDev e)) ∧
      (∀ b, k ∈ d.power.stepBufs → d.stepBufs k = [b] → ∃ f : Dev, exec (.stepBufferRecovery k) s = .next (s.withDev f.settle) ∧
        f.stepBufs k = [] ∧ f.mem = d.mem ∧
        ((d.region b.num).st = .reencrypting → f.reg 0x10038 = d.reg 0x10038 + 1 ∧
          ((f.region b.num).taken.contains b.step = true ∨ (f.region b.num).taken = [])))) ∧
    (∀ a f, (d.regionOf a = none ∨ d.populated a = false ∨ (∀ n, d.regionOf a = some n → (d.region n).st ≠ .live)) →
      exec (.patrolRead a f) s = .next s) ∧
    (∀ a n, d.regionOf a = some n → d.servingIn (d.regionPart n) = true → d.populated a = true → (d.region n).st = .live →
      let x := d.region n
      let m := d.lineMeta x (a / 128)
      let k := d.stackOf a
      let reads (fd : LineFound) (f : Dev) : Prop := exec (.patrolRead a fd) s = .next (s.withDev f.settle) ∧ f.mem = d.mem ∧
        f.reg 0x10050 = d.reg 0x10050 + 1
      let marks (f : Dev) (ecc : Bool) : Prop := f.reg (if ecc then 0x10020 else 0x10028) = d.reg (if ecc then 0x10020 else 0x10028) + 1 ∧ f.region n = { x with bad := x.bad + 1 } ∧
        Sparse.get (fun _ => none) f.lines (a / 128) = some { m with bad := true, ecc := ecc }
      let passes : Prop := m.failsUnder x (a / 128) m.key (d.key m.key).secret = false
      (m.bad = true → ∀ fd, ∃ f, reads fd f ∧ f.lines = d.lines ∧
        f.reg (if m.ecc then 0x10020 else 0x10028) = d.reg (if m.ecc then 0x10020 else 0x10028) + 1) ∧
      (passes →
        (d.latent (a / 128) = .good → ∃ f, reads .good f ∧ f.region n = x ∧ f.lines = d.lines) ∧
        (∀ b, ((d.unit .stack k).hour ≠ d.hour ∨ (d.unit .stack k).corrected < 16) →
          ∃ f, reads (.corrected b) f ∧ f.reg 0x10010 = d.reg 0x10010 + 1 ∧ f.lines = d.lines ∧
            (f.settle.unit .stack k).corrected = (if (d.unit .stack k).hour = d.hour then (d.unit .stack k).corrected + 1 else 1)) ∧
        (∃ f, reads .retried f ∧ f.reg 0x10018 = d.reg 0x10018 + 1 ∧ f.lines = d.lines) ∧
        (∃ f, reads .badEcc f ∧ marks f true) ∧
        (x.key ≠ 0 → ∃ f, reads .badMac f ∧ marks f false) ∧
        (x.key = 0 → ∃ f, reads .badMac f ∧ f.region n = x ∧ f.lines = d.lines)))

/-- R272 to R277, R279. -/
def Obligations.CoppiceUnits : Prop :=
  ∀ (u : UnitType) (id : Nat) (s : State), s.dev.quiet = true →
    let d := s.dev
    let r := d.unit u id
    let engine : Prop := u = .videoEngine ∨ u = .audioEngine
    let fencedFor (r : UnitRec) (reason : Nat) : UnitRec :=
      { r with fenced := true, reason := reason, fencings := r.fencings + 1, passes := 0, lastTest := d.now, testing := false,
               permanent := decide (3 ≤ r.fencings + 1) }
    let may : Prop := d.testsOn = true ∧ (u = .tile ∨ u = .batten ∨ u = .videoEngine ∨ u = .audioEngine) ∧ r.fenced = true ∧
      r.permanent = false ∧ d.wholeFenced u id = false ∧ r.lastTest + testPeriod ≤ d.now
    let kept (f : Dev) : Prop := f.tiles = d.tiles ∧ f.mem = d.mem ∧ f.fences = d.fences ∧ f.rings = d.rings
    let spared (f : Dev) : Prop := f.tiles = d.tiles ∧ (u = .videoEngine → kept f)
    let both (e : PairReading) (x : PairState) : Prop := pairState e.first = x ∧ pairState e.second = x
    (∀ e, (d.hearsSource u id = false ∨ pairState e.first ≠ pairState e.second ∨ both e .quiet) →
      exec (.errorSignal u id e) s = .next s) ∧
    (∀ e, d.hearsSource u id = true →
      (∀ line, let n := if r.hour = d.hour then r.corrected + 1 else 1
        both e .error → e.cause = .corrected line → n ≤ 16 →
          ∃ f : Dev, exec (.errorSignal u id e) s = .next (s.withDev f.settle) ∧
            f.unit u id = { r with hour := d.hour, corrected := n } ∧ f.log.seq = d.log.seq + 1 ∧ kept f) ∧
      (engine → both e .error → e.cause = .uncorrectable →
        ∃ f : Dev, exec (.errorSignal u id e) s = .next (s.withDev f.settle) ∧ f.unit u id = fencedFor r 2 ∧ spared f) ∧
      (engine → both e .broken → ∃ f : Dev, exec (.errorSignal u id e) s = .next (s.withDev f.settle) ∧
        f.unit u id = fencedFor r 3 ∧ f.reg 0x8088 = d.reg 0x8088 + 1 ∧ spared f)) ∧
    ((d.testsOn = false ∨ d.fenced u id = true ∨ r.testing = true ∨ d.testDue u id = false ∨ d.mayTest u id = false) →
      exec (.inFieldTestStart u id) s = .next s) ∧
    (d.testsOn = true → d.fenced u id = false → r.testing = false → d.testDue u id = true → d.mayTest u id = true →
      ∃ t, exec (.inFieldTestStart u id) s = .next t ∧ t.dev.unit u id = { r with testing := true } ∧
        (u = .tile → t.dev.tileState id = 5) ∧ t.dev.mem = d.mem) ∧
    ((d.on = false ∨ r.testing = false) → ∀ ok, exec (.inFieldTestEnd u id ok) s = .next s) ∧
    (d.on = true → r.testing = true → d.fld 0x8060 63 1 = 0 →
      (∃ f : Dev, exec (.inFieldTestEnd u id true) s = .next (s.withDev f.settle) ∧
        f.unit u id = { r with testing := false, lastTest := d.now, overdue := false } ∧ f.reg 0x8068 = d.reg 0x8068 + 1 ∧
        (u = .tile → d.logicalOf id = none → f.tileState id = 6) ∧ f.mem = d.mem) ∧
      (engine → d.fenced u id = false → ∃ f : Dev, exec (.inFieldTestEnd u id false) s = .next (s.withDev f.settle) ∧
        f.unit u id = { fencedFor r 1 with overdue := false } ∧ f.reg 0x8068 = d.reg 0x8068 + 1 ∧
        f.reg 0x8078 = d.reg 0x8078 + 1 ∧ spared f)) ∧
    (d.testsOn = true → d.fenced u id = false → r.testing = false → r.lastTest + testPeriod + testGrace ≤ d.now →
      ((u = .batten ∨ u = .selvedge) → exec (.iftOverdue u id) s = .next s) ∧
      ((u = .videoEngine ∧ id < 32 ∨ u = .audioEngine ∧ id < 4) → ∃ t, exec (.iftOverdue u id) s = .next t ∧
        t.dev.unit u id = { r with testing := true } ∧ kept t.dev) ∧
      (∀ l, u = .tile → id < 1088 → d.logicalOf id = some l → d.leavingFor id = 0 →
        (d.spareFor id = none → r.overdue = true → exec (.iftOverdue u id) s = .next s) ∧
        (d.spareFor id = none → r.overdue = false → ∃ t, exec (.iftOverdue u id) s = .next t ∧
          t.dev.unit u id = { r with overdue := true } ∧ t.dev.log.seq = d.log.seq + 1) ∧
        (∀ q, d.spareFor id = some q → d.fencedFirst id q = false → (d.lt l).pick = none → (d.lt l).replay = none →
          ∃ f : Dev, exec (.iftOverdue u id) s = .next (s.withDev f.settle) ∧ f.physOf l = some q ∧ (f.unit .tile id).testing = true) ∧
        (∀ q, d.spareFor id = some q → ((d.lt l).pick ≠ none ∨ d.fencedFirst id q = true) → ∃ t, exec (.iftOverdue u id) s = .next t ∧
          t.dev.leavingFor id = 3 ∧ t.dev.physOf l = d.physOf l))) ∧
    ((¬ may → ∀ ok, exec (.fencedUnitRetest u id ok) s = .next s) ∧
      (may → d.fld 0x8060 63 1 = 0 →
        (∃ t, exec (.fencedUnitRetest u id false) s = .next t ∧ t.dev.unit u id = { r with passes := 0, lastTest := d.now } ∧
          t.dev.reg 0x8078 = d.reg 0x8078 + 1 ∧ t.dev.reg 0x8068 = d.reg 0x8068 + 1) ∧
        (r.passes + 1 < 3 → ∃ t, exec (.fencedUnitRetest u id true) s = .next t ∧
          t.dev.unit u id = { r with passes := r.passes + 1, lastTest := d.now } ∧ t.dev.reg 0x8068 = d.reg 0x8068 + 1) ∧
        (3 ≤ r.passes + 1 → ∃ t, exec (.fencedUnitRetest u id true) s = .next t ∧
          t.dev.unit u id = { r with fenced := false, reason := 0, passes := 0, lastTest := d.now, corrected := 0 } ∧
          t.dev.log.seq = d.log.seq + 1 ∧ (u = .tile → t.dev.tileState id = 6)))) ∧
    (∀ (e : Dev) (off i : Nat), let c := e.copies off
      (e.reg off).getLsbD i = (c.a.getLsbD i && c.b.getLsbD i || c.a.getLsbD i && c.c.getLsbD i || c.b.getLsbD i && c.c.getLsbD i)) ∧
    (∀ (e : Dev) (f : CopyFlip), (e.copies f.off).a = (e.copies f.off).b → (e.copies f.off).b = (e.copies f.off).c →
      ∀ off, (e.flipCopy f).reg off = e.reg off) ∧
    (∀ (e : Dev) (off lo w : Nat), lo + w ≤ 64 →
      let v (x : Word64) : Nat := bits x.toNat lo w
      let c := e.copies off
      let f := e.compareField off (lo, w)
      (v c.a = v c.b → v c.b = v c.c → f = e) ∧
      (∀ n, (v c.a = n ∧ v c.b = n ∧ v c.c ≠ n ∨ v c.a = n ∧ v c.c = n ∧ v c.b ≠ n ∨ v c.b = n ∧ v c.c = n ∧ v c.a ≠ n) →
        v (f.copies off).a = n ∧ v (f.copies off).b = n ∧ v (f.copies off).c = n ∧ f.log.seq = e.log.seq + 1) ∧
      (v c.a ≠ v c.b → v c.a ≠ v c.c → v c.b ≠ v c.c → f.fatalDue = true ∧ f.copies off = c))

/-- R12 to R16, R335, R344, R283, R285, R287, R21. -/
def Obligations.RegistersAndControls : Prop :=
  ∀ (s : State), s.dev.quiet = true →
    let d := s.dev
    let recorded (cause off v : Nat) : Dev := d.record 0 cause .register (off / 4) none v
    (∀ b off size v, (d.on = false ∨ d.power.d3 = true) → exec (.registerWrite b off size v) s = .next s) ∧
    (∀ b off size (v : Word64), d.on = true → d.power.d3 = false → (size ≠ 4 ∧ size ≠ 8 ∨ off % size ≠ 0) →
      exec (.registerWrite b off size v) s = .next (s.withDev
        (d.record 0 (if d.power.st = .held ∧ (b = true ∨ heldWritable off = false) then 0x0102 else 0x0101) (if b then .hub else .register)
          (if b then 3 else off / 4 % 65536) none (off % 2 ^ 18 + v.toNat % 2 ^ 32 * 2 ^ 32)))) ∧
    (∀ o (v : Word64) (sp : RegSpec), regAt o = some (sp, o) → plainAt o = true → o % sp.bytes = 0 → d.takesWrite o →
      ∃ t, exec (.registerWrite false o sp.bytes v) s = .next t ∧
        (∀ f ∈ sp.fields, (∀ b, lockAt o = some (o, b) → f.lo + f.w ≤ b ∨ b < f.lo) →
          t.dev.fld o f.lo f.w = f.after (d.locked o) (d.fld o f.lo f.w) (bits v.toNat f.lo f.w)) ∧
        (∀ x, x ≠ o → t.dev.reg x = d.reg x) ∧ t.dev.mem = d.mem ∧ t.dev.rings = d.rings ∧ t.dev.tiles = d.tiles) ∧
    (∀ off (v : Word64), off < 0x8000 → off % 4 = 0 → d.on = true → d.power.d3 = false → d.power.st ≠ .held →
      ∃ t, exec (.registerWrite true off 4 v) s = .next t ∧
        t.dev.msixEntry (off / 16) = (d.msixEntry (off / 16)).write (off % 16 / 4) (v.toNat % 2 ^ 32) ∧ t.dev.regs = d.regs) ∧
    (∀ x ∈ writeRows, exec x.1 s = exec (.registerWrite false x.2.1 x.2.2.1 (BitVec.ofNat 64 x.2.2.2)) s) ∧
    (d.takesWrite 0x800C →
      (∃ t, exec .clearAll s = .next t ∧ t.dev.log.uncleared = 0 ∧ t.dev.faultLow = false ∧ t.dev.log.lostTop = 0 ∧
        (∀ i e, t.dev.log.entry i = some e → 2 ≤ e.cls → e.cleared = true) ∧ t.dev.log.seq = d.log.seq) ∧
      exec .unpin s = .next (s.withDev { d with log := { d.log with pinned := 0 } })) ∧
    (∀ i, d.takesWrite 0x8010 →
      ((∀ e, d.log.entry i = some e → e.cls < 2 ∨ e.cleared = true) → exec (.cpClear i) s = .next s) ∧
      (∀ e, d.log.entry i = some e → 2 ≤ e.cls → e.cleared = false → ∃ t, exec (.cpClear i) s = .next t ∧
        t.dev.log.entry i = some { e with cleared := true } ∧ (∀ j, j ≠ i → t.dev.log.entry j = d.log.entry j) ∧
        t.dev.log.uncleared = (if d.log.uncleared = 0xFFFF then 0xFFFF else d.log.uncleared - 1))) ∧
    (∀ v : Word64, d.takesWrite 0x8060 →
      (s.fuses.lc ≠ .test → exec (.injectArm v) s = .next (s.withDev (recorded 0x0320 0x8060 v.toNat))) ∧
      (s.fuses.lc = .test → d.fld 0x8060 63 1 = 1 → exec (.injectArm v) s = .next (s.withDev (recorded 0x0003 0x8060 v.toNat))) ∧
      (s.fuses.lc = .test → d.fld 0x8060 63 1 = 0 → bits v.toNat 0 4 ≤ 10 → ∃ t, exec (.injectArm v) s = .next t ∧
        t.dev.fld 0x8060 0 4 = bits v.toNat 0 4 ∧ t.dev.fld 0x8060 63 1 = bits v.toNat 63 1 ∧ t.dev.mem = d.mem)) ∧
    (∀ p, p < 4 → d.takesWrite (0x20130 + 0x40 * p) → ∃ t, exec (.tlOvfClear p) s = .next t ∧
      (∀ e ∈ t.dev.tiles.logical, tilePart d.parts e.1 = p → e.2.sat = 0 ∧ e.2.nanint = 0) ∧ t.dev.regs = d.regs ∧ t.dev.mem = d.mem) ∧
    (∀ p, p < 4 → d.takesWrite (0x1C448 + 0x80 * p) → exec (.btOvfClear p) s = .next (s.withDev (d.setReg (btReg p + 0x18) 0))) ∧
    (∀ p (v : BitVec 32), p < 4 → d.takesWrite (mbReg p) →
      (d.fld (mbReg p) 14 1 = 0 → bits v.toNat 14 1 = 1 → ∃ t, exec (.mbTimingEnable p v) s = .next t ∧
        t.dev.fld (mbReg p) 14 1 = 1 ∧ t.dev.fld (mbReg p) 0 14 = bits v.toNat 0 14 ∧
        (∀ i ∈ [8, 0x10, 0x18, 0x20, 0x28], t.dev.reg (mbReg p + i) = 0) ∧ t.dev.mb p = { origin := none, durations := [] }) ∧
      (d.fld (mbReg p) 14 1 = 1 → ∃ t, exec (.mbTimingEnable p v) s = .next t ∧
        t.dev.fld (mbReg p) 0 14 = d.fld (mbReg p) 0 14 ∧ t.dev.mb p = d.mb p)) ∧
    (∀ v : BitVec 2, d.takesWrite 0x1C →
      (v = 3 → exec (.partitionCountChange v) s = .next (s.withDev (recorded 0x0001 0x1C 3))) ∧
      (v.toNat = d.fld 0x1C 0 2 → v ≠ 3 → exec (.partitionCountChange v) s = .next s) ∧
      (v ≠ 3 → v.toNat ≠ d.fld 0x1C 0 2 →
        (d.anyOpen = true ∨ d.allClosed = false → ∃ t, exec (.partitionCountChange v) s = .next t ∧
          t.dev.fld 0x1C 8 1 = 1 ∧ t.dev.fld 0x1C 0 2 = d.fld 0x1C 0 2 ∧ t.dev.log.seq = d.log.seq + 1) ∧
        (d.anyOpen = false → d.allClosed = true → ∃ t, exec (.partitionCountChange v) s = .next t ∧
          t.dev.fld 0x1C 0 2 = v.toNat ∧ (∀ p, p < t.dev.parts → t.dev.fld (0x4130 + 0x100 * p) 0 7 = 64 / t.dev.parts) ∧
          t.dev.mem = d.mem ∧ t.dev.log = d.log)))

/-- R438 to R441, R465, R466, R473, R419, R420, R307, R308. -/
def Obligations.ResetsAndBringup : Prop :=
  ∀ (s : State), s.dev.quiet = true →
    let d := s.dev
    let kept (c : Instr) (typ : Nat) : Prop := ∃ f : Dev, exec c s = .next (s.withDev f.settle) ∧ f.mem = d.mem ∧
      f.regions = d.regions ∧ f.fences = d.fences ∧ f.power.st = .bringup ∧ f.power.booted = false ∧
      f.power.resetNote = some (typ, true, false) ∧ f.cxl = Cxl.reset ∧ f.msix = [] ∧
      f.reg 0x5C = BitVec.ofNat 64 (typ + 16) ∧ f.timePs = d.timePs ∧ (∀ e ∈ lockBits, f.fld e.1 e.2 1 = 0) ∧
      ∀ p, p < d.parts → (∃ e ∈ d.ctxs, ctxPart e.1 = p ∧ e.2.st ≠ .closed) → f.recovered p = false
    let bare (f : Dev) : Prop := f.mem = [] ∧ f.lines = [] ∧ f.regions = [] ∧ f.keys = [] ∧ f.ctxs = [] ∧ f.rings = [] ∧
      f.fences = [] ∧ f.hostMem = d.hostMem ∧ f.reg 0x78 = d.reg 0x78
    let cleared (c : Instr) (typ : Nat) (acted : Bool) : Prop := ∃ f : Dev, exec c s = .next (s.withDev f.settle) ∧ bare f ∧
      f.power.st = .bringup ∧ f.power.resetNote = some (typ, false, acted) ∧ f.reg 0x5C = BitVec.ofNat 64 typ ∧
      f.timePs = d.timePs ∧ f.fld 0x98 32 32 = (d.fld 0x98 32 32 + 1) % 2 ^ 32
    let resets (c : Instr) (typ : Nat) : Prop := (d.tableUntrusted = false → kept c typ) ∧ (d.tableUntrusted = true → cleared c typ true)
    (d.on = true → exec .powerOn s = .next s ∧ (d.power.st ≠ .bringup → resets .perstN 1) ∧
      (d.power.st = .bringup → ∃ t, exec .perstN s = .next t ∧ t.dev.power.perst = true ∧ t.dev.cxl = Cxl.reset ∧
        t.dev.power.st = .bringup ∧ t.dev.regs = d.regs ∧ t.dev.mem = d.mem) ∧
      (∃ f : Dev, exec .powerLoss s = .next (s.withDev f.settle) ∧ bare f ∧ f.power.st = .off) ∧
      (d.cxl.up = true → resets .hotReset 2 ∧ resets .linkDisable 3) ∧
      (d.cxl.up = false → exec .hotReset s = .next s ∧ exec .linkDisable s = .next s)) ∧
    (d.on = false → exec .powerLoss s = .next s ∧ exec .perstN s = .next s ∧
      ∃ t, exec .powerOn s = .next t ∧ t.dev.power.st = .bringup ∧ t.dev.power.resetNote = some (0, false, false) ∧ t.dev.mem = d.mem) ∧
    exec .perstNRelease s = .next (s.withDev { d with power := { d.power with perst := false } }) ∧
    (d.takesWrite 0x58 → (d.power.resetDue ≠ some false → resets .keepingRegisterReset 4) ∧
      (d.power.resetDue ≠ some true → cleared .clearingRegisterReset 5 false) ∧
      (d.power.resetDue = some false → exec .keepingRegisterReset s = .next s) ∧
      (d.power.resetDue = some true → exec .clearingRegisterReset s = .next s)) ∧
    (∀ i, let awaits := d.on = true ∧ d.power.st = .bringup ∧ d.power.booted = false ∧ d.life.recovery = false
      (¬ awaits → exec (.bootVerify i) s = .next s) ∧
      (awaits → s.fuses.lc ≠ .blank →
        (∀ m, d.life.image = some m → bootStep (some m) i s.fuses.svn = none → ∃ t, exec (.bootVerify i) s = .next t ∧
          t.dev.power.booted = true ∧ t.dev.power.st = .bringup ∧ t.dev.life.running = some m ∧ t.dev.power.resetNote = none ∧
          t.dev.reg 0x10 = BitVec.ofNat 64 (m.version % 2 ^ 32 + m.svn * 2 ^ 32) ∧ t.dev.mem = d.mem) ∧
        (bootStep d.life.image i s.fuses.svn ≠ none → ∃ f : Dev, exec (.bootVerify i) s = .next (s.withDev f.settle) ∧
          f.life.recovery = true ∧ f.life.running = none ∧ f.power.st = .held ∧ f.reg 0x10 = 0 ∧ f.fatalDue = true)) ∧
      (awaits → s.fuses.lc = .blank → ∃ t, exec (.bootVerify i) s = .next t ∧ t.dev.power.booted = true ∧ t.dev.life.running = none)) ∧
    (∀ late, let e : Dev := { d with power := { d.power with notReady := late.map fun x => (unitCode x.1, x.2), st := .reduced } }
      (d.bringsUp = true → d.power.st = .bringup → e.minimumReady = true → ∃ t, exec (.bringupReduced late) s = .next t ∧
        t.dev.power = e.power ∧ t.dev.mem = d.mem ∧ t.dev.regs = d.regs) ∧
      ((d.bringsUp = false ∨ d.power.st ≠ .bringup ∨ e.minimumReady = false) → exec (.bringupReduced late) s = .next s)) ∧
    ((d.bringsUp = false ∨ (d.power.st ≠ .bringup ∧ d.power.st ≠ .reduced)) → ∀ bad, exec (.bringupFull bad) s = .next s) ∧
    (d.bringsUp = true → (d.power.st = .bringup ∨ d.power.st = .reduced) →
      (d.minimumUp = true → ∃ t, exec (.bringupFull []) s = .next t ∧ t.dev.power.st = .full ∧ t.dev.power.notReady = [] ∧
        t.dev.mem = d.mem) ∧
      (d.minimumUp = false → ∃ f : Dev, exec (.bringupFull []) s = .next (s.withDev f.settle) ∧ f.power.st = .held ∧ f.fatalDue = true ∧
        f.log.seq = d.log.seq + 1 ∧ f.mem = d.mem) ∧
      ∀ bad, ∃ f : Dev, exec (.bringupFull bad) s = .next (s.withDev f.settle) ∧ (f.power.st = .full ∨ f.power.st = .held)) ∧
    (d.on = true → d.power.st = .bringup → d.life.recovery = false → ∃ f : Dev, exec .bringupTimeout s = .next (s.withDev f.settle) ∧
      f.power.st = .held ∧ f.fatalDue = true ∧ f.log.seq = d.log.seq + 1) ∧
    ((d.on = false ∨ d.power.st ≠ .bringup ∨ d.life.recovery = true) → exec .bringupTimeout s = .next s) ∧
    (∀ p ok, p < 4 →
      let due := d.serving = true ∧ d.memReady p = true ∧ p ∈ d.power.recover ∧ ∀ k ∈ d.power.stepBufs, stackPart d.parts k ≠ p
      (¬ due → exec (.journalRecovery p ok) s = .next s) ∧
      (due → ∃ f : Dev, exec (.journalRecovery p ok) s = .next (s.withDev f.settle) ∧ p ∉ f.power.recover ∧
        (∀ l, tilePart d.parts l = p → (f.lt l).pick = none) ∧
        (ok = true → d.asideLost p = false → d.dispatches = [] → f.fences = d.fences) ∧
        (ok = false ∨ d.asideLost p = true → (∀ k, ctxPart k = p → (f.ctx k).st = .closed) ∧ (∀ n, rangePart d.parts 16384 n = p → f.fence n = Fence.reset) ∧
          (∀ r, ringPart r = p → f.ring r = Ring.reset) ∧ f.mem = d.mem)))

/-- R444 to R450. -/
def Obligations.PowerAndClocks : Prop :=
  ∀ (s : State), s.dev.quiet = true →
    let d := s.dev
    let w := d.power
    let kept (f : Dev) : Prop := f.mem = d.mem ∧ f.tiles = d.tiles ∧ f.rings = d.rings ∧ f.ctxs = d.ctxs
    let down := max 1250 (min w.tempMhz (if d.tileMhz = 0 then 2500 else d.tileMhz) - 25)
    (∀ watts, ((d.on = false ∨ d.now / 10000 < w.sampleNo) → exec (.powerSample watts) s = .next s) ∧
      (d.on = true → w.sampleNo ≤ d.now / 10000 → ∃ t, exec (.powerSample watts) s = .next t ∧ kept t.dev ∧
        t.dev.power.sampleNo = d.now / 10000 + 1 ∧ t.dev.power.energy = (w.energy + watts) % 100000 ∧
        t.dev.reg 0xA0 = d.reg 0xA0 + BitVec.ofNat 64 ((w.energy + watts) / 100000) ∧
        t.dev.power.tripped = decide (5 * d.limit < 4 * watts) ∧
        (5 * d.limit < 4 * watts → t.dev.power.loopMhz = 1250) ∧
        ((w.sampleNo - 1) / 100 = d.now / 10000 / 100 → t.dev.power.sampleSum = w.sampleSum + watts ∧
          t.dev.power.sampleCount = w.sampleCount + 1 ∧
          (d.fixed = false → w.isOver = true → 4 * watts ≤ 5 * d.limit →
            (watts ≤ d.limit → t.dev.power.isOver = false ∧ t.dev.power.loopMhz = w.loopMhz) ∧
            (d.limit < watts → 1250 < w.loopMhz → t.dev.power.loopMhz = max 1250 (w.loopMhz - 25)))))) ∧
    (∀ u id c, (thermalLimits u id = none → exec (.thermalThreshold u id c) s = .next s) ∧
      (∀ lim crit, thermalLimits u id = some (lim, crit) →
        ((d.on = false ∨ c < lim) → exec (.thermalThreshold u id c) s = .next s) ∧
        (d.on = true → lim ≤ c → ∃ f : Dev, exec (.thermalThreshold u id c) s = .next (s.withDev f.settle) ∧ f.thermOut = true ∧
          f.power.tempMhz = (if w.hot.contains (unitCode u, id) then w.tempMhz else down) ∧
          (crit ≤ c → f.fatalDue = true) ∧ (c < crit → f.fatalDue = false) ∧ kept f))) ∧
    (∀ die hub hbm, ((d.on = false ∨ d.now / 100000 < w.thermStep) → exec (.thermalThrottleStep die hub hbm) s = .next s) ∧
      (d.on = true → w.thermStep ≤ d.now / 100000 → ∃ t, exec (.thermalThrottleStep die hub hbm) s = .next t ∧ kept t.dev ∧
        t.dev.power.tempMhz = (if 100 ≤ die ∨ 105 ≤ hub ∨ 95 ≤ hbm then down
          else if die ≤ 97 ∧ hub ≤ 102 ∧ hbm ≤ 92 then min 2500 (w.tempMhz + 25) else w.tempMhz) ∧
        t.dev.power.hot = w.hot.filter fun k => throttleOf k.1 ≤ readingOf k.1 die hub hbm)) ∧
    (d.on = true → (d.thermOut = true → exec .thermNInput s = .next s) ∧
      (d.thermOut = false → ∃ t, exec .thermNInput s = .next t ∧ t.dev.power = { w with thermIn := true } ∧ t.dev.tileMhz ≤ 1250 ∧ kept t.dev) ∧
      exec .thermNRelease s = .next (s.withDev (d.setPw { w with thermIn := false })) ∧
      exec .refclkReturn s = .next (s.withDev (d.setPw { w with refclk := true })) ∧
      (w.refclk = true → ∃ f : Dev, exec .refclkLost s = .next (s.withDev f.settle) ∧ f.power.refclk = false ∧ f.fatalDue = true ∧
        f.log.seq = d.log.seq + 1 ∧ kept f)) ∧
    (d.on = false → exec .thermNInput s = .next s ∧ exec .thermNRelease s = .next s ∧ exec .refclkReturn s = .next s) ∧
    ((d.on = false ∨ w.refclk = false) → exec .refclkLost s = .next s) ∧
    (∀ v : BitVec 32, d.takesWrite 0x40 →
      (d.fixed = true → bits v.toNat 0 12 < 3200 → ∃ t, exec (.powerControlWrite v) s = .next t ∧ t.dev.limit = d.limit ∧
        t.dev.fld 0x40 12 1 = bits v.toNat 12 1 ∧ t.dev.log.seq = d.log.seq + 1) ∧
      (d.fixed = false ∨ bits v.toNat 0 12 = 3200 → 1600 ≤ bits v.toNat 0 12 → bits v.toNat 0 12 ≤ 3200 →
        ∃ t, exec (.powerControlWrite v) s = .next t ∧ t.dev.limit = bits v.toNat 0 12 ∧ t.dev.fld 0x40 12 1 = bits v.toNat 12 1 ∧
          kept t.dev ∧ (d.fixed = false → t.dev.fixed = true → t.dev.power.isOver = false))) ∧
    (∀ u id, let idle := d.on = true ∧ u = .tile ∧ id < 1088 ∧ d.tileState id = 1 ∧ d.tileFree id = true
      (idle → exec (.clockDomainGate u id) s = .next (s.withDev (d.setTileState id 0))) ∧
      (¬ idle → exec (.clockDomainGate u id) s = .next s))

/-- R331 to R333, R437, R453, R454, R458, R461, R462, R412. -/
def Obligations.LinkAndTime : Prop :=
  ∀ (s : State), s.dev.quiet = true →
    let d := s.dev
    let w := d.power
    let kept (f : Dev) : Prop := f.mem = d.mem ∧ f.tiles = d.tiles ∧ f.fences = d.fences ∧ f.regions = d.regions
    ((d.on = false ∨ d.cxl.up = false) → exec .cxlLinkDown s = .next s ∧ exec .d3hotEntry s = .next s ∧ exec .d0Return s = .next s ∧
      ∀ b n, exec (.ideFailure b n) s = .next s) ∧
    (d.on = true → d.cxl.up = true →
      (∃ f : Dev, exec .cxlLinkDown s = .next (s.withDev f.settle) ∧ f.cxl = Cxl.reset ∧ (∀ k ∈ d.openCtxs, k ∈ f.stopsDue) ∧ kept f) ∧
      (∀ b n, ((if b then d.cxl.ideCache else d.cxl.ideIo).contains n = false → exec (.ideFailure b n) s = .next s) ∧
        ((if b then d.cxl.ideCache else d.cxl.ideIo).contains n = true → ∃ f : Dev, exec (.ideFailure b n) s = .next (s.withDev f.settle) ∧
          n ∉ (if b then f.cxl.ideCache else f.cxl.ideIo) ∧ f.cxl.up = true ∧ (∀ k ∈ d.openCtxs, k ∈ f.stopsDue) ∧ kept f)) ∧
      (w.d3 = true → exec .d3hotEntry s = .next s) ∧
      (w.d3 = false → d.openCtxs = [] → ∃ t, exec .d3hotEntry s = .next t ∧ t.dev.power.d3 = true ∧ t.dev.power.before = w.st ∧
        t.dev.power.st = (if w.st = .reduced ∨ w.st = .full then .standby else w.st) ∧ kept t.dev ∧ t.dev.regs = d.regs) ∧
      (w.d3 = false → exec .d0Return s = .next s) ∧
      (w.d3 = true → ∃ t, exec .d0Return s = .next t ∧ t.dev.power.d3 = false ∧
        t.dev.power.st = (if w.st = .standby then w.before else w.st) ∧ kept t.dev ∧ t.dev.regs = d.regs)) ∧
    (∀ width rate flit cache,
      let may := d.on = true ∧ d.cxl.up = false ∧ w.perst = false ∧ (w.booted = true ∨ d.life.recovery = true) ∧
        width ∈ [1, 2, 4, 8] ∧ (rate = 5 ∨ rate = 6 ∧ flit = true)
      (¬ may → exec (.cxlLinkUp width rate flit cache) s = .next s) ∧
      (may → ∃ t, exec (.cxlLinkUp width rate flit cache) s = .next t ∧ t.dev.cxl =
        { up := true, width := width, rate := rate, flit256 := flit, cache := cache && !d.life.recovery,
          ideIo := [], ideCache := [], lines := [] } ∧
        (width = 8 → rate = 6 → cache = true → d.life.recovery = false → t.dev.log.seq = d.log.seq) ∧
        ((width ≠ 8 ∨ rate = 5 ∨ cache = false) → t.dev.log.seq = d.log.seq + 1) ∧ kept t.dev)) ∧
    ((d.on = false ∨ d.fld 0x60 0 1 = 0) → exec .syncEdge s = .next s ∧ exec .syncLost s = .next s) ∧
    (d.on = true → d.fld 0x60 0 1 = 1 → ∃ t, exec .syncEdge s = .next t ∧ t.dev.reg 0x70 = BitVec.ofNat 64 d.now ∧
      t.dev.fld 0x64 16 16 = edgeError d.now ∧ t.dev.fld 0x64 0 1 = b2n (decide (errorSize (edgeError d.now) ≤ 50)) ∧
      t.dev.power.edge = some (nearestEdge d.now) ∧ t.dev.power.timeSet = none ∧
      t.dev.timePs = (match w.timeSet with | some v => if d.now ≤ v then v * 1000 else d.timePs | none => d.timePs) ∧
      (∀ v, w.timeSet = some v → v < d.now → t.dev.fld 0x64 2 1 = 1 ∧ t.dev.log.seq = d.log.seq + 1) ∧ kept t.dev) ∧
    (w.edge = none → exec .syncLost s = .next s) ∧
    (∀ k, w.edge = some k → d.on = true → d.fld 0x60 0 1 = 1 →
      (d.now < (k + 3) * 1000000000 → exec .syncLost s = .next s) ∧
      ((k + 3) * 1000000000 ≤ d.now → ∃ t, exec .syncLost s = .next t ∧ t.dev.fld 0x64 1 1 = 1 ∧ t.dev.power.edge = none ∧
        t.dev.log.seq = d.log.seq + 1 ∧ t.dev.timePs = d.timePs)) ∧
    (∀ v : BitVec 32, d.takesWrite 0x60 → ∃ t, exec (.syncEnable v) s = .next t ∧ t.dev.fld 0x60 0 1 = bits v.toNat 0 1 ∧
      t.dev.fld 0x60 1 1 = bits v.toNat 1 1 ∧ kept t.dev ∧
      (d.fld 0x60 0 1 = 0 → bits v.toNat 0 1 = 1 → t.dev.power.uart = false ∧ t.dev.power.edge = some (d.now / 1000000000)) ∧
      (d.fld 0x60 0 1 = 1 → bits v.toNat 0 1 = 0 → t.dev.power.slewing = false ∧ t.dev.power.edge = none)) ∧
    (∀ v : BitVec 32, d.takesWrite 0x88 →
      (bits v.toNat 0 1 = 1 → d.fld 0x60 0 1 = 1 → ∃ t, exec (.uartRequest v) s = .next t ∧ t.dev.power.uart = w.uart ∧
        t.dev.fld 0x88 0 1 = d.fld 0x88 0 1 ∧ t.dev.fld 0x88 1 1 = 1 ∧ t.dev.log.seq = d.log.seq + 1) ∧
      ((bits v.toNat 0 1 = 0 ∨ d.fld 0x60 0 1 = 0) → ∃ t, exec (.uartRequest v) s = .next t ∧
        t.dev.power.uart = bit v.toNat 0 ∧ t.dev.fld 0x88 0 1 = bits v.toNat 0 1 ∧ kept t.dev)) ∧
    (∀ v : Word64, d.takesWrite 0x80 →
      let lc := s.fuses.lc
      let back := 2 ^ 64 - v.toNat
      let recent := w.backward.filter fun e => d.calendar < e.1 + 86400
      let total := recent.foldl (fun s e => s + e.2) back
      ((lc = .blank ∨ lc = .test) → exec (.calendarAdjust v) s = .next (s.withDev (d.setReg 0x78 v))) ∧
      (lc ≠ .blank → lc ≠ .test →
        (v.toNat < 2 ^ 63 → exec (.calendarAdjust v) s = .next (s.withDev (d.setReg 0x78 (BitVec.ofNat 64 (d.calendar + v.toNat))))) ∧
        (2 ^ 63 ≤ v.toNat → total ≤ 60 → ∃ t, exec (.calendarAdjust v) s = .next t ∧
          t.dev.reg 0x78 = BitVec.ofNat 64 (d.calendar - back) ∧ t.dev.power.backward = (d.calendar - back, back) :: recent) ∧
        (2 ^ 63 ≤ v.toNat → 60 < total → exec (.calendarAdjust v) s =
          .next (s.withDev (d.record 0 0x0108 .device 0 none v.toNat))))) ∧
    (∀ strobes flips, ((d.on = false ∨ d.now / 1000000 < w.ticks) → exec (.privetTick strobes flips) s = .next s) ∧
      (d.on = true → w.ticks ≤ d.now / 1000000 → ∃ f : Dev, exec (.privetTick strobes flips) s = .next (s.withDev f.settle) ∧
        f.power.ticks = d.now / 1000000 + 1)) ∧
    (∀ (e : Dev) (x : StrobeReading), (e.hearsSource x.unit x.id = false → e.strobe x = e) ∧
      (e.hearsSource x.unit x.id = true → pairState x.in1 = .error → pairState x.in2 = .error →
        (pairState x.after1 = .quiet → pairState x.after2 ≠ .broken → e.strobe x = e) ∧
        (pairState x.after1 = .error → pairState x.after2 = .error → e.strobe x = e.classify x.unit x.id x.cause)) ∧
      (e.hearsSource x.unit x.id = true → pairState x.in1 ≠ .error ∨ pairState x.in2 ≠ .error ∨ pairState x.after1 = .broken ∨
        pairState x.after2 = .broken → e.strobe x = e.pairBroken x.unit x.id)) ∧
    (∀ mv, (d.on = false → exec (.vbatLow mv) s = .next s) ∧
      (d.on = true → ∃ t, exec (.vbatLow mv) s = .next t ∧ t.dev.rtp.vbatLow = decide (mv < 2600) ∧
        t.dev.log.seq = d.log.seq + b2n (decide (mv < 2600)) ∧ kept t.dev))

/-- R388, R391, R393, R394, R397, R399, R400, R402, R403, R406 to R408, R410. -/
def Obligations.MailboxCommands : Prop :=
  ∀ (p : Nat) (s : State), s.dev.quiet = true →
    let d := s.dev
    let lc := s.fuses.lc
    let r := d.rtpPart p
    let bad (c : Instr) (st : Nat) : Prop := Completes c s st d.sameKeys
    let failed (c : Instr) : Prop := Completes c s 2 fun f => d.sameKeys f ∧ f.reg 0xC150 = d.reg 0xC150 + 1 ∧ f.log.seq = d.log.seq + 1
    (∀ m sig k x dest ks ok j b ln (tr : Transport) (up : KeyUpdate) (rl : Release) nc,
      let rows : List (Nat × Instr) := [(1, .manifestLoad p m sig), (2, .jobCreate p k x), (3, .jobJoin p dest k ks),
        (4, .jobResume p k ks ok), (5, .jobForget p), (6, .slotAlloc p k j b), (7, .slotFree p k),
        (8, .keyTransport p k ln tr.toTransportHead tr.mh tr.idh tr.env sig),
        (9, .keyUpdate p ln up.toUpdateHead up.mh up.idh up.counter up.keyId up.uses sig),
        (0x0A, .quorumRelease p rl.kind rl.mh rl.release rl.step rl.notAfter rl.toReleaseForm rl.entries), (0x0B, .evidence p nc)]
      ∀ e ∈ rows, (d.mailboxUp = false → exec e.2 s = .next s) ∧
        (d.mailboxUp = true → d.rtp.busy = true → d.rtp.cmd.map (fun c => (c.op, c.part)) ≠ some (e.1, p) →
          exec e.2 s = .next (s.withDev (d.record 0 0x0003 .register (0xC008 / 4) none (e.1 + 2 ^ 31)))) ∧
        (d.mailboxUp = true → d.rtp.busy = false → ∀ st, d.turnedAway lc e.1 p = some st → bad e.2 st)) ∧
    (d.looksAt lc 1 p → ∀ m sig, let c := Instr.manifestLoad p m sig
      (manifestFits m = false → bad c 1) ∧
      (manifestFits m = true → (manifestSigned m = false ∨ sigOk sig = false) → failed c) ∧
      (manifestFits m = true → manifestSigned m = true → sigOk sig = true →
        (manifestExpired m d.calendar = true → bad c 9) ∧
        (manifestExpired m d.calendar = false → Completes c s 0 fun f => (f.rtpPart p).manifest = some m ∧ f.keys = d.keys ∧
          ∀ q, q ≠ p → f.rtpPart q = d.rtpPart q))) ∧
    (d.looksAt lc 2 p → ∀ k x, let c := Instr.jobCreate p k x
      (r.manifest = none → bad c 5) ∧
      (∀ m, r.manifest = some m → manifestExpired m d.calendar = true → bad c 9) ∧
      (∀ m, r.manifest = some m → manifestExpired m d.calendar = false →
        (d.sliceFor p m = false → bad c 0x0B) ∧
        (∀ st, d.sliceFor p m = true → d.slotRefusal p k = some st → bad c st) ∧
        (d.sliceFor p m = true → d.slotRefusal p k = none → r.held = true → bad c 7) ∧
        (d.sliceFor p m = true → d.slotRefusal p k = none → r.held = false → Completes c s 0 fun f =>
          f.key k = jobSlot k m x ∧ (∀ j, j ≠ k → f.key j = d.key j) ∧ (f.rtpPart p).held = true ∧ (f.rtpPart p).slot = k ∧
            (f.rtpPart p).origin = 1 ∧ (f.rtpPart p).sealedRec.map Sealed.secret = some x))) ∧
    (d.looksAt lc 3 p → d.rtp.busy = false → ∀ m dest k ks, r.manifest = some m → d.rtp.revoked.contains m.mh = false →
      manifestExpired m d.calendar = false → d.slotsRefusal p (k :: ks) = none → r.held = false → r.joining = none →
        ∃ t, exec (.jobJoin p dest k ks) s = .next t ∧ t.dev.rtp.busy = true ∧ (t.dev.rtpPart p).joining = some (dest, k, ks) ∧
          t.dev.rtp.relayed = d.relays dest (.request m.mh) ∧ t.dev.keys = d.keys) ∧
    (d.looksAt lc 4 p → ∀ m x k ks, r.manifest = some m → r.sealedRec = some x → x.mh = m.mh →
      (Completes (.jobResume p k ks false) s 5 fun f => (f.rtpPart p).sealedRec = none ∧ f.keys = d.keys) ∧
      (d.rtp.revoked.contains m.mh = false → d.imageAdmitted m = true → manifestExpired m d.calendar = false →
        d.slotsRefusal p (k :: ks) = none → r.held = false → (x.keys.filter fun y => !y.2.expireRst).length ≤ ks.length →
          Completes (.jobResume p k ks true) s 0 fun f => (k ∉ ks → f.key k = jobSlot k m x.secret) ∧ (f.rtpPart p).held = true ∧
            (f.rtpPart p).secret = x.secret ∧ (f.rtpPart p).ctrs = x.ctrs ∧ (f.rtpPart p).origin = 3)) ∧
    (d.looksAt lc 5 p → (r.manifest = none → r.sealedRec = none → bad (.jobForget p) 5) ∧
      ((r.manifest ≠ none ∨ r.sealedRec ≠ none) → Completes (.jobForget p) s 0 fun f => f.rtpPart p = RtpPart.reset ∧
        (r.held = true → r.slot ≠ 0 → ∀ e ∈ d.keys, (d.key e.1).job = r.slot → e.1 ≠ 0 → e.2 = d.key e.1 →
          f.key e.1 = KeySlot.reset e.1))) ∧
    (∀ m, r.manifest = some m → d.rtpUp = true → manifestExpired m d.calendar = true →
      ∃ f : Dev, exec (.jobExpire p) s = .next (s.withDev f.settle) ∧ f.rtpPart p = RtpPart.reset ∧ f.mem = d.mem) ∧
    ((r.manifest = none ∨ d.rtpUp = false ∨ ∃ m, r.manifest = some m ∧ manifestExpired m d.calendar = false) →
      exec (.jobExpire p) s = .next s) ∧
    (d.looksAt lc 6 p → ∀ k j b, let c := Instr.slotAlloc p k j b
      (∀ st, d.slotRefusal p k = some st → bad c st) ∧
      (d.slotRefusal p k = none → (d.keyValid p j = false ∨ (d.key j).typ ≠ 2) → bad c 5) ∧
      (d.slotRefusal p k = none → d.keyValid p j = true → (d.key j).typ = 2 → Completes c s 0 fun f => (f.key k).typ = 3 ∧
        (f.key k).valid = true ∧ (f.key k).job = j ∧ (f.key k).expireRst = b ∧ (∀ i, i ≠ k → f.key i = d.key i) ∧
        f.rtp.parts = d.rtp.parts)) ∧
    (d.looksAt lc 7 p → ∀ k, let c := Instr.slotFree p k
      ((k = 0 ∨ 4096 ≤ k ∨ rangePart d.parts 4096 k ≠ p) → bad c 8) ∧
      (k ≠ 0 → k < 4096 → rangePart d.parts 4096 k = p → (d.key k).typ = 0 → bad c 1) ∧
      (k ≠ 0 → k < 4096 → rangePart d.parts 4096 k = p → (d.key k).typ ≠ 0 → Completes c s 0 fun f =>
        f.key k = KeySlot.reset k ∧ (r.held = true → r.slot = k → (f.rtpPart p).held = false))) ∧
    (d.looksAt lc 8 p → ∀ k ln (x : Transport) sig, let c := Instr.keyTransport p k ln x.toTransportHead x.mh x.idh x.env sig
      let formed : Prop := ln = 4761 ∧ x.magic = 0x10B34B01 ∧ x.rsvd = 0 ∧ x.env.body.length = 48
      (¬ formed → bad c 1) ∧ (formed → d.jobIs p x.mh = none → bad c 5) ∧
      (∀ m, formed → d.jobIs p x.mh = some m → (x.idh ≠ ownIdh lc → bad c 4) ∧
        (x.idh = ownIdh lc → x.owner < m.n → (sigOk sig = false → failed c) ∧
          (sigOk sig = true → let key := r.hybridFrom transportLabel x.mh (ownIdh lc) x.env.eph x.env.ct
            (openUnder key x.env.body = none → bad c 1) ∧
            (∀ bs, openUnder key x.env.body = some bs → d.slotRefusal p k = none → Completes c s 0 fun f =>
              f.key k = dataSlot r.slot { dk := leNat bs, owner := x.owner, uses := x.uses, expireRst := x.expireRst } ∧
              (∀ i, i ≠ k → f.key i = d.key i) ∧ f.rtp.parts = d.rtp.parts ∧ f.rtp.replyLen = 16 ∧
              f.getBuf 16 = leBytes 16 (keyFingerprint (leNat bs))))))) ∧
    (d.looksAt lc 9 p → ∀ ln (x : KeyUpdate) sig, let c := Instr.keyUpdate p ln x.toUpdateHead x.mh x.idh x.counter x.keyId x.uses sig
      let formed : Prop := ln = 3509 ∧ x.magic = 0x10B35501 ∧ x.rsvd = 0
      let next := Sparse.get (fun _ => 0) r.ctrs x.owner + 1
      (¬ formed → bad c 1) ∧ (formed → d.jobIs p x.mh = none → bad c 5) ∧
      (∀ m, formed → d.jobIs p x.mh = some m → 1 ≤ x.op → x.op ≤ 3 → x.owner < m.n → x.idh = ownIdh lc →
        (x.counter ≠ next → Completes c s 3 fun f => d.sameKeys f ∧ f.log.seq = d.log.seq + 1) ∧
        (x.counter = next → sigOk sig = false → failed c) ∧
        (x.counter = next → sigOk sig = true → Completes c s 0 fun f =>
          Sparse.get (fun _ => 0) (f.rtpPart p).ctrs x.owner = x.counter ∧
          ∀ k, (d.key k).typ = 4 → keyFingerprint (d.key k).secret = x.keyId → (d.key k).owner = x.owner →
            rangePart d.parts 4096 k = p → (k, d.key k) ∈ d.keys → k ≠ 0 → (x.op = 1 → (f.key k).valid = false) ∧
              (x.op = 2 → (f.key k).uses = x.uses % 2 ^ 32) ∧ (x.op = 3 → (f.key k).expireRst = decide (x.uses % 2 = 1))))) ∧
    (d.looksAt lc 0x0A p → ∀ (x : Release), let c := Instr.quorumRelease p x.kind x.mh x.release x.step x.notAfter x.toReleaseForm x.entries
      let formed : Prop := x.magic = 0x10B35201 ∧ x.rsvd = 0 ∧ (x.kind = 1 ∨ x.kind = 2) ∧ x.entries ≠ [] ∧ x.entries.length ≤ 255
      let accepted (l : Nat) : Prop := ∃ e ∈ d.rtp.parts, e.2.manifest.map Manifest.mh = some x.mh ∧ e.2.lastRelease = some l
      (¬ formed → bad c 1) ∧ (formed → d.jobIs p x.mh = none → bad c 5) ∧
      (∀ m, formed → d.jobIs p x.mh = some m →
        (∀ l, accepted l → x.release ≤ l → bad c 0x0D) ∧
        ((∀ l, accepted l → l < x.release) →
          (x.notAfter < d.calendar → bad c 9) ∧
          (d.calendar ≤ x.notAfter → (signersOf m x.entries).length < m.t → failed c) ∧
          (d.calendar ≤ x.notAfter → m.t ≤ (signersOf m x.entries).length →
            (x.kind = 1 → (∃ q ∈ d.holders x.mh, d.freeSlot q = none) → bad c 7) ∧
            (x.kind = 1 → (∀ q ∈ d.holders x.mh, d.freeSlot q ≠ none) → Completes c s 0 fun f => f.log.seq = d.log.seq + 1 ∧
              ∀ q ∈ d.holders x.mh, (f.rtpPart q).lastRelease = some x.release ∧ ∃ k, d.freeSlot q = some k ∧
                (f.key k).typ = 5 ∧ (f.key k).valid = true ∧ (f.key k).uses = 1 ∧ (f.key k).link = x.release ∧
                (f.key k).notAfter = x.notAfter ∧
                (f.key k).secret = (d.hybridTo (exportLabel x.release x.step) x.mh (ownIdh lc) x.rX x.rM).1.key) ∧
            (x.kind = 2 → Completes c s 0 fun f => x.mh ∈ f.rtp.revoked ∧
              ∀ q ∈ d.holders x.mh, (f.rtpPart q).held = false ∧ (f.rtpPart q).sealedRec = none))))) ∧
    (d.looksAt lc 0x0B p → ∀ nc, Completes (.evidence p nc) s 0 fun f => f.rtp.replyLen = 4909 ∧
      f.getBuf 1536 = d.evidenceBody lc p nc ∧ d.sameKeys f)

/-- R382, R383, R398, R399, R410, R411. -/
def Obligations.RtpMessages : Prop :=
  ∀ (s : State), s.dev.quiet = true →
    let d := s.dev
    (∀ v : BitVec 32, d.takesWrite 0xC008 →
      let bs := if bit v.toNat 8 then d.getBuf (bits v.toNat 12 14) else d.rtp.asm ++ d.getBuf (bits v.toNat 12 14)
      (d.rtp.busy = true → exec (.mailboxChunk v) s = .next (s.withDev (d.record 0 0x0003 .register (0xC008 / 4) none v.toNat))) ∧
      (d.rtp.busy = false → (d.rtpUp = false ∨ bit v.toNat 31 = false) → exec (.mailboxChunk v) s =
        .next (s.withDev (d.setFld 0xC008 0 26 v.toNat))) ∧
      (d.rtp.busy = false → d.rtpUp = true → bit v.toNat 31 = true → bits v.toNat 12 14 ≤ 8192 → bs.length ≤ 2097152 →
        bits v.toNat 0 8 ∈ mailOpcodes → ∃ t, exec (.mailboxChunk v) s = .next t ∧
          (bit v.toNat 9 = true → t.dev.rtp.busy = true ∧
            t.dev.rtp.cmd = some { op := bits v.toNat 0 8, part := bits v.toNat 10 2, bytes := bs } ∧ t.dev.rtp.asm = []) ∧
          (bit v.toNat 9 = false → t.dev.rtp.asm = bs ∧ t.dev.rtp.busy = false) ∧ t.dev.keys = d.keys)) ∧
    (d.mailboxUp = false → exec .nextReplyChunk s = .next s) ∧
    (d.mailboxUp = true → d.rtp.busy = false →
      (d.rtp.tampered = true → Completes .nextReplyChunk s 0x0A d.sameKeys) ∧
      (d.rtp.tampered = false → (d.life.recovery = true ∨ d.power.st = .held) → Completes .nextReplyChunk s 0x0B d.sameKeys) ∧
      (d.rtp.tampered = false → d.life.recovery = false → d.power.st ≠ .held → Completes .nextReplyChunk s d.rtp.status fun f =>
        f.rtp.replyLen = min d.rtp.more.length 8192 ∧ f.rtp.more = d.rtp.more.drop 8192 ∧ d.sameKeys f)) ∧
    (∀ p port dest e, let c := Instr.admissionRequest p port dest e
      let up := d.rtpUp = true ∧ d.rtp.tampered = false ∧ d.life.recovery = false ∧ d.keysServed s.fuses.lc = true ∧ p < d.parts ∧
        d.managed port = true
      let r := d.rtpPart p
      let refused (n : Nat) : Prop := ∃ t, exec c s = .next t ∧ t.dev.log.seq = d.log.seq + 1 ∧
        t.dev.rtp.relayed = d.relays dest (.refusal e.mh) ∧ d.sameKeys t.dev ∧
        ∃ x, t.dev.log.entry d.log.pos = some x ∧ x.cause = 0x0404 ∧ x.detail = (dest % 2 ^ 17 + n * 2 ^ 17) % 2 ^ 64
      (¬ up → exec c s = .next s) ∧
      (up → (r.manifest = none ∨ r.held = false) → refused 5) ∧
      (∀ m n, up → r.manifest = some m → r.held = true → failedCheck m e = some n → refused n) ∧
      (∀ m, up → r.manifest = some m → r.held = true → failedCheck m e = none → ∃ t, exec c s = .next t ∧
        (let h := (d.hybridTo admitLabel m.mh e.idh e.tpX e.tpM).1
         t.dev.rtp.relayed = d.relays dest (.admission m.mh
           { eph := h.eph, ct := h.ct, body := sealUnder h.key (admissionText r.secret (d.admissionKeys p)) })) ∧
        d.sameKeys t.dev ∧ t.dev.log = d.log)) ∧
    (∀ p e env x keys, let c := Instr.admission p e env x keys
      let r := d.rtpPart p
      ((r.joining = none ∨ r.manifest = none ∨ d.rtpUp = false ∨ d.rtp.tampered = true) → exec c s = .next s) ∧
      (∀ m v, r.manifest = some m → env = some v → r.admits s.fuses.lc m.mh v x keys = false → exec c s = .next s) ∧
      (∀ dest k ks m, r.joining = some (dest, k, ks) → r.manifest = some m → d.rtpUp = true → d.rtp.tampered = false →
        (d.ctx p).st ≠ .tearing → (∀ v, env = some v → r.admits s.fuses.lc m.mh v x keys = true) →
        (env = none → Completes c s 6 fun f => (f.rtpPart p).joining = none ∧ f.keys = d.keys) ∧
        (∀ n, env ≠ none → failedCheck m e = some n → Completes c s 6 fun f => (f.rtpPart p).joining = none ∧ f.keys = d.keys ∧
          f.log.seq = d.log.seq + 1) ∧
        (env ≠ none → failedCheck m e = none → keys.length ≤ ks.length → d.slotsRefusal p (k :: ks) = none → Completes c s 0 fun f =>
          (k ∉ ks → f.key k = jobSlot k m x) ∧ (f.rtpPart p).held = true ∧ (f.rtpPart p).secret = x ∧ (f.rtpPart p).origin = 2 ∧
            (f.rtpPart p).joining = none))) ∧
    (∀ p, (((d.rtpPart p).joining = none ∨ d.rtpUp = false) → exec (.holderUnreachable p) s = .next s) ∧
      (d.rtpUp = true → (d.rtpPart p).joining ≠ none → Completes (.holderUnreachable p) s 0x0C fun f =>
        f.rtpPart p = { d.rtpPart p with joining := none } ∧ f.keys = d.keys)) ∧
    (∀ port dest bs, let up := d.rtpUp = true ∧ d.managed port = true ∧ dest % 2 ^ 17 ≠ d.here.toNat
      (¬ up → exec (.rtpMessageRelay port dest bs) s = .next s) ∧
      (up → exec (.rtpMessageRelay port dest bs) s = .next (s.withDev
        { d with rtp := { d.rtp with relayed := d.relays (dest % 2 ^ 17) (.relay bs) } }))) ∧
    (∀ n, let active := 1 ≤ n ∧ n ≤ 5 ∧ (n = 4 → d.on = false) ∧ (n = 5 → d.on = true)
      (¬ active → exec (.tamper n) s = .next s) ∧
      (active → ∃ f : Dev, exec (.tamper n) s = .next (s.withDev f.settle) ∧ f.keys = [] ∧ f.rtp.rsPresent = false ∧
        f.rtp.tampered = true ∧ f.rtp.nextEpoch = [] ∧ (∀ p, (f.rtpPart p).manifest = none ∧ (f.rtpPart p).held = false) ∧
        f.reg 0x78 = 0 ∧ f.fatalDue = d.on ∧ f.mem = d.mem))

/-- R383, R395, R396, 11 R333. Response codes and algorithm numbers are the model's choice. -/
def Obligations.SpdmRows : Prop :=
  ∀ (s : State), s.dev.quiet = true →
    let d := s.dev
    let lc := s.fuses.lc
    let up := d.rtpUp = true ∧ (d.fld 0xC000 0 1 ≠ 0 ∨ d.fld 0xC000 1 1 ≠ 0)
    let neg := d.rtp.spdmNegotiated
    let signs := neg && d.rtp.rsPresent && !d.rtp.tampered
    let rows (nonce n : Nat) (b i ok : Bool) : List (Instr × Bool × Nat) :=
      [(.getVersion, true, 0x04), (.getCapabilities, d.rtp.spdmVersion, 0x61), (.negotiateAlgorithms, d.rtp.spdmVersion, 0x63),
       (.getDigests, neg, if d.hasCert lc then 0x01 else 0x7F), (.getCertificate, neg, if d.hasCert lc then 0x02 else 0x7F),
       (.challenge nonce, signs, 0x03), (.getMeasurements nonce, signs, 0x60), (.keyExchange, signs, 0x64),
       (.finish ok, d.rtp.spdmKex && ok, 0x65), (.endSession, d.rtp.spdmSession, 0x6C), (.ideKm b n i, d.rtp.spdmSession, 0x7E)]
    (∀ nonce n b i ok, ∀ x ∈ rows nonce n b i ok, (¬ up → exec x.1 s = .next s) ∧
      (up → (d.life.recovery = true ∨ lc = .blank ∨ x.2.1 = false) → exec x.1 s =
        .next (s.withDev { d with rtp := { d.rtp with spdmOut := d.rtp.spdmOut ++ [(0x7F, [])] } })) ∧
      (up → d.life.recovery = false → lc ≠ .blank → x.2.1 = true → ∃ t data, exec x.1 s = .next t ∧
        t.dev.rtp.spdmOut = d.rtp.spdmOut ++ [(x.2.2, data)] ∧ d.sameKeys t.dev ∧ t.dev.log = d.log)) ∧
    (up → d.life.recovery = false → lc ≠ .blank →
      (∃ t, exec .getVersion s = .next t ∧ t.dev.rtp.spdmVersion = true ∧ t.dev.rtp.spdmNegotiated = false ∧
        t.dev.rtp.spdmSession = false) ∧
      (d.rtp.spdmVersion = true → ∃ t, exec .negotiateAlgorithms s = .next t ∧ t.dev.rtp.spdmNegotiated = true) ∧
      (signs = true → ∃ t, exec .keyExchange s = .next t ∧ t.dev.rtp.spdmKex = true) ∧
      (d.rtp.spdmKex = true → ∃ t, exec (.finish true) s = .next t ∧ t.dev.rtp.spdmSession = true ∧ t.dev.rtp.spdmKex = false) ∧
      (d.rtp.spdmSession = true → (∃ t, exec .endSession s = .next t ∧ t.dev.rtp.spdmSession = false) ∧
        ∀ n, (∃ t, exec (.ideKm false n true) s = .next t ∧ n ∈ t.dev.cxl.ideIo ∧ t.dev.cxl.ideCache = d.cxl.ideCache) ∧
          (∃ t, exec (.ideKm true n true) s = .next t ∧ n ∈ t.dev.cxl.ideCache ∧ t.dev.cxl.ideIo = d.cxl.ideIo) ∧
          (∃ t, exec (.ideKm false n false) s = .next t ∧ n ∉ t.dev.cxl.ideIo) ∧
          (∃ t, exec (.ideKm true n false) s = .next t ∧ n ∉ t.dev.cxl.ideCache)))

/-- R415 to R417, R421 to R423, R426 to R431. -/
def Obligations.LifeCycleAndFirmware : Prop :=
  ∀ (s : State), s.dev.quiet = true →
    let d := s.dev
    let z := s.fuses
    let lc := z.lc
    let fails (c : Instr) : Prop := Completes c s 2 fun f => d.sameKeys f ∧ f.reg 0xC150 = d.reg 0xC150 + 1 ∧ f.log.seq = d.log.seq + 1
    let burns (c : Instr) (l : LifeCycle) (P : Dev → Prop) : Prop := ∃ f : Dev, exec c s =
      .next { s with dev := f.settle, fuses := { z with lc := l } } ∧ f.rtp.status = 0 ∧ f.rtp.busy = false ∧ P f
    (∀ tg au ce v sg b n off pr im no ix ct dc,
      let rows : List (Nat × Instr) := [(0x40, .lcAdvance tg au ce), (0x41, .eolArm v), (0x42, .eolConfirm v), (0x43, .fwBegin),
        (0x44, .fwData n off pr), (0x45, .fwCommit im), (0x46, .svnLock), (0x47, .debugChallenge no), (0x48, .debugOpen dc), (0x49, .debugClose),
        (0x4A, .lifelogRead ix ct), (0x4B, .certStore sg b), (0x4C, .flashInfo)]
      ∀ e ∈ rows, (d.mailboxUp = false → exec e.2 s = .next s) ∧
        (d.mailboxUp = true → d.rtp.busy = false → ∀ st, d.turnedAway lc e.1 0 = some st → Completes e.2 s st d.sameKeys)) ∧
    (d.looksAt lc 0x40 0 → ∀ au ce,
      (lc = .blank → (au = true → burns (.lcAdvance 1 au ce) .test fun f => f.rtp.rsPresent = true) ∧
        (au = false → Completes (.lcAdvance 1 au ce) s 2 d.sameKeys)) ∧
      (lc = .test → au = true → burns (.lcAdvance 2 au ce) .production fun f => f.keys = [] ∧ f.rtp.parts = [] ∧
        f.life.cert = false ∧ f.life.rights = 0 ∧ f.rtp.rsPresent = true) ∧
      (lc = .production → d.life.cert = true → Completes (.lcAdvance 2 au ce) s 0x0B d.sameKeys) ∧
      (lc = .production → d.life.cert = false → au = true → Completes (.lcAdvance 2 au ce) s 0 d.sameKeys) ∧
      (∀ c, lc = .endOfLife → d.certCheck lc 4 c = .good → burns (.lcAdvance 4 au (some c)) .analysis fun f =>
        f.life.rights = c.rights % 64 ∧ f.life.notAfter = c.notAfter ∧ f.life.nonce = none) ∧
      (∀ t, (lc = .analysis ∨ (lc = .endOfLife ∧ t ≠ 4) ∨ (lc = .production ∧ t ≠ 2) ∨ (lc = .test ∧ t ≠ 2) ∨ (lc = .blank ∧ t ≠ 1)) →
        Completes (.lcAdvance t au ce) s 0x0B d.sameKeys)) ∧
    (d.looksAt lc 0x41 0 → ∀ v : Word64,
      ((lc = .test ∨ lc = .production) → Completes (.eolArm v) s 0 fun f => f.life.eolArm = some (v.toNat, d.now) ∧ d.sameKeys f) ∧
      (lc ≠ .test → lc ≠ .production → Completes (.eolArm v) s 0x0B d.sameKeys)) ∧
    (d.looksAt lc 0x42 0 → ∀ v : Word64,
      (d.eolHolds lc v.toNat = true ↔ (lc = .test ∨ lc = .production) ∧
        ∃ t, d.life.eolArm = some (v.toNat, t) ∧ d.now < t + 10000000000) ∧
      (d.eolHolds lc v.toNat = true → burns (.eolConfirm v) .endOfLife fun f => f.keys = [] ∧ f.rtp.rsPresent = false ∧
        f.rtp.parts = [] ∧ f.life.rights = 0 ∧ ∀ k, (f.ctx k).st = .closed) ∧
      (d.eolHolds lc v.toNat = false → Completes (.eolConfirm v) s 0x0B d.sameKeys)) ∧
    (d.looksAt lc 0x4B 0 → ∀ sg b,
      ((lc ≠ .production ∨ d.life.cert = true) → Completes (.certStore sg b) s 0x0B d.sameKeys) ∧
      (lc = .production → d.life.cert = false → ((sigOk sg = false ∨ b = false) → fails (.certStore sg b)) ∧
        (sigOk sg = true → b = true → Completes (.certStore sg b) s 0 fun f => f.life.cert = true ∧ f.keys = d.keys))) ∧
    (d.looksAt lc 0x43 0 → Completes .fwBegin s 0 fun f => f.life.fwState = 1 ∧ f.life.fwBytes = 0 ∧ f.life.image = none ∧ f.keys = d.keys) ∧
    (d.looksAt lc 0x44 0 → ∀ n off pr,
      (d.life.fwState ≠ 1 → d.life.fwState ≠ 2 → Completes (.fwData n off pr) s 0x0B d.sameKeys) ∧
      (d.life.fwState = 1 ∨ d.life.fwState = 2 →
        ((2097152 < n ∨ off < d.life.fwEnd ∨ 134217728 < off + n) → Completes (.fwData n off pr) s 1 d.sameKeys) ∧
        (n ≤ 2097152 → d.life.fwEnd ≤ off → off + n ≤ 134217728 →
          (pr = false → d.life.spare = 0 → Completes (.fwData n off pr) s 0x10 d.sameKeys) ∧
          ((pr = true ∨ d.life.spare ≠ 0) → Completes (.fwData n off pr) s 0 fun f => f.life.fwState = 2 ∧
            f.life.fwBytes = d.life.fwBytes + n ∧ f.life.fwEnd = off + n ∧ f.life.spare = d.life.spare - (if pr then 0 else 1))))) ∧
    (d.looksAt lc 0x45 0 → ∀ i,
      (d.life.fwState ≠ 1 → d.life.fwState ≠ 2 → Completes (.fwCommit i) s 0x0B d.sameKeys) ∧
      (d.life.fwState = 1 ∨ d.life.fwState = 2 →
        (commitCheck i z.svn = .rollback → Completes (.fwCommit i) s 0x0F fun f => f.life.image = none) ∧
        (commitCheck i z.svn = .bad → Completes (.fwCommit i) s 0x0E fun f => f.life.image = none) ∧
        (commitCheck i z.svn = .good → d.life.recovery = false → Completes (.fwCommit i) s 0 fun f => f.life.image = some i ∧
          f.life.fwState = 3 ∧ f.log.seq = d.log.seq + 1 ∧ f.keys = d.keys) ∧
        (commitCheck i z.svn = .good → d.life.recovery = true → d.tableUntrusted = false → Completes (.fwCommit i) s 0 fun f =>
          f.life.image = some i ∧ f.life.recovery = false ∧ f.power.st = .bringup ∧ f.power.resetNote = some (6, true, false) ∧
          f.mem = d.mem))) ∧
    (d.looksAt lc 0x46 0 → (d.svnRaise z = none → Completes .svnLock s 0x0B d.sameKeys) ∧
      (∀ i, d.life.running = some i → z.svn < i.svn → i.svn ≤ 63 → ∃ f : Dev,
        exec .svnLock s = .next { s with dev := f.settle, fuses := { z with svn := i.svn } } ∧ f.rtp.status = 0 ∧ d.sameKeys f)) ∧
    (d.looksAt lc 0x47 0 → ∀ n, Completes (.debugChallenge n) s 0 fun f => f.life.nonce = some n ∧ f.rtp.replyLen = 32 ∧ d.sameKeys f) ∧
    (d.looksAt lc 0x48 0 → ∀ c,
      (lc = .endOfLife → Completes (.debugOpen c) s 0x0B fun f => f.life.nonce = none ∧ d.sameKeys f) ∧
      (lc ≠ .endOfLife →
        (d.certCheck lc (lcCode lc) c = .malformed → Completes (.debugOpen c) s 1 fun f => f.life.nonce = none ∧ d.sameKeys f) ∧
        (d.certCheck lc (lcCode lc) c = .signature → Completes (.debugOpen c) s 2 fun f => f.life.nonce = none ∧ d.sameKeys f) ∧
        (d.certCheck lc (lcCode lc) c = .device → Completes (.debugOpen c) s 4 fun f => f.life.nonce = none ∧ d.sameKeys f) ∧
        (d.certCheck lc (lcCode lc) c = .state → Completes (.debugOpen c) s 0x0B fun f => f.life.nonce = none ∧ d.sameKeys f) ∧
        (d.certCheck lc (lcCode lc) c = .expired → Completes (.debugOpen c) s 9 fun f => f.life.nonce = none ∧ d.sameKeys f) ∧
        (d.certCheck lc (lcCode lc) c = .good →
          (lc = .production → invasive c.rights = true → d.anyOpen = true → Completes (.debugOpen c) s 0x0B fun f =>
            f.life.nonce = none ∧ d.sameKeys f) ∧
          ((lc ≠ .production ∨ invasive c.rights = false ∨ d.anyOpen = false) → Completes (.debugOpen c) s 0 fun f =>
            f.life.nonce = none ∧ f.life.notAfter = c.notAfter ∧
            f.life.rights = (if lc = .blank ∨ lc = .test then 0x3F else if lc = .production then c.rights % 32 else c.rights % 64) ∧
            (lc = .production → invasive c.rights = true → ∀ k, k ≠ 0 → (f.key k).valid = false))))) ∧
    (d.looksAt lc 0x49 0 → Completes .debugClose s 0 fun f => f.life.rights = (if lc = .blank ∨ lc = .test then d.life.rights else 0) ∧
      f.keys = d.keys) ∧
    ((d.rtpUp = false ∨ d.calendar ≤ d.life.notAfter) → exec .debugRightsExpire s = .next s) ∧
    (d.rtpUp = true → d.life.notAfter < d.calendar → ∃ t, exec .debugRightsExpire s = .next t ∧
      t.dev.life.rights = (if lc = .blank ∨ lc = .test then d.life.rights else 0) ∧ t.dev.keys = d.keys ∧ t.dev.mem = d.mem) ∧
    (d.looksAt lc 0x4A 0 → ∀ ix ct, (128 < ct → Completes (.lifelogRead ix ct) s 1 d.sameKeys) ∧
      (ct ≤ 128 → Completes (.lifelogRead ix ct) s 0 fun f => d.sameKeys f ∧
        f.rtp.replyLen = 64 * ((d.life.log.drop (d.life.place ix)).take ct).length ∧ f.life.log = d.life.log)) ∧
    (d.looksAt lc 0x4C 0 → Completes .flashInfo s 0 fun f => f.rtp.replyLen = 8 ∧ f.getBuf 8 = leBytes 8 d.life.spare ∧ d.sameKeys f)

/-- R425, R362, R460. -/
def Obligations.DebugPort : Prop :=
  ∀ (s : State), s.dev.quiet = true →
    let d := s.dev
    let tap (t : Tap) : Dev := { d with tap := t }
    (∀ cp pl dr a w bs l st k sc,
      let rows : List (Instr × Nat) := [(.samplePreload cp pl, 0), (.extest dr, 0), (.debugMasterAccess a w bs, 3),
        (.sequencerHalt l st, 4), (.internalScan k sc, 5)]
      (d.on = false → (∀ e ∈ rows, exec e.1 s = .next s) ∧ exec .idcode s = .next s ∧ exec .bypass s = .next s ∧
        exec .traceFull s = .next s) ∧
      ∀ e ∈ rows, d.on = true → d.right e.2 = false → exec e.1 s = exec .bypass s) ∧
    (d.on = true →
      exec .idcode s = .next (s.withDev (tap { d.tap with ir := 0, dr := bitList 0x14C16A3B 32, extest := false, drive := [] })) ∧
      exec .bypass s = .next (s.withDev (tap { d.tap with ir := 1, dr := [false], extest := false, drive := [] })) ∧
      (d.right 0 = true → ∀ cp pl, exec (.samplePreload cp pl) s =
        .next (s.withDev (tap { d.tap with ir := 2, dr := cp, bscan := pl, extest := false, drive := [] }))) ∧
      (d.right 0 = true → ∀ dr, exec (.extest dr) s =
        .next (s.withDev (tap { d.tap with ir := 3, dr := d.tap.bscan, bscan := dr, drive := dr, extest := true }))) ∧
      (d.right 2 = true → exec .traceFull s = .next (s.withDev (tap { d.tap with full := true }))) ∧
      (d.right 2 = false → exec .traceFull s = .next s) ∧
      (d.right 3 = true → ∀ a bs,
        let p := a / d.window
        let q : Req := { ctx := p, cls := 3, key := 0 }
        ((d.parts ≤ p ∨ d.servingIn p = false) → ∀ w, exec (.debugMasterAccess a w bs) s = .next s) ∧
        (p < d.parts → d.servingIn p = true →
          (∀ w, (∃ x ∈ linesOf a bs.length, ∀ n, d.access q (128 * x) w ≠ .granted n) →
            ∃ f : Dev, exec (.debugMasterAccess a w bs) s = .next (s.withDev f.settle) ∧ f.mem = d.mem ∧ f.tap.dr = d.tap.dr) ∧
          (∀ e, d.write q a bs = .ok e () → exec (.debugMasterAccess a true bs) s = .next (s.withDev e.settle) ∧
            e.bytes a bs.length = bs) ∧
          (∀ e x, d.read q a bs.length = .ok e x → ∃ f : Dev, exec (.debugMasterAccess a false bs) s = .next (s.withDev f.settle) ∧
            f.tap.dr = (d.bytes a bs.length).flatMap (fun b => bitList b.toNat 8) ∧ f.mem = d.mem))) ∧
      (d.right 4 = true → ∀ l, (1024 ≤ l → ∀ b, exec (.sequencerHalt l b) s = .next s) ∧
        (l < 1024 → exec (.sequencerHalt l false) s = .next (s.withDev (tap { d.tap with halted := insNat l d.tap.halted })) ∧
          ∃ f : Dev, exec (.sequencerHalt l true) s = .next (s.withDev f.settle) ∧ l ∈ f.tap.halted ∧
            ((d.lt l).pick = none → ∃ e : Dev,
              exec (.pickStart l) (s.withDev (tap { d.tap with halted := d.tap.halted.filter (· ≠ l) })) = .next (s.withDev e.settle) ∧
              f = { e with tap := { e.tap with halted := insNat l e.tap.halted } }))) ∧
      (d.right 5 = true → ∀ k sc, ∃ t, exec (.internalScan k sc) s = .next t ∧ t.dev.tap.scan = d.tap.scan ++ [(k, sc)] ∧
        t.dev.tap.dr.length = sc.length ∧ t.dev.draws = d.draws + 1 ∧ t.dev.mem = d.mem ∧ t.dev.regs = d.regs))

/-- Table 14-2, R415, R423 over all commands; that nothing stays due is the model's own invariant. -/
def Obligations.EveryStepKeeps : Prop :=
  (∀ (c : Instr) (s : State), ∃ t, exec c s = .next t ∧ t.pending = s.pending) ∧
  ∀ (s : State), s.dev.quiet = true → ∃ t, step s = .next t ∧ t.dev.quiet = true ∧ t.pending = s.pending.tail ∧ FusesGrow s t ∧
    ((∀ c cs, s.pending = c :: cs → (∀ x y z, c ≠ .lcAdvance x y z) ∧ (∀ v, c ≠ .eolConfirm v) ∧ c ≠ .svnLock) → t.fuses = s.fuses)

/-- The reset values of the register tables; the life-cycle state at reset is log 5, the idle step log 6. -/
def Obligations.ResetState : Prop :=
  let d := State.reset.dev
  d.quiet = true ∧ State.reset.pending = [] ∧ d.memWf = true ∧ d.power.st = .bringup ∧ d.power.booted = false ∧ d.cxl.up = false ∧
    (∀ k, (d.ctx k).st = .closed) ∧ (∀ n, (d.region n).st = .closed) ∧ (∀ r, (d.ring r).st = .disabled) ∧
    (∀ n, (d.fence n).st = .free) ∧ (∀ k, (d.key k).valid = decide (k = 0)) ∧ (∀ i, d.log.entry i = none) ∧ d.faultLow = false ∧
    (∀ x ∈ [(0x0000, 0x4C161E3B), (0x0004, 0x11), (0x0040, 0xC80), (0x4000, 0), (0x4008, 0x07D0), (0x8000, 1), (0xC000, 3),
            (0x10004, 0xF000), (0x10008, 4), (0x1C108, 0x1410000), (0x20008, 0xF424), (0x2000C, 0xF4240), (0x26000, 0x180000),
            (0x2C138, 0x40)], d.reg x.1 = BitVec.ofNat 64 x.2) ∧
    d.parts = 1 ∧ State.reset.fuses = { lc := .production, svn := 0 } ∧
    ∃ t, step State.reset = .next t ∧ t.dev.timePs = 10000 ∧ t.dev.mem = d.mem ∧ t.dev.power.st = d.power.st
end

