-- ==== Sys2Proof/Laws/Sparse.lean ====
section
/-! SUPPORT. Sparse tables: what a key reads as after each operation, and that each operation keeps the canonical form. -/

namespace Sys2Proof.Machine

variable {α : Type}

@[simp] theorem Sparse.get_nil (d : Nat → α) (k : Nat) : Sparse.get d ([] : Sparse α) k = d k := rfl

/-- What a table holds beside what an unlisted key reads as stands in its list. -/
theorem Sparse.mem_of_get_ne (d : Nat → α) (m : Sparse α) (k : Nat) (h : Sparse.get d m k ≠ d k) : (k, Sparse.get d m k) ∈ m := by
  induction m with
  | nil => exact absurd rfl h
  | cons e m ih =>
    unfold Sparse.get at h ⊢
    split
    · rename_i hk; subst hk; exact List.mem_cons_self
    · rename_i hk; rw [if_neg hk] at h; exact List.mem_cons_of_mem _ (ih h)

theorem Sparse.get_insert (d : Nat → α) (m : Sparse α) (k : Nat) (v : α) (j : Nat) :
    Sparse.get d (Sparse.insert m k v) j = if j = k then v else Sparse.get d m j := by
  induction m with
  | nil => simp [Sparse.insert, Sparse.get]
  | cons e m ih =>
    obtain ⟨i, u⟩ := e
    simp only [Sparse.insert]
    split
    · simp [Sparse.get]
    · split
      · subst_vars; by_cases h : j = i <;> simp [Sparse.get, h]
      · simp only [Sparse.get, ih]; split <;> split <;> simp_all

theorem Sparse.get_erase (d : Nat → α) (m : Sparse α) (k j : Nat) :
    Sparse.get d (Sparse.erase m k) j = if j = k then d j else Sparse.get d m j := by
  induction m with
  | nil => simp [Sparse.erase, Sparse.get]
  | cons e m ih =>
    obtain ⟨i, u⟩ := e
    simp only [Sparse.erase]
    split
    · rw [ih]; subst_vars; by_cases h : j = i <;> simp [Sparse.get, h]
    · simp only [Sparse.get, ih]; split <;> split <;> simp_all

/-- A table reads back what was set, and everything else as before. -/
theorem Sparse.get_set [DecidableEq α] (d : Nat → α) (m : Sparse α) (k : Nat) (v : α) (j : Nat) :
    Sparse.get d (Sparse.set d m k v) j = if j = k then v else Sparse.get d m j := by
  unfold Sparse.set
  split
  · rw [Sparse.get_erase]; split <;> simp_all
  · exact Sparse.get_insert d m k v j

@[simp] theorem Sparse.get_set_self [DecidableEq α] (d : Nat → α) (m : Sparse α) (k : Nat) (v : α) :
    Sparse.get d (Sparse.set d m k v) k = v := by simp [Sparse.get_set]

theorem Sparse.get_set_ne [DecidableEq α] (d : Nat → α) (m : Sparse α) {k j : Nat} (v : α) (h : j ≠ k) :
    Sparse.get d (Sparse.set d m k v) j = Sparse.get d m j := by simp [Sparse.get_set, h]

/-! ### The canonical form -/

theorem Sparse.sortedFrom_some (b : Nat) (m : Sparse α) :
    Sparse.sortedFrom (some b) m = true ↔ Sparse.sortedFrom none m = true ∧ ∀ e ∈ m, b < e.1 := by
  induction m generalizing b with
  | nil => simp [Sparse.sortedFrom]
  | cons e m ih =>
    obtain ⟨i, u⟩ := e
    simp only [Sparse.sortedFrom, Bool.and_eq_true, decide_eq_true_eq, List.mem_cons, forall_eq_or_imp]
    constructor
    · rintro ⟨h, hm⟩
      exact ⟨hm, h, fun e he => lt_trans h (((ih i).1 hm).2 e he)⟩
    · rintro ⟨hm, h, -⟩
      exact ⟨h, hm⟩

theorem Sparse.wf_iff [DecidableEq α] (d : Nat → α) (m : Sparse α) :
    Sparse.wf d m = true ↔ Sparse.sortedFrom none m = true ∧ ∀ e ∈ m, e.2 ≠ d e.1 := by
  simp [Sparse.wf, List.all_eq_true]

theorem Sparse.sorted_filter (p : Nat × α → Bool) (m : Sparse α) (h : Sparse.sortedFrom none m = true) :
    Sparse.sortedFrom none (m.filter p) = true := by
  induction m with
  | nil => simp [Sparse.sortedFrom]
  | cons e m ih =>
    obtain ⟨i, u⟩ := e
    have h' := (Sparse.sortedFrom_some i m).1 h
    simp only [List.filter_cons]
    split
    · exact (Sparse.sortedFrom_some i _).2 ⟨ih h'.1, fun e he => h'.2 e (List.mem_of_mem_filter he)⟩
    · exact ih h'.1

theorem Sparse.erase_eq_filter (m : Sparse α) (k : Nat) : Sparse.erase m k = m.filter fun e => decide (e.1 ≠ k) := by
  induction m with
  | nil => rfl
  | cons e m ih =>
    obtain ⟨i, u⟩ := e
    simp only [Sparse.erase, ih, List.filter_cons]
    by_cases h : k = i <;> simp [h, eq_comm]

theorem Sparse.mem_insert (m : Sparse α) (k : Nat) (v : α) (e : Nat × α) (h : e ∈ Sparse.insert m k v) :
    e = (k, v) ∨ e ∈ m := by
  induction m with
  | nil => simpa [Sparse.insert] using h
  | cons a m ih =>
    obtain ⟨i, u⟩ := a
    simp only [Sparse.insert] at h
    split at h
    · simpa using h
    · split at h
      · rcases List.mem_cons.1 h with h | h
        · exact .inl h
        · exact .inr (List.mem_cons_of_mem _ h)
      · rcases List.mem_cons.1 h with h | h
        · exact .inr (by simp [h])
        · rcases ih h with h | h
          · exact .inl h
          · exact .inr (List.mem_cons_of_mem _ h)

theorem Sparse.sorted_insert (m : Sparse α) (k : Nat) (v : α) (h : Sparse.sortedFrom none m = true) :
    Sparse.sortedFrom none (Sparse.insert m k v) = true := by
  induction m with
  | nil => rfl
  | cons a m ih =>
    obtain ⟨i, u⟩ := a
    have h' := (Sparse.sortedFrom_some i m).1 h
    simp only [Sparse.insert]
    split
    · simpa [Sparse.sortedFrom] using ⟨‹k < i›, h⟩
    · split
      · subst_vars; exact h
      · refine (Sparse.sortedFrom_some i _).2 ⟨ih h'.1, fun e he => ?_⟩
        rcases Sparse.mem_insert m k v e he with h | h
        · subst h; simp only; omega
        · exact h'.2 e h

theorem Sparse.wf_filter [DecidableEq α] (d : Nat → α) (m : Sparse α) (p : Nat × α → Bool) (h : Sparse.wf d m = true) :
    Sparse.wf d (m.filter p) = true := by
  rw [Sparse.wf_iff] at *
  exact ⟨Sparse.sorted_filter p m h.1, fun e he => h.2 e (List.mem_of_mem_filter he)⟩

/-- A write keeps the canonical form. -/
theorem Sparse.wf_set [DecidableEq α] (d : Nat → α) (m : Sparse α) (k : Nat) (v : α) (h : Sparse.wf d m = true) :
    Sparse.wf d (Sparse.set d m k v) = true := by
  unfold Sparse.set
  split
  · rw [Sparse.erase_eq_filter]; exact Sparse.wf_filter d m _ h
  · rename_i hv
    rw [Sparse.wf_iff] at *
    refine ⟨Sparse.sorted_insert m k v h.1, fun e he => ?_⟩
    rcases Sparse.mem_insert m k v e he with h' | h'
    · subst h'; exact hv
    · exact h.2 e h'

theorem Sparse.wf_clear [DecidableEq α] (d : Nat → α) (m : Sparse α) (lo hi : Nat) (h : Sparse.wf d m = true) :
    Sparse.wf d (Sparse.clear m lo hi) = true := Sparse.wf_filter d m _ h

theorem Sparse.sorted_map (f : Nat → α → α) (m : Sparse α) (h : Sparse.sortedFrom none m = true) :
    Sparse.sortedFrom none (m.map fun e => (e.1, f e.1 e.2)) = true := by
  induction m with
  | nil => rfl
  | cons a m ih =>
    have h' := (Sparse.sortedFrom_some a.1 m).1 h
    refine (Sparse.sortedFrom_some a.1 _).2 ⟨ih h'.1, fun e he => ?_⟩
    obtain ⟨b, hb, rfl⟩ := List.mem_map.1 he
    exact h'.2 b hb

theorem Sparse.wf_alter [DecidableEq α] (d : Nat → α) (m : Sparse α) (f : Nat → α → α) (h : Sparse.wf d m = true) :
    Sparse.wf d (Sparse.alter d m f) = true := by
  rw [Sparse.wf_iff] at *
  refine ⟨Sparse.sorted_filter _ _ (Sparse.sorted_map f m h.1), fun e he => ?_⟩
  simpa using List.of_mem_filter he

end Sys2Proof.Machine
end

