-- ==== Sys2Proof/Laws/State.lean ====
section
/-! SUPPORT. One lemma per update of the device: every field it does not name is as before. By `simp` no proof unfolds a record
update. -/

namespace Sys2Proof.Machine

variable (d : Dev)

@[simp] theorem Dev.setReg_rest (off : Nat) (v : Word64) :
    (d.setReg off v).timePs = d.timePs ∧ (d.setReg off v).mem = d.mem ∧ (d.setReg off v).lines = d.lines ∧
    (d.setReg off v).regions = d.regions ∧ (d.setReg off v).keys = d.keys ∧ (d.setReg off v).ctrCache = d.ctrCache ∧
    (d.setReg off v).sv = d.sv ∧ (d.setReg off v).hostMem = d.hostMem ∧ (d.setReg off v).log = d.log ∧
    (d.setReg off v).units = d.units ∧ (d.setReg off v).msix = d.msix ∧ (d.setReg off v).msixPend = d.msixPend ∧
    (d.setReg off v).irqs = d.irqs ∧ (d.setReg off v).rings = d.rings ∧ (d.setReg off v).ctxs = d.ctxs ∧
    (d.setReg off v).fences = d.fences ∧ (d.setReg off v).dispatches = d.dispatches ∧ (d.setReg off v).staging = d.staging ∧
    (d.setReg off v).used = d.used ∧ (d.setReg off v).weft = d.weft ∧ (d.setReg off v).tiles = d.tiles ∧
    (d.setReg off v).battens = d.battens ∧ (d.setReg off v).btParts = d.btParts ∧ (d.setReg off v).shuttle = d.shuttle ∧
    (d.setReg off v).pleach = d.pleach ∧ (d.setReg off v).rtp = d.rtp ∧ (d.setReg off v).life = d.life ∧
    (d.setReg off v).power = d.power ∧ (d.setReg off v).cxl = d.cxl ∧ (d.setReg off v).tap = d.tap ∧
    (d.setReg off v).stopsDue = d.stopsDue ∧ (d.setReg off v).sigsDue = d.sigsDue ∧ (d.setReg off v).fatalDue = d.fatalDue ∧
    (d.setReg off v).draws = d.draws :=
  ⟨rfl, rfl, rfl, rfl, rfl, rfl, rfl, rfl, rfl, rfl, rfl, rfl, rfl, rfl, rfl, rfl, rfl, rfl, rfl, rfl, rfl, rfl, rfl, rfl, rfl, rfl, rfl, rfl, rfl, rfl, rfl, rfl, rfl, rfl⟩

@[simp] theorem Dev.setFld_rest (off lo w x : Nat) :
    (d.setFld off lo w x).timePs = d.timePs ∧ (d.setFld off lo w x).mem = d.mem ∧ (d.setFld off lo w x).lines = d.lines ∧
    (d.setFld off lo w x).regions = d.regions ∧ (d.setFld off lo w x).keys = d.keys ∧
    (d.setFld off lo w x).ctrCache = d.ctrCache ∧ (d.setFld off lo w x).sv = d.sv ∧
    (d.setFld off lo w x).hostMem = d.hostMem ∧ (d.setFld off lo w x).log = d.log ∧ (d.setFld off lo w x).units = d.units ∧
    (d.setFld off lo w x).msix = d.msix ∧ (d.setFld off lo w x).msixPend = d.msixPend ∧
    (d.setFld off lo w x).irqs = d.irqs ∧ (d.setFld off lo w x).rings = d.rings ∧ (d.setFld off lo w x).ctxs = d.ctxs ∧
    (d.setFld off lo w x).fences = d.fences ∧ (d.setFld off lo w x).dispatches = d.dispatches ∧
    (d.setFld off lo w x).staging = d.staging ∧ (d.setFld off lo w x).used = d.used ∧ (d.setFld off lo w x).weft = d.weft ∧
    (d.setFld off lo w x).tiles = d.tiles ∧ (d.setFld off lo w x).battens = d.battens ∧
    (d.setFld off lo w x).btParts = d.btParts ∧ (d.setFld off lo w x).shuttle = d.shuttle ∧
    (d.setFld off lo w x).pleach = d.pleach ∧ (d.setFld off lo w x).rtp = d.rtp ∧ (d.setFld off lo w x).life = d.life ∧
    (d.setFld off lo w x).power = d.power ∧ (d.setFld off lo w x).cxl = d.cxl ∧ (d.setFld off lo w x).tap = d.tap ∧
    (d.setFld off lo w x).stopsDue = d.stopsDue ∧ (d.setFld off lo w x).sigsDue = d.sigsDue ∧
    (d.setFld off lo w x).fatalDue = d.fatalDue ∧ (d.setFld off lo w x).draws = d.draws :=
  ⟨rfl, rfl, rfl, rfl, rfl, rfl, rfl, rfl, rfl, rfl, rfl, rfl, rfl, rfl, rfl, rfl, rfl, rfl, rfl, rfl, rfl, rfl, rfl, rfl, rfl, rfl, rfl, rfl, rfl, rfl, rfl, rfl, rfl, rfl⟩

@[simp] theorem Dev.bump_rest (off n : Nat) :
    (d.bump off n).timePs = d.timePs ∧ (d.bump off n).mem = d.mem ∧ (d.bump off n).lines = d.lines ∧
    (d.bump off n).regions = d.regions ∧ (d.bump off n).keys = d.keys ∧ (d.bump off n).ctrCache = d.ctrCache ∧
    (d.bump off n).sv = d.sv ∧ (d.bump off n).hostMem = d.hostMem ∧ (d.bump off n).log = d.log ∧
    (d.bump off n).units = d.units ∧ (d.bump off n).msix = d.msix ∧ (d.bump off n).msixPend = d.msixPend ∧
    (d.bump off n).irqs = d.irqs ∧ (d.bump off n).rings = d.rings ∧ (d.bump off n).ctxs = d.ctxs ∧
    (d.bump off n).fences = d.fences ∧ (d.bump off n).dispatches = d.dispatches ∧ (d.bump off n).staging = d.staging ∧
    (d.bump off n).used = d.used ∧ (d.bump off n).weft = d.weft ∧ (d.bump off n).tiles = d.tiles ∧
    (d.bump off n).battens = d.battens ∧ (d.bump off n).btParts = d.btParts ∧ (d.bump off n).shuttle = d.shuttle ∧
    (d.bump off n).pleach = d.pleach ∧ (d.bump off n).rtp = d.rtp ∧ (d.bump off n).life = d.life ∧
    (d.bump off n).power = d.power ∧ (d.bump off n).cxl = d.cxl ∧ (d.bump off n).tap = d.tap ∧
    (d.bump off n).stopsDue = d.stopsDue ∧ (d.bump off n).sigsDue = d.sigsDue ∧ (d.bump off n).fatalDue = d.fatalDue ∧
    (d.bump off n).draws = d.draws :=
  ⟨rfl, rfl, rfl, rfl, rfl, rfl, rfl, rfl, rfl, rfl, rfl, rfl, rfl, rfl, rfl, rfl, rfl, rfl, rfl, rfl, rfl, rfl, rfl, rfl, rfl, rfl, rfl, rfl, rfl, rfl, rfl, rfl, rfl, rfl⟩

@[simp] theorem Dev.setCtx_rest (k : Nat) (c : Ctx) :
    (d.setCtx k c).timePs = d.timePs ∧ (d.setCtx k c).regs = d.regs ∧ (d.setCtx k c).mem = d.mem ∧
    (d.setCtx k c).lines = d.lines ∧ (d.setCtx k c).regions = d.regions ∧ (d.setCtx k c).keys = d.keys ∧
    (d.setCtx k c).ctrCache = d.ctrCache ∧ (d.setCtx k c).sv = d.sv ∧ (d.setCtx k c).hostMem = d.hostMem ∧
    (d.setCtx k c).log = d.log ∧ (d.setCtx k c).units = d.units ∧ (d.setCtx k c).msix = d.msix ∧
    (d.setCtx k c).msixPend = d.msixPend ∧ (d.setCtx k c).irqs = d.irqs ∧ (d.setCtx k c).rings = d.rings ∧
    (d.setCtx k c).fences = d.fences ∧ (d.setCtx k c).dispatches = d.dispatches ∧ (d.setCtx k c).staging = d.staging ∧
    (d.setCtx k c).used = d.used ∧ (d.setCtx k c).weft = d.weft ∧ (d.setCtx k c).tiles = d.tiles ∧
    (d.setCtx k c).battens = d.battens ∧ (d.setCtx k c).btParts = d.btParts ∧ (d.setCtx k c).shuttle = d.shuttle ∧
    (d.setCtx k c).pleach = d.pleach ∧ (d.setCtx k c).rtp = d.rtp ∧ (d.setCtx k c).life = d.life ∧
    (d.setCtx k c).power = d.power ∧ (d.setCtx k c).cxl = d.cxl ∧ (d.setCtx k c).tap = d.tap ∧
    (d.setCtx k c).stopsDue = d.stopsDue ∧ (d.setCtx k c).sigsDue = d.sigsDue ∧ (d.setCtx k c).fatalDue = d.fatalDue ∧
    (d.setCtx k c).draws = d.draws :=
  ⟨rfl, rfl, rfl, rfl, rfl, rfl, rfl, rfl, rfl, rfl, rfl, rfl, rfl, rfl, rfl, rfl, rfl, rfl, rfl, rfl, rfl, rfl, rfl, rfl, rfl, rfl, rfl, rfl, rfl, rfl, rfl, rfl, rfl, rfl⟩

@[simp] theorem Dev.account_rest (k i n : Nat) :
    (d.account k i n).timePs = d.timePs ∧ (d.account k i n).regs = d.regs ∧ (d.account k i n).mem = d.mem ∧
    (d.account k i n).lines = d.lines ∧ (d.account k i n).regions = d.regions ∧ (d.account k i n).keys = d.keys ∧
    (d.account k i n).ctrCache = d.ctrCache ∧ (d.account k i n).sv = d.sv ∧ (d.account k i n).hostMem = d.hostMem ∧
    (d.account k i n).log = d.log ∧ (d.account k i n).units = d.units ∧ (d.account k i n).msix = d.msix ∧
    (d.account k i n).msixPend = d.msixPend ∧ (d.account k i n).irqs = d.irqs ∧ (d.account k i n).rings = d.rings ∧
    (d.account k i n).fences = d.fences ∧ (d.account k i n).dispatches = d.dispatches ∧
    (d.account k i n).staging = d.staging ∧ (d.account k i n).used = d.used ∧ (d.account k i n).weft = d.weft ∧
    (d.account k i n).tiles = d.tiles ∧ (d.account k i n).battens = d.battens ∧ (d.account k i n).btParts = d.btParts ∧
    (d.account k i n).shuttle = d.shuttle ∧ (d.account k i n).pleach = d.pleach ∧ (d.account k i n).rtp = d.rtp ∧
    (d.account k i n).life = d.life ∧ (d.account k i n).power = d.power ∧ (d.account k i n).cxl = d.cxl ∧
    (d.account k i n).tap = d.tap ∧ (d.account k i n).stopsDue = d.stopsDue ∧ (d.account k i n).sigsDue = d.sigsDue ∧
    (d.account k i n).fatalDue = d.fatalDue ∧ (d.account k i n).draws = d.draws :=
  ⟨rfl, rfl, rfl, rfl, rfl, rfl, rfl, rfl, rfl, rfl, rfl, rfl, rfl, rfl, rfl, rfl, rfl, rfl, rfl, rfl, rfl, rfl, rfl, rfl, rfl, rfl, rfl, rfl, rfl, rfl, rfl, rfl, rfl, rfl⟩

@[simp] theorem Dev.setUnit_rest (u : UnitType) (i : Nat) (r : UnitRec) :
    (d.setUnit u i r).timePs = d.timePs ∧ (d.setUnit u i r).regs = d.regs ∧ (d.setUnit u i r).mem = d.mem ∧
    (d.setUnit u i r).lines = d.lines ∧ (d.setUnit u i r).regions = d.regions ∧ (d.setUnit u i r).keys = d.keys ∧
    (d.setUnit u i r).ctrCache = d.ctrCache ∧ (d.setUnit u i r).sv = d.sv ∧ (d.setUnit u i r).hostMem = d.hostMem ∧
    (d.setUnit u i r).log = d.log ∧ (d.setUnit u i r).msix = d.msix ∧ (d.setUnit u i r).msixPend = d.msixPend ∧
    (d.setUnit u i r).irqs = d.irqs ∧ (d.setUnit u i r).rings = d.rings ∧ (d.setUnit u i r).ctxs = d.ctxs ∧
    (d.setUnit u i r).fences = d.fences ∧ (d.setUnit u i r).dispatches = d.dispatches ∧
    (d.setUnit u i r).staging = d.staging ∧ (d.setUnit u i r).used = d.used ∧ (d.setUnit u i r).weft = d.weft ∧
    (d.setUnit u i r).tiles = d.tiles ∧ (d.setUnit u i r).battens = d.battens ∧ (d.setUnit u i r).btParts = d.btParts ∧
    (d.setUnit u i r).shuttle = d.shuttle ∧ (d.setUnit u i r).pleach = d.pleach ∧ (d.setUnit u i r).rtp = d.rtp ∧
    (d.setUnit u i r).life = d.life ∧ (d.setUnit u i r).power = d.power ∧ (d.setUnit u i r).cxl = d.cxl ∧
    (d.setUnit u i r).tap = d.tap ∧ (d.setUnit u i r).stopsDue = d.stopsDue ∧ (d.setUnit u i r).sigsDue = d.sigsDue ∧
    (d.setUnit u i r).fatalDue = d.fatalDue ∧ (d.setUnit u i r).draws = d.draws :=
  ⟨rfl, rfl, rfl, rfl, rfl, rfl, rfl, rfl, rfl, rfl, rfl, rfl, rfl, rfl, rfl, rfl, rfl, rfl, rfl, rfl, rfl, rfl, rfl, rfl, rfl, rfl, rfl, rfl, rfl, rfl, rfl, rfl, rfl, rfl⟩

@[simp] theorem Dev.lifeWrite_rest (t : Nat) (b : List Byte) :
    (d.lifeWrite t b).timePs = d.timePs ∧ (d.lifeWrite t b).regs = d.regs ∧ (d.lifeWrite t b).mem = d.mem ∧
    (d.lifeWrite t b).lines = d.lines ∧ (d.lifeWrite t b).regions = d.regions ∧ (d.lifeWrite t b).keys = d.keys ∧
    (d.lifeWrite t b).ctrCache = d.ctrCache ∧ (d.lifeWrite t b).sv = d.sv ∧ (d.lifeWrite t b).hostMem = d.hostMem ∧
    (d.lifeWrite t b).log = d.log ∧ (d.lifeWrite t b).units = d.units ∧ (d.lifeWrite t b).msix = d.msix ∧
    (d.lifeWrite t b).msixPend = d.msixPend ∧ (d.lifeWrite t b).irqs = d.irqs ∧ (d.lifeWrite t b).rings = d.rings ∧
    (d.lifeWrite t b).ctxs = d.ctxs ∧ (d.lifeWrite t b).fences = d.fences ∧ (d.lifeWrite t b).dispatches = d.dispatches ∧
    (d.lifeWrite t b).staging = d.staging ∧ (d.lifeWrite t b).used = d.used ∧ (d.lifeWrite t b).weft = d.weft ∧
    (d.lifeWrite t b).tiles = d.tiles ∧ (d.lifeWrite t b).battens = d.battens ∧ (d.lifeWrite t b).btParts = d.btParts ∧
    (d.lifeWrite t b).shuttle = d.shuttle ∧ (d.lifeWrite t b).pleach = d.pleach ∧ (d.lifeWrite t b).rtp = d.rtp ∧
    (d.lifeWrite t b).power = d.power ∧ (d.lifeWrite t b).cxl = d.cxl ∧ (d.lifeWrite t b).tap = d.tap ∧
    (d.lifeWrite t b).stopsDue = d.stopsDue ∧ (d.lifeWrite t b).sigsDue = d.sigsDue ∧
    (d.lifeWrite t b).fatalDue = d.fatalDue ∧ (d.lifeWrite t b).draws = d.draws :=
  ⟨rfl, rfl, rfl, rfl, rfl, rfl, rfl, rfl, rfl, rfl, rfl, rfl, rfl, rfl, rfl, rfl, rfl, rfl, rfl, rfl, rfl, rfl, rfl, rfl, rfl, rfl, rfl, rfl, rfl, rfl, rfl, rfl, rfl, rfl⟩

@[simp] theorem Dev.setHost_rest (a : Nat) (b : Byte) :
    (d.setHost a b).timePs = d.timePs ∧ (d.setHost a b).regs = d.regs ∧ (d.setHost a b).mem = d.mem ∧
    (d.setHost a b).lines = d.lines ∧ (d.setHost a b).regions = d.regions ∧ (d.setHost a b).keys = d.keys ∧
    (d.setHost a b).ctrCache = d.ctrCache ∧ (d.setHost a b).sv = d.sv ∧ (d.setHost a b).log = d.log ∧
    (d.setHost a b).units = d.units ∧ (d.setHost a b).msix = d.msix ∧ (d.setHost a b).msixPend = d.msixPend ∧
    (d.setHost a b).irqs = d.irqs ∧ (d.setHost a b).rings = d.rings ∧ (d.setHost a b).ctxs = d.ctxs ∧
    (d.setHost a b).fences = d.fences ∧ (d.setHost a b).dispatches = d.dispatches ∧ (d.setHost a b).staging = d.staging ∧
    (d.setHost a b).used = d.used ∧ (d.setHost a b).weft = d.weft ∧ (d.setHost a b).tiles = d.tiles ∧
    (d.setHost a b).battens = d.battens ∧ (d.setHost a b).btParts = d.btParts ∧ (d.setHost a b).shuttle = d.shuttle ∧
    (d.setHost a b).pleach = d.pleach ∧ (d.setHost a b).rtp = d.rtp ∧ (d.setHost a b).life = d.life ∧
    (d.setHost a b).power = d.power ∧ (d.setHost a b).cxl = d.cxl ∧ (d.setHost a b).tap = d.tap ∧
    (d.setHost a b).stopsDue = d.stopsDue ∧ (d.setHost a b).sigsDue = d.sigsDue ∧ (d.setHost a b).fatalDue = d.fatalDue ∧
    (d.setHost a b).draws = d.draws :=
  ⟨rfl, rfl, rfl, rfl, rfl, rfl, rfl, rfl, rfl, rfl, rfl, rfl, rfl, rfl, rfl, rfl, rfl, rfl, rfl, rfl, rfl, rfl, rfl, rfl, rfl, rfl, rfl, rfl, rfl, rfl, rfl, rfl, rfl, rfl⟩

@[simp] theorem Dev.setRing_rest (r : Nat) (x : Ring) :
    (d.setRing r x).timePs = d.timePs ∧ (d.setRing r x).regs = d.regs ∧ (d.setRing r x).mem = d.mem ∧
    (d.setRing r x).lines = d.lines ∧ (d.setRing r x).regions = d.regions ∧ (d.setRing r x).keys = d.keys ∧
    (d.setRing r x).ctrCache = d.ctrCache ∧ (d.setRing r x).sv = d.sv ∧ (d.setRing r x).hostMem = d.hostMem ∧
    (d.setRing r x).log = d.log ∧ (d.setRing r x).units = d.units ∧ (d.setRing r x).msix = d.msix ∧
    (d.setRing r x).msixPend = d.msixPend ∧ (d.setRing r x).irqs = d.irqs ∧ (d.setRing r x).ctxs = d.ctxs ∧
    (d.setRing r x).fences = d.fences ∧ (d.setRing r x).dispatches = d.dispatches ∧ (d.setRing r x).staging = d.staging ∧
    (d.setRing r x).used = d.used ∧ (d.setRing r x).weft = d.weft ∧ (d.setRing r x).tiles = d.tiles ∧
    (d.setRing r x).battens = d.battens ∧ (d.setRing r x).btParts = d.btParts ∧ (d.setRing r x).shuttle = d.shuttle ∧
    (d.setRing r x).pleach = d.pleach ∧ (d.setRing r x).rtp = d.rtp ∧ (d.setRing r x).life = d.life ∧
    (d.setRing r x).power = d.power ∧ (d.setRing r x).cxl = d.cxl ∧ (d.setRing r x).tap = d.tap ∧
    (d.setRing r x).stopsDue = d.stopsDue ∧ (d.setRing r x).sigsDue = d.sigsDue ∧ (d.setRing r x).fatalDue = d.fatalDue ∧
    (d.setRing r x).draws = d.draws :=
  ⟨rfl, rfl, rfl, rfl, rfl, rfl, rfl, rfl, rfl, rfl, rfl, rfl, rfl, rfl, rfl, rfl, rfl, rfl, rfl, rfl, rfl, rfl, rfl, rfl, rfl, rfl, rfl, rfl, rfl, rfl, rfl, rfl, rfl, rfl⟩

@[simp] theorem Dev.setPhase_rest (r q : Nat) (ph : Phase) :
    (d.setPhase r q ph).timePs = d.timePs ∧ (d.setPhase r q ph).regs = d.regs ∧ (d.setPhase r q ph).mem = d.mem ∧
    (d.setPhase r q ph).lines = d.lines ∧ (d.setPhase r q ph).regions = d.regions ∧ (d.setPhase r q ph).keys = d.keys ∧
    (d.setPhase r q ph).ctrCache = d.ctrCache ∧ (d.setPhase r q ph).sv = d.sv ∧ (d.setPhase r q ph).hostMem = d.hostMem ∧
    (d.setPhase r q ph).log = d.log ∧ (d.setPhase r q ph).units = d.units ∧ (d.setPhase r q ph).msix = d.msix ∧
    (d.setPhase r q ph).msixPend = d.msixPend ∧ (d.setPhase r q ph).irqs = d.irqs ∧ (d.setPhase r q ph).ctxs = d.ctxs ∧
    (d.setPhase r q ph).fences = d.fences ∧ (d.setPhase r q ph).dispatches = d.dispatches ∧
    (d.setPhase r q ph).staging = d.staging ∧ (d.setPhase r q ph).used = d.used ∧ (d.setPhase r q ph).weft = d.weft ∧
    (d.setPhase r q ph).tiles = d.tiles ∧ (d.setPhase r q ph).battens = d.battens ∧
    (d.setPhase r q ph).btParts = d.btParts ∧ (d.setPhase r q ph).shuttle = d.shuttle ∧
    (d.setPhase r q ph).pleach = d.pleach ∧ (d.setPhase r q ph).rtp = d.rtp ∧ (d.setPhase r q ph).life = d.life ∧
    (d.setPhase r q ph).power = d.power ∧ (d.setPhase r q ph).cxl = d.cxl ∧ (d.setPhase r q ph).tap = d.tap ∧
    (d.setPhase r q ph).stopsDue = d.stopsDue ∧ (d.setPhase r q ph).sigsDue = d.sigsDue ∧
    (d.setPhase r q ph).fatalDue = d.fatalDue ∧ (d.setPhase r q ph).draws = d.draws :=
  ⟨rfl, rfl, rfl, rfl, rfl, rfl, rfl, rfl, rfl, rfl, rfl, rfl, rfl, rfl, rfl, rfl, rfl, rfl, rfl, rfl, rfl, rfl, rfl, rfl, rfl, rfl, rfl, rfl, rfl, rfl, rfl, rfl, rfl, rfl⟩

@[simp] theorem Dev.finish_rest (r q : Nat) (v : Verdict) :
    (d.finish r q v).timePs = d.timePs ∧ (d.finish r q v).regs = d.regs ∧ (d.finish r q v).mem = d.mem ∧
    (d.finish r q v).lines = d.lines ∧ (d.finish r q v).regions = d.regions ∧ (d.finish r q v).keys = d.keys ∧
    (d.finish r q v).ctrCache = d.ctrCache ∧ (d.finish r q v).sv = d.sv ∧ (d.finish r q v).hostMem = d.hostMem ∧
    (d.finish r q v).log = d.log ∧ (d.finish r q v).units = d.units ∧ (d.finish r q v).msix = d.msix ∧
    (d.finish r q v).msixPend = d.msixPend ∧ (d.finish r q v).irqs = d.irqs ∧ (d.finish r q v).ctxs = d.ctxs ∧
    (d.finish r q v).fences = d.fences ∧ (d.finish r q v).dispatches = d.dispatches ∧ (d.finish r q v).staging = d.staging ∧
    (d.finish r q v).used = d.used ∧ (d.finish r q v).weft = d.weft ∧ (d.finish r q v).tiles = d.tiles ∧
    (d.finish r q v).battens = d.battens ∧ (d.finish r q v).btParts = d.btParts ∧ (d.finish r q v).shuttle = d.shuttle ∧
    (d.finish r q v).pleach = d.pleach ∧ (d.finish r q v).rtp = d.rtp ∧ (d.finish r q v).life = d.life ∧
    (d.finish r q v).power = d.power ∧ (d.finish r q v).cxl = d.cxl ∧ (d.finish r q v).tap = d.tap ∧
    (d.finish r q v).stopsDue = d.stopsDue ∧ (d.finish r q v).sigsDue = d.sigsDue ∧ (d.finish r q v).fatalDue = d.fatalDue ∧
    (d.finish r q v).draws = d.draws :=
  ⟨rfl, rfl, rfl, rfl, rfl, rfl, rfl, rfl, rfl, rfl, rfl, rfl, rfl, rfl, rfl, rfl, rfl, rfl, rfl, rfl, rfl, rfl, rfl, rfl, rfl, rfl, rfl, rfl, rfl, rfl, rfl, rfl, rfl, rfl⟩

@[simp] theorem Dev.setFence_rest (f : Nat) (x : Fence) :
    (d.setFence f x).timePs = d.timePs ∧ (d.setFence f x).regs = d.regs ∧ (d.setFence f x).mem = d.mem ∧
    (d.setFence f x).lines = d.lines ∧ (d.setFence f x).regions = d.regions ∧ (d.setFence f x).keys = d.keys ∧
    (d.setFence f x).ctrCache = d.ctrCache ∧ (d.setFence f x).sv = d.sv ∧ (d.setFence f x).hostMem = d.hostMem ∧
    (d.setFence f x).log = d.log ∧ (d.setFence f x).units = d.units ∧ (d.setFence f x).msix = d.msix ∧
    (d.setFence f x).msixPend = d.msixPend ∧ (d.setFence f x).irqs = d.irqs ∧ (d.setFence f x).rings = d.rings ∧
    (d.setFence f x).ctxs = d.ctxs ∧ (d.setFence f x).dispatches = d.dispatches ∧ (d.setFence f x).staging = d.staging ∧
    (d.setFence f x).used = d.used ∧ (d.setFence f x).weft = d.weft ∧ (d.setFence f x).tiles = d.tiles ∧
    (d.setFence f x).battens = d.battens ∧ (d.setFence f x).btParts = d.btParts ∧ (d.setFence f x).shuttle = d.shuttle ∧
    (d.setFence f x).pleach = d.pleach ∧ (d.setFence f x).rtp = d.rtp ∧ (d.setFence f x).life = d.life ∧
    (d.setFence f x).power = d.power ∧ (d.setFence f x).cxl = d.cxl ∧ (d.setFence f x).tap = d.tap ∧
    (d.setFence f x).stopsDue = d.stopsDue ∧ (d.setFence f x).sigsDue = d.sigsDue ∧ (d.setFence f x).fatalDue = d.fatalDue ∧
    (d.setFence f x).draws = d.draws :=
  ⟨rfl, rfl, rfl, rfl, rfl, rfl, rfl, rfl, rfl, rfl, rfl, rfl, rfl, rfl, rfl, rfl, rfl, rfl, rfl, rfl, rfl, rfl, rfl, rfl, rfl, rfl, rfl, rfl, rfl, rfl, rfl, rfl, rfl, rfl⟩

@[simp] theorem Dev.setPort_rest (n : Nat) (x : Port) :
    (d.setPort n x).timePs = d.timePs ∧ (d.setPort n x).regs = d.regs ∧ (d.setPort n x).mem = d.mem ∧
    (d.setPort n x).lines = d.lines ∧ (d.setPort n x).regions = d.regions ∧ (d.setPort n x).keys = d.keys ∧
    (d.setPort n x).ctrCache = d.ctrCache ∧ (d.setPort n x).sv = d.sv ∧ (d.setPort n x).hostMem = d.hostMem ∧
    (d.setPort n x).log = d.log ∧ (d.setPort n x).units = d.units ∧ (d.setPort n x).msix = d.msix ∧
    (d.setPort n x).msixPend = d.msixPend ∧ (d.setPort n x).irqs = d.irqs ∧ (d.setPort n x).rings = d.rings ∧
    (d.setPort n x).ctxs = d.ctxs ∧ (d.setPort n x).fences = d.fences ∧ (d.setPort n x).dispatches = d.dispatches ∧
    (d.setPort n x).staging = d.staging ∧ (d.setPort n x).used = d.used ∧ (d.setPort n x).weft = d.weft ∧
    (d.setPort n x).tiles = d.tiles ∧ (d.setPort n x).battens = d.battens ∧ (d.setPort n x).btParts = d.btParts ∧
    (d.setPort n x).pleach = d.pleach ∧ (d.setPort n x).rtp = d.rtp ∧ (d.setPort n x).life = d.life ∧
    (d.setPort n x).power = d.power ∧ (d.setPort n x).cxl = d.cxl ∧ (d.setPort n x).tap = d.tap ∧
    (d.setPort n x).stopsDue = d.stopsDue ∧ (d.setPort n x).sigsDue = d.sigsDue ∧ (d.setPort n x).fatalDue = d.fatalDue ∧
    (d.setPort n x).draws = d.draws :=
  ⟨rfl, rfl, rfl, rfl, rfl, rfl, rfl, rfl, rfl, rfl, rfl, rfl, rfl, rfl, rfl, rfl, rfl, rfl, rfl, rfl, rfl, rfl, rfl, rfl, rfl, rfl, rfl, rfl, rfl, rfl, rfl, rfl, rfl, rfl⟩

@[simp] theorem Dev.setSh_rest (p : Nat) (x : ShPart) :
    (d.setSh p x).timePs = d.timePs ∧ (d.setSh p x).regs = d.regs ∧ (d.setSh p x).mem = d.mem ∧
    (d.setSh p x).lines = d.lines ∧ (d.setSh p x).regions = d.regions ∧ (d.setSh p x).keys = d.keys ∧
    (d.setSh p x).ctrCache = d.ctrCache ∧ (d.setSh p x).sv = d.sv ∧ (d.setSh p x).hostMem = d.hostMem ∧
    (d.setSh p x).log = d.log ∧ (d.setSh p x).units = d.units ∧ (d.setSh p x).msix = d.msix ∧
    (d.setSh p x).msixPend = d.msixPend ∧ (d.setSh p x).irqs = d.irqs ∧ (d.setSh p x).rings = d.rings ∧
    (d.setSh p x).ctxs = d.ctxs ∧ (d.setSh p x).fences = d.fences ∧ (d.setSh p x).dispatches = d.dispatches ∧
    (d.setSh p x).staging = d.staging ∧ (d.setSh p x).used = d.used ∧ (d.setSh p x).weft = d.weft ∧
    (d.setSh p x).tiles = d.tiles ∧ (d.setSh p x).battens = d.battens ∧ (d.setSh p x).btParts = d.btParts ∧
    (d.setSh p x).pleach = d.pleach ∧ (d.setSh p x).rtp = d.rtp ∧ (d.setSh p x).life = d.life ∧
    (d.setSh p x).power = d.power ∧ (d.setSh p x).cxl = d.cxl ∧ (d.setSh p x).tap = d.tap ∧
    (d.setSh p x).stopsDue = d.stopsDue ∧ (d.setSh p x).sigsDue = d.sigsDue ∧ (d.setSh p x).fatalDue = d.fatalDue ∧
    (d.setSh p x).draws = d.draws :=
  ⟨rfl, rfl, rfl, rfl, rfl, rfl, rfl, rfl, rfl, rfl, rfl, rfl, rfl, rfl, rfl, rfl, rfl, rfl, rfl, rfl, rfl, rfl, rfl, rfl, rfl, rfl, rfl, rfl, rfl, rfl, rfl, rfl, rfl, rfl⟩

@[simp] theorem Dev.setKey_rest (k : Nat) (x : KeySlot) :
    (d.setKey k x).timePs = d.timePs ∧ (d.setKey k x).regs = d.regs ∧ (d.setKey k x).mem = d.mem ∧
    (d.setKey k x).lines = d.lines ∧ (d.setKey k x).regions = d.regions ∧ (d.setKey k x).ctrCache = d.ctrCache ∧
    (d.setKey k x).sv = d.sv ∧ (d.setKey k x).hostMem = d.hostMem ∧ (d.setKey k x).log = d.log ∧
    (d.setKey k x).units = d.units ∧ (d.setKey k x).msix = d.msix ∧ (d.setKey k x).msixPend = d.msixPend ∧
    (d.setKey k x).irqs = d.irqs ∧ (d.setKey k x).rings = d.rings ∧ (d.setKey k x).ctxs = d.ctxs ∧
    (d.setKey k x).fences = d.fences ∧ (d.setKey k x).dispatches = d.dispatches ∧ (d.setKey k x).staging = d.staging ∧
    (d.setKey k x).used = d.used ∧ (d.setKey k x).weft = d.weft ∧ (d.setKey k x).tiles = d.tiles ∧
    (d.setKey k x).battens = d.battens ∧ (d.setKey k x).btParts = d.btParts ∧ (d.setKey k x).shuttle = d.shuttle ∧
    (d.setKey k x).pleach = d.pleach ∧ (d.setKey k x).rtp = d.rtp ∧ (d.setKey k x).life = d.life ∧
    (d.setKey k x).power = d.power ∧ (d.setKey k x).cxl = d.cxl ∧ (d.setKey k x).tap = d.tap ∧
    (d.setKey k x).stopsDue = d.stopsDue ∧ (d.setKey k x).sigsDue = d.sigsDue ∧ (d.setKey k x).fatalDue = d.fatalDue ∧
    (d.setKey k x).draws = d.draws :=
  ⟨rfl, rfl, rfl, rfl, rfl, rfl, rfl, rfl, rfl, rfl, rfl, rfl, rfl, rfl, rfl, rfl, rfl, rfl, rfl, rfl, rfl, rfl, rfl, rfl, rfl, rfl, rfl, rfl, rfl, rfl, rfl, rfl, rfl, rfl⟩

@[simp] theorem Dev.setRegion_rest (n : Nat) (x : Region) :
    (d.setRegion n x).timePs = d.timePs ∧ (d.setRegion n x).regs = d.regs ∧ (d.setRegion n x).mem = d.mem ∧
    (d.setRegion n x).lines = d.lines ∧ (d.setRegion n x).keys = d.keys ∧ (d.setRegion n x).ctrCache = d.ctrCache ∧
    (d.setRegion n x).sv = d.sv ∧ (d.setRegion n x).hostMem = d.hostMem ∧ (d.setRegion n x).log = d.log ∧
    (d.setRegion n x).units = d.units ∧ (d.setRegion n x).msix = d.msix ∧ (d.setRegion n x).msixPend = d.msixPend ∧
    (d.setRegion n x).irqs = d.irqs ∧ (d.setRegion n x).rings = d.rings ∧ (d.setRegion n x).ctxs = d.ctxs ∧
    (d.setRegion n x).fences = d.fences ∧ (d.setRegion n x).dispatches = d.dispatches ∧
    (d.setRegion n x).staging = d.staging ∧ (d.setRegion n x).used = d.used ∧ (d.setRegion n x).weft = d.weft ∧
    (d.setRegion n x).tiles = d.tiles ∧ (d.setRegion n x).battens = d.battens ∧ (d.setRegion n x).btParts = d.btParts ∧
    (d.setRegion n x).shuttle = d.shuttle ∧ (d.setRegion n x).pleach = d.pleach ∧ (d.setRegion n x).rtp = d.rtp ∧
    (d.setRegion n x).life = d.life ∧ (d.setRegion n x).power = d.power ∧ (d.setRegion n x).cxl = d.cxl ∧
    (d.setRegion n x).tap = d.tap ∧ (d.setRegion n x).stopsDue = d.stopsDue ∧ (d.setRegion n x).sigsDue = d.sigsDue ∧
    (d.setRegion n x).fatalDue = d.fatalDue ∧ (d.setRegion n x).draws = d.draws :=
  ⟨rfl, rfl, rfl, rfl, rfl, rfl, rfl, rfl, rfl, rfl, rfl, rfl, rfl, rfl, rfl, rfl, rfl, rfl, rfl, rfl, rfl, rfl, rfl, rfl, rfl, rfl, rfl, rfl, rfl, rfl, rfl, rfl, rfl, rfl⟩

@[simp] theorem Dev.setRtpPart_rest (p : Nat) (x : RtpPart) :
    (d.setRtpPart p x).timePs = d.timePs ∧ (d.setRtpPart p x).regs = d.regs ∧ (d.setRtpPart p x).mem = d.mem ∧
    (d.setRtpPart p x).lines = d.lines ∧ (d.setRtpPart p x).regions = d.regions ∧ (d.setRtpPart p x).keys = d.keys ∧
    (d.setRtpPart p x).ctrCache = d.ctrCache ∧ (d.setRtpPart p x).sv = d.sv ∧ (d.setRtpPart p x).hostMem = d.hostMem ∧
    (d.setRtpPart p x).log = d.log ∧ (d.setRtpPart p x).units = d.units ∧ (d.setRtpPart p x).msix = d.msix ∧
    (d.setRtpPart p x).msixPend = d.msixPend ∧ (d.setRtpPart p x).irqs = d.irqs ∧ (d.setRtpPart p x).rings = d.rings ∧
    (d.setRtpPart p x).ctxs = d.ctxs ∧ (d.setRtpPart p x).fences = d.fences ∧ (d.setRtpPart p x).dispatches = d.dispatches ∧
    (d.setRtpPart p x).staging = d.staging ∧ (d.setRtpPart p x).used = d.used ∧ (d.setRtpPart p x).weft = d.weft ∧
    (d.setRtpPart p x).tiles = d.tiles ∧ (d.setRtpPart p x).battens = d.battens ∧ (d.setRtpPart p x).btParts = d.btParts ∧
    (d.setRtpPart p x).shuttle = d.shuttle ∧ (d.setRtpPart p x).pleach = d.pleach ∧ (d.setRtpPart p x).life = d.life ∧
    (d.setRtpPart p x).power = d.power ∧ (d.setRtpPart p x).cxl = d.cxl ∧ (d.setRtpPart p x).tap = d.tap ∧
    (d.setRtpPart p x).stopsDue = d.stopsDue ∧ (d.setRtpPart p x).sigsDue = d.sigsDue ∧
    (d.setRtpPart p x).fatalDue = d.fatalDue ∧ (d.setRtpPart p x).draws = d.draws :=
  ⟨rfl, rfl, rfl, rfl, rfl, rfl, rfl, rfl, rfl, rfl, rfl, rfl, rfl, rfl, rfl, rfl, rfl, rfl, rfl, rfl, rfl, rfl, rfl, rfl, rfl, rfl, rfl, rfl, rfl, rfl, rfl, rfl, rfl, rfl⟩

@[simp] theorem Dev.setLine_rest (l : Nat) (m : Option LineMeta) :
    (d.setLine l m).timePs = d.timePs ∧ (d.setLine l m).regs = d.regs ∧ (d.setLine l m).mem = d.mem ∧
    (d.setLine l m).regions = d.regions ∧ (d.setLine l m).keys = d.keys ∧ (d.setLine l m).ctrCache = d.ctrCache ∧
    (d.setLine l m).sv = d.sv ∧ (d.setLine l m).hostMem = d.hostMem ∧ (d.setLine l m).log = d.log ∧
    (d.setLine l m).units = d.units ∧ (d.setLine l m).msix = d.msix ∧ (d.setLine l m).msixPend = d.msixPend ∧
    (d.setLine l m).irqs = d.irqs ∧ (d.setLine l m).rings = d.rings ∧ (d.setLine l m).ctxs = d.ctxs ∧
    (d.setLine l m).fences = d.fences ∧ (d.setLine l m).dispatches = d.dispatches ∧ (d.setLine l m).staging = d.staging ∧
    (d.setLine l m).used = d.used ∧ (d.setLine l m).weft = d.weft ∧ (d.setLine l m).tiles = d.tiles ∧
    (d.setLine l m).battens = d.battens ∧ (d.setLine l m).btParts = d.btParts ∧ (d.setLine l m).shuttle = d.shuttle ∧
    (d.setLine l m).pleach = d.pleach ∧ (d.setLine l m).rtp = d.rtp ∧ (d.setLine l m).life = d.life ∧
    (d.setLine l m).power = d.power ∧ (d.setLine l m).cxl = d.cxl ∧ (d.setLine l m).tap = d.tap ∧
    (d.setLine l m).stopsDue = d.stopsDue ∧ (d.setLine l m).sigsDue = d.sigsDue ∧ (d.setLine l m).fatalDue = d.fatalDue ∧
    (d.setLine l m).draws = d.draws :=
  ⟨rfl, rfl, rfl, rfl, rfl, rfl, rfl, rfl, rfl, rfl, rfl, rfl, rfl, rfl, rfl, rfl, rfl, rfl, rfl, rfl, rfl, rfl, rfl, rfl, rfl, rfl, rfl, rfl, rfl, rfl, rfl, rfl, rfl, rfl⟩

@[simp] theorem Dev.setByte_rest (a : Nat) (b : Byte) :
    (d.setByte a b).timePs = d.timePs ∧ (d.setByte a b).regs = d.regs ∧ (d.setByte a b).lines = d.lines ∧
    (d.setByte a b).regions = d.regions ∧ (d.setByte a b).keys = d.keys ∧ (d.setByte a b).ctrCache = d.ctrCache ∧
    (d.setByte a b).sv = d.sv ∧ (d.setByte a b).hostMem = d.hostMem ∧ (d.setByte a b).log = d.log ∧
    (d.setByte a b).units = d.units ∧ (d.setByte a b).msix = d.msix ∧ (d.setByte a b).msixPend = d.msixPend ∧
    (d.setByte a b).irqs = d.irqs ∧ (d.setByte a b).rings = d.rings ∧ (d.setByte a b).ctxs = d.ctxs ∧
    (d.setByte a b).fences = d.fences ∧ (d.setByte a b).dispatches = d.dispatches ∧ (d.setByte a b).staging = d.staging ∧
    (d.setByte a b).used = d.used ∧ (d.setByte a b).weft = d.weft ∧ (d.setByte a b).tiles = d.tiles ∧
    (d.setByte a b).battens = d.battens ∧ (d.setByte a b).btParts = d.btParts ∧ (d.setByte a b).shuttle = d.shuttle ∧
    (d.setByte a b).pleach = d.pleach ∧ (d.setByte a b).rtp = d.rtp ∧ (d.setByte a b).life = d.life ∧
    (d.setByte a b).power = d.power ∧ (d.setByte a b).cxl = d.cxl ∧ (d.setByte a b).tap = d.tap ∧
    (d.setByte a b).stopsDue = d.stopsDue ∧ (d.setByte a b).sigsDue = d.sigsDue ∧ (d.setByte a b).fatalDue = d.fatalDue ∧
    (d.setByte a b).draws = d.draws :=
  ⟨rfl, rfl, rfl, rfl, rfl, rfl, rfl, rfl, rfl, rfl, rfl, rfl, rfl, rfl, rfl, rfl, rfl, rfl, rfl, rfl, rfl, rfl, rfl, rfl, rfl, rfl, rfl, rfl, rfl, rfl, rfl, rfl, rfl, rfl⟩

@[simp] theorem Dev.use_rest (k n : Nat) :
    (d.use k n).timePs = d.timePs ∧ (d.use k n).regs = d.regs ∧ (d.use k n).mem = d.mem ∧ (d.use k n).lines = d.lines ∧
    (d.use k n).regions = d.regions ∧ (d.use k n).keys = d.keys ∧ (d.use k n).ctrCache = d.ctrCache ∧
    (d.use k n).sv = d.sv ∧ (d.use k n).hostMem = d.hostMem ∧ (d.use k n).log = d.log ∧ (d.use k n).units = d.units ∧
    (d.use k n).msix = d.msix ∧ (d.use k n).msixPend = d.msixPend ∧ (d.use k n).irqs = d.irqs ∧
    (d.use k n).rings = d.rings ∧ (d.use k n).ctxs = d.ctxs ∧ (d.use k n).fences = d.fences ∧
    (d.use k n).dispatches = d.dispatches ∧ (d.use k n).staging = d.staging ∧ (d.use k n).weft = d.weft ∧
    (d.use k n).tiles = d.tiles ∧ (d.use k n).battens = d.battens ∧ (d.use k n).btParts = d.btParts ∧
    (d.use k n).shuttle = d.shuttle ∧ (d.use k n).pleach = d.pleach ∧ (d.use k n).rtp = d.rtp ∧ (d.use k n).life = d.life ∧
    (d.use k n).power = d.power ∧ (d.use k n).cxl = d.cxl ∧ (d.use k n).tap = d.tap ∧ (d.use k n).stopsDue = d.stopsDue ∧
    (d.use k n).sigsDue = d.sigsDue ∧ (d.use k n).fatalDue = d.fatalDue ∧ (d.use k n).draws = d.draws :=
  ⟨rfl, rfl, rfl, rfl, rfl, rfl, rfl, rfl, rfl, rfl, rfl, rfl, rfl, rfl, rfl, rfl, rfl, rfl, rfl, rfl, rfl, rfl, rfl, rfl, rfl, rfl, rfl, rfl, rfl, rfl, rfl, rfl, rfl, rfl⟩

@[simp] theorem Dev.setLt_rest (l : Nat) (x : LTile) :
    (d.setLt l x).timePs = d.timePs ∧ (d.setLt l x).regs = d.regs ∧ (d.setLt l x).mem = d.mem ∧
    (d.setLt l x).lines = d.lines ∧ (d.setLt l x).regions = d.regions ∧ (d.setLt l x).keys = d.keys ∧
    (d.setLt l x).ctrCache = d.ctrCache ∧ (d.setLt l x).sv = d.sv ∧ (d.setLt l x).hostMem = d.hostMem ∧
    (d.setLt l x).log = d.log ∧ (d.setLt l x).units = d.units ∧ (d.setLt l x).msix = d.msix ∧
    (d.setLt l x).msixPend = d.msixPend ∧ (d.setLt l x).irqs = d.irqs ∧ (d.setLt l x).rings = d.rings ∧
    (d.setLt l x).ctxs = d.ctxs ∧ (d.setLt l x).fences = d.fences ∧ (d.setLt l x).dispatches = d.dispatches ∧
    (d.setLt l x).staging = d.staging ∧ (d.setLt l x).used = d.used ∧ (d.setLt l x).weft = d.weft ∧
    (d.setLt l x).battens = d.battens ∧ (d.setLt l x).btParts = d.btParts ∧ (d.setLt l x).shuttle = d.shuttle ∧
    (d.setLt l x).pleach = d.pleach ∧ (d.setLt l x).rtp = d.rtp ∧ (d.setLt l x).life = d.life ∧
    (d.setLt l x).power = d.power ∧ (d.setLt l x).cxl = d.cxl ∧ (d.setLt l x).tap = d.tap ∧
    (d.setLt l x).stopsDue = d.stopsDue ∧ (d.setLt l x).sigsDue = d.sigsDue ∧ (d.setLt l x).fatalDue = d.fatalDue ∧
    (d.setLt l x).draws = d.draws :=
  ⟨rfl, rfl, rfl, rfl, rfl, rfl, rfl, rfl, rfl, rfl, rfl, rfl, rfl, rfl, rfl, rfl, rfl, rfl, rfl, rfl, rfl, rfl, rfl, rfl, rfl, rfl, rfl, rfl, rfl, rfl, rfl, rfl, rfl, rfl⟩

@[simp] theorem Dev.setMap_rest (l : Nat) (t : Option Nat) :
    (d.setMap l t).timePs = d.timePs ∧ (d.setMap l t).regs = d.regs ∧ (d.setMap l t).mem = d.mem ∧
    (d.setMap l t).lines = d.lines ∧ (d.setMap l t).regions = d.regions ∧ (d.setMap l t).keys = d.keys ∧
    (d.setMap l t).ctrCache = d.ctrCache ∧ (d.setMap l t).sv = d.sv ∧ (d.setMap l t).hostMem = d.hostMem ∧
    (d.setMap l t).log = d.log ∧ (d.setMap l t).units = d.units ∧ (d.setMap l t).msix = d.msix ∧
    (d.setMap l t).msixPend = d.msixPend ∧ (d.setMap l t).irqs = d.irqs ∧ (d.setMap l t).rings = d.rings ∧
    (d.setMap l t).ctxs = d.ctxs ∧ (d.setMap l t).fences = d.fences ∧ (d.setMap l t).dispatches = d.dispatches ∧
    (d.setMap l t).staging = d.staging ∧ (d.setMap l t).used = d.used ∧ (d.setMap l t).weft = d.weft ∧
    (d.setMap l t).battens = d.battens ∧ (d.setMap l t).btParts = d.btParts ∧ (d.setMap l t).shuttle = d.shuttle ∧
    (d.setMap l t).pleach = d.pleach ∧ (d.setMap l t).rtp = d.rtp ∧ (d.setMap l t).life = d.life ∧
    (d.setMap l t).power = d.power ∧ (d.setMap l t).cxl = d.cxl ∧ (d.setMap l t).tap = d.tap ∧
    (d.setMap l t).stopsDue = d.stopsDue ∧ (d.setMap l t).sigsDue = d.sigsDue ∧ (d.setMap l t).fatalDue = d.fatalDue ∧
    (d.setMap l t).draws = d.draws :=
  ⟨rfl, rfl, rfl, rfl, rfl, rfl, rfl, rfl, rfl, rfl, rfl, rfl, rfl, rfl, rfl, rfl, rfl, rfl, rfl, rfl, rfl, rfl, rfl, rfl, rfl, rfl, rfl, rfl, rfl, rfl, rfl, rfl, rfl, rfl⟩

@[simp] theorem Dev.setLeaving_rest (t c : Nat) :
    (d.setLeaving t c).timePs = d.timePs ∧ (d.setLeaving t c).regs = d.regs ∧ (d.setLeaving t c).mem = d.mem ∧
    (d.setLeaving t c).lines = d.lines ∧ (d.setLeaving t c).regions = d.regions ∧ (d.setLeaving t c).keys = d.keys ∧
    (d.setLeaving t c).ctrCache = d.ctrCache ∧ (d.setLeaving t c).sv = d.sv ∧ (d.setLeaving t c).hostMem = d.hostMem ∧
    (d.setLeaving t c).log = d.log ∧ (d.setLeaving t c).units = d.units ∧ (d.setLeaving t c).msix = d.msix ∧
    (d.setLeaving t c).msixPend = d.msixPend ∧ (d.setLeaving t c).irqs = d.irqs ∧ (d.setLeaving t c).rings = d.rings ∧
    (d.setLeaving t c).ctxs = d.ctxs ∧ (d.setLeaving t c).fences = d.fences ∧ (d.setLeaving t c).dispatches = d.dispatches ∧
    (d.setLeaving t c).staging = d.staging ∧ (d.setLeaving t c).used = d.used ∧ (d.setLeaving t c).weft = d.weft ∧
    (d.setLeaving t c).battens = d.battens ∧ (d.setLeaving t c).btParts = d.btParts ∧
    (d.setLeaving t c).shuttle = d.shuttle ∧ (d.setLeaving t c).pleach = d.pleach ∧ (d.setLeaving t c).rtp = d.rtp ∧
    (d.setLeaving t c).life = d.life ∧ (d.setLeaving t c).power = d.power ∧ (d.setLeaving t c).cxl = d.cxl ∧
    (d.setLeaving t c).tap = d.tap ∧ (d.setLeaving t c).stopsDue = d.stopsDue ∧ (d.setLeaving t c).sigsDue = d.sigsDue ∧
    (d.setLeaving t c).fatalDue = d.fatalDue ∧ (d.setLeaving t c).draws = d.draws :=
  ⟨rfl, rfl, rfl, rfl, rfl, rfl, rfl, rfl, rfl, rfl, rfl, rfl, rfl, rfl, rfl, rfl, rfl, rfl, rfl, rfl, rfl, rfl, rfl, rfl, rfl, rfl, rfl, rfl, rfl, rfl, rfl, rfl, rfl, rfl⟩

@[simp] theorem Dev.setBatten_rest (n : Nat) (x : Batten) :
    (d.setBatten n x).timePs = d.timePs ∧ (d.setBatten n x).regs = d.regs ∧ (d.setBatten n x).mem = d.mem ∧
    (d.setBatten n x).lines = d.lines ∧ (d.setBatten n x).regions = d.regions ∧ (d.setBatten n x).keys = d.keys ∧
    (d.setBatten n x).ctrCache = d.ctrCache ∧ (d.setBatten n x).sv = d.sv ∧ (d.setBatten n x).hostMem = d.hostMem ∧
    (d.setBatten n x).log = d.log ∧ (d.setBatten n x).units = d.units ∧ (d.setBatten n x).msix = d.msix ∧
    (d.setBatten n x).msixPend = d.msixPend ∧ (d.setBatten n x).irqs = d.irqs ∧ (d.setBatten n x).rings = d.rings ∧
    (d.setBatten n x).ctxs = d.ctxs ∧ (d.setBatten n x).fences = d.fences ∧ (d.setBatten n x).dispatches = d.dispatches ∧
    (d.setBatten n x).staging = d.staging ∧ (d.setBatten n x).used = d.used ∧ (d.setBatten n x).weft = d.weft ∧
    (d.setBatten n x).tiles = d.tiles ∧ (d.setBatten n x).btParts = d.btParts ∧ (d.setBatten n x).shuttle = d.shuttle ∧
    (d.setBatten n x).pleach = d.pleach ∧ (d.setBatten n x).rtp = d.rtp ∧ (d.setBatten n x).life = d.life ∧
    (d.setBatten n x).power = d.power ∧ (d.setBatten n x).cxl = d.cxl ∧ (d.setBatten n x).tap = d.tap ∧
    (d.setBatten n x).stopsDue = d.stopsDue ∧ (d.setBatten n x).sigsDue = d.sigsDue ∧
    (d.setBatten n x).fatalDue = d.fatalDue ∧ (d.setBatten n x).draws = d.draws :=
  ⟨rfl, rfl, rfl, rfl, rfl, rfl, rfl, rfl, rfl, rfl, rfl, rfl, rfl, rfl, rfl, rfl, rfl, rfl, rfl, rfl, rfl, rfl, rfl, rfl, rfl, rfl, rfl, rfl, rfl, rfl, rfl, rfl, rfl, rfl⟩

@[simp] theorem Dev.setBt_rest (p : Nat) (x : BtPart) :
    (d.setBt p x).timePs = d.timePs ∧ (d.setBt p x).regs = d.regs ∧ (d.setBt p x).mem = d.mem ∧
    (d.setBt p x).lines = d.lines ∧ (d.setBt p x).regions = d.regions ∧ (d.setBt p x).keys = d.keys ∧
    (d.setBt p x).ctrCache = d.ctrCache ∧ (d.setBt p x).sv = d.sv ∧ (d.setBt p x).hostMem = d.hostMem ∧
    (d.setBt p x).log = d.log ∧ (d.setBt p x).units = d.units ∧ (d.setBt p x).msix = d.msix ∧
    (d.setBt p x).msixPend = d.msixPend ∧ (d.setBt p x).irqs = d.irqs ∧ (d.setBt p x).rings = d.rings ∧
    (d.setBt p x).ctxs = d.ctxs ∧ (d.setBt p x).fences = d.fences ∧ (d.setBt p x).dispatches = d.dispatches ∧
    (d.setBt p x).staging = d.staging ∧ (d.setBt p x).used = d.used ∧ (d.setBt p x).weft = d.weft ∧
    (d.setBt p x).tiles = d.tiles ∧ (d.setBt p x).battens = d.battens ∧ (d.setBt p x).shuttle = d.shuttle ∧
    (d.setBt p x).pleach = d.pleach ∧ (d.setBt p x).rtp = d.rtp ∧ (d.setBt p x).life = d.life ∧
    (d.setBt p x).power = d.power ∧ (d.setBt p x).cxl = d.cxl ∧ (d.setBt p x).tap = d.tap ∧
    (d.setBt p x).stopsDue = d.stopsDue ∧ (d.setBt p x).sigsDue = d.sigsDue ∧ (d.setBt p x).fatalDue = d.fatalDue ∧
    (d.setBt p x).draws = d.draws :=
  ⟨rfl, rfl, rfl, rfl, rfl, rfl, rfl, rfl, rfl, rfl, rfl, rfl, rfl, rfl, rfl, rfl, rfl, rfl, rfl, rfl, rfl, rfl, rfl, rfl, rfl, rfl, rfl, rfl, rfl, rfl, rfl, rfl, rfl, rfl⟩

@[simp] theorem Dev.setUpdate_rest (p : Nat) (u : Update) :
    (d.setUpdate p u).timePs = d.timePs ∧ (d.setUpdate p u).regs = d.regs ∧ (d.setUpdate p u).mem = d.mem ∧
    (d.setUpdate p u).lines = d.lines ∧ (d.setUpdate p u).regions = d.regions ∧ (d.setUpdate p u).keys = d.keys ∧
    (d.setUpdate p u).ctrCache = d.ctrCache ∧ (d.setUpdate p u).sv = d.sv ∧ (d.setUpdate p u).hostMem = d.hostMem ∧
    (d.setUpdate p u).log = d.log ∧ (d.setUpdate p u).units = d.units ∧ (d.setUpdate p u).msix = d.msix ∧
    (d.setUpdate p u).msixPend = d.msixPend ∧ (d.setUpdate p u).irqs = d.irqs ∧ (d.setUpdate p u).rings = d.rings ∧
    (d.setUpdate p u).ctxs = d.ctxs ∧ (d.setUpdate p u).fences = d.fences ∧ (d.setUpdate p u).dispatches = d.dispatches ∧
    (d.setUpdate p u).staging = d.staging ∧ (d.setUpdate p u).used = d.used ∧ (d.setUpdate p u).weft = d.weft ∧
    (d.setUpdate p u).tiles = d.tiles ∧ (d.setUpdate p u).battens = d.battens ∧ (d.setUpdate p u).shuttle = d.shuttle ∧
    (d.setUpdate p u).pleach = d.pleach ∧ (d.setUpdate p u).rtp = d.rtp ∧ (d.setUpdate p u).life = d.life ∧
    (d.setUpdate p u).power = d.power ∧ (d.setUpdate p u).cxl = d.cxl ∧ (d.setUpdate p u).tap = d.tap ∧
    (d.setUpdate p u).stopsDue = d.stopsDue ∧ (d.setUpdate p u).sigsDue = d.sigsDue ∧
    (d.setUpdate p u).fatalDue = d.fatalDue ∧ (d.setUpdate p u).draws = d.draws :=
  ⟨rfl, rfl, rfl, rfl, rfl, rfl, rfl, rfl, rfl, rfl, rfl, rfl, rfl, rfl, rfl, rfl, rfl, rfl, rfl, rfl, rfl, rfl, rfl, rfl, rfl, rfl, rfl, rfl, rfl, rfl, rfl, rfl, rfl, rfl⟩

@[simp] theorem Dev.setPl_rest (p : Nat) (x : PlPart) :
    (d.setPl p x).timePs = d.timePs ∧ (d.setPl p x).regs = d.regs ∧ (d.setPl p x).mem = d.mem ∧
    (d.setPl p x).lines = d.lines ∧ (d.setPl p x).regions = d.regions ∧ (d.setPl p x).keys = d.keys ∧
    (d.setPl p x).ctrCache = d.ctrCache ∧ (d.setPl p x).sv = d.sv ∧ (d.setPl p x).hostMem = d.hostMem ∧
    (d.setPl p x).log = d.log ∧ (d.setPl p x).units = d.units ∧ (d.setPl p x).msix = d.msix ∧
    (d.setPl p x).msixPend = d.msixPend ∧ (d.setPl p x).irqs = d.irqs ∧ (d.setPl p x).rings = d.rings ∧
    (d.setPl p x).ctxs = d.ctxs ∧ (d.setPl p x).fences = d.fences ∧ (d.setPl p x).dispatches = d.dispatches ∧
    (d.setPl p x).staging = d.staging ∧ (d.setPl p x).used = d.used ∧ (d.setPl p x).weft = d.weft ∧
    (d.setPl p x).tiles = d.tiles ∧ (d.setPl p x).battens = d.battens ∧ (d.setPl p x).btParts = d.btParts ∧
    (d.setPl p x).shuttle = d.shuttle ∧ (d.setPl p x).rtp = d.rtp ∧ (d.setPl p x).life = d.life ∧
    (d.setPl p x).power = d.power ∧ (d.setPl p x).cxl = d.cxl ∧ (d.setPl p x).tap = d.tap ∧
    (d.setPl p x).stopsDue = d.stopsDue ∧ (d.setPl p x).sigsDue = d.sigsDue ∧ (d.setPl p x).fatalDue = d.fatalDue ∧
    (d.setPl p x).draws = d.draws :=
  ⟨rfl, rfl, rfl, rfl, rfl, rfl, rfl, rfl, rfl, rfl, rfl, rfl, rfl, rfl, rfl, rfl, rfl, rfl, rfl, rfl, rfl, rfl, rfl, rfl, rfl, rfl, rfl, rfl, rfl, rfl, rfl, rfl, rfl, rfl⟩

@[simp] theorem Dev.setPw_rest (w : Power) :
    (d.setPw w).timePs = d.timePs ∧ (d.setPw w).regs = d.regs ∧ (d.setPw w).mem = d.mem ∧ (d.setPw w).lines = d.lines ∧
    (d.setPw w).regions = d.regions ∧ (d.setPw w).keys = d.keys ∧ (d.setPw w).ctrCache = d.ctrCache ∧
    (d.setPw w).sv = d.sv ∧ (d.setPw w).hostMem = d.hostMem ∧ (d.setPw w).log = d.log ∧ (d.setPw w).units = d.units ∧
    (d.setPw w).msix = d.msix ∧ (d.setPw w).msixPend = d.msixPend ∧ (d.setPw w).irqs = d.irqs ∧
    (d.setPw w).rings = d.rings ∧ (d.setPw w).ctxs = d.ctxs ∧ (d.setPw w).fences = d.fences ∧
    (d.setPw w).dispatches = d.dispatches ∧ (d.setPw w).staging = d.staging ∧ (d.setPw w).used = d.used ∧
    (d.setPw w).weft = d.weft ∧ (d.setPw w).tiles = d.tiles ∧ (d.setPw w).battens = d.battens ∧
    (d.setPw w).btParts = d.btParts ∧ (d.setPw w).shuttle = d.shuttle ∧ (d.setPw w).pleach = d.pleach ∧
    (d.setPw w).rtp = d.rtp ∧ (d.setPw w).life = d.life ∧ (d.setPw w).cxl = d.cxl ∧ (d.setPw w).tap = d.tap ∧
    (d.setPw w).stopsDue = d.stopsDue ∧ (d.setPw w).sigsDue = d.sigsDue ∧ (d.setPw w).fatalDue = d.fatalDue ∧
    (d.setPw w).draws = d.draws :=
  ⟨rfl, rfl, rfl, rfl, rfl, rfl, rfl, rfl, rfl, rfl, rfl, rfl, rfl, rfl, rfl, rfl, rfl, rfl, rfl, rfl, rfl, rfl, rfl, rfl, rfl, rfl, rfl, rfl, rfl, rfl, rfl, rfl, rfl, rfl⟩

@[simp] theorem Dev.setTap_rest (w : Tap) :
    (d.setTap w).timePs = d.timePs ∧ (d.setTap w).regs = d.regs ∧ (d.setTap w).mem = d.mem ∧ (d.setTap w).lines = d.lines ∧
    (d.setTap w).regions = d.regions ∧ (d.setTap w).keys = d.keys ∧ (d.setTap w).ctrCache = d.ctrCache ∧
    (d.setTap w).sv = d.sv ∧ (d.setTap w).hostMem = d.hostMem ∧ (d.setTap w).log = d.log ∧ (d.setTap w).units = d.units ∧
    (d.setTap w).msix = d.msix ∧ (d.setTap w).msixPend = d.msixPend ∧ (d.setTap w).irqs = d.irqs ∧
    (d.setTap w).rings = d.rings ∧ (d.setTap w).ctxs = d.ctxs ∧ (d.setTap w).fences = d.fences ∧
    (d.setTap w).dispatches = d.dispatches ∧ (d.setTap w).staging = d.staging ∧ (d.setTap w).used = d.used ∧
    (d.setTap w).weft = d.weft ∧ (d.setTap w).tiles = d.tiles ∧ (d.setTap w).battens = d.battens ∧
    (d.setTap w).btParts = d.btParts ∧ (d.setTap w).shuttle = d.shuttle ∧ (d.setTap w).pleach = d.pleach ∧
    (d.setTap w).rtp = d.rtp ∧ (d.setTap w).life = d.life ∧ (d.setTap w).power = d.power ∧ (d.setTap w).cxl = d.cxl ∧
    (d.setTap w).stopsDue = d.stopsDue ∧ (d.setTap w).sigsDue = d.sigsDue ∧ (d.setTap w).fatalDue = d.fatalDue ∧
    (d.setTap w).draws = d.draws :=
  ⟨rfl, rfl, rfl, rfl, rfl, rfl, rfl, rfl, rfl, rfl, rfl, rfl, rfl, rfl, rfl, rfl, rfl, rfl, rfl, rfl, rfl, rfl, rfl, rfl, rfl, rfl, rfl, rfl, rfl, rfl, rfl, rfl, rfl, rfl⟩

@[simp] theorem Dev.setWf_rest (p : Nat) (x : WfPart) :
    (d.setWf p x).timePs = d.timePs ∧ (d.setWf p x).regs = d.regs ∧ (d.setWf p x).mem = d.mem ∧
    (d.setWf p x).lines = d.lines ∧ (d.setWf p x).regions = d.regions ∧ (d.setWf p x).keys = d.keys ∧
    (d.setWf p x).ctrCache = d.ctrCache ∧ (d.setWf p x).sv = d.sv ∧ (d.setWf p x).hostMem = d.hostMem ∧
    (d.setWf p x).log = d.log ∧ (d.setWf p x).units = d.units ∧ (d.setWf p x).msix = d.msix ∧
    (d.setWf p x).msixPend = d.msixPend ∧ (d.setWf p x).irqs = d.irqs ∧ (d.setWf p x).rings = d.rings ∧
    (d.setWf p x).ctxs = d.ctxs ∧ (d.setWf p x).fences = d.fences ∧ (d.setWf p x).dispatches = d.dispatches ∧
    (d.setWf p x).staging = d.staging ∧ (d.setWf p x).used = d.used ∧ (d.setWf p x).tiles = d.tiles ∧
    (d.setWf p x).battens = d.battens ∧ (d.setWf p x).btParts = d.btParts ∧ (d.setWf p x).shuttle = d.shuttle ∧
    (d.setWf p x).pleach = d.pleach ∧ (d.setWf p x).rtp = d.rtp ∧ (d.setWf p x).life = d.life ∧
    (d.setWf p x).power = d.power ∧ (d.setWf p x).cxl = d.cxl ∧ (d.setWf p x).tap = d.tap ∧
    (d.setWf p x).stopsDue = d.stopsDue ∧ (d.setWf p x).sigsDue = d.sigsDue ∧ (d.setWf p x).fatalDue = d.fatalDue ∧
    (d.setWf p x).draws = d.draws :=
  ⟨rfl, rfl, rfl, rfl, rfl, rfl, rfl, rfl, rfl, rfl, rfl, rfl, rfl, rfl, rfl, rfl, rfl, rfl, rfl, rfl, rfl, rfl, rfl, rfl, rfl, rfl, rfl, rfl, rfl, rfl, rfl, rfl, rfl, rfl⟩

@[simp] theorem Dev.setStaging_rest (i : Nat) (x : Staging) :
    (d.setStaging i x).timePs = d.timePs ∧ (d.setStaging i x).regs = d.regs ∧ (d.setStaging i x).mem = d.mem ∧
    (d.setStaging i x).lines = d.lines ∧ (d.setStaging i x).regions = d.regions ∧ (d.setStaging i x).keys = d.keys ∧
    (d.setStaging i x).ctrCache = d.ctrCache ∧ (d.setStaging i x).sv = d.sv ∧ (d.setStaging i x).hostMem = d.hostMem ∧
    (d.setStaging i x).log = d.log ∧ (d.setStaging i x).units = d.units ∧ (d.setStaging i x).msix = d.msix ∧
    (d.setStaging i x).msixPend = d.msixPend ∧ (d.setStaging i x).irqs = d.irqs ∧ (d.setStaging i x).rings = d.rings ∧
    (d.setStaging i x).ctxs = d.ctxs ∧ (d.setStaging i x).fences = d.fences ∧ (d.setStaging i x).dispatches = d.dispatches ∧
    (d.setStaging i x).used = d.used ∧ (d.setStaging i x).weft = d.weft ∧ (d.setStaging i x).tiles = d.tiles ∧
    (d.setStaging i x).battens = d.battens ∧ (d.setStaging i x).btParts = d.btParts ∧
    (d.setStaging i x).shuttle = d.shuttle ∧ (d.setStaging i x).pleach = d.pleach ∧ (d.setStaging i x).rtp = d.rtp ∧
    (d.setStaging i x).life = d.life ∧ (d.setStaging i x).power = d.power ∧ (d.setStaging i x).cxl = d.cxl ∧
    (d.setStaging i x).tap = d.tap ∧ (d.setStaging i x).stopsDue = d.stopsDue ∧ (d.setStaging i x).sigsDue = d.sigsDue ∧
    (d.setStaging i x).fatalDue = d.fatalDue ∧ (d.setStaging i x).draws = d.draws :=
  ⟨rfl, rfl, rfl, rfl, rfl, rfl, rfl, rfl, rfl, rfl, rfl, rfl, rfl, rfl, rfl, rfl, rfl, rfl, rfl, rfl, rfl, rfl, rfl, rfl, rfl, rfl, rfl, rfl, rfl, rfl, rfl, rfl, rfl, rfl⟩

end Sys2Proof.Machine
end

