-- ==== Sys2Proof/Laws/Ops.lean ====
section
/-! SUPPORT. What the shared operations of every family do, said once: registers read back, records of the fault log, vectors, free
values, how a write is received, and when nothing is left to settle. -/

namespace Sys2Proof.Machine

variable (d : Dev)

/-! ### Registers -/

/-- Three equal copies read as what each holds (09 R269). -/
@[simp] theorem Copies.read_of (v : Word64) : (Copies.of v).read = v := by simp [Copies.read, Copies.of]

@[simp] theorem Dev.reg_setReg (o : Nat) (v : Word64) (x : Nat) : (d.setReg o v).reg x = if x = o then v else d.reg x := by
  simp only [Dev.reg, Dev.setReg, Sparse.get_set]; split <;> simp

theorem Dev.reg_setReg_ne {o x : Nat} (v : Word64) (h : x ≠ o) : (d.setReg o v).reg x = d.reg x := by simp [h]

theorem Dev.reg_setFld_ne {o x : Nat} (lo w v : Nat) (h : x ≠ o) : (d.setFld o lo w v).reg x = d.reg x := by
  simp [Dev.setFld, h]

theorem Dev.reg_bump (o n x : Nat) :
    (d.bump o n).reg x = if x = o then d.reg o + BitVec.ofNat 64 n else d.reg x := by
  simp [Dev.bump]

/-! ### Vectors, trace, the log -/

@[simp] theorem Dev.raise_rest (v : Nat) :
    (d.raise v).timePs = d.timePs ∧ (d.raise v).regs = d.regs ∧ (d.raise v).mem = d.mem ∧ (d.raise v).lines = d.lines ∧
    (d.raise v).regions = d.regions ∧ (d.raise v).keys = d.keys ∧ (d.raise v).ctrCache = d.ctrCache ∧
    (d.raise v).sv = d.sv ∧ (d.raise v).hostMem = d.hostMem ∧ (d.raise v).log = d.log ∧ (d.raise v).units = d.units ∧
    (d.raise v).msix = d.msix ∧ (d.raise v).rings = d.rings ∧ (d.raise v).ctxs = d.ctxs ∧ (d.raise v).fences = d.fences ∧
    (d.raise v).dispatches = d.dispatches ∧ (d.raise v).staging = d.staging ∧ (d.raise v).used = d.used ∧
    (d.raise v).weft = d.weft ∧ (d.raise v).tiles = d.tiles ∧ (d.raise v).battens = d.battens ∧
    (d.raise v).btParts = d.btParts ∧ (d.raise v).shuttle = d.shuttle ∧ (d.raise v).pleach = d.pleach ∧
    (d.raise v).rtp = d.rtp ∧ (d.raise v).life = d.life ∧ (d.raise v).power = d.power ∧ (d.raise v).cxl = d.cxl ∧
    (d.raise v).tap = d.tap ∧ (d.raise v).stopsDue = d.stopsDue ∧ (d.raise v).sigsDue = d.sigsDue ∧
    (d.raise v).fatalDue = d.fatalDue ∧ (d.raise v).draws = d.draws := by
  unfold Dev.raise; split <;> (try split) <;> simp

@[simp] theorem Dev.raisePart_rest (p i : Nat) :
    (d.raisePart p i).timePs = d.timePs ∧ (d.raisePart p i).regs = d.regs ∧ (d.raisePart p i).mem = d.mem ∧
    (d.raisePart p i).lines = d.lines ∧ (d.raisePart p i).regions = d.regions ∧ (d.raisePart p i).keys = d.keys ∧
    (d.raisePart p i).ctrCache = d.ctrCache ∧ (d.raisePart p i).sv = d.sv ∧ (d.raisePart p i).hostMem = d.hostMem ∧
    (d.raisePart p i).log = d.log ∧ (d.raisePart p i).units = d.units ∧ (d.raisePart p i).msix = d.msix ∧
    (d.raisePart p i).rings = d.rings ∧ (d.raisePart p i).ctxs = d.ctxs ∧ (d.raisePart p i).fences = d.fences ∧
    (d.raisePart p i).dispatches = d.dispatches ∧ (d.raisePart p i).staging = d.staging ∧ (d.raisePart p i).used = d.used ∧
    (d.raisePart p i).weft = d.weft ∧ (d.raisePart p i).tiles = d.tiles ∧ (d.raisePart p i).battens = d.battens ∧
    (d.raisePart p i).btParts = d.btParts ∧ (d.raisePart p i).shuttle = d.shuttle ∧ (d.raisePart p i).pleach = d.pleach ∧
    (d.raisePart p i).rtp = d.rtp ∧ (d.raisePart p i).life = d.life ∧ (d.raisePart p i).power = d.power ∧
    (d.raisePart p i).cxl = d.cxl ∧ (d.raisePart p i).tap = d.tap ∧ (d.raisePart p i).stopsDue = d.stopsDue ∧
    (d.raisePart p i).sigsDue = d.sigsDue ∧ (d.raisePart p i).fatalDue = d.fatalDue ∧ (d.raisePart p i).draws = d.draws := by
  simp [Dev.raisePart]

@[simp] theorem Dev.traceEvent_rest (k a : Nat) :
    (d.traceEvent k a).timePs = d.timePs ∧ (d.traceEvent k a).regs = d.regs ∧ (d.traceEvent k a).mem = d.mem ∧
    (d.traceEvent k a).lines = d.lines ∧ (d.traceEvent k a).regions = d.regions ∧ (d.traceEvent k a).keys = d.keys ∧
    (d.traceEvent k a).ctrCache = d.ctrCache ∧ (d.traceEvent k a).sv = d.sv ∧ (d.traceEvent k a).hostMem = d.hostMem ∧
    (d.traceEvent k a).log = d.log ∧ (d.traceEvent k a).units = d.units ∧ (d.traceEvent k a).msix = d.msix ∧
    (d.traceEvent k a).msixPend = d.msixPend ∧ (d.traceEvent k a).irqs = d.irqs ∧ (d.traceEvent k a).rings = d.rings ∧
    (d.traceEvent k a).ctxs = d.ctxs ∧ (d.traceEvent k a).fences = d.fences ∧ (d.traceEvent k a).dispatches = d.dispatches ∧
    (d.traceEvent k a).staging = d.staging ∧ (d.traceEvent k a).used = d.used ∧ (d.traceEvent k a).weft = d.weft ∧
    (d.traceEvent k a).tiles = d.tiles ∧ (d.traceEvent k a).battens = d.battens ∧ (d.traceEvent k a).btParts = d.btParts ∧
    (d.traceEvent k a).shuttle = d.shuttle ∧ (d.traceEvent k a).pleach = d.pleach ∧ (d.traceEvent k a).rtp = d.rtp ∧
    (d.traceEvent k a).life = d.life ∧ (d.traceEvent k a).power = d.power ∧ (d.traceEvent k a).cxl = d.cxl ∧
    (d.traceEvent k a).stopsDue = d.stopsDue ∧ (d.traceEvent k a).sigsDue = d.sigsDue ∧
    (d.traceEvent k a).fatalDue = d.fatalDue ∧ (d.traceEvent k a).draws = d.draws := by
  unfold Dev.traceEvent; split <;> (try split) <;> simp

/-- What recording an entry may touch: `e` is `d` but for the log, the counters, the vectors, the life log, trace and what
Table 09-5 makes due. -/
def Dev.Noted (d e : Dev) : Prop :=
  e = { d with log := e.log, regs := e.regs, irqs := e.irqs, msixPend := e.msixPend, life := e.life, tap := e.tap,
               stopsDue := e.stopsDue, fatalDue := e.fatalDue }

theorem Dev.Noted.refl (d : Dev) : d.Noted d := rfl

theorem Dev.Noted.trans {a b c : Dev} (h : a.Noted b) (k : b.Noted c) : a.Noted c := by
  unfold Dev.Noted at *; rw [k, h]

theorem Dev.Noted.ite {d a b : Dev} {c : Prop} [Decidable c] (h : d.Noted a) (k : d.Noted b) : d.Noted (if c then a else b) := by
  split <;> assumption

theorem Dev.noted_raise (v : Nat) : d.Noted (d.raise v) := by
  unfold Dev.raise; exact .ite rfl (.ite rfl rfl)

theorem Dev.noted_traceEvent (k a : Nat) : d.Noted (d.traceEvent k a) := by
  unfold Dev.traceEvent; exact .ite (.ite rfl rfl) rfl

theorem Dev.noted_entryCount (c p : Nat) : d.Noted (d.entryCount c p) := by
  unfold Dev.entryCount; exact .ite rfl (.ite rfl (.ite rfl rfl))

theorem Dev.noted_entryVectors (e : LogEntry) : d.Noted (d.entryVectors e) := by
  unfold Dev.entryVectors
  refine .trans (b := if e.cls ≥ 2 then d.raise 0 else d) (.ite (d.noted_raise 0) rfl) ?_
  exact .ite (Dev.noted_raise _ 4) rfl

theorem Dev.noted_entryPart (e : LogEntry) : d.Noted (d.entryPart e) := by
  unfold Dev.entryPart
  split
  · exact .ite (.trans (d.noted_entryCount _ _) (Dev.noted_raise _ _)) (d.noted_entryCount _ _)
  · rfl

theorem Dev.noted_afterEntry (e : LogEntry) (o : Option Nat) : d.Noted (d.afterEntry e o) := by
  unfold Dev.afterEntry
  refine .trans (d.noted_traceEvent 5 e.seq) (.trans (Dev.noted_entryVectors _ e) (.trans (Dev.noted_entryPart _ e) ?_))
  refine .trans (b := Dev.entryLife _ e) ?_ rfl
  unfold Dev.entryLife
  exact .ite rfl rfl

theorem Dev.noted_record (cls cause : Nat) (u : UnitType) (id : Nat) (part : Option Nat) (detail : Nat) :
    d.Noted (d.record cls cause u id part detail) := by
  unfold Dev.record Dev.logged
  exact .trans (b := { d with log := _ }) rfl (Dev.noted_afterEntry _ _ _)

theorem Dev.noted_recordC3 (cause ctx detail : Nat) : d.Noted (d.recordC3 cause ctx detail) := by
  unfold Dev.recordC3 Dev.logged
  exact .trans (b := { d with log := _ }) rfl (Dev.noted_afterEntry _ _ _)

@[simp] theorem Dev.record_rest (c k : Nat) (u : UnitType) (i : Nat) (p : Option Nat) (x : Nat) :
    (d.record c k u i p x).timePs = d.timePs ∧ (d.record c k u i p x).mem = d.mem ∧ (d.record c k u i p x).lines = d.lines ∧
    (d.record c k u i p x).regions = d.regions ∧ (d.record c k u i p x).keys = d.keys ∧
    (d.record c k u i p x).ctrCache = d.ctrCache ∧ (d.record c k u i p x).sv = d.sv ∧
    (d.record c k u i p x).hostMem = d.hostMem ∧ (d.record c k u i p x).units = d.units ∧
    (d.record c k u i p x).msix = d.msix ∧ (d.record c k u i p x).rings = d.rings ∧ (d.record c k u i p x).ctxs = d.ctxs ∧
    (d.record c k u i p x).fences = d.fences ∧ (d.record c k u i p x).dispatches = d.dispatches ∧
    (d.record c k u i p x).staging = d.staging ∧ (d.record c k u i p x).used = d.used ∧
    (d.record c k u i p x).weft = d.weft ∧ (d.record c k u i p x).tiles = d.tiles ∧
    (d.record c k u i p x).battens = d.battens ∧ (d.record c k u i p x).btParts = d.btParts ∧
    (d.record c k u i p x).shuttle = d.shuttle ∧ (d.record c k u i p x).pleach = d.pleach ∧
    (d.record c k u i p x).rtp = d.rtp ∧ (d.record c k u i p x).power = d.power ∧ (d.record c k u i p x).cxl = d.cxl ∧
    (d.record c k u i p x).sigsDue = d.sigsDue ∧ (d.record c k u i p x).draws = d.draws := by
  have h : d.Noted (d.record c k u i p x) := d.noted_record c k u i p x
  unfold Dev.Noted at h
  rw [h]; simp

@[simp] theorem Dev.recordC3_rest (k c x : Nat) :
    (d.recordC3 k c x).timePs = d.timePs ∧ (d.recordC3 k c x).mem = d.mem ∧ (d.recordC3 k c x).lines = d.lines ∧
    (d.recordC3 k c x).regions = d.regions ∧ (d.recordC3 k c x).keys = d.keys ∧ (d.recordC3 k c x).ctrCache = d.ctrCache ∧
    (d.recordC3 k c x).sv = d.sv ∧ (d.recordC3 k c x).hostMem = d.hostMem ∧ (d.recordC3 k c x).units = d.units ∧
    (d.recordC3 k c x).msix = d.msix ∧ (d.recordC3 k c x).rings = d.rings ∧ (d.recordC3 k c x).ctxs = d.ctxs ∧
    (d.recordC3 k c x).fences = d.fences ∧ (d.recordC3 k c x).dispatches = d.dispatches ∧
    (d.recordC3 k c x).staging = d.staging ∧ (d.recordC3 k c x).used = d.used ∧ (d.recordC3 k c x).weft = d.weft ∧
    (d.recordC3 k c x).tiles = d.tiles ∧ (d.recordC3 k c x).battens = d.battens ∧ (d.recordC3 k c x).btParts = d.btParts ∧
    (d.recordC3 k c x).shuttle = d.shuttle ∧ (d.recordC3 k c x).pleach = d.pleach ∧ (d.recordC3 k c x).rtp = d.rtp ∧
    (d.recordC3 k c x).power = d.power ∧ (d.recordC3 k c x).cxl = d.cxl ∧ (d.recordC3 k c x).sigsDue = d.sigsDue ∧
    (d.recordC3 k c x).draws = d.draws := by
  have h : d.Noted (d.recordC3 k c x) := d.noted_recordC3 k c x
  unfold Dev.Noted at h
  rw [h]; simp

@[simp] theorem Dev.afterEntry_rest (e : LogEntry) (o : Option Nat) :
    (d.afterEntry e o).timePs = d.timePs ∧ (d.afterEntry e o).mem = d.mem ∧ (d.afterEntry e o).lines = d.lines ∧
    (d.afterEntry e o).regions = d.regions ∧ (d.afterEntry e o).keys = d.keys ∧ (d.afterEntry e o).ctrCache = d.ctrCache ∧
    (d.afterEntry e o).sv = d.sv ∧ (d.afterEntry e o).hostMem = d.hostMem ∧ (d.afterEntry e o).units = d.units ∧
    (d.afterEntry e o).msix = d.msix ∧ (d.afterEntry e o).rings = d.rings ∧ (d.afterEntry e o).ctxs = d.ctxs ∧
    (d.afterEntry e o).fences = d.fences ∧ (d.afterEntry e o).dispatches = d.dispatches ∧
    (d.afterEntry e o).staging = d.staging ∧ (d.afterEntry e o).used = d.used ∧ (d.afterEntry e o).weft = d.weft ∧
    (d.afterEntry e o).tiles = d.tiles ∧ (d.afterEntry e o).battens = d.battens ∧ (d.afterEntry e o).btParts = d.btParts ∧
    (d.afterEntry e o).shuttle = d.shuttle ∧ (d.afterEntry e o).pleach = d.pleach ∧ (d.afterEntry e o).rtp = d.rtp ∧
    (d.afterEntry e o).power = d.power ∧ (d.afterEntry e o).cxl = d.cxl ∧ (d.afterEntry e o).sigsDue = d.sigsDue ∧
    (d.afterEntry e o).draws = d.draws := by
  have h : d.Noted (d.afterEntry e o) := d.noted_afterEntry e o
  unfold Dev.Noted at h
  rw [h]; simp

@[simp] theorem Dev.entryVectors_due (e : LogEntry) :
    (d.entryVectors e).stopsDue = d.stopsDue ∧ (d.entryVectors e).fatalDue = d.fatalDue ∧ (d.entryVectors e).log = d.log ∧
    (d.entryVectors e).regs = d.regs := by
  unfold Dev.entryVectors; refine ⟨?_, ?_, ?_, ?_⟩ <;> (repeat' split) <;> simp

@[simp] theorem Dev.entryCount_due (c p : Nat) :
    (d.entryCount c p).stopsDue = d.stopsDue ∧ (d.entryCount c p).fatalDue = d.fatalDue ∧ (d.entryCount c p).log = d.log := by
  unfold Dev.entryCount; refine ⟨?_, ?_, ?_⟩ <;> (repeat' split) <;> simp

@[simp] theorem Dev.entryPart_due (e : LogEntry) :
    (d.entryPart e).stopsDue = d.stopsDue ∧ (d.entryPart e).fatalDue = d.fatalDue ∧ (d.entryPart e).log = d.log := by
  unfold Dev.entryPart; refine ⟨?_, ?_, ?_⟩ <;> (repeat' split) <;> simp

@[simp] theorem Dev.entryLife_due (e : LogEntry) :
    (d.entryLife e).stopsDue = d.stopsDue ∧ (d.entryLife e).fatalDue = d.fatalDue ∧ (d.entryLife e).log = d.log ∧
    (d.entryLife e).regs = d.regs := by
  unfold Dev.entryLife; refine ⟨?_, ?_, ?_, ?_⟩ <;> (repeat' split) <;> simp

@[simp] theorem Dev.afterEntry_log (e : LogEntry) (o : Option Nat) : (d.afterEntry e o).log = d.log := by
  simp [Dev.afterEntry, Dev.entryDue]

@[simp] theorem Dev.afterEntry_due (e : LogEntry) :
    (d.afterEntry e none).stopsDue = d.stopsDue ∧ (d.afterEntry e none).fatalDue = (d.fatalDue || e.cls = 4) := by
  simp [Dev.afterEntry, Dev.entryDue]

@[simp] theorem Dev.record_log (c k : Nat) (u : UnitType) (i : Nat) (p : Option Nat) (x : Nat) :
    (d.record c k u i p x).log = d.log.push (d.newEntry c k u i p x) := by
  simp [Dev.record, Dev.logged]

@[simp] theorem Dev.record_due (c k : Nat) (u : UnitType) (i : Nat) (p : Option Nat) (x : Nat) :
    (d.record c k u i p x).stopsDue = d.stopsDue ∧ (d.record c k u i p x).fatalDue = (d.fatalDue || c = 4) := by
  simp [Dev.record, Dev.logged, Dev.newEntry]

@[simp] theorem Dev.recordC3_log (k c x : Nat) :
    (d.recordC3 k c x).log = d.log.push (d.newEntry 3 k .context (ctxPart c) (some (ctxPart c)) x) := by
  simp [Dev.recordC3, Dev.logged]

@[simp] theorem FaultLog.push_seq (l : FaultLog) (e : LogEntry) : (l.push e).seq = l.seq + 1 := rfl

/-- Only the entry counters of a partition change among the registers. -/
theorem Dev.reg_afterEntry (e : LogEntry) (o : Option Nat) (x : Nat)
    (h : ∀ p, x ≠ 0x8128 + 0x80 * p ∧ x ≠ 0x8130 + 0x80 * p ∧ x ≠ 0x8138 + 0x80 * p) :
    (d.afterEntry e o).reg x = d.reg x := by
  have hc : ∀ (d : Dev) c p, (d.entryCount c p).reg x = d.reg x := by
    intro d c p
    have := h p
    unfold Dev.entryCount
    (repeat' split) <;> simp [Dev.reg_bump, this]
  have hr : ∀ a b : Dev, a.regs = b.regs → a.reg x = b.reg x := by intro a b h; simp [Dev.reg, h]
  have hp : ∀ d : Dev, (d.entryPart e).reg x = d.reg x := by
    intro d
    unfold Dev.entryPart
    split
    · split
      · rename_i q _ _; rw [← hc d e.cls q]; exact hr _ _ (by simp)
      · exact hc _ _ _
    · rfl
  have : ((((d.traceEvent 5 e.seq).entryVectors e).entryPart e).entryLife e).reg x = d.reg x := by
    rw [hr _ (((d.traceEvent 5 e.seq).entryVectors e).entryPart e) (by simp), hp]
    exact hr _ _ (by simp)
  exact this

theorem Dev.reg_record (c k : Nat) (u : UnitType) (i : Nat) (p : Option Nat) (y x : Nat)
    (h : ∀ p, x ≠ 0x8128 + 0x80 * p ∧ x ≠ 0x8130 + 0x80 * p ∧ x ≠ 0x8138 + 0x80 * p) :
    (d.record c k u i p y).reg x = d.reg x := by
  unfold Dev.record Dev.logged
  rw [Dev.reg_afterEntry _ _ _ x h]; rfl

/-- An entry of no partition changes no register. -/
@[simp] theorem Dev.regs_record_none (c k : Nat) (u : UnitType) (i y : Nat) : (d.record c k u i none y).regs = d.regs := by
  simp [Dev.record, Dev.logged, Dev.newEntry, Dev.afterEntry, Dev.entryPart, Dev.entryDue]

@[simp] theorem Dev.reg_record_none (c k : Nat) (u : UnitType) (i y x : Nat) :
    (d.record c k u i none y).reg x = d.reg x := by simp [Dev.reg]

/-! ### Free values and settling -/

@[simp] theorem Dev.draw_fst : d.draw.1 = Config.freeValue d.draws := rfl

@[simp] theorem Dev.draw_snd : d.draw.2 = { d with draws := d.draws + 1 } := rfl

theorem Dev.quiet_iff : d.quiet = true ↔ d.sigsDue = [] ∧ d.stopsDue = [] ∧ d.fatalDue = false ∧ d.sv.errs = [] := by
  simp [Dev.quiet, List.isEmpty_iff, and_assoc, and_comm]

/-- With nothing due there is nothing to settle. -/
theorem Dev.settle_of_quiet (h : d.quiet = true) : d.settle = d := by simp [Dev.settle, h]

/-- A command that makes nothing due leaves just its effect. -/
theorem State.after_of_quiet (s : State) (f : Dev → Dev) (h : (f s.dev).quiet = true) :
    s.after f = .next { s with dev := f s.dev } := by simp [State.after, Dev.settle_of_quiet _ h]

/-- A device with the due fields of a quiet one is quiet. -/
theorem Dev.quiet_of_eq {a b : Dev} (h : a.quiet = true) (h1 : b.sigsDue = a.sigsDue) (h2 : b.stopsDue = a.stopsDue)
    (h3 : b.fatalDue = a.fatalDue) (h4 : b.sv.errs = a.sv.errs) : b.quiet = true := by
  simp only [Dev.quiet_iff] at *; simp [h1, h2, h3, h4, h]

/-- A command whose effect makes nothing due answers with just that effect. -/
theorem exec_of_quiet {s : State} {i : Instr} {f : Dev → Dev} {d : Dev} (key : exec i s = s.after f) (e : f s.dev = d)
    (hq : s.dev.quiet = true) (h1 : d.sigsDue = s.dev.sigsDue) (h2 : d.stopsDue = s.dev.stopsDue)
    (h3 : d.fatalDue = s.dev.fatalDue) (h4 : d.sv.errs = s.dev.sv.errs) : exec i s = .next { s with dev := d } := by
  rw [key, State.after_of_quiet _ _ (by rw [e]; exact Dev.quiet_of_eq hq h1 h2 h3 h4), e]

/-- A command's effect, and what it sets off. -/
theorem exec_of_effect {s : State} {i : Instr} {f : Dev → Dev} {d : Dev} (key : exec i s = s.after f) (e : f s.dev = d) :
    exec i s = .next { s with dev := d.settle } := by rw [key, State.after, e]

/-- A write that the port delivers reaches the register's own effect. -/
theorem Dev.onWrite_of_on (off v : Nat) (f : Dev → Dev) (h1 : d.on = true) (h2 : d.power.d3 = false)
    (h3 : d.power.st ≠ .held ∨ heldWritable off = true) : d.onWrite off v f = f d := by
  unfold Dev.onWrite
  rcases h3 with h3 | h3 <;> simp [h1, h2, h3, Dev.heldOut]

end Sys2Proof.Machine
end

