-- ==== Sys2Proof/Laws/Bits.lean ====
section
/-! SUPPORT. Bit fields: reading back a field that was set, fields that do not meet, and fields of registers. -/

namespace Sys2Proof.Machine

theorem bits_testBit (v lo w i : Nat) : (bits v lo w).testBit i = (decide (i < w) && v.testBit (lo + i)) := by
  simp [bits, Nat.testBit_mod_two_pow, Nat.testBit_shiftRight]

theorem setBits_testBit (v lo w x i : Nat) :
    (setBits v lo w x).testBit i = if lo ≤ i ∧ i < lo + w then x.testBit (i - lo) else v.testBit i := by
  have h1 : v = 2 ^ lo * (v >>> lo) + v % 2 ^ lo := by rw [Nat.shiftRight_eq_div_pow]; exact (Nat.div_add_mod _ _).symm
  have h2 : v >>> lo = 2 ^ w * (v >>> lo / 2 ^ w) + bits v lo w := (Nat.div_add_mod _ _).symm
  have hl : v % 2 ^ lo < 2 ^ lo := Nat.mod_lt _ (by positivity)
  have hx : x % 2 ^ w < 2 ^ w := Nat.mod_lt _ (by positivity)
  have hs : setBits v lo w x = 2 ^ lo * (2 ^ w * (v >>> lo / 2 ^ w) + x % 2 ^ w) + v % 2 ^ lo := by
    unfold setBits
    have : v = 2 ^ lo * (2 ^ w * (v >>> lo / 2 ^ w)) + bits v lo w * 2 ^ lo + v % 2 ^ lo := by
      conv_lhs => rw [h1, h2]
      ring
    rw [Nat.mul_add, Nat.mul_comm (2 ^ lo) (x % 2 ^ w)]
    generalize 2 ^ lo * (2 ^ w * (v >>> lo / 2 ^ w)) = H at *
    generalize bits v lo w * 2 ^ lo = B at *
    generalize v % 2 ^ lo = L at *
    generalize x % 2 ^ w * 2 ^ lo = X at *
    omega
  rw [hs, Nat.testBit_two_pow_mul_add _ hl]
  by_cases hi : i < lo
  · rw [if_pos hi, if_neg (by omega), Nat.testBit_mod_two_pow]; simp [hi]
  · rw [if_neg hi, Nat.testBit_two_pow_mul_add _ hx]
    by_cases hj : i - lo < w
    · rw [if_pos hj, if_pos (by omega), Nat.testBit_mod_two_pow]; simp [hj]
    · rw [if_neg hj, if_neg (by omega)]
      rw [← Nat.shiftRight_eq_div_pow, Nat.testBit_shiftRight, Nat.testBit_shiftRight]
      congr 1; omega

/-- A field reads back what was set. -/
theorem bits_setBits (v lo w x : Nat) : bits (setBits v lo w x) lo w = x % 2 ^ w := by
  apply Nat.eq_of_testBit_eq
  intro i
  rw [bits_testBit, setBits_testBit, Nat.testBit_mod_two_pow]
  by_cases h : i < w <;> simp [h]

/-- Another field is as before. -/
theorem bits_setBits_ne (v lo w x : Nat) {lo2 w2 : Nat} (h : lo2 + w2 ≤ lo ∨ lo + w ≤ lo2) :
    bits (setBits v lo w x) lo2 w2 = bits v lo2 w2 := by
  apply Nat.eq_of_testBit_eq
  intro i
  rw [bits_testBit, bits_testBit, setBits_testBit]
  by_cases hi : i < w2
  · rw [if_neg (by omega)]
  · simp [hi]

theorem setBits_lt {v lo w x n : Nat} (h : lo + w ≤ n) (hv : v < 2 ^ n) : setBits v lo w x < 2 ^ n := by
  apply Nat.lt_pow_two_of_testBit
  intro i hi
  rw [setBits_testBit, if_neg (by omega)]
  exact Nat.testBit_lt_two_pow (lt_of_lt_of_le hv (Nat.pow_le_pow_right (by decide) hi))

theorem setBits_same {v lo w : Nat} : setBits v lo w (bits v lo w) = v := by
  apply Nat.eq_of_testBit_eq
  intro i
  rw [setBits_testBit, bits_testBit]
  split
  · rename_i h; simp [show i - lo < w by omega, show lo + (i - lo) = i by omega]
  · rfl

/-- A field of 64 bits of a number is a field of its low 64 bits. -/
theorem bits_mod (v lo w n : Nat) (h : lo + w ≤ n) : bits (v % 2 ^ n) lo w = bits v lo w := by
  apply Nat.eq_of_testBit_eq
  intro i
  rw [bits_testBit, bits_testBit, Nat.testBit_mod_two_pow]
  by_cases hi : i < w
  · simp [show lo + i < n by omega]
  · simp [hi]

variable (d : Dev)

/-- A field of a register reads back what was set. -/
theorem Dev.fld_setFld {o lo w x : Nat} (h : lo + w ≤ 64) : (d.setFld o lo w x).fld o lo w = x % 2 ^ w := by
  simp only [Dev.fld, Dev.setFld, Dev.reg_setReg, if_true, BitVec.toNat_ofNat, bits_mod _ _ _ _ h, bits_setBits]

/-- Another field, or another register, is as before. -/
theorem Dev.fld_setFld_ne {o lo w x o2 lo2 w2 : Nat} (h2 : lo2 + w2 ≤ 64)
    (h : o2 ≠ o ∨ lo2 + w2 ≤ lo ∨ lo + w ≤ lo2) : (d.setFld o lo w x).fld o2 lo2 w2 = d.fld o2 lo2 w2 := by
  simp only [Dev.fld, Dev.setFld, Dev.reg_setReg]
  split
  · rename_i e
    subst e
    rcases h with h | h
    · exact absurd rfl h
    · rw [BitVec.toNat_ofNat, bits_mod _ _ _ _ h2, bits_setBits_ne _ _ _ _ h]
  · rfl

end Sys2Proof.Machine
end

