-- ==== Sys2Proof/Laws/Host.lean ====
section
/-! SUPPORT. Byte strings and host memory: what is written reads back, and everything else is as before. -/

namespace Sys2Proof.Machine

@[simp] theorem leBytes_length (n v : Nat) : (leBytes n v).length = n := by
  induction n generalizing v with
  | zero => rfl
  | succ n ih => simp [leBytes, ih]

theorem leNat_leBytes (n v : Nat) (h : v < 2 ^ (8 * n)) : leNat (leBytes n v) = v := by
  induction n generalizing v with
  | zero => simp [leBytes, leNat] at *; omega
  | succ n ih =>
    have hv : v / 256 < 2 ^ (8 * n) := by
      rw [Nat.div_lt_iff_lt_mul (by decide)]
      calc v < 2 ^ (8 * (n + 1)) := h
        _ = 2 ^ (8 * n) * 256 := by rw [show 8 * (n + 1) = 8 * n + 8 by omega, Nat.pow_add]
    simp only [leBytes, leNat, ih _ hv, BitVec.toNat_ofNat]
    omega

variable (d : Dev)

@[simp] theorem Dev.host_setHost (a : Nat) (b : Byte) (x : Nat) :
    (d.setHost a b).host x = if x = a then b else d.host x := by
  simp [Dev.host, Dev.setHost, Sparse.get_set]

theorem Dev.host_hostWrite (bs : List Byte) (a x : Nat) :
    (d.hostWrite a bs).host x = if a ≤ x ∧ x < a + bs.length then bs.getD (x - a) 0 else d.host x := by
  induction bs generalizing d a with
  | nil => simp [Dev.hostWrite]
  | cons b bs ih =>
    simp only [Dev.hostWrite, ih, Dev.host_setHost, List.length_cons]
    by_cases h1 : x = a
    · subst h1; simp
    · by_cases h2 : a + 1 ≤ x
      · obtain ⟨k, rfl⟩ : ∃ k, x = a + 1 + k := ⟨x - (a + 1), by omega⟩
        by_cases h3 : k < bs.length
        · have e : a + 1 + k - a = k + 1 := by omega
          simp [h3, e, show a + 1 + k < a + (bs.length + 1) by omega, show a + 1 + k < a + 1 + bs.length by omega]; omega
        · simp [show ¬ a + 1 + k < a + 1 + bs.length by omega, show ¬ a + 1 + k < a + (bs.length + 1) by omega]; omega
      · simp [h1, h2]; intros; omega

theorem Dev.hostBytes_hostWrite (bs : List Byte) (a : Nat) : (d.hostWrite a bs).hostBytes a bs.length = bs := by
  apply List.ext_getElem
  · simp [Dev.hostBytes]
  · intro i h1 h2
    simp [Dev.hostBytes, Dev.host_hostWrite, h2]

/-- A stretch of host memory that a write does not meet reads as before. -/
theorem Dev.hostBytes_hostWrite_ne (bs : List Byte) (a b n : Nat) (h : b + n ≤ a ∨ a + bs.length ≤ b) :
    (d.hostWrite a bs).hostBytes b n = d.hostBytes b n := by
  unfold Dev.hostBytes
  apply List.map_congr_left
  intro i hi
  have := List.mem_range.1 hi
  rw [Dev.host_hostWrite, if_neg]
  omega

@[simp] theorem Dev.hostWrite_rest (a : Nat) (bs : List Byte) :
    (d.hostWrite a bs).timePs = d.timePs ∧ (d.hostWrite a bs).regs = d.regs ∧ (d.hostWrite a bs).mem = d.mem ∧
    (d.hostWrite a bs).lines = d.lines ∧ (d.hostWrite a bs).regions = d.regions ∧ (d.hostWrite a bs).keys = d.keys ∧
    (d.hostWrite a bs).ctrCache = d.ctrCache ∧ (d.hostWrite a bs).sv = d.sv ∧ (d.hostWrite a bs).log = d.log ∧
    (d.hostWrite a bs).units = d.units ∧ (d.hostWrite a bs).msix = d.msix ∧ (d.hostWrite a bs).msixPend = d.msixPend ∧
    (d.hostWrite a bs).irqs = d.irqs ∧ (d.hostWrite a bs).rings = d.rings ∧ (d.hostWrite a bs).ctxs = d.ctxs ∧
    (d.hostWrite a bs).fences = d.fences ∧ (d.hostWrite a bs).dispatches = d.dispatches ∧
    (d.hostWrite a bs).staging = d.staging ∧ (d.hostWrite a bs).used = d.used ∧ (d.hostWrite a bs).weft = d.weft ∧
    (d.hostWrite a bs).tiles = d.tiles ∧ (d.hostWrite a bs).battens = d.battens ∧ (d.hostWrite a bs).btParts = d.btParts ∧
    (d.hostWrite a bs).shuttle = d.shuttle ∧ (d.hostWrite a bs).pleach = d.pleach ∧ (d.hostWrite a bs).rtp = d.rtp ∧
    (d.hostWrite a bs).life = d.life ∧ (d.hostWrite a bs).power = d.power ∧ (d.hostWrite a bs).cxl = d.cxl ∧
    (d.hostWrite a bs).tap = d.tap ∧ (d.hostWrite a bs).stopsDue = d.stopsDue ∧ (d.hostWrite a bs).sigsDue = d.sigsDue ∧
    (d.hostWrite a bs).fatalDue = d.fatalDue ∧ (d.hostWrite a bs).draws = d.draws := by
  induction bs generalizing d a with
  | nil => simp [Dev.hostWrite]
  | cons b bs ih => simp [Dev.hostWrite, ih]

@[simp] theorem Dev.hostCells_rest (cs : Cells) :
    (d.hostCells cs).timePs = d.timePs ∧ (d.hostCells cs).regs = d.regs ∧ (d.hostCells cs).mem = d.mem ∧
    (d.hostCells cs).lines = d.lines ∧ (d.hostCells cs).regions = d.regions ∧ (d.hostCells cs).keys = d.keys ∧
    (d.hostCells cs).ctrCache = d.ctrCache ∧ (d.hostCells cs).sv = d.sv ∧ (d.hostCells cs).log = d.log ∧
    (d.hostCells cs).units = d.units ∧ (d.hostCells cs).msix = d.msix ∧ (d.hostCells cs).msixPend = d.msixPend ∧
    (d.hostCells cs).irqs = d.irqs ∧ (d.hostCells cs).rings = d.rings ∧ (d.hostCells cs).ctxs = d.ctxs ∧
    (d.hostCells cs).fences = d.fences ∧ (d.hostCells cs).dispatches = d.dispatches ∧ (d.hostCells cs).staging = d.staging ∧
    (d.hostCells cs).used = d.used ∧ (d.hostCells cs).weft = d.weft ∧ (d.hostCells cs).tiles = d.tiles ∧
    (d.hostCells cs).battens = d.battens ∧ (d.hostCells cs).btParts = d.btParts ∧ (d.hostCells cs).shuttle = d.shuttle ∧
    (d.hostCells cs).pleach = d.pleach ∧ (d.hostCells cs).rtp = d.rtp ∧ (d.hostCells cs).life = d.life ∧
    (d.hostCells cs).power = d.power ∧ (d.hostCells cs).cxl = d.cxl ∧ (d.hostCells cs).tap = d.tap ∧
    (d.hostCells cs).stopsDue = d.stopsDue ∧ (d.hostCells cs).sigsDue = d.sigsDue ∧ (d.hostCells cs).fatalDue = d.fatalDue ∧
    (d.hostCells cs).draws = d.draws := by
  induction cs generalizing d with
  | nil => simp [Dev.hostCells]
  | cons c cs ih => obtain ⟨a, b⟩ := c; simp [Dev.hostCells, ih]

@[simp] theorem Dev.usedBytes_use (k n j : Nat) :
    (d.use k n).usedBytes j = if j = k then d.usedBytes k + n else d.usedBytes j := by
  simp [Dev.usedBytes, Dev.use, Sparse.get_set]

@[simp] theorem Dev.hostCount_rest (w : Bool) (k n : Nat) :
    (d.hostCount w k n).timePs = d.timePs ∧ (d.hostCount w k n).regs = d.regs ∧ (d.hostCount w k n).mem = d.mem ∧
    (d.hostCount w k n).lines = d.lines ∧ (d.hostCount w k n).regions = d.regions ∧ (d.hostCount w k n).keys = d.keys ∧
    (d.hostCount w k n).ctrCache = d.ctrCache ∧ (d.hostCount w k n).sv = d.sv ∧ (d.hostCount w k n).hostMem = d.hostMem ∧
    (d.hostCount w k n).log = d.log ∧ (d.hostCount w k n).units = d.units ∧ (d.hostCount w k n).msix = d.msix ∧
    (d.hostCount w k n).msixPend = d.msixPend ∧ (d.hostCount w k n).irqs = d.irqs ∧ (d.hostCount w k n).rings = d.rings ∧
    (d.hostCount w k n).fences = d.fences ∧ (d.hostCount w k n).dispatches = d.dispatches ∧
    (d.hostCount w k n).staging = d.staging ∧ (d.hostCount w k n).weft = d.weft ∧ (d.hostCount w k n).tiles = d.tiles ∧
    (d.hostCount w k n).battens = d.battens ∧ (d.hostCount w k n).btParts = d.btParts ∧
    (d.hostCount w k n).shuttle = d.shuttle ∧ (d.hostCount w k n).pleach = d.pleach ∧ (d.hostCount w k n).rtp = d.rtp ∧
    (d.hostCount w k n).life = d.life ∧ (d.hostCount w k n).power = d.power ∧ (d.hostCount w k n).cxl = d.cxl ∧
    (d.hostCount w k n).tap = d.tap ∧ (d.hostCount w k n).stopsDue = d.stopsDue ∧ (d.hostCount w k n).sigsDue = d.sigsDue ∧
    (d.hostCount w k n).fatalDue = d.fatalDue ∧ (d.hostCount w k n).draws = d.draws := by
  simp [Dev.hostCount]

@[simp] theorem Dev.hostPut_rest (c a : Nat) (bs : List Byte) :
    (d.hostPut c a bs).timePs = d.timePs ∧ (d.hostPut c a bs).regs = d.regs ∧ (d.hostPut c a bs).mem = d.mem ∧
    (d.hostPut c a bs).lines = d.lines ∧ (d.hostPut c a bs).regions = d.regions ∧ (d.hostPut c a bs).keys = d.keys ∧
    (d.hostPut c a bs).ctrCache = d.ctrCache ∧ (d.hostPut c a bs).sv = d.sv ∧ (d.hostPut c a bs).log = d.log ∧
    (d.hostPut c a bs).units = d.units ∧ (d.hostPut c a bs).msix = d.msix ∧ (d.hostPut c a bs).msixPend = d.msixPend ∧
    (d.hostPut c a bs).irqs = d.irqs ∧ (d.hostPut c a bs).rings = d.rings ∧ (d.hostPut c a bs).fences = d.fences ∧
    (d.hostPut c a bs).dispatches = d.dispatches ∧ (d.hostPut c a bs).staging = d.staging ∧
    (d.hostPut c a bs).weft = d.weft ∧ (d.hostPut c a bs).tiles = d.tiles ∧ (d.hostPut c a bs).battens = d.battens ∧
    (d.hostPut c a bs).btParts = d.btParts ∧ (d.hostPut c a bs).shuttle = d.shuttle ∧ (d.hostPut c a bs).pleach = d.pleach ∧
    (d.hostPut c a bs).rtp = d.rtp ∧ (d.hostPut c a bs).life = d.life ∧ (d.hostPut c a bs).power = d.power ∧
    (d.hostPut c a bs).cxl = d.cxl ∧ (d.hostPut c a bs).tap = d.tap ∧ (d.hostPut c a bs).stopsDue = d.stopsDue ∧
    (d.hostPut c a bs).sigsDue = d.sigsDue ∧ (d.hostPut c a bs).fatalDue = d.fatalDue ∧ (d.hostPut c a bs).draws = d.draws := by
  simp [Dev.hostPut]

@[simp] theorem Dev.putStatus_rest (r : Nat) :
    (d.putStatus r).timePs = d.timePs ∧ (d.putStatus r).regs = d.regs ∧ (d.putStatus r).mem = d.mem ∧
    (d.putStatus r).lines = d.lines ∧ (d.putStatus r).regions = d.regions ∧ (d.putStatus r).keys = d.keys ∧
    (d.putStatus r).ctrCache = d.ctrCache ∧ (d.putStatus r).sv = d.sv ∧ (d.putStatus r).log = d.log ∧
    (d.putStatus r).units = d.units ∧ (d.putStatus r).msix = d.msix ∧ (d.putStatus r).msixPend = d.msixPend ∧
    (d.putStatus r).irqs = d.irqs ∧ (d.putStatus r).fences = d.fences ∧ (d.putStatus r).dispatches = d.dispatches ∧
    (d.putStatus r).staging = d.staging ∧ (d.putStatus r).weft = d.weft ∧ (d.putStatus r).tiles = d.tiles ∧
    (d.putStatus r).battens = d.battens ∧ (d.putStatus r).btParts = d.btParts ∧ (d.putStatus r).shuttle = d.shuttle ∧
    (d.putStatus r).pleach = d.pleach ∧ (d.putStatus r).rtp = d.rtp ∧ (d.putStatus r).life = d.life ∧
    (d.putStatus r).power = d.power ∧ (d.putStatus r).cxl = d.cxl ∧ (d.putStatus r).tap = d.tap ∧
    (d.putStatus r).stopsDue = d.stopsDue ∧ (d.putStatus r).sigsDue = d.sigsDue ∧ (d.putStatus r).fatalDue = d.fatalDue ∧
    (d.putStatus r).draws = d.draws := by
  simp [Dev.putStatus]

@[simp] theorem Dev.writeStatus_rest (r : Nat) :
    (d.writeStatus r).timePs = d.timePs ∧ (d.writeStatus r).regs = d.regs ∧ (d.writeStatus r).mem = d.mem ∧
    (d.writeStatus r).lines = d.lines ∧ (d.writeStatus r).regions = d.regions ∧ (d.writeStatus r).keys = d.keys ∧
    (d.writeStatus r).ctrCache = d.ctrCache ∧ (d.writeStatus r).sv = d.sv ∧ (d.writeStatus r).log = d.log ∧
    (d.writeStatus r).units = d.units ∧ (d.writeStatus r).msix = d.msix ∧ (d.writeStatus r).msixPend = d.msixPend ∧
    (d.writeStatus r).irqs = d.irqs ∧ (d.writeStatus r).fences = d.fences ∧ (d.writeStatus r).dispatches = d.dispatches ∧
    (d.writeStatus r).staging = d.staging ∧ (d.writeStatus r).weft = d.weft ∧ (d.writeStatus r).tiles = d.tiles ∧
    (d.writeStatus r).battens = d.battens ∧ (d.writeStatus r).btParts = d.btParts ∧ (d.writeStatus r).shuttle = d.shuttle ∧
    (d.writeStatus r).pleach = d.pleach ∧ (d.writeStatus r).rtp = d.rtp ∧ (d.writeStatus r).life = d.life ∧
    (d.writeStatus r).power = d.power ∧ (d.writeStatus r).cxl = d.cxl ∧ (d.writeStatus r).tap = d.tap ∧
    (d.writeStatus r).stopsDue = d.stopsDue ∧ (d.writeStatus r).sigsDue = d.sigsDue ∧
    (d.writeStatus r).fatalDue = d.fatalDue ∧ (d.writeStatus r).draws = d.draws := by
  unfold Dev.writeStatus; split <;> simp

/-- Host memory keeps its canonical form. -/
theorem Dev.hostMem_wf_setHost (a : Nat) (b : Byte) (h : Sparse.wf (fun _ => 0) d.hostMem = true) :
    Sparse.wf (fun _ => 0) (d.setHost a b).hostMem = true := Sparse.wf_set _ _ _ _ h

theorem Dev.hostMem_wf_hostWrite (bs : List Byte) (a : Nat) (h : Sparse.wf (fun _ => 0) d.hostMem = true) :
    Sparse.wf (fun _ => 0) (d.hostWrite a bs).hostMem = true := by
  induction bs generalizing d a with
  | nil => exact h
  | cons b bs ih => exact ih _ _ (d.hostMem_wf_setHost a b h)

theorem Dev.hostMem_wf_hostCells (cs : Cells) (h : Sparse.wf (fun _ => 0) d.hostMem = true) :
    Sparse.wf (fun _ => 0) (d.hostCells cs).hostMem = true := by
  induction cs generalizing d with
  | nil => exact h
  | cons c cs ih => obtain ⟨a, b⟩ := c; exact ih _ (d.hostMem_wf_setHost a b h)

end Sys2Proof.Machine
end

