-- ==== Sys2Proof/Laws/Crypt.lean ====
section
/-! SUPPORT. Counter mode undoes itself, and what is sealed under a key opens under it. -/

namespace Sys2Proof.Machine.Crypt

/-! ### Byte strings -/

/-- Every number of the list is a byte. -/
abbrev Small (bs : List Nat) : Prop := ∀ b ∈ bs, b < 256

theorem ofBytes_toBytes {bs : List Nat} (h : Small bs) : ofBytes (toBytes bs) = bs := by
  rw [ofBytes, toBytes, List.map_map]
  conv_rhs => rw [← List.map_id bs]
  exact List.map_congr_left fun b hb => by simp [Nat.mod_eq_of_lt (h b hb)]

@[simp] theorem toBytes_ofBytes (bs : List Byte) : toBytes (ofBytes bs) = bs := by
  rw [ofBytes, toBytes, List.map_map]; simp [Function.comp_def]

theorem small_ofBytes (bs : List Byte) : Small (ofBytes bs) := by
  intro b hb; obtain ⟨x, _, rfl⟩ := List.mem_map.mp hb; exact x.isLt

@[simp] theorem length_ofBytes (bs : List Byte) : (ofBytes bs).length = bs.length := by simp [ofBytes]
@[simp] theorem length_toBytes (bs : List Nat) : (toBytes bs).length = bs.length := by simp [toBytes]

theorem small_xorList {a b : List Nat} (ha : Small a) (hb : Small b) : Small (xorList a b) := by
  intro x hx
  obtain ⟨i, hi, rfl⟩ := List.mem_iff_getElem.mp hx
  simp only [xorList, List.getElem_zipWith]
  exact Nat.xor_lt_two_pow (n := 8) (ha _ (List.getElem_mem _)) (hb _ (List.getElem_mem _))

theorem xorList_xorList (a s : List Nat) (h : a.length ≤ s.length) : xorList (xorList a s) s = a := by
  apply List.ext_getElem (by simp [xorList]; omega)
  intro i h1 h2
  simp [xorList]

theorem small_beBytes (n v : Nat) : Small (beBytes n v) := by
  induction n with
  | zero => exact fun b hb => nomatch hb
  | succ n ih =>
    intro b hb
    rcases List.mem_cons.mp hb with rfl | hb
    · exact Nat.mod_lt _ (by decide)
    · exact ih b hb

@[simp] theorem length_beBytes (n v : Nat) : (beBytes n v).length = n := by induction n <;> simp [beBytes, *]

theorem small_wordBytes (w : Nat) : Small (wordBytes w) := by
  intro b hb; simp only [wordBytes, List.mem_cons, List.not_mem_nil, or_false] at hb; omega

/-! ### The block cipher -/

theorem chunksOf_even {α : Type} (n : Nat) (hn : 0 < n) (m : Nat) (xs : List α) (h : xs.length = n * m) :
    (chunksOf n m xs).length = m ∧ ∀ c ∈ chunksOf n m xs, c.length = n := by
  induction m generalizing xs with
  | zero => simp [chunksOf]
  | succ m ih =>
    have hp : n ≤ xs.length := by rw [h]; exact Nat.le_mul_of_pos_right _ (Nat.succ_pos m)
    have ht := ih (xs.drop n) (by rw [List.length_drop, h, Nat.mul_succ]; omega)
    rw [chunksOf, if_neg (by cases xs <;> simp at hp ⊢; omega)]
    refine ⟨by simp [ht.1], fun c hc => ?_⟩
    rcases List.mem_cons.mp hc with rfl | hc
    · simp; omega
    · exact ht.2 c hc

theorem length_schedule {key : List Nat} (h : key.length = 32) : (schedule key).length = 60 := by
  have hf : ∀ (l : List Nat) (ws : List Nat), (l.foldl (fun ws i => nextWord ws i :: ws) ws).length = l.length + ws.length := by
    intro l
    induction l with
    | nil => simp
    | cons _ l ih => intro ws; rw [List.foldl_cons, ih]; simp; omega
  have hc := (chunksOf_even 4 (by decide) 8 key (by omega)).1
  simp only [schedule, List.length_reverse, hf, List.length_map, hc]
  rfl

theorem roundKey (key : List Nat) (i : Nat) : Small ((roundKeys key).getD i []) := by
  rw [List.getD_eq_getElem?_getD]
  cases h : (roundKeys key)[i]? with
  | none => exact fun b hb => nomatch hb
  | some k =>
    obtain ⟨ws, _, rfl⟩ := List.mem_map.mp (List.mem_of_getElem? h)
    intro b hb
    obtain ⟨w, _, hw⟩ := List.mem_flatMap.mp hb
    exact small_wordBytes w b hw

theorem length_roundKey {key : List Nat} (h : key.length = 32) : ((roundKeys key).getD 14 []).length = 16 := by
  have hc := chunksOf_even 4 (by decide) 15 (schedule key) (length_schedule h)
  have hl : 14 < (roundKeys key).length := by simp [roundKeys, hc.1]
  rw [List.getD_eq_getElem?_getD, List.getElem?_eq_getElem hl, Option.getD_some]
  simp only [roundKeys, List.getElem_map]
  have h4 := hc.2 _ (List.getElem_mem (by simpa [roundKeys] using hl))
  generalize (chunksOf 4 15 (schedule key))[14]'_ = ws at h4
  match ws, h4 with
  | [a, b, c, e], _ => rfl

/-- Of any block the cipher gives 16 bytes. -/
theorem cipher_block {key : List Nat} (h : key.length = 32) (block : List Nat) :
    (cipher (roundKeys key) block).length = 16 ∧ Small (cipher (roundKeys key) block) := by
  unfold cipher
  simp only []
  generalize List.foldl _ _ _ = s
  refine ⟨by simp only [xorList, List.length_zipWith, length_roundKey h]; simp [shiftRows], small_xorList ?_ (roundKey key 14)⟩
  intro b hb
  obtain ⟨i, _, rfl⟩ := List.mem_map.mp hb
  rw [List.getD_eq_getElem?_getD]
  generalize hx : (s.map subByte)[(_ : Nat)]? = x
  cases x with
  | none => simp
  | some x =>
    obtain ⟨y, _, rfl⟩ := List.mem_map.mp (List.mem_of_getElem? hx)
    exact Nat.mod_lt _ (by decide)

/-! ### GCM -/

theorem ctrStream_bytes {key : List Nat} (h : key.length = 32) (nonce : List Nat) (n : Nat) :
    n ≤ (ctrStream (roundKeys key) nonce n).length ∧ Small (ctrStream (roundKeys key) nonce n) := by
  constructor
  · have : (ctrStream (roundKeys key) nonce n).length = 16 * ceilDiv n 16 := by
      simp only [ctrStream, List.length_flatMap, cipher_block h]
      simp [Nat.mul_comm]
    rw [this, ceilDiv, if_neg (by decide)]; omega
  · intro b hb
    obtain ⟨i, _, hi⟩ := List.mem_flatMap.mp hb
    exact (cipher_block h _).2 b hi

theorem gcmCrypt_gcmCrypt {key : List Nat} (h : key.length = 32) (nonce bs : List Nat) :
    gcmCrypt key nonce (gcmCrypt key nonce bs) = bs := by
  have hl := (ctrStream_bytes h nonce bs.length).1
  have : (xorList bs (ctrStream (roundKeys key) nonce bs.length)).length = bs.length := by
    simp only [xorList, List.length_zipWith]; omega
  rw [gcmCrypt, gcmCrypt, this, xorList_xorList _ _ hl]

theorem small_gcmCrypt {key : List Nat} (h : key.length = 32) (nonce : List Nat) {bs : List Nat} (hb : Small bs) :
    Small (gcmCrypt key nonce bs) := small_xorList hb (ctrStream_bytes h nonce _).2

theorem length_gcmCrypt {key : List Nat} (h : key.length = 32) (nonce bs : List Nat) : (gcmCrypt key nonce bs).length = bs.length := by
  have hl := (ctrStream_bytes h nonce bs.length).1
  simp only [gcmCrypt, xorList, List.length_zipWith]; omega

theorem gcmTag_bytes {key : List Nat} (h : key.length = 32) (nonce aad ct : List Nat) :
    (gcmTag key nonce aad ct).length = 16 ∧ Small (gcmTag key nonce aad ct) :=
  ⟨by simp [gcmTag, xorList, (cipher_block h _).1], small_xorList (small_beBytes _ _) (cipher_block h _).2⟩

/-! ### SHA-512 and HKDF -/

theorem length_shaRound (s : List Nat) (kw : Nat) : (shaRound s kw).length = s.length := by
  unfold shaRound
  split
  · simp only [List.length_cons]
  · rfl

theorem length_shaBlock (s block : List Nat) : (shaBlock s block).length = s.length := by
  have h : ∀ (l s : List Nat), (l.foldl shaRound s).length = s.length := by
    intro l
    induction l with
    | nil => exact fun _ => rfl
    | cons k l ih => intro s; rw [List.foldl_cons, ih, length_shaRound]
  simp only [shaBlock, List.length_zipWith, h, Nat.min_self]

@[simp] theorem length_sha512 (bs : List Nat) : (sha512 bs).length = 64 := by
  have h : ∀ (l : List (List Nat)) (s : List Nat), (l.foldl shaBlock s).length = s.length := by
    intro l
    induction l with
    | nil => exact fun _ => rfl
    | cons k l ih => intro s; rw [List.foldl_cons, ih, length_shaBlock]
  have e : shaH.length = 8 := rfl
  simp only [sha512, List.length_flatMap, length_beBytes, List.map_const', List.sum_replicate, h, e]
  decide

/-- A 32-byte key. -/
@[simp] theorem length_hkdf (ikm info : List Nat) : (hkdf ikm info 32).length = 32 := by
  have h : ceilDiv 32 64 = 1 := by decide
  rw [hkdf, h, hkdfBlocks, List.length_take, List.length_append, hmac512, length_sha512]
  omega

/-! ### What is sealed opens -/

@[simp] theorem length_secretBytes (s : Nat) : (secretBytes s).length = 32 := by simp [secretBytes]

/-- Sealing adds the tag. -/
theorem length_sealUnder (key : Nat) (text : List Byte) : (sealUnder key text).length = text.length + 16 := by
  have hk := length_secretBytes key
  rw [sealUnder, length_toBytes, List.length_append, length_gcmCrypt hk, (gcmTag_bytes hk _ _ _).1, length_ofBytes]

/-- What is sealed under a key opens under it (13 R401). -/
theorem openUnder_sealUnder (key : Nat) (text : List Byte) : openUnder key (sealUnder key text) = some text := by
  have hk := length_secretBytes key
  have hc : Small (gcmCrypt (secretBytes key) zeroNonce (ofBytes text)) := small_gcmCrypt hk _ (small_ofBytes text)
  generalize hct : gcmCrypt (secretBytes key) zeroNonce (ofBytes text) = ct at hc
  have ht := gcmTag_bytes hk zeroNonce [] ct
  have hs : sealUnder key text = toBytes ct ++ toBytes (gcmTag (secretBytes key) zeroNonce [] ct) := by
    simp [sealUnder, hct, toBytes]
  have hn : (sealUnder key text).length - 16 = (toBytes ct).length := by rw [hs]; simp [ht.1]
  unfold openUnder
  simp only [hn]
  rw [hs, List.take_left' rfl, List.drop_left' rfl, ofBytes_toBytes hc, ofBytes_toBytes ht.2, if_pos rfl, ← hct,
    gcmCrypt_gcmCrypt hk, toBytes_ofBytes]

end Sys2Proof.Machine.Crypt
end

