-- ==== Sys2Proof/Laws/Drain.lean ====
section
/-! SUPPORT. A record that a drain writes opens in a reload (08 R245, R247). -/

namespace Sys2Proof.Machine
open Crypt

/-- The keys as HKDF gives them. -/
def DrainKeys.sized (k : DrainKeys) : Prop := k.key.length = 32

theorem Dev.drainKeys_sized (d : Dev) (p : Nat) : (d.drainKeys p).sized := by simp only [DrainKeys.sized, Dev.drainKeys, length_hkdf]

theorem small_sha512 (bs : List Nat) : Small (sha512 bs) := by
  intro b hb
  simp only [sha512, List.mem_flatMap] at hb
  obtain ⟨w, -, hw⟩ := hb
  exact small_beBytes _ _ b hw

theorem DrainKeys.nonce_bytes (k : DrainKeys) (hd body : List Byte) :
    (k.nonce hd body).length = 12 ∧ Small (k.nonce hd body) := by
  refine ⟨?_, fun b hb => small_sha512 _ b (List.mem_of_mem_take hb)⟩
  rw [DrainKeys.nonce, List.length_take, length_sha512]; rfl

theorem DrainKeys.tag_length {k : DrainKeys} (h : k.sized) (n : List Nat) (hd b : List Byte) : (k.tag n hd b).length = 16 := by
  rw [DrainKeys.tag, length_toBytes, (gcmTag_bytes h _ _ _).1]

theorem DrainKeys.crypt_crypt {k : DrainKeys} (h : k.sized) (n : List Nat) (bs : List Byte) : k.crypt n (k.crypt n bs) = bs := by
  rw [DrainKeys.crypt, DrainKeys.crypt, ofBytes_toBytes (small_gcmCrypt h _ (small_ofBytes bs)), gcmCrypt_gcmCrypt h, toBytes_ofBytes]

theorem DrainKeys.crypt_length {k : DrainKeys} (h : k.sized) (n : List Nat) (bs : List Byte) : (k.crypt n bs).length = bs.length := by
  rw [DrainKeys.crypt, length_toBytes, length_gcmCrypt h, length_ofBytes]

/-- A record opens: its tag verifies and its nonce is the one of its header and clear body. -/
theorem openRecord_drainRecord {k : DrainKeys} (h : k.sized) {hd body : List Byte} (hh : hd.length = 32) (hb : body.length = 4096) :
    openRecord k (drainRecord k hd body (bit (leNat ((hd.drop 12).take 4)) 31)) =
      some { src := leNat ((hd.drop 8).take 4), unit := leNat ((hd.drop 12).take 4),
             isMap := bit (leNat ((hd.drop 12).take 4)) 31, body := body } := by
  obtain ⟨hn, hs⟩ := k.nonce_bytes hd body
  generalize hN : k.nonce hd body = n at hn hs
  generalize hM : bit (leNat ((hd.drop 12).take 4)) 31 = m
  obtain ⟨ct, hct⟩ : ∃ ct, (if m then body else k.crypt n body) = ct := ⟨_, rfl⟩
  have hl : ct.length = 4096 := by
    subst hct; cases m
    · simpa [k.crypt_length h] using hb
    · simpa using hb
  have ht := k.tag_length h n hd ct
  have hu : (if m then ct else k.crypt n ct) = body := by
    subst hct; cases m
    · simpa using k.crypt_crypt h n body
    · rfl
  have hr : drainRecord k hd body m = hd ++ (ct ++ (k.tag n hd ct ++ (toBytes n ++ leBytes 4 0))) := by
    simp only [drainRecord, hN, hct, List.append_assoc]
  have e1 : (drainRecord k hd body m).take 32 = hd := by rw [hr, List.take_left' hh]
  have e2 : (drainRecord k hd body m).drop 32 = ct ++ (k.tag n hd ct ++ (toBytes n ++ leBytes 4 0)) := by rw [hr, List.drop_left' hh]
  have e3 : (drainRecord k hd body m).drop 4128 = k.tag n hd ct ++ (toBytes n ++ leBytes 4 0) := by
    rw [show 4128 = 32 + 4096 from rfl, ← List.drop_drop, e2, List.drop_left' hl]
  have e4 : (drainRecord k hd body m).drop 4144 = toBytes n ++ leBytes 4 0 := by
    rw [show 4144 = 4128 + 16 from rfl, ← List.drop_drop, e3, List.drop_left' ht]
  simp only [openRecord, e1, e2, e3, e4]
  rw [List.take_left' hl, List.take_left' ht, List.take_left' (by rw [length_toBytes, hn]), ofBytes_toBytes hs, hM, hu, hN]
  simp

end Sys2Proof.Machine
end

