-- ==== Sys2Proof/Laws/Rings.lean ====
section
/-! SUPPORT. Rings: what starting, finishing and reading back a descriptor does. -/

namespace Sys2Proof.Machine

variable (d : Dev)

@[simp] theorem Dev.ring_setRing (r : Nat) (x : Ring) (q : Nat) : (d.setRing r x).ring q = if q = r then x else d.ring q := by
  simp [Dev.ring, Dev.setRing, Sparse.get_set]

@[simp] theorem Dev.fence_setFence (f : Nat) (x : Fence) (g : Nat) :
    (d.setFence f x).fence g = if g = f then x else d.fence g := by
  simp [Dev.fence, Dev.setFence, Sparse.get_set]

@[simp] theorem Dev.ctx_setCtx (k : Nat) (x : Ctx) (j : Nat) : (d.setCtx k x).ctx j = if j = k then x else d.ctx j := by
  simp [Dev.ctx, Dev.setCtx, Sparse.get_set]

theorem Dev.ring_congr {a b : Dev} (h : a.rings = b.rings) (r : Nat) : a.ring r = b.ring r := by simp [Dev.ring, h]

/-- Writing the status line settles what was owed of it and changes no other ring (11 R332). -/
@[simp] theorem Dev.ring_putStatus (r q : Nat) :
    (d.putStatus r).ring q = if q = r then { d.ring r with owed := false } else d.ring q := by
  rw [Dev.putStatus, Dev.ring_congr (b := d.setRing r { d.ring r with owed := false }) (by simp)]; simp

/-- A status line that is due is written or owed; of the ring nothing else changes, and no other ring does. -/
theorem Dev.ring_writeStatus (r q : Nat) :
    (d.writeStatus r).ring q =
      if q = r then { d.ring r with owed := !d.hostMay true (ringPart r) 64 } else d.ring q := by
  unfold Dev.writeStatus; split <;> simp_all

/-- A descriptor that may start and whose operation the row takes is run. -/
theorem Dev.startNext_of_starts {r op : Nat} {a : Accepted} (h : d.starts r op a) (sub : RingDesc → Bool)
    (hs : sub a.desc = true) (run : Dev → Accepted → Dev) : d.startNext r op sub run = run d a := by
  obtain ⟨h1, h2, h3, h4, h5, h6, h7, h8⟩ := h
  simp [Dev.startNext, h1, h2, h3, h4, h5, h6, h7, h8, hs]

/-- A read of the ring's settings depends on the registers alone. -/
theorem Dev.ringSettings_congr {a b : Dev} (h : a.regs = b.regs) (r : Nat) :
    a.ringSize r = b.ringSize r ∧ a.ringAddr r = b.ringAddr r ∧ a.ringDoorbell r = b.ringDoorbell r ∧
    a.ringRecords r = b.ringRecords r ∧ a.ringVector r = b.ringVector r := by
  simp [Dev.ringSize, Dev.ringAddr, Dev.ringDoorbell, Dev.ringRecords, Dev.ringVector, Dev.fld, Dev.reg, h]

@[simp] theorem Dev.finish_ring (r q : Nat) (v : Verdict) (j : Nat) :
    (d.finish r q v).ring j = if j = r then { d.ring r with pend := Machine.setPhase q (.done v) (d.ring r).pend } else d.ring j := by
  simp [Dev.finish, Dev.setPhase]

/-- A finished descriptor carries its verdict. -/
theorem mem_setPhase {q : Nat} {ph : Phase} {as : List Accepted} {a : Accepted} (h : a ∈ as) (hq : a.seq = q)
    (hu : ∀ b ∈ as, b.seq = q → b = a) : ({ a with phase := ph } : Accepted) ∈ Machine.setPhase q ph as := by
  induction as with
  | nil => simp at h
  | cons b bs ih =>
    simp only [Machine.setPhase]
    split
    · have := hu b (by simp) ‹_›; subst this; simp
    · rcases List.mem_cons.1 h with h | h
      · subst h; contradiction
      · exact List.mem_cons_of_mem _ (ih h fun b hb => hu b (List.mem_cons_of_mem _ hb))

end Sys2Proof.Machine
end

