-- ==== Sys2Proof/Laws/Links.lean ====
section
/-! SUPPORT. Ports, channels and messages: what the shared operations of Reed and the Shuttles leave alone. -/

namespace Sys2Proof.Machine

variable (d : Dev)

@[simp] theorem Dev.port_setPort (n : Nat) (x : Port) (q : Nat) : (d.setPort n x).port q = if q = n then x else d.port q := by
  simp [Dev.port, Dev.setPort, Sparse.get_set]

@[simp] theorem Dev.sh_setSh (p : Nat) (x : ShPart) (q : Nat) : (d.setSh p x).sh q = if q = p then x else d.sh q := by
  simp [Dev.sh, Dev.setSh, Sparse.get_set]

@[simp] theorem Dev.movePort_rest (n : Nat) (x : Port) :
    (d.movePort n x).timePs = d.timePs ∧ (d.movePort n x).regs = d.regs ∧ (d.movePort n x).mem = d.mem ∧
    (d.movePort n x).lines = d.lines ∧ (d.movePort n x).regions = d.regions ∧ (d.movePort n x).keys = d.keys ∧
    (d.movePort n x).ctrCache = d.ctrCache ∧ (d.movePort n x).sv = d.sv ∧ (d.movePort n x).hostMem = d.hostMem ∧
    (d.movePort n x).log = d.log ∧ (d.movePort n x).units = d.units ∧ (d.movePort n x).msix = d.msix ∧
    (d.movePort n x).rings = d.rings ∧ (d.movePort n x).ctxs = d.ctxs ∧ (d.movePort n x).fences = d.fences ∧
    (d.movePort n x).dispatches = d.dispatches ∧ (d.movePort n x).staging = d.staging ∧ (d.movePort n x).used = d.used ∧
    (d.movePort n x).weft = d.weft ∧ (d.movePort n x).tiles = d.tiles ∧ (d.movePort n x).battens = d.battens ∧
    (d.movePort n x).btParts = d.btParts ∧ (d.movePort n x).pleach = d.pleach ∧ (d.movePort n x).rtp = d.rtp ∧
    (d.movePort n x).life = d.life ∧ (d.movePort n x).power = d.power ∧ (d.movePort n x).cxl = d.cxl ∧
    (d.movePort n x).tap = d.tap ∧ (d.movePort n x).stopsDue = d.stopsDue ∧ (d.movePort n x).sigsDue = d.sigsDue ∧
    (d.movePort n x).fatalDue = d.fatalDue ∧ (d.movePort n x).draws = d.draws := by
  unfold Dev.movePort; simp only []; split <;> simp

@[simp] theorem Dev.movePort_shuttle (n : Nat) (x : Port) : (d.movePort n x).shuttle = (d.setPort n x).shuttle := by
  unfold Dev.movePort; simp only []; split <;> simp

@[simp] theorem Dev.port_movePort (n : Nat) (x : Port) (q : Nat) : (d.movePort n x).port q = if q = n then x else d.port q := by
  simp [Dev.port, Dev.setPort, Sparse.get_set]

@[simp] theorem Dev.putOut_rest (n : Nat) (o : Option Nat) (m : Msg) :
    (d.putOut n o m).timePs = d.timePs ∧ (d.putOut n o m).mem = d.mem ∧ (d.putOut n o m).lines = d.lines ∧
    (d.putOut n o m).regions = d.regions ∧ (d.putOut n o m).keys = d.keys ∧ (d.putOut n o m).ctrCache = d.ctrCache ∧
    (d.putOut n o m).sv = d.sv ∧ (d.putOut n o m).hostMem = d.hostMem ∧ (d.putOut n o m).log = d.log ∧
    (d.putOut n o m).units = d.units ∧ (d.putOut n o m).msix = d.msix ∧ (d.putOut n o m).msixPend = d.msixPend ∧
    (d.putOut n o m).irqs = d.irqs ∧ (d.putOut n o m).rings = d.rings ∧ (d.putOut n o m).ctxs = d.ctxs ∧
    (d.putOut n o m).fences = d.fences ∧ (d.putOut n o m).dispatches = d.dispatches ∧ (d.putOut n o m).staging = d.staging ∧
    (d.putOut n o m).weft = d.weft ∧ (d.putOut n o m).tiles = d.tiles ∧ (d.putOut n o m).battens = d.battens ∧
    (d.putOut n o m).btParts = d.btParts ∧ (d.putOut n o m).pleach = d.pleach ∧ (d.putOut n o m).rtp = d.rtp ∧
    (d.putOut n o m).life = d.life ∧ (d.putOut n o m).power = d.power ∧ (d.putOut n o m).cxl = d.cxl ∧
    (d.putOut n o m).tap = d.tap ∧ (d.putOut n o m).stopsDue = d.stopsDue ∧ (d.putOut n o m).sigsDue = d.sigsDue ∧
    (d.putOut n o m).fatalDue = d.fatalDue ∧ (d.putOut n o m).draws = d.draws := by
  unfold Dev.putOut; split <;> (try split) <;> simp

@[simp] theorem Dev.putOut_ports (n : Nat) (o : Option Nat) (m : Msg) : (d.putOut n o m).shuttle.ports = d.shuttle.ports := by
  unfold Dev.putOut; split <;> (try split) <;> rfl

@[simp] theorem Dev.onPort_rest (n : Nat) (o : Option Nat) (m : Msg) :
    (d.onPort n o m).timePs = d.timePs ∧ (d.onPort n o m).mem = d.mem ∧ (d.onPort n o m).lines = d.lines ∧
    (d.onPort n o m).regions = d.regions ∧ (d.onPort n o m).keys = d.keys ∧ (d.onPort n o m).ctrCache = d.ctrCache ∧
    (d.onPort n o m).sv = d.sv ∧ (d.onPort n o m).hostMem = d.hostMem ∧ (d.onPort n o m).log = d.log ∧
    (d.onPort n o m).units = d.units ∧ (d.onPort n o m).msix = d.msix ∧ (d.onPort n o m).msixPend = d.msixPend ∧
    (d.onPort n o m).irqs = d.irqs ∧ (d.onPort n o m).rings = d.rings ∧ (d.onPort n o m).ctxs = d.ctxs ∧
    (d.onPort n o m).fences = d.fences ∧ (d.onPort n o m).dispatches = d.dispatches ∧ (d.onPort n o m).staging = d.staging ∧
    (d.onPort n o m).weft = d.weft ∧ (d.onPort n o m).tiles = d.tiles ∧ (d.onPort n o m).battens = d.battens ∧
    (d.onPort n o m).btParts = d.btParts ∧ (d.onPort n o m).pleach = d.pleach ∧ (d.onPort n o m).rtp = d.rtp ∧
    (d.onPort n o m).life = d.life ∧ (d.onPort n o m).power = d.power ∧ (d.onPort n o m).cxl = d.cxl ∧
    (d.onPort n o m).tap = d.tap ∧ (d.onPort n o m).stopsDue = d.stopsDue ∧ (d.onPort n o m).sigsDue = d.sigsDue ∧
    (d.onPort n o m).fatalDue = d.fatalDue ∧ (d.onPort n o m).draws = d.draws := by
  unfold Dev.onPort; split <;> simp

@[simp] theorem Dev.onPort_ports (n : Nat) (o : Option Nat) (m : Msg) : (d.onPort n o m).shuttle.ports = d.shuttle.ports := by
  unfold Dev.onPort; split <;> simp

@[simp] theorem Dev.emit_rest (o : Option Nat) (m : Msg) :
    (d.emit o m).timePs = d.timePs ∧ (d.emit o m).mem = d.mem ∧ (d.emit o m).lines = d.lines ∧
    (d.emit o m).regions = d.regions ∧ (d.emit o m).keys = d.keys ∧ (d.emit o m).ctrCache = d.ctrCache ∧
    (d.emit o m).sv = d.sv ∧ (d.emit o m).hostMem = d.hostMem ∧ (d.emit o m).log = d.log ∧ (d.emit o m).units = d.units ∧
    (d.emit o m).msix = d.msix ∧ (d.emit o m).msixPend = d.msixPend ∧ (d.emit o m).irqs = d.irqs ∧
    (d.emit o m).rings = d.rings ∧ (d.emit o m).ctxs = d.ctxs ∧ (d.emit o m).fences = d.fences ∧
    (d.emit o m).dispatches = d.dispatches ∧ (d.emit o m).staging = d.staging ∧ (d.emit o m).weft = d.weft ∧
    (d.emit o m).tiles = d.tiles ∧ (d.emit o m).battens = d.battens ∧ (d.emit o m).btParts = d.btParts ∧
    (d.emit o m).pleach = d.pleach ∧ (d.emit o m).rtp = d.rtp ∧ (d.emit o m).life = d.life ∧ (d.emit o m).power = d.power ∧
    (d.emit o m).cxl = d.cxl ∧ (d.emit o m).tap = d.tap ∧ (d.emit o m).stopsDue = d.stopsDue ∧
    (d.emit o m).sigsDue = d.sigsDue ∧ (d.emit o m).fatalDue = d.fatalDue ∧ (d.emit o m).draws = d.draws := by
  unfold Dev.emit; split <;> simp

@[simp] theorem Dev.rollEpoch_rest (p : Nat) :
    (d.rollEpoch p).timePs = d.timePs ∧ (d.rollEpoch p).mem = d.mem ∧ (d.rollEpoch p).lines = d.lines ∧
    (d.rollEpoch p).regions = d.regions ∧ (d.rollEpoch p).keys = d.keys ∧ (d.rollEpoch p).ctrCache = d.ctrCache ∧
    (d.rollEpoch p).sv = d.sv ∧ (d.rollEpoch p).hostMem = d.hostMem ∧ (d.rollEpoch p).log = d.log ∧
    (d.rollEpoch p).units = d.units ∧ (d.rollEpoch p).msix = d.msix ∧ (d.rollEpoch p).msixPend = d.msixPend ∧
    (d.rollEpoch p).irqs = d.irqs ∧ (d.rollEpoch p).rings = d.rings ∧ (d.rollEpoch p).ctxs = d.ctxs ∧
    (d.rollEpoch p).fences = d.fences ∧ (d.rollEpoch p).dispatches = d.dispatches ∧ (d.rollEpoch p).staging = d.staging ∧
    (d.rollEpoch p).used = d.used ∧ (d.rollEpoch p).weft = d.weft ∧ (d.rollEpoch p).tiles = d.tiles ∧
    (d.rollEpoch p).battens = d.battens ∧ (d.rollEpoch p).btParts = d.btParts ∧ (d.rollEpoch p).pleach = d.pleach ∧
    (d.rollEpoch p).rtp = d.rtp ∧ (d.rollEpoch p).life = d.life ∧ (d.rollEpoch p).power = d.power ∧
    (d.rollEpoch p).cxl = d.cxl ∧ (d.rollEpoch p).tap = d.tap ∧ (d.rollEpoch p).stopsDue = d.stopsDue ∧
    (d.rollEpoch p).sigsDue = d.sigsDue ∧ (d.rollEpoch p).fatalDue = d.fatalDue ∧ (d.rollEpoch p).draws = d.draws := by
  unfold Dev.rollEpoch; simp only []; split <;> simp

/-- Noting a held message writes an entry; nothing else, and nothing is due. -/
@[simp] theorem Dev.noteHeld_rest (g : Coord) :
    (d.noteHeld g).ctxs = d.ctxs ∧ (d.noteHeld g).shuttle = d.shuttle ∧ (d.noteHeld g).timePs = d.timePs ∧
    (d.noteHeld g).mem = d.mem ∧ (d.noteHeld g).lines = d.lines ∧ (d.noteHeld g).regions = d.regions ∧
    (d.noteHeld g).keys = d.keys ∧ (d.noteHeld g).ctrCache = d.ctrCache ∧ (d.noteHeld g).sv = d.sv ∧
    (d.noteHeld g).hostMem = d.hostMem ∧ (d.noteHeld g).units = d.units ∧ (d.noteHeld g).msix = d.msix ∧
    (d.noteHeld g).rings = d.rings ∧ (d.noteHeld g).fences = d.fences ∧ (d.noteHeld g).dispatches = d.dispatches ∧
    (d.noteHeld g).staging = d.staging ∧ (d.noteHeld g).used = d.used ∧ (d.noteHeld g).weft = d.weft ∧
    (d.noteHeld g).tiles = d.tiles ∧ (d.noteHeld g).battens = d.battens ∧ (d.noteHeld g).btParts = d.btParts ∧
    (d.noteHeld g).pleach = d.pleach ∧ (d.noteHeld g).rtp = d.rtp ∧ (d.noteHeld g).power = d.power ∧
    (d.noteHeld g).cxl = d.cxl ∧ (d.noteHeld g).stopsDue = d.stopsDue ∧ (d.noteHeld g).sigsDue = d.sigsDue ∧
    (d.noteHeld g).fatalDue = d.fatalDue ∧ (d.noteHeld g).draws = d.draws := by
  unfold Dev.noteHeld; split <;> simp

@[simp] theorem Dev.send_rest (p : Nat) (w : Draft) :
    (d.send p w).timePs = d.timePs ∧ (d.send p w).mem = d.mem ∧ (d.send p w).lines = d.lines ∧
    (d.send p w).regions = d.regions ∧ (d.send p w).keys = d.keys ∧ (d.send p w).ctrCache = d.ctrCache ∧
    (d.send p w).sv = d.sv ∧ (d.send p w).hostMem = d.hostMem ∧ (d.send p w).units = d.units ∧ (d.send p w).msix = d.msix ∧
    (d.send p w).rings = d.rings ∧ (d.send p w).fences = d.fences ∧ (d.send p w).dispatches = d.dispatches ∧
    (d.send p w).staging = d.staging ∧ (d.send p w).weft = d.weft ∧ (d.send p w).tiles = d.tiles ∧
    (d.send p w).battens = d.battens ∧ (d.send p w).btParts = d.btParts ∧ (d.send p w).pleach = d.pleach ∧
    (d.send p w).rtp = d.rtp ∧ (d.send p w).power = d.power ∧ (d.send p w).cxl = d.cxl ∧
    (d.send p w).stopsDue = d.stopsDue ∧ (d.send p w).sigsDue = d.sigsDue ∧ (d.send p w).fatalDue = d.fatalDue ∧
    (d.send p w).draws = d.draws := by
  unfold Dev.send; simp only []; split <;> simp

@[simp] theorem Dev.modPick_rest (p : Nat) (m : Msg) (f : PickRx → PickRx) :
    (d.modPick p m f).timePs = d.timePs ∧ (d.modPick p m f).regs = d.regs ∧ (d.modPick p m f).mem = d.mem ∧
    (d.modPick p m f).lines = d.lines ∧ (d.modPick p m f).regions = d.regions ∧ (d.modPick p m f).keys = d.keys ∧
    (d.modPick p m f).ctrCache = d.ctrCache ∧ (d.modPick p m f).sv = d.sv ∧ (d.modPick p m f).hostMem = d.hostMem ∧
    (d.modPick p m f).log = d.log ∧ (d.modPick p m f).units = d.units ∧ (d.modPick p m f).msix = d.msix ∧
    (d.modPick p m f).msixPend = d.msixPend ∧ (d.modPick p m f).irqs = d.irqs ∧ (d.modPick p m f).rings = d.rings ∧
    (d.modPick p m f).ctxs = d.ctxs ∧ (d.modPick p m f).fences = d.fences ∧ (d.modPick p m f).dispatches = d.dispatches ∧
    (d.modPick p m f).staging = d.staging ∧ (d.modPick p m f).used = d.used ∧ (d.modPick p m f).weft = d.weft ∧
    (d.modPick p m f).tiles = d.tiles ∧ (d.modPick p m f).battens = d.battens ∧ (d.modPick p m f).btParts = d.btParts ∧
    (d.modPick p m f).pleach = d.pleach ∧ (d.modPick p m f).rtp = d.rtp ∧ (d.modPick p m f).life = d.life ∧
    (d.modPick p m f).power = d.power ∧ (d.modPick p m f).cxl = d.cxl ∧ (d.modPick p m f).tap = d.tap ∧
    (d.modPick p m f).stopsDue = d.stopsDue ∧ (d.modPick p m f).sigsDue = d.sigsDue ∧
    (d.modPick p m f).fatalDue = d.fatalDue ∧ (d.modPick p m f).draws = d.draws := by
  simp [Dev.modPick]

@[simp] theorem Dev.emit_ports (o : Option Nat) (m : Msg) : (d.emit o m).shuttle.ports = d.shuttle.ports := by
  unfold Dev.emit; split <;> simp

/-- Messages put out one after another: only registers, budgets and the links change, and no port's state. -/
theorem Dev.emitAll_rest (l : List (Option Nat × Msg)) :
    let e := l.foldl (fun d e => d.emit e.1 e.2) d
    e = { d with regs := e.regs, used := e.used, shuttle := e.shuttle } ∧ e.shuttle.ports = d.shuttle.ports := by
  induction l generalizing d with
  | nil => simp
  | cons m l ih =>
    have h := ih (d.emit m.1 m.2)
    simp only [List.foldl_cons] at h ⊢
    refine ⟨?_, by rw [h.2]; simp⟩
    rw [h.1]; simp

@[simp] theorem Dev.releaseHeld_rest :
    (d.releaseHeld).timePs = d.timePs ∧ (d.releaseHeld).mem = d.mem ∧ (d.releaseHeld).lines = d.lines ∧
    (d.releaseHeld).regions = d.regions ∧ (d.releaseHeld).keys = d.keys ∧ (d.releaseHeld).ctrCache = d.ctrCache ∧
    (d.releaseHeld).sv = d.sv ∧ (d.releaseHeld).hostMem = d.hostMem ∧ (d.releaseHeld).log = d.log ∧
    (d.releaseHeld).units = d.units ∧ (d.releaseHeld).msix = d.msix ∧ (d.releaseHeld).msixPend = d.msixPend ∧
    (d.releaseHeld).irqs = d.irqs ∧ (d.releaseHeld).rings = d.rings ∧ (d.releaseHeld).ctxs = d.ctxs ∧
    (d.releaseHeld).fences = d.fences ∧ (d.releaseHeld).dispatches = d.dispatches ∧ (d.releaseHeld).staging = d.staging ∧
    (d.releaseHeld).weft = d.weft ∧ (d.releaseHeld).tiles = d.tiles ∧ (d.releaseHeld).battens = d.battens ∧
    (d.releaseHeld).btParts = d.btParts ∧ (d.releaseHeld).pleach = d.pleach ∧ (d.releaseHeld).rtp = d.rtp ∧
    (d.releaseHeld).life = d.life ∧ (d.releaseHeld).power = d.power ∧ (d.releaseHeld).cxl = d.cxl ∧
    (d.releaseHeld).tap = d.tap ∧ (d.releaseHeld).stopsDue = d.stopsDue ∧ (d.releaseHeld).sigsDue = d.sigsDue ∧
    (d.releaseHeld).fatalDue = d.fatalDue ∧ (d.releaseHeld).draws = d.draws := by
  rw [Dev.releaseHeld, (Dev.emitAll_rest _ _).1]; simp

@[simp] theorem Dev.releaseHeld_ports : d.releaseHeld.shuttle.ports = d.shuttle.ports := by
  rw [Dev.releaseHeld, (Dev.emitAll_rest _ _).2]

/-- A refused message: counted, recorded, answered; nothing is due. -/
theorem Dev.reject_due (p st : Nat) (m : Msg) :
    (d.reject p st m).sigsDue = d.sigsDue ∧ (d.reject p st m).stopsDue = d.stopsDue ∧ (d.reject p st m).fatalDue = d.fatalDue := by
  unfold Dev.reject; simp only []; split <;> simp [Dev.recordCtx]

/-- A message that arrives reaches its type's effect, in clear. -/
theorem Dev.deliver_of_arrives {port typ : Nat} {m : Msg} {e : Dev} {p : Nat} {c : Msg} (h : d.arrives port typ m e p c)
    (f : Dev → Nat → Msg → Dev) : d.deliver port typ m f = f e p c := by
  obtain ⟨h1, h2, h3⟩ := h
  simp [Dev.deliver, h1, h2, h3]

/-- What acceptance says of a message: its checks held, its channel is noted and counted, its payload is in clear. -/
theorem Dev.arrive_taken {m : Msg} {e : Dev} {p : Nat} {c : Msg} (h : d.arrive m = .taken e p c) :
    p = m.dest % 4 ∧ d.ctxOpen p = true ∧ (d.sh p).inOrder m = true ∧ msgVerifies (d.rtpPart p).secret m = true ∧
    e = ((d.noteIngress p m).bump (shReg p + 0x10) 1).bump (shReg p + 0x20) m.payload.length ∧
    c = { m with payload := msgCrypted (d.rtpPart p).secret m } := by
  unfold Dev.arrive at h
  simp only [] at h
  split at h
  · cases h
  · split at h
    · cases h
    · split at h
      · cases h
      · split at h
        · cases h
        · cases h; simp_all

/-! ### Messages as sealed (07 R214) -/

theorem msgVerifies_seal (job : Nat) (m : Msg) : msgVerifies job (msgSeal job m) = true := by
  simp only [msgVerifies, msgSeal, msgTag, trafficKey, msgNonce, msgHeader, decide_true]

theorem msgCrypted_seal (job : Nat) (m : Msg) : msgCrypted job (msgSeal job m) = m.payload := by
  have h : (trafficKey job m).length = 32 := Crypt.length_hkdf _ _
  show Crypt.toBytes (Crypt.gcmCrypt (trafficKey job m) (msgNonce m) (Crypt.ofBytes (Crypt.toBytes
    (Crypt.gcmCrypt (trafficKey job m) (msgNonce m) (Crypt.ofBytes m.payload))))) = m.payload
  rw [Crypt.ofBytes_toBytes (Crypt.small_gcmCrypt h _ (Crypt.small_ofBytes _)), Crypt.gcmCrypt_gcmCrypt h, Crypt.toBytes_ofBytes]

@[simp] theorem msgSeal_length (job : Nat) (m : Msg) : (msgSeal job m).payload.length = m.payload.length := by
  have h : (trafficKey job m).length = 32 := Crypt.length_hkdf _ _
  have hs := (Crypt.ctrStream_bytes h (msgNonce m) m.payload.length).1
  simp only [msgSeal, msgCrypted, Crypt.gcmCrypt, Crypt.xorList, Crypt.length_toBytes, List.length_zipWith, Crypt.length_ofBytes]
  omega

/-- A sealed message that the partition owns, in order, is taken and comes out in clear. -/
theorem Dev.arrive_seal (m : Msg) (p job : Nat) (hp : m.dest % 4 = p) (hj : (d.rtpPart p).secret = job)
    (hm : p < d.parts ∧ d.sliceValid p = true ∧ d.sliceId p = m.slice ∧ d.sourceId p = m.dest)
    (ho : d.ctxOpen p = true ∧ d.fld (shReg p) 41 12 ≠ 0) (hf : (d.sh p).floor ≤ m.epoch) (hi : (d.sh p).inOrder m = true) :
    d.arrive (msgSeal job m) =
      .taken (((d.noteIngress p m).bump (shReg p + 0x10) 1).bump (shReg p + 0x20) m.payload.length) p
        { m with tag := (msgSeal job m).tag } := by
  subst hp hj
  have h1 : (msgSeal (d.rtpPart (m.dest % 4)).secret m).dest = m.dest := rfl
  have h2 : (msgSeal (d.rtpPart (m.dest % 4)).secret m).slice = m.slice := rfl
  have h3 : (msgSeal (d.rtpPart (m.dest % 4)).secret m).epoch = m.epoch := rfl
  have h4 : (d.sh (m.dest % 4)).inOrder (msgSeal (d.rtpPart (m.dest % 4)).secret m) = true := hi
  unfold Dev.arrive
  simp only [h1, h2, h3, h4, hm, ho, msgVerifies_seal, msgCrypted_seal, msgSeal_length, Nat.not_lt.mpr hf]
  simp
  exact ⟨rfl, by and_intros <;> rfl⟩

end Sys2Proof.Machine
end

