-- ==== Sys2Proof/Laws/Mem.lean ====
section
/-! SUPPORT. Device memory: what a write stores and leaves, that every memory operation keeps the canonical form, and that reads,
line checks and re-encryption steps change no byte. -/

namespace Sys2Proof.Machine

variable (d : Dev)

/-! ### Bytes -/

@[simp] theorem Dev.byte_setByte (a : Nat) (b : Byte) (x : Nat) : (d.setByte a b).byte x = if x = a then b else d.byte x := by
  simp [Dev.byte, Dev.setByte, Sparse.get_set]

theorem Dev.byte_setBytes (bs : List Byte) (a x : Nat) :
    (d.setBytes a bs).byte x = if a ≤ x ∧ x < a + bs.length then bs.getD (x - a) 0 else d.byte x := by
  induction bs generalizing d a with
  | nil => simp [Dev.setBytes]
  | cons b bs ih =>
    simp only [Dev.setBytes, ih, Dev.byte_setByte, List.length_cons]
    rcases Nat.lt_trichotomy x a with h | h | h
    · rw [if_neg (by omega), if_neg (by omega), if_neg (by omega)]
    · subst h; rw [if_neg (by omega), if_pos rfl, if_pos (by omega)]; simp
    · by_cases h' : x < a + 1 + bs.length
      · rw [if_pos (by omega), if_pos (by omega), show x - a = (x - (a + 1)) + 1 by omega]; rfl
      · rw [if_neg (by omega), if_neg (by omega), if_neg (by omega)]

theorem Dev.bytes_setBytes (bs : List Byte) (a : Nat) : (d.setBytes a bs).bytes a bs.length = bs := by
  apply List.ext_getElem (by simp [Dev.bytes])
  intro i h1 h2
  simp [Dev.bytes, Dev.byte_setBytes, h2]

/-! ### The canonical form -/

theorem Sparse.wf_clearIf {α : Type} [DecidableEq α] (f : Nat → α) (m : Sparse α) (lo hi : Nat) (p : Nat → Bool)
    (h : Sparse.wf f m = true) : Sparse.wf f (Sparse.clearIf m lo hi p) = true := Sparse.wf_filter f m _ h

theorem Dev.mem_wf_setBytes (bs : List Byte) (a : Nat) (h : Sparse.wf (fun _ => 0) d.mem = true) :
    Sparse.wf (fun _ => 0) (d.setBytes a bs).mem = true := by
  induction bs generalizing d a with
  | nil => exact h
  | cons b bs ih => exact ih _ _ (Sparse.wf_set _ _ _ _ h)

theorem Dev.mem_wf_zeroGranules (base n : Nat) (h : Sparse.wf (fun _ => 0) d.mem = true) :
    Sparse.wf (fun _ => 0) (d.zeroGranules base n).mem = true := by
  unfold Dev.zeroGranules
  simp only []
  generalize rangeFrom (base + (n - min n 64)) (min n 64) = gs
  have hc := Sparse.wf_clearIf (fun _ => 0) d.mem (base * granuleBytes) ((base + n) * granuleBytes)
    (fun a => !d.fenced .stack (d.stackOf a)) h
  generalize hd : ({ d with mem := _, lines := _, sv := _ } : Dev) = e
  have he : Sparse.wf (fun _ => 0) e.mem = true := by rw [← hd]; exact hc
  clear hd hc
  induction gs generalizing e with
  | nil => exact he
  | cons g gs ih => rw [List.foldl_cons]; apply ih; split <;> exact he

/-! ### Reads change no byte -/

@[simp] theorem Dev.mem_signal (k f v : Nat) (b : Bool) : (d.signal k f v b).1.mem = d.mem := by
  unfold Dev.signal; simp only []; (repeat' split) <;> simp [Dev.recordCtx, Dev.applySignal]

@[simp] theorem Dev.mem_badLine (n l c k : Nat) (e p : Bool) : (d.badLine n l c k e p).mem = d.mem := by
  unfold Dev.badLine; simp only []; (repeat' split) <;> simp

@[simp] theorem Dev.mem_meetLine (n l c k : Nat) (f : LineFound) (p : Bool) : (d.meetLine n l c k f p).1.mem = d.mem := by
  unfold Dev.meetLine; simp only []; (repeat' split) <;> simp [Dev.setLatent]

@[simp] theorem Dev.mem_checkLine (n l c k : Nat) : (d.checkLine n l c k).1.mem = d.mem := by
  unfold Dev.checkLine; simp only []; split <;> simp

theorem Dev.mem_readLine (q : Req) (l : Nat) :
    (∀ e u, d.readLine q l = .ok e u → e.mem = d.mem) ∧ ∀ e w, d.readLine q l = .fail e w → e.mem = d.mem := by
  have h : ∀ n, ((d.touch l).checkLine n l q.ctx q.key).1.mem = d.mem := fun n => by
    rw [Dev.mem_checkLine]; rfl
  unfold Dev.readLine
  constructor <;> (intro e x; split)
  · intro h; cases h
  · rename_i n _; split <;> intro hh <;> cases hh; rename_i he; rw [← h n, he]
  · intro h; cases h; rfl
  · rename_i n _; split <;> intro hh <;> cases hh; rename_i he; rw [← h n, he]

theorem Dev.mem_readLines (q : Req) (ls : List Nat) :
    (∀ e u, d.readLines q ls = .ok e u → e.mem = d.mem) ∧ ∀ e w, d.readLines q ls = .fail e w → e.mem = d.mem := by
  induction ls generalizing d with
  | nil => constructor <;> intro e x h <;> cases h; rfl
  | cons l ls ih =>
    have hr := d.mem_readLine q l
    unfold Dev.readLines
    constructor <;> (intro e x; split) <;> rename_i hl
    · intro h; rw [(ih _).1 e x h, hr.1 _ _ hl]
    · intro h; cases h
    · intro h; rw [(ih _).2 e x h, hr.1 _ _ hl]
    · intro h; cases h; exact hr.2 _ _ hl

/-- A read that succeeds answers the stored bytes and changes none (12 R353). -/
theorem Dev.read_ok {q : Req} {a n : Nat} {e : Dev} {bs : List Byte} (h : d.read q a n = .ok e bs) :
    e.mem = d.mem ∧ bs = d.bytes a n := by
  unfold Dev.read at h
  split at h <;> (try cases h)
  split at h
  · rename_i e' _ hl
    have hm := (d.mem_readLines q _).1 _ _ hl
    cases h
    exact ⟨hm, by simp [Dev.bytes, Dev.byte, hm]⟩
  · cases h

/-! ### Which counters a Selvedge holds decides no access -/

@[simp] theorem Dev.access_touch (y : Nat) (q : Req) (a : Nat) (w : Bool) : (d.touch y).access q a w = d.access q a w := rfl
@[simp] theorem Dev.regionOf_touch (y a : Nat) : (d.touch y).regionOf a = d.regionOf a := rfl
@[simp] theorem Dev.region_touch (y n : Nat) : (d.touch y).region n = d.region n := rfl
@[simp] theorem Dev.lineMeta_touch (y : Nat) (x : Region) (l : Nat) : (d.touch y).lineMeta x l = d.lineMeta x l := rfl
@[simp] theorem Dev.latent_touch (y l : Nat) : (d.touch y).latent l = d.latent l := rfl
@[simp] theorem Dev.key_touch (y k : Nat) : (d.touch y).key k = d.key k := rfl
@[simp] theorem Dev.pl_touch (y p : Nat) : (d.touch y).pl p = d.pl p := rfl
@[simp] theorem Dev.window_touch (y : Nat) : (d.touch y).window = d.window := rfl

theorem linesOf_line (l : Nat) : linesOf (128 * l) 128 = [l] := by
  simp only [linesOf, show 128 * l / 128 = l by omega, show (128 * l + 128 - 1) / 128 = l by omega, Nat.sub_self]
  rfl

/-- A whole line that is granted and passes its check is read (12 R353). -/
theorem Dev.read_line {q : Req} {l n : Nat} (hr : d.regionOf (128 * l) = some n) (hg : d.access q (128 * l) false = .granted n)
    (hc : (d.touch l).checkLine n l q.ctx q.key = (d.touch l, true)) :
    d.read q (128 * l) 128 = .ok (d.touch l) ((d.touch l).bytes (128 * l) 128) := by
  simp only [Dev.read, linesOf_line, Dev.grantAll, hg, Dev.readLines, Dev.readLine, hr, hc]

/-- A write of a whole bad line whose region's counters are used up waits (12 R372, R376). -/
theorem Dev.write_waits {q : Req} {l n : Nat} {bs : List Byte} (hb : bs.length = 128) (hr : d.regionOf (128 * l) = some n)
    (hg : d.access q (128 * l) true = .granted n) (hp : (d.pl (128 * l / d.window)).cur = none) (hs : (d.region n).st = .live)
    (hk : (d.region n).key ≠ 0) (hm : (d.lineMeta (d.region n) l).bad = true) (hw : 0xFFFF ≤ (d.region n).hw) :
    d.write q (128 * l) bs = .fail d .wait := by
  have hf : d.forceRows [l] = d := by simp [Dev.forceRows, Dev.forceRow, hp]
  have hn : d.forceStep n l = d := by simp [Dev.forceStep, hs]
  have he : bs.isEmpty = false := by cases bs <;> simp_all
  have ht : bs.take 128 = bs := List.take_of_length_le (by omega)
  have h0 : 128 * l % 128 = 0 := by omega
  have h1 : 128 * l / 128 = l := by omega
  have h2 : 65535 < (d.region n).hw + 1 := by omega
  simp [Dev.write, Dev.grantWrite, Dev.putLines, hb, linesOf_line, Dev.grantAll, hg, hf, Dev.writeLines, he, h0, h1, ht, Dev.writeLine, hr,
    hn, hk, hm, h2]

theorem Res.elim_ok {α β : Type} (d : Dev) (x : α) (f : Dev → α → β) (g : Dev → MemFail → β) : (Res.ok d x).elim f g = f d x := rfl

theorem Res.elim_fail {α β : Type} (d : Dev) (w : MemFail) (f : Dev → α → β) (g : Dev → MemFail → β) :
    (Res.fail d w).elim f g = g d w := rfl

/-- A line's restore from write-aside waits where its write has to wait (10 R304). -/
theorem Dev.restoreLine_waits {ctx t l k : Nat} {bs x : List Byte} {e f : Dev}
    (hr : d.read (engineReq ctx (bits (d.asideWord ctx) 41 12)) (d.asideAddr ctx t l) 128 = .ok e x)
    (hw : e.write (engineReq ctx k) (128 * l) bs = .fail f .wait) : d.restoreLine ctx t l k bs = .fail f .wait := by
  rw [Dev.restoreLine, hr, Res.elim_ok, hw]
  rfl

/-- A restore from write-aside stops at the line whose write has to wait (10 R304). -/
theorem Dev.unaside_waits {ctx t l k : Nat} {bs x : List Byte} {r : List (Nat × Nat × List Byte)} {e f : Dev}
    (hr : d.read (engineReq ctx (bits (d.asideWord ctx) 41 12)) (d.asideAddr ctx t l) 128 = .ok e x)
    (hw : e.write (engineReq ctx k) (128 * l) bs = .fail f .wait) :
    d.unaside ctx t ((l, k, bs) :: r) = (f, (l, k, bs) :: r) := by
  rw [Dev.unaside, Dev.restoreLine_waits d hr hw, Res.elim_fail]

end Sys2Proof.Machine
end

