-- ==== Sys2Proof/Laws/Regs.lean ====
section
/-! SUPPORT. Register writes: what the write of a whole register leaves in each of its fields and in every other register. -/

namespace Sys2Proof.Machine

/-- Every register row of BAR0 has fields that do not meet and fit its width. -/
def RegSpec.sound (s : RegSpec) : Bool :=
  s.bytes ≤ 8 && (s.fields.all fun f => decide (0 < f.w) && decide (f.lo + f.w ≤ 8 * s.bytes)) &&
    decide (s.fields.Pairwise fun f g => f.apart g = true)

theorem mergeField_apart {lk : Bool} {w v : Nat} {m : Merge} {f g : RegField} (h : f.apart g = true) :
    bits (mergeField lk 0 w v m f).value g.lo g.w = bits m.value g.lo g.w := by
  have h' : g.lo + g.w ≤ f.lo ∨ f.lo + f.w ≤ g.lo := by
    simp only [RegField.apart, Bool.or_eq_true, decide_eq_true_eq] at h; omega
  unfold mergeField
  simp only []
  (repeat' split) <;> first | rfl | exact bits_setBits_ne _ _ _ _ h'

theorem bits_lt (v lo w : Nat) : bits v lo w < 2 ^ w := Nat.mod_lt _ (by positivity)

theorem mergeField_self {lk : Bool} {w v : Nat} {m : Merge} {f : RegField} (h0 : 0 < f.w) (h : f.lo + f.w ≤ w) :
    bits (mergeField lk 0 w v m f).value f.lo f.w = f.after lk (bits m.value f.lo f.w) (bits v f.lo f.w) := by
  have hx : bits (setBits m.value 0 w (bits v 0 w)) f.lo f.w = bits v f.lo f.w := by
    apply Nat.eq_of_testBit_eq
    intro i
    rw [bits_testBit, bits_testBit, setBits_testBit]
    by_cases hi : i < f.w
    · rw [if_pos (by omega), bits_testBit]
      simp [show f.lo + i < w by omega]
    · simp [hi]
  have hl : ∀ k, bits m.value f.lo f.w - k < 2 ^ f.w := fun k => lt_of_le_of_lt (Nat.sub_le _ _) (bits_lt _ _ _)
  unfold mergeField RegField.after
  rw [if_neg (by omega)]
  simp only [hx]
  cases f.acc <;> simp only []
  · split <;> rename_i hc <;> simp [bits_setBits, Nat.mod_eq_of_lt (bits_lt _ _ _)]
  · rw [bits_setBits, Nat.mod_eq_of_lt (hl _)]
  · cases lk <;> simp
    split <;> rename_i hc <;> simp [bits_setBits, Nat.mod_eq_of_lt (bits_lt _ _ _)]

theorem foldl_mergeField_apart {lk : Bool} {w v : Nat} {g : RegField} (l : List RegField) :
    ∀ m : Merge, (∀ f ∈ l, f.apart g = true) →
    bits (l.foldl (mergeField lk 0 w v) m).value g.lo g.w = bits m.value g.lo g.w := by
  induction l with
  | nil => intro m _; rfl
  | cons f l ih =>
    intro m h
    rw [List.foldl_cons, ih _ (fun x hx => h x (List.mem_cons_of_mem _ hx)), mergeField_apart (h f List.mem_cons_self)]

theorem RegField.apart_comm (f g : RegField) : f.apart g = g.apart f := by simp [RegField.apart, Bool.or_comm]

theorem foldl_mergeField {lk : Bool} {w v : Nat} {f : RegField} (l : List RegField) :
    ∀ m : Merge, f ∈ l → l.Pairwise (fun f g => f.apart g = true) → 0 < f.w → f.lo + f.w ≤ w →
    bits (l.foldl (mergeField lk 0 w v) m).value f.lo f.w = f.after lk (bits m.value f.lo f.w) (bits v f.lo f.w) := by
  induction l with
  | nil => intro m h; cases h
  | cons g l ih =>
    intro m h hp h0 hw
    rw [List.pairwise_cons] at hp
    rw [List.foldl_cons]
    rcases List.mem_cons.1 h with rfl | h
    · rw [foldl_mergeField_apart l _ (fun x hx => by rw [RegField.apart_comm]; exact hp.1 x hx), mergeField_self h0 hw]
    · rw [ih _ h hp.2 h0 hw, mergeField_apart (hp.1 f h)]

variable (d : Dev)

/-- Each field of a register after a write of the whole register, but for a `LOCK` bit. -/
theorem Dev.fld_applyWrite {s : RegSpec} {o v : Nat} {f : RegField} (hs : s.sound = true) (hf : f ∈ s.fields)
    (hl : ∀ b, lockAt o = some (o, b) → f.lo + f.w ≤ b ∨ b < f.lo) :
    (d.applyWrite s o 0 (8 * s.bytes) v).fld o f.lo f.w = f.after (d.locked o) (d.fld o f.lo f.w) (bits v f.lo f.w) := by
  simp only [RegSpec.sound, Bool.and_eq_true, decide_eq_true_eq, List.all_eq_true] at hs
  obtain ⟨⟨h8, hall⟩, hp⟩ := hs
  obtain ⟨h0, hw⟩ := hall f hf
  have hm : bits (d.mergeWrite s o 0 (8 * s.bytes) v).value f.lo f.w =
      f.after (d.locked o) (d.fld o f.lo f.w) (bits v f.lo f.w) := by
    have := foldl_mergeField (lk := d.locked o) (v := v * 2 ^ 0) s.fields
      { value := (d.reg o).toNat, reserved := false, locked := false } hf hp h0 hw
    rw [Nat.pow_zero, Nat.mul_one] at this
    unfold Dev.mergeWrite
    simp only [Nat.pow_zero, Nat.mul_one]
    split
    · rename_i l b e
      split
      · rename_i hc
        simp only [Bool.and_eq_true, decide_eq_true_eq] at hc
        rw [bits_setBits_ne _ _ _ _ (by rcases hl b (by rw [e, hc.1]) with h | h <;> omega)]
        exact this
      · exact this
    · exact this
  have e : ∀ e : Dev, e.reg o = BitVec.ofNat 64 (d.mergeWrite s o 0 (8 * s.bytes) v).value → e.fld o f.lo f.w =
      f.after (d.locked o) (d.fld o f.lo f.w) (bits v f.lo f.w) := by
    intro e he
    rw [Dev.fld, he, BitVec.toNat_ofNat, bits_mod _ _ _ _ (by omega), hm]
  apply e
  unfold Dev.applyWrite
  simp only []
  (repeat' split) <;> simp [Dev.recordReg]

/-- A write of one register leaves every other as it was. -/
theorem Dev.reg_applyWrite {s : RegSpec} {o lo w v x : Nat} (h : x ≠ o) : (d.applyWrite s o lo w v).reg x = d.reg x := by
  unfold Dev.applyWrite
  simp only []
  (repeat' split) <;> simp [Dev.recordReg, h]

end Sys2Proof.Machine
end

