-- ==== Sys2Proof/Laws/Weft.lean ====
section
/-! SUPPORT. Weft: what its shared operations leave alone, and how a sample's end shows on its ring. -/

namespace Sys2Proof.Machine

variable (d : Dev)

@[simp] theorem Dev.wf_setWf (p : Nat) (x : WfPart) (q : Nat) : (d.setWf p x).wf q = if q = p then x else d.wf q := by
  simp [Dev.wf, Dev.setWf, Sparse.get_set]

@[simp] theorem Dev.setEpoch_rest (p : Nat) (e : WfEpoch) :
    (d.setEpoch p e).timePs = d.timePs ∧ (d.setEpoch p e).regs = d.regs ∧ (d.setEpoch p e).mem = d.mem ∧
    (d.setEpoch p e).lines = d.lines ∧ (d.setEpoch p e).regions = d.regions ∧ (d.setEpoch p e).keys = d.keys ∧
    (d.setEpoch p e).ctrCache = d.ctrCache ∧ (d.setEpoch p e).sv = d.sv ∧ (d.setEpoch p e).hostMem = d.hostMem ∧
    (d.setEpoch p e).log = d.log ∧ (d.setEpoch p e).units = d.units ∧ (d.setEpoch p e).msix = d.msix ∧
    (d.setEpoch p e).msixPend = d.msixPend ∧ (d.setEpoch p e).irqs = d.irqs ∧ (d.setEpoch p e).rings = d.rings ∧
    (d.setEpoch p e).ctxs = d.ctxs ∧ (d.setEpoch p e).fences = d.fences ∧ (d.setEpoch p e).dispatches = d.dispatches ∧
    (d.setEpoch p e).staging = d.staging ∧ (d.setEpoch p e).used = d.used ∧ (d.setEpoch p e).tiles = d.tiles ∧
    (d.setEpoch p e).battens = d.battens ∧ (d.setEpoch p e).btParts = d.btParts ∧ (d.setEpoch p e).shuttle = d.shuttle ∧
    (d.setEpoch p e).pleach = d.pleach ∧ (d.setEpoch p e).rtp = d.rtp ∧ (d.setEpoch p e).life = d.life ∧
    (d.setEpoch p e).power = d.power ∧ (d.setEpoch p e).cxl = d.cxl ∧ (d.setEpoch p e).tap = d.tap ∧
    (d.setEpoch p e).stopsDue = d.stopsDue ∧ (d.setEpoch p e).sigsDue = d.sigsDue ∧ (d.setEpoch p e).fatalDue = d.fatalDue ∧
    (d.setEpoch p e).draws = d.draws := by
  simp [Dev.setEpoch]

@[simp] theorem Dev.notePacker_rest (p : Nat) :
    (d.notePacker p).timePs = d.timePs ∧ (d.notePacker p).mem = d.mem ∧ (d.notePacker p).lines = d.lines ∧
    (d.notePacker p).regions = d.regions ∧ (d.notePacker p).keys = d.keys ∧ (d.notePacker p).ctrCache = d.ctrCache ∧
    (d.notePacker p).sv = d.sv ∧ (d.notePacker p).hostMem = d.hostMem ∧ (d.notePacker p).log = d.log ∧
    (d.notePacker p).units = d.units ∧ (d.notePacker p).msix = d.msix ∧ (d.notePacker p).msixPend = d.msixPend ∧
    (d.notePacker p).irqs = d.irqs ∧ (d.notePacker p).rings = d.rings ∧ (d.notePacker p).ctxs = d.ctxs ∧
    (d.notePacker p).fences = d.fences ∧ (d.notePacker p).dispatches = d.dispatches ∧ (d.notePacker p).staging = d.staging ∧
    (d.notePacker p).used = d.used ∧ (d.notePacker p).tiles = d.tiles ∧ (d.notePacker p).battens = d.battens ∧
    (d.notePacker p).btParts = d.btParts ∧ (d.notePacker p).shuttle = d.shuttle ∧ (d.notePacker p).pleach = d.pleach ∧
    (d.notePacker p).rtp = d.rtp ∧ (d.notePacker p).life = d.life ∧ (d.notePacker p).power = d.power ∧
    (d.notePacker p).cxl = d.cxl ∧ (d.notePacker p).tap = d.tap ∧ (d.notePacker p).stopsDue = d.stopsDue ∧
    (d.notePacker p).sigsDue = d.sigsDue ∧ (d.notePacker p).fatalDue = d.fatalDue ∧ (d.notePacker p).draws = d.draws := by
  unfold Dev.notePacker; split <;> simp

@[simp] theorem Dev.weftAdvance_rest (p : Nat) :
    (d.weftAdvance p).timePs = d.timePs ∧ (d.weftAdvance p).mem = d.mem ∧ (d.weftAdvance p).lines = d.lines ∧
    (d.weftAdvance p).regions = d.regions ∧ (d.weftAdvance p).keys = d.keys ∧ (d.weftAdvance p).ctrCache = d.ctrCache ∧
    (d.weftAdvance p).sv = d.sv ∧ (d.weftAdvance p).hostMem = d.hostMem ∧ (d.weftAdvance p).log = d.log ∧
    (d.weftAdvance p).units = d.units ∧ (d.weftAdvance p).msix = d.msix ∧ (d.weftAdvance p).msixPend = d.msixPend ∧
    (d.weftAdvance p).irqs = d.irqs ∧ (d.weftAdvance p).rings = d.rings ∧ (d.weftAdvance p).ctxs = d.ctxs ∧
    (d.weftAdvance p).fences = d.fences ∧ (d.weftAdvance p).dispatches = d.dispatches ∧
    (d.weftAdvance p).staging = d.staging ∧ (d.weftAdvance p).used = d.used ∧ (d.weftAdvance p).tiles = d.tiles ∧
    (d.weftAdvance p).battens = d.battens ∧ (d.weftAdvance p).btParts = d.btParts ∧ (d.weftAdvance p).shuttle = d.shuttle ∧
    (d.weftAdvance p).pleach = d.pleach ∧ (d.weftAdvance p).rtp = d.rtp ∧ (d.weftAdvance p).life = d.life ∧
    (d.weftAdvance p).power = d.power ∧ (d.weftAdvance p).cxl = d.cxl ∧ (d.weftAdvance p).tap = d.tap ∧
    (d.weftAdvance p).stopsDue = d.stopsDue ∧ (d.weftAdvance p).sigsDue = d.sigsDue ∧
    (d.weftAdvance p).fatalDue = d.fatalDue ∧ (d.weftAdvance p).draws = d.draws := by
  unfold Dev.weftAdvance; split <;> simp

@[simp] theorem Dev.activate_rest (p : Nat) (e : WfEpoch) :
    (d.activate p e).timePs = d.timePs ∧ (d.activate p e).mem = d.mem ∧ (d.activate p e).lines = d.lines ∧
    (d.activate p e).regions = d.regions ∧ (d.activate p e).keys = d.keys ∧ (d.activate p e).ctrCache = d.ctrCache ∧
    (d.activate p e).sv = d.sv ∧ (d.activate p e).hostMem = d.hostMem ∧ (d.activate p e).log = d.log ∧
    (d.activate p e).units = d.units ∧ (d.activate p e).msix = d.msix ∧ (d.activate p e).msixPend = d.msixPend ∧
    (d.activate p e).irqs = d.irqs ∧ (d.activate p e).rings = d.rings ∧ (d.activate p e).ctxs = d.ctxs ∧
    (d.activate p e).fences = d.fences ∧ (d.activate p e).dispatches = d.dispatches ∧ (d.activate p e).staging = d.staging ∧
    (d.activate p e).used = d.used ∧ (d.activate p e).tiles = d.tiles ∧ (d.activate p e).battens = d.battens ∧
    (d.activate p e).btParts = d.btParts ∧ (d.activate p e).shuttle = d.shuttle ∧ (d.activate p e).pleach = d.pleach ∧
    (d.activate p e).rtp = d.rtp ∧ (d.activate p e).life = d.life ∧ (d.activate p e).power = d.power ∧
    (d.activate p e).cxl = d.cxl ∧ (d.activate p e).tap = d.tap ∧ (d.activate p e).stopsDue = d.stopsDue ∧
    (d.activate p e).sigsDue = d.sigsDue ∧ (d.activate p e).fatalDue = d.fatalDue ∧ (d.activate p e).draws = d.draws := by
  simp [Dev.activate]

@[simp] theorem Dev.endSample_rest (p n : Nat) (x : Sample) (c : Nat) :
    (d.endSample p n x c).timePs = d.timePs ∧ (d.endSample p n x c).mem = d.mem ∧ (d.endSample p n x c).lines = d.lines ∧
    (d.endSample p n x c).regions = d.regions ∧ (d.endSample p n x c).keys = d.keys ∧
    (d.endSample p n x c).ctrCache = d.ctrCache ∧ (d.endSample p n x c).sv = d.sv ∧
    (d.endSample p n x c).hostMem = d.hostMem ∧ (d.endSample p n x c).log = d.log ∧ (d.endSample p n x c).units = d.units ∧
    (d.endSample p n x c).msix = d.msix ∧ (d.endSample p n x c).msixPend = d.msixPend ∧
    (d.endSample p n x c).irqs = d.irqs ∧ (d.endSample p n x c).ctxs = d.ctxs ∧ (d.endSample p n x c).fences = d.fences ∧
    (d.endSample p n x c).dispatches = d.dispatches ∧ (d.endSample p n x c).staging = d.staging ∧
    (d.endSample p n x c).used = d.used ∧ (d.endSample p n x c).tiles = d.tiles ∧
    (d.endSample p n x c).battens = d.battens ∧ (d.endSample p n x c).btParts = d.btParts ∧
    (d.endSample p n x c).shuttle = d.shuttle ∧ (d.endSample p n x c).pleach = d.pleach ∧
    (d.endSample p n x c).rtp = d.rtp ∧ (d.endSample p n x c).life = d.life ∧ (d.endSample p n x c).power = d.power ∧
    (d.endSample p n x c).cxl = d.cxl ∧ (d.endSample p n x c).tap = d.tap ∧ (d.endSample p n x c).stopsDue = d.stopsDue ∧
    (d.endSample p n x c).sigsDue = d.sigsDue ∧ (d.endSample p n x c).fatalDue = d.fatalDue ∧
    (d.endSample p n x c).draws = d.draws := by
  unfold Dev.endSample; split <;> simp

@[simp] theorem Dev.sampleCheck_rest (p n : Nat) (e : WfEpoch) (x : Sample) :
    (d.sampleCheck p n e x).timePs = d.timePs ∧ (d.sampleCheck p n e x).mem = d.mem ∧
    (d.sampleCheck p n e x).lines = d.lines ∧ (d.sampleCheck p n e x).regions = d.regions ∧
    (d.sampleCheck p n e x).keys = d.keys ∧ (d.sampleCheck p n e x).ctrCache = d.ctrCache ∧
    (d.sampleCheck p n e x).sv = d.sv ∧ (d.sampleCheck p n e x).hostMem = d.hostMem ∧ (d.sampleCheck p n e x).log = d.log ∧
    (d.sampleCheck p n e x).units = d.units ∧ (d.sampleCheck p n e x).msix = d.msix ∧
    (d.sampleCheck p n e x).msixPend = d.msixPend ∧ (d.sampleCheck p n e x).irqs = d.irqs ∧
    (d.sampleCheck p n e x).ctxs = d.ctxs ∧ (d.sampleCheck p n e x).fences = d.fences ∧
    (d.sampleCheck p n e x).dispatches = d.dispatches ∧ (d.sampleCheck p n e x).staging = d.staging ∧
    (d.sampleCheck p n e x).used = d.used ∧ (d.sampleCheck p n e x).tiles = d.tiles ∧
    (d.sampleCheck p n e x).battens = d.battens ∧ (d.sampleCheck p n e x).btParts = d.btParts ∧
    (d.sampleCheck p n e x).shuttle = d.shuttle ∧ (d.sampleCheck p n e x).pleach = d.pleach ∧
    (d.sampleCheck p n e x).rtp = d.rtp ∧ (d.sampleCheck p n e x).life = d.life ∧ (d.sampleCheck p n e x).power = d.power ∧
    (d.sampleCheck p n e x).cxl = d.cxl ∧ (d.sampleCheck p n e x).tap = d.tap ∧
    (d.sampleCheck p n e x).stopsDue = d.stopsDue ∧ (d.sampleCheck p n e x).sigsDue = d.sigsDue ∧
    (d.sampleCheck p n e x).fatalDue = d.fatalDue ∧ (d.sampleCheck p n e x).draws = d.draws := by
  unfold Dev.sampleCheck
  exact ⟨by simp only [apply_ite Dev.timePs, Dev.setEpoch_rest, Dev.endSample_rest, ite_self],
    by simp only [apply_ite Dev.mem, Dev.setEpoch_rest, Dev.endSample_rest, ite_self],
    by simp only [apply_ite Dev.lines, Dev.setEpoch_rest, Dev.endSample_rest, ite_self],
    by simp only [apply_ite Dev.regions, Dev.setEpoch_rest, Dev.endSample_rest, ite_self],
    by simp only [apply_ite Dev.keys, Dev.setEpoch_rest, Dev.endSample_rest, ite_self],
    by simp only [apply_ite Dev.ctrCache, Dev.setEpoch_rest, Dev.endSample_rest, ite_self],
    by simp only [apply_ite Dev.sv, Dev.setEpoch_rest, Dev.endSample_rest, ite_self],
    by simp only [apply_ite Dev.hostMem, Dev.setEpoch_rest, Dev.endSample_rest, ite_self],
    by simp only [apply_ite Dev.log, Dev.setEpoch_rest, Dev.endSample_rest, ite_self],
    by simp only [apply_ite Dev.units, Dev.setEpoch_rest, Dev.endSample_rest, ite_self],
    by simp only [apply_ite Dev.msix, Dev.setEpoch_rest, Dev.endSample_rest, ite_self],
    by simp only [apply_ite Dev.msixPend, Dev.setEpoch_rest, Dev.endSample_rest, ite_self],
    by simp only [apply_ite Dev.irqs, Dev.setEpoch_rest, Dev.endSample_rest, ite_self],
    by simp only [apply_ite Dev.ctxs, Dev.setEpoch_rest, Dev.endSample_rest, ite_self],
    by simp only [apply_ite Dev.fences, Dev.setEpoch_rest, Dev.endSample_rest, ite_self],
    by simp only [apply_ite Dev.dispatches, Dev.setEpoch_rest, Dev.endSample_rest, ite_self],
    by simp only [apply_ite Dev.staging, Dev.setEpoch_rest, Dev.endSample_rest, ite_self],
    by simp only [apply_ite Dev.used, Dev.setEpoch_rest, Dev.endSample_rest, ite_self],
    by simp only [apply_ite Dev.tiles, Dev.setEpoch_rest, Dev.endSample_rest, ite_self],
    by simp only [apply_ite Dev.battens, Dev.setEpoch_rest, Dev.endSample_rest, ite_self],
    by simp only [apply_ite Dev.btParts, Dev.setEpoch_rest, Dev.endSample_rest, ite_self],
    by simp only [apply_ite Dev.shuttle, Dev.setEpoch_rest, Dev.endSample_rest, ite_self],
    by simp only [apply_ite Dev.pleach, Dev.setEpoch_rest, Dev.endSample_rest, ite_self],
    by simp only [apply_ite Dev.rtp, Dev.setEpoch_rest, Dev.endSample_rest, ite_self],
    by simp only [apply_ite Dev.life, Dev.setEpoch_rest, Dev.endSample_rest, ite_self],
    by simp only [apply_ite Dev.power, Dev.setEpoch_rest, Dev.endSample_rest, ite_self],
    by simp only [apply_ite Dev.cxl, Dev.setEpoch_rest, Dev.endSample_rest, ite_self],
    by simp only [apply_ite Dev.tap, Dev.setEpoch_rest, Dev.endSample_rest, ite_self],
    by simp only [apply_ite Dev.stopsDue, Dev.setEpoch_rest, Dev.endSample_rest, ite_self],
    by simp only [apply_ite Dev.sigsDue, Dev.setEpoch_rest, Dev.endSample_rest, ite_self],
    by simp only [apply_ite Dev.fatalDue, Dev.setEpoch_rest, Dev.endSample_rest, ite_self],
    by simp only [apply_ite Dev.draws, Dev.setEpoch_rest, Dev.endSample_rest, ite_self]⟩

@[simp] theorem Dev.countUse_rest (k : Nat) :
    (d.countUse k).timePs = d.timePs ∧ (d.countUse k).regs = d.regs ∧ (d.countUse k).mem = d.mem ∧
    (d.countUse k).lines = d.lines ∧ (d.countUse k).regions = d.regions ∧ (d.countUse k).ctrCache = d.ctrCache ∧
    (d.countUse k).sv = d.sv ∧ (d.countUse k).hostMem = d.hostMem ∧ (d.countUse k).log = d.log ∧
    (d.countUse k).units = d.units ∧ (d.countUse k).msix = d.msix ∧ (d.countUse k).msixPend = d.msixPend ∧
    (d.countUse k).irqs = d.irqs ∧ (d.countUse k).rings = d.rings ∧ (d.countUse k).ctxs = d.ctxs ∧
    (d.countUse k).fences = d.fences ∧ (d.countUse k).dispatches = d.dispatches ∧ (d.countUse k).staging = d.staging ∧
    (d.countUse k).used = d.used ∧ (d.countUse k).weft = d.weft ∧ (d.countUse k).tiles = d.tiles ∧
    (d.countUse k).battens = d.battens ∧ (d.countUse k).btParts = d.btParts ∧ (d.countUse k).shuttle = d.shuttle ∧
    (d.countUse k).pleach = d.pleach ∧ (d.countUse k).rtp = d.rtp ∧ (d.countUse k).life = d.life ∧
    (d.countUse k).power = d.power ∧ (d.countUse k).cxl = d.cxl ∧ (d.countUse k).tap = d.tap ∧
    (d.countUse k).stopsDue = d.stopsDue ∧ (d.countUse k).sigsDue = d.sigsDue ∧ (d.countUse k).fatalDue = d.fatalDue ∧
    (d.countUse k).draws = d.draws := by
  unfold Dev.countUse; split <;> simp

theorem setPhase_twice (q : Nat) (a b : Phase) (l : List Accepted) :
    Machine.setPhase q a (Machine.setPhase q b l) = Machine.setPhase q a l := by
  induction l with
  | nil => rfl
  | cons x l ih => simp only [Machine.setPhase]; split <;> simp_all [Machine.setPhase]

/-- A sample that ends finishes its descriptor. -/
theorem Dev.endSample_ring (p n : Nat) (x : Sample) (c : Nat) (h : (d.epochOf p).isSome = true) :
    (d.endSample p n x c).rings = (d.finish x.ring x.seq (Verdict.of c)).rings := by
  obtain ⟨e, he⟩ := Option.isSome_iff_exists.1 h
  simp [Dev.endSample, he, Dev.finish, Dev.setPhase, Dev.setRing, Dev.ring]

theorem Dev.finish_setPhase (r q : Nat) (ph : Phase) (v : Verdict) :
    ((d.setPhase r q ph).finish r q v).ring r = (d.finish r q v).ring r := by
  simp [Dev.setPhase, setPhase_twice]

end Sys2Proof.Machine
end

