-- ==== Sys2Proof/Laws/Tiles.lean ====
section
/-! SUPPORT. Logical tiles, their stores and picks: what the shared operations of the sequencer leave alone. -/

namespace Sys2Proof.Machine

variable (d : Dev)

@[simp] theorem Dev.lt_setLt (l : Nat) (x : LTile) (m : Nat) : (d.setLt l x).lt m = if m = l then x else d.lt m := by
  simp [Dev.lt, Dev.setLt, Sparse.get_set]

/-- One byte of a tile store. -/
abbrev LTile.byteAt (x : LTile) (a : Nat) : Byte := Sparse.get (fun _ => 0) x.store a

/-- A store holds what was written, every other byte is as before. -/
theorem LTile.byteAt_setBytes (bs : List Byte) : ∀ (x : LTile) (a b : Nat),
    (x.setBytes a bs).byteAt b = if a ≤ b ∧ b < a + bs.length then bs.getD (b - a) 0 else x.byteAt b := by
  induction bs with
  | nil => intro x a b; rw [if_neg (by simp)]; rfl
  | cons c cs ih =>
    intro x a b
    rw [LTile.setBytes, ih]
    simp only [LTile.byteAt, Sparse.get_set, List.length_cons]
    by_cases h : b = a
    · subst h; simp
    · by_cases h2 : a + 1 ≤ b ∧ b < a + 1 + cs.length
      · rw [if_pos h2, if_pos (by omega)]
        obtain ⟨k, hk⟩ : ∃ k, b = a + 1 + k := ⟨b - a - 1, by omega⟩
        subst hk
        simp [show a + 1 + k - a = k + 1 by omega, show a + 1 + k - (a + 1) = k by omega]
      · rw [if_neg h2, if_neg (by omega)]; simp; intros; omega

@[simp] theorem LTile.setBytes_pick (bs : List Byte) : ∀ (x : LTile) (a : Nat), (x.setBytes a bs).pick = x.pick := by
  induction bs with
  | nil => intro x a; rfl
  | cons c cs ih => intro x a; rw [LTile.setBytes, ih]

theorem Dev.modPickOf_pick (l : Nat) (f : Pick → Pick) : ((d.modPickOf l f).lt l).pick = (d.lt l).pick.map f := by
  simp [Dev.modPickOf]

theorem Dev.modPickOf_store (l : Nat) (f : Pick → Pick) (t : Nat) : ((d.modPickOf l f).lt t).store = (d.lt t).store := by
  simp only [Dev.modPickOf, Dev.lt_setLt]; split <;> simp_all

/-- With no injection armed a check finds nothing. -/
theorem Dev.injectCheck_of_disarmed (h : d.fld 0x8060 63 1 = 0) (l k : Nat) : d.injectCheck l k = d := by
  unfold Dev.injectCheck; split
  · simp [Dev.armedFor, h]
  · rfl

@[simp] theorem Dev.setTileState_rest (t c : Nat) :
    (d.setTileState t c).timePs = d.timePs ∧ (d.setTileState t c).regs = d.regs ∧ (d.setTileState t c).mem = d.mem ∧
    (d.setTileState t c).lines = d.lines ∧ (d.setTileState t c).regions = d.regions ∧ (d.setTileState t c).keys = d.keys ∧
    (d.setTileState t c).ctrCache = d.ctrCache ∧ (d.setTileState t c).sv = d.sv ∧ (d.setTileState t c).hostMem = d.hostMem ∧
    (d.setTileState t c).log = d.log ∧ (d.setTileState t c).units = d.units ∧ (d.setTileState t c).msix = d.msix ∧
    (d.setTileState t c).msixPend = d.msixPend ∧ (d.setTileState t c).irqs = d.irqs ∧ (d.setTileState t c).rings = d.rings ∧
    (d.setTileState t c).ctxs = d.ctxs ∧ (d.setTileState t c).fences = d.fences ∧
    (d.setTileState t c).dispatches = d.dispatches ∧ (d.setTileState t c).staging = d.staging ∧
    (d.setTileState t c).used = d.used ∧ (d.setTileState t c).weft = d.weft ∧ (d.setTileState t c).battens = d.battens ∧
    (d.setTileState t c).btParts = d.btParts ∧ (d.setTileState t c).shuttle = d.shuttle ∧
    (d.setTileState t c).pleach = d.pleach ∧ (d.setTileState t c).rtp = d.rtp ∧ (d.setTileState t c).life = d.life ∧
    (d.setTileState t c).power = d.power ∧ (d.setTileState t c).cxl = d.cxl ∧ (d.setTileState t c).tap = d.tap ∧
    (d.setTileState t c).stopsDue = d.stopsDue ∧ (d.setTileState t c).sigsDue = d.sigsDue ∧
    (d.setTileState t c).fatalDue = d.fatalDue ∧ (d.setTileState t c).draws = d.draws := by
  simp [Dev.setTileState]

@[simp] theorem Dev.setTileState_tiles (t c : Nat) :
    (d.setTileState t c).tiles = { d.tiles with phys := Sparse.set initialState d.tiles.phys t c } := rfl

@[simp] theorem Dev.showState_rest (l c : Nat) :
    (d.showState l c).timePs = d.timePs ∧ (d.showState l c).regs = d.regs ∧ (d.showState l c).mem = d.mem ∧
    (d.showState l c).lines = d.lines ∧ (d.showState l c).regions = d.regions ∧ (d.showState l c).keys = d.keys ∧
    (d.showState l c).ctrCache = d.ctrCache ∧ (d.showState l c).sv = d.sv ∧ (d.showState l c).hostMem = d.hostMem ∧
    (d.showState l c).log = d.log ∧ (d.showState l c).units = d.units ∧ (d.showState l c).msix = d.msix ∧
    (d.showState l c).msixPend = d.msixPend ∧ (d.showState l c).irqs = d.irqs ∧ (d.showState l c).rings = d.rings ∧
    (d.showState l c).ctxs = d.ctxs ∧ (d.showState l c).fences = d.fences ∧ (d.showState l c).dispatches = d.dispatches ∧
    (d.showState l c).staging = d.staging ∧ (d.showState l c).used = d.used ∧ (d.showState l c).weft = d.weft ∧
    (d.showState l c).battens = d.battens ∧ (d.showState l c).btParts = d.btParts ∧ (d.showState l c).shuttle = d.shuttle ∧
    (d.showState l c).pleach = d.pleach ∧ (d.showState l c).rtp = d.rtp ∧ (d.showState l c).life = d.life ∧
    (d.showState l c).power = d.power ∧ (d.showState l c).cxl = d.cxl ∧ (d.showState l c).tap = d.tap ∧
    (d.showState l c).stopsDue = d.stopsDue ∧ (d.showState l c).sigsDue = d.sigsDue ∧
    (d.showState l c).fatalDue = d.fatalDue ∧ (d.showState l c).draws = d.draws := by
  unfold Dev.showState; split <;> simp

/-- Only the physical tiles' state codes change. -/
@[simp] theorem Dev.showState_tiles (l c : Nat) :
    (d.showState l c).tiles = { d.tiles with phys := (d.showState l c).tiles.phys } := by
  unfold Dev.showState; split <;> rfl

@[simp] theorem Dev.lt_showState (l c m : Nat) : (d.showState l c).lt m = d.lt m := by
  unfold Dev.lt; rw [Dev.showState_tiles]

@[simp] theorem Dev.physOf_showState (l c m : Nat) : (d.showState l c).physOf m = d.physOf m := by
  unfold Dev.physOf; rw [Dev.showState_tiles]

@[simp] theorem Dev.restState_rest (l : Nat) :
    (d.restState l).timePs = d.timePs ∧ (d.restState l).mem = d.mem ∧ (d.restState l).lines = d.lines ∧
    (d.restState l).regions = d.regions ∧ (d.restState l).keys = d.keys ∧ (d.restState l).ctrCache = d.ctrCache ∧
    (d.restState l).sv = d.sv ∧ (d.restState l).hostMem = d.hostMem ∧ (d.restState l).log = d.log ∧
    (d.restState l).units = d.units ∧ (d.restState l).msix = d.msix ∧ (d.restState l).msixPend = d.msixPend ∧
    (d.restState l).irqs = d.irqs ∧ (d.restState l).rings = d.rings ∧ (d.restState l).ctxs = d.ctxs ∧
    (d.restState l).fences = d.fences ∧ (d.restState l).dispatches = d.dispatches ∧ (d.restState l).staging = d.staging ∧
    (d.restState l).used = d.used ∧ (d.restState l).weft = d.weft ∧ (d.restState l).battens = d.battens ∧
    (d.restState l).btParts = d.btParts ∧ (d.restState l).shuttle = d.shuttle ∧ (d.restState l).pleach = d.pleach ∧
    (d.restState l).rtp = d.rtp ∧ (d.restState l).life = d.life ∧ (d.restState l).power = d.power ∧
    (d.restState l).cxl = d.cxl ∧ (d.restState l).tap = d.tap ∧ (d.restState l).stopsDue = d.stopsDue ∧
    (d.restState l).sigsDue = d.sigsDue ∧ (d.restState l).fatalDue = d.fatalDue ∧ (d.restState l).draws = d.draws := by
  unfold Dev.restState; simp only []; (repeat' split) <;> simp

/-- Only the start of a wait changes of a tile, and the waiting time of its partition. -/
theorem Dev.lt_restState (l m : Nat) :
    (d.restState l).lt m = { d.lt m with waitFrom := ((d.restState l).lt m).waitFrom } := by
  unfold Dev.restState; simp only []
  (repeat' split) <;> simp only [Dev.lt_showState, Dev.lt_setLt] <;>
    first | rfl | (split <;> rename_i e <;> first | (subst e; rfl) | rfl)

theorem Dev.physOf_restState (l m : Nat) : (d.restState l).physOf m = d.physOf m := by
  unfold Dev.restState; simp only []
  (repeat' split) <;> simp <;> rfl

theorem Dev.reg_restState (l o : Nat) (h : ∀ p, o ≠ 0x20120 + 0x40 * p) : (d.restState l).reg o = d.reg o := by
  have k : ∀ (e : Dev) m, e.reg o = (e.showState l m).reg o := by intro e m; simp [Dev.reg]
  unfold Dev.restState; simp only []
  rw [← k]
  have h0 := h 0
  (repeat' split) <;> simp [Dev.reg, Dev.bump, Dev.setReg, Sparse.get_set, h]
  simp at h0; simp [h0]

/-- A dispatch with a part under way stays. -/
theorem Dev.settleDispatch_of_open {x : Dispatch} (h : ∃ p ∈ x.parts, p.out.isOver = false) : d.settleDispatch x = d := by
  unfold Dev.settleDispatch
  rw [if_pos]
  obtain ⟨p, hp, h⟩ := h
  simp only [Bool.not_eq_true', List.all_eq_false]
  exact ⟨p, hp, by simp [h]⟩

theorem Dev.settleDispatches_of_open (h : ∀ x ∈ d.dispatches, ∃ p ∈ x.parts, p.out.isOver = false) : d.settleDispatches = d := by
  have : ∀ l : List Dispatch, (∀ x ∈ l, ∃ p ∈ x.parts, p.out.isOver = false) → l.foldl Dev.settleDispatch d = d := by
    intro l
    induction l with
    | nil => intro _; rfl
    | cons x l ih =>
      intro h
      rw [List.foldl_cons, Dev.settleDispatch_of_open _ (h x List.mem_cons_self), ih (fun y hy => h y (List.mem_cons_of_mem _ hy))]
  exact this _ h

/-- A tile that owes its context a restore is among those that the teardown waits for (10 R315). -/
theorem Dev.mem_undoing {l : Nat} {u : Undo} (h : (d.lt l).undo = some u) : l ∈ d.undoing u.ctx := by
  have hm := Sparse.mem_of_get_ne (fun _ => LTile.reset) d.tiles.logical l (fun hn => by
    have h' : (Sparse.get (fun _ => LTile.reset) d.tiles.logical l).undo = some u := h
    rw [hn] at h'; cases h')
  refine List.mem_map.mpr ⟨(l, d.lt l), List.mem_filter.mpr ⟨hm, ?_⟩, rfl⟩
  simp [h]

end Sys2Proof.Machine
end

