-- ==== Sys2Proof/Tests/Slice0.lean ====
section
/-! SUPPORT. Ill-formed commands, single steps with the spec's own results, and for each statement a state and operands that meet
its hypotheses. -/

namespace Sys2Proof.Tests

set_option maxRecDepth 4000
set_option Elab.async false

open Sys2Proof.Machine

/-! ### Small states -/

/-- Fields given by their lowest bit. -/
def word (l : List (Nat × Nat)) : Nat := l.foldl (fun n e => n + e.2 <<< e.1) 0

/-- A ring descriptor with its fields given by their lowest bit. -/
def desc (l : List (Nat × Nat)) : RingDesc := BitVec.ofNat 1024 (word l)

/-- An op descriptor with its fields given by their lowest bit. -/
def opd (l : List (Nat × Nat)) : OpDesc := BitVec.ofNat 512 (word l)

def regs (l : List (Nat × Nat)) (d : Dev) : Dev := l.foldl (fun d e => d.setReg e.1 (BitVec.ofNat 64 e.2)) d

def at_ (d : Dev) : State := { dev := d, fuses := { lc := .production, svn := 0 }, pending := [] }

/-- The same device in another life-cycle state. -/
def in_ (l : LifeCycle) (d : Dev) : State := { dev := d, fuses := { lc := l, svn := 0 }, pending := [] }

/-- The device after a command. -/
def run (c : Instr) (d : Dev) : Dev :=
  match exec c (at_ d) with
  | .next t => t.dev
  | .fault _ => d
  | .refused _ => d

/-- In full service, the CXL link trained, the rings switched on, context 0 open. -/
def up : Dev :=
  (regs [(0x4000, 1)]
    { Dev.reset with power := { Power.reset with st := .full, booted := true, resetNote := none },
                     cxl := { up := true, width := 8, rate := 6, flit256 := true, cache := true, ideIo := [], ideCache := [], lines := [] } }).setCtx 0
    { Ctx.reset with st := .opened }

/-- Ring 0 active with one accepted descriptor, its entries at 0x100000 and its records at 0x300000 of host memory. -/
def give (x : RingDesc) (d : Dev) : Dev :=
  (regs [(0x4800, 0x100000), (0x4808, 0x200000), (0x4810, 0x300000), (0x4818, 1)] d).setRing 0
    { st := .active, tail := 1, accepted := 1, completed := 0, pend := [{ seq := 0, desc := x, phase := .waiting }] }

/-- What `give` puts first in the ring. -/
def first (x : RingDesc) : Accepted := { seq := 0, desc := x, phase := .waiting }

/-- Whether an access or a read succeeded. -/
def ok {α : Type} (r : Res α) : Bool :=
  match r with
  | .ok _ _ => true
  | .fail _ _ => false

theorem ok_of {α : Type} {r : Res α} (h : ok r = true) : ∃ e x, r = .ok e x := by
  cases r with
  | ok e x => exact ⟨e, x, rfl⟩
  | fail => cases h

theorem fail_of {α : Type} {r : Res α} (h : ok r = false) : ∃ e w, r = .fail e w := by
  cases r with
  | ok => cases h
  | fail e w => exact ⟨e, w, rfl⟩

/-- Whether an access succeeded and left a device with `p`. -/
def left {α : Type} (r : Res α) (p : Dev → Bool) : Bool :=
  match r with
  | .ok e _ => p e
  | .fail _ _ => false

theorem left_of {α : Type} {r : Res α} {p : Dev → Bool} (h : left r p = true) : ∃ e x, r = .ok e x ∧ p e = true := by
  cases r with
  | ok e x => exact ⟨e, x, rfl, h⟩
  | fail => cases h

/-- Why an access failed. -/
def why {α : Type} (r : Res α) : Option MemFail :=
  match r with
  | .ok _ _ => none
  | .fail _ w => some w

theorem why_of {α : Type} {r : Res α} {w : MemFail} (h : why r = some w) : ∃ e, r = .fail e w := by
  cases r with
  | ok => cases h
  | fail e v => cases h; exact ⟨e, rfl⟩

/-! ### Ill-formed commands (every check of `WellFormed`) -/

def msg : Msg :=
  { route := 0, typ := 1, ch := 0, dest := 0, src := 8, slice := 5, eng := false, addr := 0, key := 0, tile := 0, ctr := 0, len := 0,
    serial := 0, epoch := 0, cseq := 0, reqCtr := 0, status := 0, payload := [], tag := [] }

def manifest : Manifest :=
  { mh := 77, jobNonce := 1, n := 2, t := 1, slice := 5, openOut := true, fwMeas := [0], minSvn := 0, expires := 1000,
    floorSamples := 0, floorOwners := 0, floorShare := 0, signed := [0, 1] }

def image : FwImage := { version := 2, svn := 1, measurement := 3, readable := true, hashOk := true, sig := { ed := true, mldsa := true } }

def evidence : Evidence :=
  { sigOk := true, fresh := true, lifecycle := 2, flags := 0, idh := 1, fwMeas := 0, fwSvn := 0, mh := 77, slice := 5, tpX := 9, tpM := 0 }

def dataKey : DataKey := { dk := 9, owner := 1, uses := 3, expireRst := false }

def sig : DualSig := { ed := true, mldsa := true }

def cert : DebugCert := { idh := 1, nonce := 4, states := 4, rights := 63, notAfter := 100, sig := sig }

/-- A key transport for owner 1 under manifest 77, three uses. -/
def transport : Transport :=
  { magic := 0x10B34B01, owner := 1, expireRst := false, rsvd := 0, uses := 3, mh := 77, idh := 1, env := { eph := 0, ct := 0, body := [] } }

def keyUpdate : KeyUpdate := { magic := 0x10B35501, op := 1, owner := 1, rsvd := 0, mh := 77, idh := 1, counter := 1, keyId := 0, uses := 3 }

def release : Release := { magic := 0x10B35201, kind := 1, rsvd := 0, mh := 77, release := 1, step := 0, notAfter := 100, rX := 9, rM := 0, entries := [] }

/-- The commands that bring these objects, signed. -/
def transported (p slot len : Nat) (x : Transport) : Instr := .keyTransport p slot len x.toTransportHead x.mh x.idh x.env sig

def updated (p len : Nat) (x : KeyUpdate) : Instr := .keyUpdate p len x.toUpdateHead x.mh x.idh x.counter x.keyId x.uses sig

def released (p : Nat) (x : Release) : Instr := .quorumRelease p x.kind x.mh x.release x.step x.notAfter x.toReleaseForm x.entries

def pf : ProgFields := { d := 1, a := 2, b := 3, c := 4, g := false, n := false, p := 0, x := 5 }

/-- The check that a ring exists. -/
theorem test_wf_rings : [Instr.doorbellWrite 16640 0 [], .doorbellWrite 0 (2 ^ 64) [], .descriptorAccept 16640, .completionRecord 16640,
    .ringNop 16640, .dispatch 16640, .fenceSignal 16640, .fenceCreate 16640, .fenceDestroy 16640, .fenceShare 16640,
    .fenceUnshare 16640, .fenceRead 16640, .query 16640, .streamDescriptor 16640, .epochDescriptor 16640, .landing 16640,
    .update 16640, .restore 16640 [] 0 false, .drain 16640, .reload 16640 [], .pleachExport 16640, .ringEnable 16640,
    .ringDisable 16640].any WellFormed = false := by decide

/-- The checks of a partition and of what lies within it. -/
theorem test_wf_partitions : [Instr.epochTakeEffect 4, .chunkArrival 4 0 [] none, .chunkArrival 0 (2 ^ 32) [] none,
    .pictureDecode 4 0 0 none, .pictureDecode 0 (2 ^ 32) 0 none, .windowFillStart 4, .samplePlace 4 0, .samplePlace 0 (2 ^ 32),
    .sequenceClose 4, .audioFrameDecode 4 0 0 none, .audioFrameDecode 0 (2 ^ 32) 0 none, .landingMerge 4 0 0, .normGate 4,
    .stripeRowCopy 4, .forcedRowCopy 4 0, .forcedRowCopy 0 (2 ^ 41), .readyRecord 4 0 0 0, .readyRecord 0 2 0 0,
    .readyRecord 0 0 (2 ^ 32) 0, .readyRecord 0 0 0 8, .commitRecord 4 0 0 0, .commitRecord 0 2 0 0, .commitRecord 0 0 (2 ^ 32) 0,
    .commitRecord 0 0 0 8, .pleachDue 4, .arm 4, .disarm 4, .trafficEpochRoll 4, .substitutionWrite 4 0 0, .sliceEntryWrite 4 0 0,
    .sliceEntryWrite 0 17 0, .ctxOpen 4, .teardown 4, .stop 4, .resume 4, .sendingEpochWrite 4 0, .stagingCopy 4 0, .stagingCopy 0 2,
    .stagingDone 4 0 none, .stagingDone 0 2 none, .journalRecovery 4 true, .tlOvfClear 4, .btOvfClear 4,
    .mbTimingEnable 4 0].any WellFormed = false := by decide

/-- The checks of a tile, a Batten, a port, a context, a region, an address, a unit, a register access, a link. -/
theorem test_wf_units : [Instr.pickStart 1024, .writeAsideReserve 1024, .pickCommit 1024 none, .pickReplayEnd 1024 .none,
    .tileReplace 1088 true, .opNop 1024, .mmul 1024, .fwait 1024, .opEnd 1024, .updateBlock 16 [] [],
    .updateBlock 0 [] [{ run := 3, lane := false, slot := 0, byte := 0, flip := 1 }],
    .updateBlock 0 [{ run := 1, lane := false, slot := 0, byte := 0, flip := 1 }] [],
    .updateBlock 0 [{ run := 0, lane := true, slot := 8, byte := 0, flip := 1 }] [], .logSeal 16,
    .workingCopyWrite 16, .battenLogRecovery 16 0 true, .battenLogRecovery 0 16 true, .progEnd 16 pf, .progPor 16 pf, .put 9 msg,
    .messageForward 9 msg, .reservedMessageType 9 msg, .linkRetransmit 8 ⟨0, 0⟩, .portEnable 8, .portTrainingPhase 8 .completed,
    .trainingRetry 8, .mgmtHeartbeat 8, .mgmtFrame 8 0, .neighbourLost 8, .mgmtRekey 8, .portDisable 8, .teardownBreakFences 4100,
    .teardownClose 4100, .p8Open 4096 0, .p8Open 0 (2 ^ 64), .p8Open 0 (2 ^ 14), .makeResident 4096, .p8Stop 4096, .p8Resume 4096,
    .p8Teardown 4096, .regionOpenDone 4096, .regionCloseDone 4096, .reencryptStep 4096 0, .reencryptStep 0 16, .forcedStep (2 ^ 41),
    .stepBufferRecovery 16, .patrolRead (2 ^ 41) .good, .debugMasterAccess (2 ^ 41) false [], .sequencerHalt 1024 false,
    .internalScan 5 [], .registerWrite false 0x40000 4 0, .registerWrite true 0x10000 4 0, .registerWrite false 0 2 0,
    .cxlLinkUp 3 5 true true, .cxlLinkUp 8 4 true true, .ideFailure true 256, .ideKm true 256 true, .tamper 0, .tamper 6,
    .powerSample 65536].any WellFormed = false := by decide

/-- A pair that is steadily high. -/
def steady : PairReading := { first := { e := true, n := true }, second := { e := true, n := true }, cause := .uncorrectable }

/-- The units of Table 09-8. -/
theorem test_wf_unit_numbers : [(UnitType.device, 1), (.tile, 1088), (.batten, 16), (.stack, 16), (.videoEngine, 32), (.audioEngine, 4),
    (.port, 8), (.lane, 64), (.selvedge, 17), (.die, 4), (.register, 65536), (.context, 4), (.hub, 6), (.peer, 65536)].any
    (fun x => WellFormed (.errorSignal x.1 x.2 steady) || WellFormed (.inFieldTestStart x.1 x.2) || WellFormed (.inFieldTestEnd x.1 x.2 true) ||
      WellFormed (.iftOverdue x.1 x.2) || WellFormed (.fencedUnitRetest x.1 x.2 true) || WellFormed (.thermalThreshold x.1 x.2 0) ||
      WellFormed (.clockDomainGate x.1 x.2)) = false := by decide

/-- The checks of a message. -/
theorem test_wf_messages : [{ msg with typ := 256 }, { msg with ch := 16 }, { msg with dest := 2 ^ 19 }, { msg with src := 2 ^ 19 },
    { msg with slice := 4096 }, { msg with addr := 2 ^ 41 }, { msg with key := 4096 }, { msg with tile := 1024 }, { msg with ctr := 2 ^ 36 },
    { msg with serial := 2 ^ 16 }, { msg with epoch := 2 ^ 32 }, { msg with cseq := 2 ^ 32 },
    { msg with payload := List.replicate 4097 0 }].any (fun m => WellFormed (.put 0 m)) = false ∧
    WellFormed (.put 0 msg) = true := by decide +kernel

/-- The checks of the mailbox rows. -/
theorem test_wf_mailbox : [Instr.manifestLoad 4 manifest sig, .manifestLoad 0 { manifest with mh := 2 ^ 384 } sig,
    .manifestLoad 0 { manifest with slice := 4096 } sig, .manifestLoad 0 { manifest with minSvn := 2 ^ 32 } sig,
    .manifestLoad 0 { manifest with fwMeas := [0, 0, 0, 0, 0, 0, 0, 0, 0] } sig, .jobCreate 4 1 0, .jobCreate 0 4096 0, .jobJoin 4 0 1 [],
    .jobJoin 0 (2 ^ 17) 1 [], .jobJoin 0 0 4096 [], .admissionRequest 4 0 0 evidence, .admissionRequest 0 8 0 evidence,
    .admissionRequest 0 0 (2 ^ 17) evidence, .admission 4 evidence none 0 [], .rtpMessageRelay 8 0 [], .rtpMessageRelay 0 (2 ^ 17) [],
    .jobResume 4 1 [] true, .jobResume 0 4096 [] true, .jobForget 4, .jobExpire 4, .slotAlloc 4 1 1 false, .slotAlloc 0 4096 1 false,
    .slotAlloc 0 1 4096 false, .slotFree 4 1, .slotFree 0 4096, .evidence 4 0, .holderUnreachable 4,
    transported 4 1 0 transport, transported 0 4096 0 transport, transported 0 1 0 { transport with owner := 256 },
    updated 4 0 keyUpdate, updated 0 0 { keyUpdate with owner := 256 }, released 4 release,
    released 0 { release with step := 2 ^ 32 },
    .lcAdvance 5 true none].any WellFormed = false := by decide +kernel

/-! ### Rings and fences (10) -/

/-- Ring 0 with nothing to start, its doorbell line held. -/
def idle : Dev :=
  { ((give 0 up).setRing 0 { st := .active, tail := 1, accepted := 1, completed := 0, pend := [] }) with
    cxl := { up.cxl with lines := [0x200000] } }

/-- R290, R291: 64 entries: 64 is the last `TAIL` taken, 65 stops the ring, 0 is behind. -/
theorem test_doorbell : ((run (.doorbellWrite 0 64 []) idle).ring 0).tail = 64 ∧ ((run (.doorbellWrite 0 65 []) idle).ring 0).st = .error ∧
    ((run (.doorbellWrite 0 0 []) idle).log.entry 0).map LogEntry.cause = some 0x0201 := by decide +kernel

theorem witness_DoorbellRead : idle.quiet = true ∧ idle.ringDoorbell 0 = 0x200000 ∧ idle.cxl.lines.contains 0x200000 = true ∧
    idle.hears 0 = true ∧ idle.hostMay false 0 64 = true ∧ (idle.ring 0).tail = 1 ∧ (idle.ring 0).completed + idle.ringSize 0 = 64 ∧
    up.cxl.lines.contains (up.ringDoorbell 0) = false ∧ up.quiet = true ∧
    (let d := regs [(0x4130, 0)] idle
     d.cxl.lines.contains (d.ringDoorbell 0) = true ∧ d.quiet = true ∧ d.hostMay false 0 64 = false) := by
  decide +kernel

/-- An entry of the ring as the host wrote it, accepted next. -/
def queued (x : RingDesc) : Dev :=
  { (idle.hostCells ((List.range 128).map fun i => (0x100000 + i, BitVec.ofNat 8 (x.toNat >>> (8 * i))))) with
    rings := [(0, { st := .active, tail := 1, accepted := 0, completed := 0, pend := [] })] }

/-- R296: opcode 0x04 is reserved; a good header waits. -/
theorem test_accept : ((run (.descriptorAccept 0) (queued 4)).ring 0).pend = [{ seq := 0, desc := 4, phase := .done (Verdict.of 1) }] ∧
    ((run (.descriptorAccept 0) (queued 3)).ring 0).pend = [{ seq := 0, desc := 3, phase := .waiting }] ∧
    (run (.descriptorAccept 0) (queued 3)).hostBytes 0x300000 17 = leBytes 8 1 ++ leBytes 8 0 ++ [1] := by decide +kernel

/-- `NRECORDS` (byte 28) one above the 2²² of R300, behind an unfinished `NOP`. -/
def tooLong : Dev :=
  { queued (desc [(0, 1), (224, 4194305)]) with
    rings := [(0, { st := .active, tail := 2, accepted := 1, completed := 0, pend := [first 0] })],
    hostMem := ((queued 0).hostCells ((List.range 128).map fun i =>
      (0x100080 + i, BitVec.ofNat 8 ((desc [(0, 1), (224, 4194305)]).toNat >>> (8 * i))))).hostMem }

/-- A dispatch of tile 0 in the ring; the tile is under test. -/
def dispatched : Dev := ((queued (desc [(0, 1), (128, 8 * granuleBytes), (169, 7)])).setTileState 0 5).setUnit .tile 0 { UnitRec.reset with testing := true }

theorem witness_EntryAccepted :
    (queued 3).quiet = true ∧ (queued 3).fetches 0 = true ∧ (queued 3).hostMay false 0 128 = true ∧ (queued 3).hostMay true 0 64 = true ∧
    ((queued 3).ring 0).accepted < ((queued 3).ring 0).tail ∧ ((queued 3).ring 0).pend.length < 256 ∧ (queued 3).ringEntry 0 0 = 3 ∧
    (queued 3).p8 = false ∧ (queued 4).quiet = true ∧ (queued 4).fetches 0 = true ∧ (queued 4).ringEntry 0 0 = 4 ∧ descOpcode 3 = 3 ∧ descOpcode 4 = 4 ∧
    headerBad 3 = false ∧ headerBad 4 = true ∧
    (let d := (queued 3).setRing 0 { (queued 3).ring 0 with pend := List.replicate 256 (first 0) }
     d.fetches 0 = true ∧ 256 ≤ (d.ring 0).pend.length) ∧
    (let d := dispatched
     d.quiet = true ∧ d.fetches 0 = true ∧ d.hostMay false 0 128 = true ∧ d.hostMay true 0 64 = true ∧ d.acceptPhase 0 (d.ringEntry 0 0) = .waiting ∧
      descOpcode (d.ringEntry 0 0) = 1 ∧ d.tilesNamed 0 (d.ringEntry 0 0) = [0] ∧ d.physOf 0 = some 0 ∧ d.tileState 0 = 5) := by
  decide +kernel

/-- 09 R272: an accepted dispatch stops its tile's test. -/
theorem test_accept_stops : ((run (.descriptorAccept 0) dispatched).unit .tile 0).testing = false := by decide +kernel

theorem witness_SequenceTooLong : tooLong.quiet = true ∧ tooLong.hostMay false 0 128 = true ∧ tooLong.hostMay true 0 64 = true ∧
    tooLong.fetches 0 = true ∧ (tooLong.ring 0).accepted < (tooLong.ring 0).tail ∧
    (tooLong.ring 0).pend.length < 256 ∧ headerBad (tooLong.ringEntry 0 1) = false ∧ descOpcode (tooLong.ringEntry 0 1) = 1 ∧
    (tooLong.ctx 0).st = .opened ∧ 4194304 < dbyte (tooLong.ringEntry 0 1) 28 0 23 ∧ (first 0).undone = true := by decide +kernel

/-- A finished `NOP` that asks for an interrupt (bit 8), tag 0x1234; MSI-X vector 144 unmasked. -/
def finished : Dev :=
  let d := give (desc [(8, 1), (32, 0x1234)]) up
  { (regs [(0x4818, 1 + 144 * 2 ^ 16)] d).setPhase 0 0 (.done (Verdict.of 0)) with msix := [(144, { addr := 0xFEE00000, data := 1, mask := false })] }

/-- R294: the record, the status line, the interrupt. -/
theorem test_complete : let d := run (.completionRecord 0) finished
    d.hostBytes 0x301000 16 = leBytes 8 0 ++ leBytes 4 0x1234 ++ [0, 0, 0, 0] ∧ (d.ring 0).completed = 1 ∧ d.irqs = [144] := by decide +kernel

theorem witness_CompletionWritten : finished.quiet = true ∧ finished.hostMay true 0 96 = true ∧
    (∃ a, (finished.ring 0).pend = [a] ∧ a.phase = .done (Verdict.of 0) ∧ dfield a.desc 8 1 = 1) ∧
    finished.ringVectorOk 0 (finished.ringVector 0) = true ∧ finished.msixPend.contains (finished.ringVector 0) = false ∧
    (finished.msixEntry (finished.ringVector 0)).mask = false ∧ (first 0).undone = true ∧ dfield (first 0).desc 8 1 = 0 :=
  ⟨by decide +kernel, by decide +kernel, ⟨{ seq := 0, desc := desc [(8, 1), (32, 0x1234)], phase := .done (Verdict.of 0) }, by decide +kernel⟩,
    by decide +kernel, by decide +kernel, by decide +kernel, by decide +kernel, by decide +kernel⟩

def queryAt (a : Nat) : RingDesc := desc [(0, 3), (128, a)]

/-- R323: the eight counters to host memory; the address must be a multiple of 64. -/
theorem test_query : ((run (.query 0) (give (queryAt 0x400000) up)).ring 0).pend.map (·.phase) = [.done (Verdict.of 0)] ∧
    ((run (.query 0) (give (queryAt 0x400020) up)).ring 0).pend.map (·.phase) = [.done (Verdict.of 1)] := by decide +kernel

theorem witness_NopAndQuery : up.quiet = true ∧ (give 0 up).starts 0 0 (first 0) ∧ (0 : RingDesc).toNat >>> 128 = 0 ∧
    (give (desc [(128, 1)]) up).starts 0 0 (first (desc [(128, 1)])) ∧ (desc [(128, 1)]).toNat >>> 128 ≠ 0 ∧
    (give (queryAt 0x400000) up).starts 0 3 (first (queryAt 0x400000)) ∧ (queryAt 0x400000).toNat >>> 192 = 0 ∧
    dbyte (queryAt 0x400000) 16 0 64 % 64 = 0 ∧ (give (queryAt 0x400000) up).hostMay true 0 64 = true ∧
    (give (queryAt 0x400020) up).starts 0 3 (first (queryAt 0x400020)) ∧ dbyte (queryAt 0x400020) 16 0 64 % 64 ≠ 0 := by
  unfold Dev.starts; decide +kernel

/-- `FENCE` with operation `op` on fence 5, value `v`. -/
def fenceDesc (op v : Nat) : RingDesc := desc [(0, 2), (128, op), (144, 5), (192, v)]

/-- Fence 5 live at 3, owned by context `k`. -/
def live (k : Nat) : Fence := { value := 3, st := .live, owner := k, remote := false, shares := [] }

def fenceDev (op v : Nat) (y : Fence) : Dev := (give (fenceDesc op v) up).setFence 5 y

/-- R311, R313: a fence rises; it does not fall. -/
theorem test_signal : ((run (.fenceSignal 0) (fenceDev 0 4 (live 0))).fence 5).value = 4 ∧
    ((run (.fenceSignal 0) (fenceDev 0 3 (live 0))).ring 0).pend.map (·.phase) = [.done (Verdict.of 6)] := by decide +kernel

theorem test_create_destroy : ((run (.fenceCreate 0) (fenceDev 1 9 Fence.reset)).fence 5) = { live 0 with value := 9 } ∧
    ((run (.fenceDestroy 0) (fenceDev 2 0 (live 0))).fence 5).st = .free ∧
    ((run (.fenceRead 0) (fenceDev 5 0 (live 0))).ring 0).pend.map (·.phase) = [.done { Verdict.of 0 with info := 3 }] := by decide +kernel

/-- The P8 model, contexts 0 and 1 open, ring 0 of context 0 active with one `FENCE` in it; fence 5 is that context's. -/
def p8Fence (op c : Nat) (y : Fence) : Dev :=
  ((((regs [(0x4000, 9)] up).setCtx 4 { Ctx.reset with st := .opened, resident := true }).setCtx 5
    { Ctx.reset with st := .opened, resident := true }).setRing 256
      { st := .active, tail := 1, accepted := 1, completed := 0, pend := [first (desc [(0, 2), (128, op), (144, 5), (160, c), (176, 1)])] }).setFence 5 y

/-- R312: context 0 lets context 1 wait, and takes the right back. -/
theorem test_share : ((run (.fenceShare 256) (p8Fence 3 1 (live 4))).fence 5).shares = [{ ctx := 5, wait := true, sig := false }] ∧
    ((run (.fenceUnshare 256) (p8Fence 4 1 { live 4 with shares := [{ ctx := 5, wait := true, sig := false }] })).fence 5).shares = [] := by
  decide +kernel

theorem witness_FenceOperations :
    (∀ op ∈ [0, 1, 2, 3, 4, 5], (fenceDev op 4 (live 0)).quiet = true ∧ (fenceDev op 4 (live 0)).starts 0 2 (first (fenceDesc op 4)) ∧
      onlyFields ((fenceDesc op 4).toNat >>> 128) fenceFields = true ∧ (fenceDev op 4 (live 0)).fenceIn 0 (fId (fenceDesc op 4)) = true ∧
      fOp (fenceDesc op 4) = op ∧ fId (fenceDesc op 4) = 5 ∧ (live 0).mayWait 0 = true ∧ (live 0).maySignal 0 = true) ∧
    (fenceDev 1 4 Fence.reset).starts 0 2 (first (fenceDesc 1 4)) ∧ ((fenceDev 1 4 Fence.reset).fence 5).st = .free ∧
    (live 0).value < fValue (fenceDesc 0 4) ∧
    ((fenceDev 2 4 (live 1)).fence 5).owner ≠ 0 ∧ (fenceDev 2 4 (live 1)).starts 0 2 (first (fenceDesc 2 4)) ∧
    ((p8Fence 3 1 (live 4)).starts 256 2 (first (desc [(0, 2), (128, 3), (144, 5), (160, 1), (176, 1)])) ∧
      (p8Fence 3 1 (live 4)).fenceIn 4 5 = true ∧ ctxNamed 4 1 = 5 ∧ (p8Fence 3 1 (live 4)).ctxOpen 5 = true) := by
  unfold Dev.starts; decide +kernel

theorem witness_SignalsToFences : up.fenceIn 0 16384 = false ∧ up.fenceIn 0 5 = true ∧ (up.fence 5).st = .free ∧
    ((up.setFence 5 { live 0 with st := .broken }).fence 5).st = .broken ∧ (live 0).st = .live ∧ (live 0).maySignal 0 = true ∧
    (live 0).maySignal 4 = false ∧
    ((fenceDev 0 4 (live 0)).starts 0 2 (first (fenceDesc 0 4)) ∧ fOp (fenceDesc 0 4) = 0 ∧
      onlyFields ((fenceDesc 0 4).toNat >>> 128) fenceFields = true ∧ (fenceDev 0 4 (live 0)).fenceIn 0 5 = true) := by
  unfold Dev.starts; decide +kernel

theorem witness_StepRunsFront : ∃ c cs, ({ State.reset with pending := [.ringNop 0, .tamper 1] } : State).pending = c :: cs :=
  ⟨.ringNop 0, [.tamper 1], rfl⟩

/-! ### Weft (02) -/

/-- Key slot 7: a data key of owner 1 with three uses; region 1: granules 8 to 15 under it; region 2: granules 16 to 23 under it. -/
def keyed (d : Dev) : Dev :=
  (((regs [(0x10000, 1)] d).setKey 7 { KeySlot.reset 7 with typ := 4, valid := true, job := 3, owner := 1, uses := 3, uses0 := 3 }).setRegion 1
    { Region.reset with st := .live, base := 8, granules := 8, key := 7 }).setRegion 2
    { Region.reset with st := .live, base := 16, granules := 8, key := 7 }

/-- 16 × 16 luma only, one token of one frame; audio of 16 kHz, one channel, 64 samples a token (Table 02-6). -/
def profile : Nat :=
  word [(32, 16), (48, 16), (64, 16), (80, 16), (96, 16), (104, 16), (112, 1), (120, 2), (128, 1), (384, 16000), (400, 1), (416, 64)]

/-- One sample in one window; `READY_FENCE` 5, `RETIRE_FENCE` 6, at most 64 tokens, records in granule 16. -/
def epochDesc : RingDesc := desc [(0, 0x41), (224, 2), (256, 1), (384, 5), (400, 6), (416, 64), (448, 16 * granuleBytes)]

def epoch : WfEpoch :=
  { serial := 0, ring := 0, desc := epochDesc, active := true, profiles := [profile], fir2 := [], fir3 := [], base := 8 * granuleBytes,
    halfBytes := granuleBytes, work := granuleBytes, firstHalf := 0, fill := 0, filling := true, used := 0, samples := [], pj := 0,
    pi := 0, cur := [], tokens := 0, k := 0, finished := false }

/-- Sample 0 of owner 1 under key 7: `count` chunks, codec 1, profile `pr`. -/
def streamDesc (count pr : Nat) : RingDesc :=
  desc [(0, 0x40), (168, 1), (176, 7), (192, 0x500000), (256, count), (320, 1), (328, 1), (336, 1), (344, pr), (480, 1), (512, 4), (576, 64)]

/-- The stream descriptor as judged: it belongs to the epoch of `epochDesc`. -/
def tied (x : RingDesc) : Accepted := { first x with epoch := some (0, eN epochDesc) }

def ringWith (a : Accepted) : Ring := { st := .active, tail := 1, accepted := 1, completed := 0, pend := [a] }

def wefted (e : WfEpoch) (x : RingDesc) : Dev :=
  ((((keyed (give x (regs [(0x18000, 1)] up))).setRing 0 (ringWith (tied x))).setWf 0 { WfPart.reset with ingest := some 0, epochs := [e], serial := 1 }).setFence 5 (live 0)).setFence 6 { live 0 with value := 0 }

def fresh (x : RingDesc) : Sample := Sample.blank 0 0 x

/-- R50, 13 R389: the sample is taken and its key loses a use; R33: another owner's key; R32: the ring is not the epoch's. -/
theorem test_stream : let d := run (.streamDescriptor 0) (wefted epoch (streamDesc 1 0))
    (d.key 7).uses = 2 ∧ (d.ring 0).pend.map (·.phase) = [.started] ∧
    ((run (.streamDescriptor 0) ((wefted epoch (streamDesc 1 0)).setKey 7 (KeySlot.reset 7))).ring 0).pend.map (·.phase) =
      [.done (Verdict.of 0x42)] := by decide +kernel

theorem witness_StreamKeyInvalid : let d := (wefted epoch (streamDesc 1 0)).setKey 7 (KeySlot.reset 7)
    d.quiet = true ∧ d.streamTurn 0 (tied (streamDesc 1 0)) epoch ∧ sCount (streamDesc 1 0) ≠ 0 ∧ sKey (streamDesc 1 0) = 7 ∧
    (d.key 7).owner ≠ sOwner (streamDesc 1 0) := by
  unfold Dev.streamTurn Dev.starts; dsimp only; and_intros <;> decide +kernel

/-- A stream descriptor without a container. -/
def badStream : RingDesc := desc [(0, 0x40)]

/-- 02 R31, R62: an accepted stream descriptor is judged by the epoch in effect. -/
def judged (x : RingDesc) : Dev :=
  let d := (wefted epoch x).setRing 0 { st := .active, tail := 1, accepted := 0, completed := 0, pend := [] }
  d.hostWrite 0x100000 (leBytes 128 x.toNat)

/-- A sample too long for the epoch. -/
def longStream : RingDesc := streamDesc 1 0 ||| desc [(576, 65)]

theorem test_stream_judged : ((run (.descriptorAccept 0) (judged (streamDesc 1 0))).ring 0).pend = [tied (streamDesc 1 0)] ∧
    ((run (.descriptorAccept 0) (judged longStream)).ring 0).pend.map (·.phase) = [.done (Verdict.of 0x46)] := by decide +kernel

theorem witness_EntryAccepted_stream :
    (let d := judged (streamDesc 1 0)
     d.quiet = true ∧ d.fetches 0 = true ∧ d.hostMay false 0 128 = true ∧ d.hostMay true 0 64 = true ∧ (d.ring 0).accepted < (d.ring 0).tail ∧
      d.ringEntry 0 0 = streamDesc 1 0 ∧ judgedStream (streamDesc 1 0) = true ∧ d.p8 = false ∧ d.epochPends 0 0 = false ∧ (d.ring 0).pend = [] ∧
      d.streamTie 0 (streamDesc 1 0) = (none, some (0, eN epochDesc))) ∧
    ((judged longStream).ringEntry 0 0 = longStream ∧ judgedStream longStream = true ∧ (judged longStream).streamTie 0 longStream = (some 0x46, none)) ∧
    (let d := (judged (streamDesc 1 0)).setWf 0 WfPart.reset
     d.ringEntry 0 0 = streamDesc 1 0 ∧ d.streamTie 0 (streamDesc 1 0) = (some 0x4C, none)) := by
  dsimp only; and_intros <;> decide +kernel

/-- Sample 0's window has passed, or is still to come. -/
def windowAt (fill : Nat) (filling : Bool) : WfEpoch := { epoch with fill := fill, filling := filling }

theorem witness_StreamTaken :
    (let d := wefted epoch (streamDesc 1 0)
     d.quiet = true ∧ d.p8 = false ∧ d.streamTurn 0 (tied (streamDesc 1 0)) epoch ∧ d.dataKeyOk 0 7 1 = true ∧
      d.ownsProfile 0 0 = true ∧ profileOk (epoch.profiles.getD 0 0) = true ∧ d.fld 0x18000 0 1 = 1 ∧ d.hasEngine 0 false = true) ∧
    ((wefted epoch badStream).starts 0 0x40 (tied badStream) ∧ streamBad badStream = true) ∧
    (let d := ((wefted epoch (streamDesc 1 0)).setRing 0 (ringWith (first (streamDesc 1 0)))).setWf 0 WfPart.reset
     d.starts 0 0x40 (first (streamDesc 1 0)) ∧ streamBad (streamDesc 1 0) = false ∧ (d.wf 0).ingest ≠ some 0) ∧
    (let a : Accepted := { first (streamDesc 1 0) with epoch := some (0, 0) }
     ((wefted epoch (streamDesc 1 0)).setRing 0 (ringWith a)).starts 0 0x40 a ∧ 0 ≤ sSample (streamDesc 1 0)) ∧
    (∀ x ∈ [(1, false, WindowIs.past), (0, false, .later), (0, true, .filling)], let e := windowAt x.1 x.2.1
      (wefted e (streamDesc 1 0)).starts 0 0x40 (tied (streamDesc 1 0)) ∧ sSample (streamDesc 1 0) < eN epochDesc ∧
        ((wefted e (streamDesc 1 0)).wf 0).epochs.find? (fun e => e.serial = 0) = some e ∧ e.active = true ∧
        e.windowIs (sSample (streamDesc 1 0)) = x.2.2) ∧
    ((epoch.setSample 0 (fresh (streamDesc 1 0))).sample 0).isSome = true ∧
    ((wefted epoch (streamDesc 0 0)).streamTurn 0 (tied (streamDesc 0 0)) epoch ∧ sCount (streamDesc 0 0) = 0) ∧
    (let d := wefted epoch (streamDesc 1 1)
     d.streamTurn 0 (tied (streamDesc 1 1)) epoch ∧ d.dataKeyOk 0 7 1 = true ∧ profileOk (epoch.profiles.getD 1 0) = false) := by
  unfold Dev.streamTurn Dev.starts; dsimp only; and_intros <;> decide +kernel

/-- The epoch descriptor `x` next on ring 0, window and work region given. -/
def epochDev (x : RingDesc) : Dev :=
  ((regs [(0x18108, 1), (0x18118, 1)] (wefted epoch x)).setRing 0 (ringWith (first x))).setWf 0 WfPart.reset

/-- R36, R37: the first epoch takes effect at once. -/
theorem test_epoch : let d := run (.epochDescriptor 0) (epochDev epochDesc)
    ((d.wf 0).epochs.map (·.active)) = [true] ∧ (d.wf 0).ingest = some 0 ∧ (d.ring 0).pend.map (·.phase) = [.done (Verdict.of 0)] := by
  decide +kernel

theorem witness_EpochAccepted :
    (let d := epochDev epochDesc
     d.quiet = true ∧ d.starts 0 0x41 (first epochDesc) ∧ d.p8 = false ∧ d.fld 0x18000 0 1 = 1 ∧ d.fld (wfReg 0 + 8) 0 16 ≠ 0 ∧
      d.fld (wfReg 0 + 0x18) 0 16 ≠ 0 ∧ epochBad epochDesc = false ∧ ceilDiv (eN epochDesc) (eWin epochDesc) ≤ 16777216 ∧
      d.fenceIn 0 (eReady epochDesc) = true ∧ d.fenceIn 0 (eRetire epochDesc) = true ∧ (d.wf 0).epochs = [] ∧ (d.ring 0).pend = [first epochDesc]) ∧
    ((epochDev (desc [(0, 0x41)])).starts 0 0x41 (first (desc [(0, 0x41)])) ∧ epochBad (desc [(0, 0x41)]) = true) ∧
    (let x := desc [(0, 0x41), (224, 1), (256, 16777217), (416, 64)]
     (epochDev x).starts 0 0x41 (first x) ∧ epochBad x = false ∧ 16777216 < ceilDiv (eN x) (eWin x)) ∧
    (let d := regs [(0x1C, 1)] (epochDev (desc [(0, 0x41), (224, 2), (256, 1), (384, 8192), (416, 64)]))
     let x := desc [(0, 0x41), (224, 2), (256, 1), (384, 8192), (416, 64)]
     d.starts 0 0x41 (first x) ∧ epochBad x = false ∧ d.fenceIn 0 (eReady x) = false) ∧
    (let d := (wefted epoch 0).setWf 0 { WfPart.reset with epochs := [{ epoch with finished := true }, { epoch with active := false }] }
     d.quiet = true ∧ d.servingIn 0 = true ∧ ({ epoch with finished := true } : WfEpoch).finished = true ∧
      (d.wf 0).epochs = [{ epoch with finished := true }, { epoch with active := false }]) := by
  unfold Dev.starts; dsimp only; and_intros <;> decide +kernel

def frame : Frame := { pts := 0, dur := 3000, rap := true, refs := [], width := 16, height := 16, field := 0, mate := 0, stop := 4 }

/-- Two 16 × 16 frames of MPEG-2 and 1/15 s of sound at 48 kHz (Table 02-4). -/
def facts : StreamFacts :=
  { packet := 188, breaks := none,
    video := [{ id := 0, program := 1, covered := false, codec := 1, profile := .main, level := 2, chroma := 1, depth := 8, width := 16,
                height := 16, buffer := 2, frames := [frame, { frame with pts := 3000, refs := [0], mate := 1 }] }],
    audio := [{ id := 0, program := 1, covered := false, codec := 1, extended := false, kbps := 192, rate := 48000, channels := 1,
                frames := [{ pts := 0, dur := 6000, stop := 4 }] }] }

def grey : Picture :=
  { depth := 8, full := true, matrix := 1, subX := 0, subY := 0, site := none, y := List.replicate 16 (List.replicate 16 128), cb := [], cr := [] }

def decoding (x : Sample) : WfEpoch := epoch.setSample 0 x

/-- Four bytes of container stream as chunk 0, encrypted under the owner's ingest key (R34). -/
def chunkBytes : List Byte :=
  let x := streamDesc 1 0
  let key := (keyed up).ingestKey 7
  let ct := Crypt.gcmCrypt key (chunkNonce x 0) [1, 2, 3, 4]
  Crypt.toBytes (ct ++ Crypt.gcmTag key (chunkNonce x 0) (Crypt.ofBytes (leBytes 8 (dbyte x 16 0 64))) ct)

/-- The sample in decode, its chunk `bs` in host memory behind its list. -/
def fetching (x : Sample) (bs : List Byte) : Dev :=
  ((wefted (decoding x) x.desc).hostWrite 0x500000 (leBytes 8 0x600000 ++ leBytes 4 20 ++ leBytes 4 0)).hostWrite 0x600000 bs

/-- Its chunk has arrived and its headers are known. -/
def arrived : Sample := { fresh (streamDesc 1 0) with chunks := 1, stream := [1, 2, 3, 4], facts := some facts }

set_option maxRecDepth 20000 in
/-- Table 02-10: a chunk whose tag fails ends the sample `AUTH_FAIL`; one that verifies adds its plaintext. -/
theorem test_chunk : ((run (.chunkArrival 0 0 [] none) (fetching (fresh (streamDesc 1 0)) [])).wf 0).epochs.map
      (fun e => (e.sample 0).map Sample.st) = [some (.ended 0x41)] ∧
    ((run (.chunkArrival 0 0 [] (some facts)) (fetching (fresh (streamDesc 1 0)) chunkBytes)).wf 0).epochs.map
      (fun e => e.sample 0) = [some arrived] := by decide +kernel

/-- A decoded picture is counted. -/
theorem test_picture : (run (.pictureDecode 0 0 0 (some grey)) (wefted (decoding arrived) (streamDesc 1 0))).reg 0x18120 = 1 := by
  decide +kernel

set_option maxRecDepth 20000 in
theorem witness_SampleDecoded_chunk :
    (∀ x ∈ [fresh (streamDesc 1 0), { fresh (streamDesc 1 0) with facts := some facts }], let d := fetching x chunkBytes
      d.quiet = true ∧ d.decoding 0 0 = some (decoding x, x) ∧ x.chunks < sCount x.desc ∧ d.fetchOpen 0 (d.chunkCost x) = true ∧
      chunkEntry (d.hostBytes (sList x.desc + 16 * x.chunks) 16) = some (0x600000, 20)) ∧
    (fetching (fresh (streamDesc 1 0)) chunkBytes).hostBytes 0x600000 20 = chunkBytes ∧
    openChunk ((keyed up).ingestKey 7) (streamDesc 1 0) 0 chunkBytes = some [1, 2, 3, 4] ∧
    openChunk ((keyed up).ingestKey 7) (streamDesc 1 0) 0 (List.replicate 20 0) = none ∧
    (fetching (fresh (streamDesc 1 0)) chunkBytes).ingestKey 7 = (keyed up).ingestKey 7 ∧
    (let x := fresh (streamDesc 1 0)
     let d := wefted (decoding x) (streamDesc 1 0)
     d.decoding 0 0 = some (decoding x, x) ∧ d.fetchOpen 0 (d.chunkCost x) = true ∧
      chunkEntry (d.hostBytes (sList x.desc + 16 * x.chunks) 16) = none) ∧
    (let x := fresh (streamDesc 1 0)
     let d := fetching x chunkBytes
     (d.hostCount false 0 (d.chunkCost x)).headerStatus 0 (decoding x) x.desc 4 facts = none ∧
      (d.hostCount false 0 (d.chunkCost x)).headerStatus 0 (decoding x) x.desc 4 { facts with breaks := some 3 } = some 0x44) := by
  dsimp only; and_intros <;> decide +kernel

theorem witness_SampleDecoded :
    (let x := arrived
     let d := wefted (decoding x) (streamDesc 1 0)
     d.quiet = true ∧ d.decoding 0 0 = some (decoding x, x) ∧ x.frames[0]? = some frame ∧ (x.plan profile).contains 0 = true ∧ x.pic 0 = none ∧
      d.hasEngine 0 false = true ∧ frame.stop ≤ x.stream.length ∧ x.refsBad (x.plan profile) frame = some false ∧
      (x.audioPlan profile).contains 0 = true ∧ x.audio.any (fun a => a.1 = 0) = false ∧ d.hasEngine 0 true = true ∧
      x.audioFrames[0]?.map AudioFrame.stop = some 4) ∧
    (let x := { arrived with pics := [(0, .dropped)] }
     (wefted (decoding x) (streamDesc 1 0)).decoding 0 0 = some (decoding x, x) ∧
      x.frames[1]?.map (fun f => x.refsBad (x.plan profile) f) = some (some true) ∧ (x.plan profile).contains 1 = true ∧ x.pic 1 = none) := by
  dsimp only; and_intros <;> decide +kernel

/-- The sample decoded, waiting for its space. -/
def ready : Sample := { arrived with pics := [(0, .kept grey), (1, .kept grey)], audio := [(0, none)], st := .ready }

/-- Nothing of the sample was decoded: it takes no space. -/
def noTokens : Sample := { ready with pics := [(0, .dropped), (1, .dropped)], audio := [(0, none)] }

/-- R61, R63: past the last window the open sequence closes: its record lies in the record area and `READY_FENCE` shows it. -/
def closing : WfEpoch := { decoding { fresh (streamDesc 1 0) with st := .ended 0x41 } with pj := 1, filling := false, fill := 1, cur := [] }

def closingDev : Dev := (wefted closing 0).setFence 5 { live 0 with value := 0 }

theorem test_sequence : let d := run (.sequenceClose 0) closingDev
    leNat (d.bytes (16 * granuleBytes) 8) = 1 ∧ (d.fence 5).value = 1 ∧ (d.wf 0).out.length = 1 := by decide +kernel

theorem witness_WindowsAndSequences :
    (let e := { epoch with filling := false }
     let d := wefted e 0
     d.quiet = true ∧ d.epochOf 0 = some e ∧ d.servingIn 0 = true ∧ e.active = true ∧ e.fill < e.windows ∧
      d.halfFree 0 e (e.half e.fill) = true) ∧
    (let e := decoding noTokens
     e.sample 0 = some noTokens ∧ noTokens.st = .ready ∧ e.filling = true ∧
      ((List.range (e.count e.fill)).find? fun i => e.sampleAt e.fill i = 0) = some 0 ∧ noTokens.panels profile e.fir2 e.fir3 = [] ∧
      (wefted e 0).epochOf 0 = some e ∧ ok ((wefted e 0).write (engineReq 0 7) e.base []) = true) ∧
    (let e := { decoding ready with used := granuleBytes }
     e.sample 0 = some ready ∧ ready.st = .ready ∧ (wefted e 0).epochOf 0 = some e ∧ e.used = e.halfBytes ∧
      (ready.panels profile e.fir2 e.fir3).isEmpty = false) ∧
    (closingDev.epochOf 0 = some closing ∧ closing.closeDue = true ∧ (closingDev.wf 0).out.length < 4 ∧
      ok (closingDev.write (engineReq 0 7) (16 * granuleBytes) (seqRecord 1 0 true [])) = true ∧
      ((closingDev.regionOf (16 * granuleBytes)).map fun n => (closingDev.region n).key) = some 7) := by
  dsimp only; and_intros <;> decide +kernel

/-! ### Reed and the Shuttles (07) -/

/-- Torus 4 × 1 × 1, this device at the origin, partition 0 in slice 5 at logical (0, 0, 0), port 0 up, landing keys set. -/
def linked : Dev :=
  let d := regs [(0x14000, 1), (0x1400C, 3), (0x14040, 1), (0x14600, 5 + 2 ^ 12), (0x1460C, 3), (0x15000, 1), (0x15100, 7 * 2 ^ 41)] (keyed up)
  (d.setPort 0 { Port.reset with st := .up, lanes := 8, lastFrame := 0, mgmtKey := 1, keyed := true })

/-- The clear message as it is taken, once sealed under the job key 0 of the device at reset (R214). -/
def clearOf (m : Msg) : Msg := { m with tag := (msgSeal 0 m).tag }

/-- The device once the message has been accepted for partition 0. -/
def arr (d : Dev) (port : Nat) (m : Msg) : Dev :=
  (((d.received port m).noteIngress 0 m).bump (shReg 0 + 0x10) 1).bump (shReg 0 + 0x20) m.payload.length

/-- What acceptance for partition 0 asks, as one check. -/
def lands (d : Dev) (port typ : Nat) (m : Msg) : Bool :=
  let e := d.received port m
  d.canTake port m && m.typ = typ && m.dest % 4 = 0 && (e.rtpPart 0).secret = 0 && 0 < e.parts && e.sliceValid 0 &&
    e.sliceId 0 = m.slice && e.sourceId 0 = m.dest && e.ctxOpen 0 && e.fld (shReg 0) 41 12 ≠ 0 && (e.sh 0).floor ≤ m.epoch &&
    (e.sh 0).inOrder m

theorem arrives_of {d : Dev} {port typ : Nat} {m : Msg} (h : lands d port typ m = true) :
    d.arrives port typ (msgSeal 0 m) (arr d port m) 0 (clearOf m) := by
  simp only [lands, Bool.and_eq_true, decide_eq_true_eq] at h
  obtain ⟨⟨⟨⟨⟨⟨⟨⟨⟨⟨⟨hc, ht⟩, hd⟩, hj⟩, hp⟩, hv⟩, hs⟩, hi⟩, ho⟩, hk⟩, hf⟩, hq⟩ := h
  have hw : msgWire (msgSeal 0 m) = msgWire m := by simp only [msgWire, msgSeal_length]
  have hr : d.received port (msgSeal 0 m) = d.received port m := by unfold Dev.received; rw [hw]; rfl
  refine ⟨ht, ?_, ?_⟩
  · rw [← hc]; unfold Dev.canTake; rw [hw]; rfl
  · rw [hr]; exact Dev.arrive_seal _ m 0 0 hd hj ⟨hp, hv, hs, hi⟩ ⟨ho, hk⟩ hf hq

/-- R195: the order of the checks shows in what is counted. -/
theorem test_arrival : (run (.put 0 { msg with slice := 6 }) linked).reg 0x14010 = 1 ∧
    (run (.put 0 { msg with epoch := 1 }) (linked.setSh 0 { ShPart.reset with floor := 2 })).reg 0x4180 = 1 := by decide +kernel

set_option maxRecDepth 20000 in
/-- R214: the payload is stored in clear; a tag that fails is counted. -/
theorem test_arrival_sealed :
    (run (.put 0 (msgSeal 0 { msg with key := 7, addr := 8 * granuleBytes, len := 1, payload := List.replicate 64 3 })) linked).byte
      (8 * granuleBytes) = 3 ∧
    (run (.put 0 msg) linked).reg (shReg 0 + 0x40) = 1 := by decide +kernel

set_option maxRecDepth 20000 in
theorem witness_MessageArrival :
    (∀ d ∈ [linked, linked.setSh 0 { ShPart.reset with floor := 2 }],
      d.quiet = true ∧ 1 ≤ msg.typ ∧ msg.typ ≤ 8 ∧ d.canTake 0 msg = true ∧
      (let e := d.received 0 msg
       0 < e.parts ∧ e.sliceValid 0 = true ∧ e.sliceId 0 = msg.slice ∧ e.sourceId 0 = msg.dest ∧ msg.dest % 4 = 0 ∧
        e.ctxOpen 0 = true ∧ e.fld (shReg 0) 41 12 ≠ 0)) ∧
    (linked.canTake 0 { msg with slice := 6 } = true ∧ (linked.received 0 msg).sliceId 0 ≠ 6) ∧
    ((linked.received 0 msg).sh 0).floor ≤ msg.epoch ∧ ((linked.received 0 msg).sh 0).inOrder msg = true ∧
    msgVerifies ((linked.received 0 msg).rtpPart 0).secret msg = false ∧
    msg.epoch < (((linked.setSh 0 { ShPart.reset with floor := 2 }).received 0 msg).sh 0).floor ∧
    ({ ShPart.reset with ingress := [(8 * 16, some (1, 0))] } : ShPart).inOrder msg = false ∧
    ((linked.setCtx 0 Ctx.reset).canTake 0 msg = true ∧ ((linked.setCtx 0 Ctx.reset).received 0 msg).ctxOpen 0 = false) := by
  dsimp only; and_intros <;> decide +kernel

/-- A message that verifies: `msg` sealed. -/
theorem witness_MessageArrival_taken : lands linked 0 1 msg = true ∧ msgVerifies 0 (msgSeal 0 msg) = true ∧
    linked.arrives 0 1 (msgSeal 0 msg) (arr linked 0 msg) 0 (clearOf msg) :=
  ⟨by decide +kernel, msgVerifies_seal 0 msg, arrives_of (by decide +kernel)⟩

/-- One group of one unit at granule 9 from source 8, zone at granule 16, both under key 7. -/
def group : LzGroup :=
  { ctx := 0, target := 9 * granuleBytes, tkey := 7, units := 1, mode := 1, fence := 5, fval := 4, zone := 16 * granuleBytes, zkey := 7,
    sources := [8], gran := [], merged := [] }

def grouped : Dev := (linked.setSh 0 { ShPart.reset with groups := [group] }).setFence 5 { live 0 with remote := true }

def line : Msg := { msg with key := 7, addr := 9 * granuleBytes, len := 1, payload := List.replicate 64 3 }

def sigMsg : Msg := { msg with typ := 5, payload := leBytes 8 9 ++ leBytes 2 5 ++ List.replicate 6 0 }

def get1 : RGet := { ctr := 4, tile := 0, serial := 0, store := false, addr := 8 * granuleBytes, key := 7, len := 64, ring := 0, seq := 0, op := 0 }

/-- What the zone holds once the message has landed. -/
def landed (d : Dev) (m : Msg) : List Granule :=
  match d.landAcc 0 m with
  | .landed e => (e.sh 0).groups.map (·.granule 0 0)
  | _ => []

/-- R200, R203: the granule of an engine's ACC is committed, that of a pick's is held. -/
theorem test_acc : landed (arr grouped 0 { line with typ := 2 }) { line with typ := 2, eng := true } = [.committed] ∧
    landed (arr grouped 0 { line with typ := 2 }) { line with typ := 2 } = [.held line.tile line.serial] := by
  decide +kernel

theorem landed_of {d : Dev} {m : Msg} (h : landed d m ≠ []) : ∃ e, d.landAcc 0 m = .landed e := by
  unfold landed at h
  split at h
  · exact ⟨_, ‹_›⟩
  · exact absurd rfl h

theorem witness_MessageEffects : grouped.quiet = true ∧
    (lands grouped 0 1 msg = true ∧ (clearOf msg).key = 0 ∧ (arr grouped 0 msg).restoreUnit 0 (clearOf msg) = none) ∧
    (lands grouped 0 1 line = true ∧ (clearOf line).key ≠ 0 ∧ (arr grouped 0 line).restoreUnit 0 (clearOf line) = none ∧
      ok ((arr grouped 0 line).write (engineReq 0 7) line.addr ((clearOf line).payload.take (64 * (clearOf line).len))) = true) ∧
    lands grouped 0 2 { msg with typ := 2 } = true ∧
    (let m := { line with typ := 2 }
     let e := arr grouped 0 m
     lands grouped 0 2 m = true ∧ m.key ≠ 0 ∧ e.grantAll (engineReq 0 7) true (linesOf m.addr (64 * m.len)) = none ∧
      landed e m ≠ [] ∧ m.payload.length = 64 * m.len ∧
      (e.sh 0).groups.findIdx? (fun g => g.target ≤ m.addr && m.addr + m.len * 64 ≤ g.target + 16384 * g.units) = some 0 ∧
      (e.sh 0).groups[0]? = some group ∧ group.source m.src = some 0 ∧ 0 < m.len) ∧
    lands grouped 0 3 { msg with typ := 3 } = true ∧
    (let m := { line with typ := 3, payload := [] }
     lands grouped 0 3 m = true ∧ m.key ≠ 0 ∧ ok ((arr grouped 0 m).read (engineReq 0 7) m.addr (64 * m.len)) = true) ∧
    (let m := { line with typ := 4, reqCtr := 4 }
     let d := grouped.setSh 0 { grouped.sh 0 with rgets := [get1] }
     lands grouped 0 4 m = true ∧ ((arr grouped 0 m).sh 0).rgets.find? (fun g => g.ctr = m.reqCtr) = none ∧
      lands d 0 4 m = true ∧ ((arr d 0 m).sh 0).rgets.find? (fun g => g.ctr = m.reqCtr) = some get1) ∧
    (lands grouped 0 5 sigMsg = true ∧ (arr grouped 0 sigMsg).admitsRemote 0 (leNat ((sigMsg.payload.drop 8).take 2) % 2 ^ 14) = true ∧
      lands grouped 0 5 { sigMsg with eng := true } = true ∧ sigMsg.eng = false) ∧
    (∀ l ∈ [[], List.range 15],
      let m := { msg with typ := 6, ch := 15 }
      let d := linked.setSh 0 { ShPart.reset with rx := [{ src := 8, tile := 0, serial := 0, chans := l, sigs := [] }] }
      lands d 0 6 m = true ∧
      (((((arr d 0 m).markHeld 0 m .committed).modPick 0 m fun x => { x with chans := insNat m.ch x.chans }).sh 0).rx.find? (·.is m)).map
        (fun x => x.chans.length) = some (l.length + 1)) ∧
    lands grouped 0 7 { msg with typ := 7 } = true ∧
    (lands grouped 0 8 { msg with typ := 8 } = true ∧ (((arr grouped 0 { msg with typ := 8 }).pl 0).stripes.any fun x => x.2 = 0) = false) := by
  dsimp only; and_intros <;> decide +kernel

theorem witness_ReservedMessage : linked.quiet = true ∧ linked.linkOpen 0 = true ∧ bits msg.route 0 17 = linked.here.toNat ∧
    ({ msg with typ := 0 } : Msg).typ = 0 ∧ 8 < ({ msg with typ := 9 } : Msg).typ := by decide +kernel

/-- Toward (1, 0, 0). -/
def transit : Msg := { msg with route := 4096 }

/-- R209, R210: out of port 0; held without a usable next hop. -/
theorem test_forward : (run (.messageForward 8 transit) linked).shuttle.tx.map (fun x => (x.1, x.2.dest)) = [(0, transit.dest)] ∧
    (run (.messageForward 8 transit) (linked.setPort 0 Port.reset)).shuttle.held = [(none, transit)] := by decide +kernel

theorem witness_ForwardAndCount :
    (linked.quiet = true ∧ linked.linkOpen 8 = true ∧ bits transit.route 0 17 ≠ linked.here.toNat ∧
      linked.nextHop (Coord.ofNat 4096) = some 0 ∧ linked.mayGo 0 none (msgWire transit) = true ∧
      ({ linked with used := [(1000, 200000000)] } : Dev).mayGo 0 none (msgWire transit) = false ∧
      ({ linked with used := [(1000, 200000000)] } : Dev).nextHop (Coord.ofNat 4096) = some 0 ∧
      (linked.setPort 0 Port.reset).nextHop (Coord.ofNat 4096) = none ∧ (linked.setPort 0 Port.reset).linkOpen 8 = true) ∧
    (linked.sh 0).ctr < 2 ^ 36 ∧ 2 ^ 36 ≤ ((linked.setSh 0 { ShPart.reset with ctr := 2 ^ 36 }).sh 0).ctr ∧
    (linked.on = true ∧ (linked.port 0).st ≠ .down ∧ (linked.port 0).st ≠ .fenced) := by decide +kernel

/-- Port 0 down and not enabled. -/
def down : Dev := (regs [(0x14040, 0)] linked).setPort 0 Port.reset

/-- Port 0 training, `k` phases completed. -/
def training (k : Nat) (seen : Option (Nat × Nat)) : Dev := linked.setPort 0 { Port.reset with st := .training, phase := k, seen := seen }

/-- R186: an enabled port trains, and is up once the check passes: port 0 sees (1, 0, 0) through its port 1. -/
theorem test_port : ((run (.portEnable 0) down).port 0).st = .training ∧
    ((run (.portTrainingPhase 0 (.verified 4096 1)) (training 4 none)).port 0).seen = some (4096, 1) ∧
    ((run (.portTrainingPhase 0 .completed) (training 5 (some (4096, 1)))).port 0).st = .up ∧
    ((run (.portTrainingPhase 0 .completed) (training 5 (some (4096, 2)))).port 0).cable = 6 := by decide +kernel

theorem witness_PortsAndFrames :
    (down.quiet = true ∧ down.power.d3 = false ∧ down.on = true ∧ down.power.st ≠ .held ∧ down.fld (portReg 0) 0 1 = 0 ∧
      down.power.booted = true ∧ down.power.fatal = false ∧ portAbsent down.torus 0 = false ∧ down.fenced .port 0 = false ∧
      (down.port 0).st = .down) ∧
    (linked.fld (portReg 0) 0 1 = 1 ∧ (linked.port 0).st ≠ .fenced) ∧
    (∀ k ∈ [0, 3, 4], (training k none).mayTrain 0 = true ∧ ((training k none).port 0).st = .training ∧ ((training k none).port 0).phase = k) ∧
    (let d := linked.setPort 0 { Port.reset with retryAt := some 100 }
     (d.port 0).retryAt = some 100 ∧ d.mayTrain 0 = true ∧ (d.port 0).st = .down ∧ d.now < 100 ∧ 100 ≤ ({ d with timePs := 100000 } : Dev).now) ∧
    down.managed 0 = false ∧ linked.managed 0 = true ∧ linked.on = true ∧ (linked.port 0).txCtr + 1 < 2 ^ 40 ∧ (linked.port 0).rxCtr = none ∧
    (linked.now < (linked.port 0).lastFrame + 2000000 ∧ (linked.port 0).lastFrame + 2000000 ≤ ({ linked with timePs := 2000000000 } : Dev).now) := by
  dsimp only; and_intros <;> decide +kernel

theorem witness_CablingCheck : ∀ x ∈ [(4096, 1), (4096, 2), (8192, 1)], let d := training 5 (some x)
    d.quiet = true ∧ d.mayTrain 0 = true ∧ (d.port 0).st = .training ∧ (d.port 0).phase = 5 ∧ (d.port 0).seen = some x ∧
      ((neighbour d.torus d.here 0).toNat, facing 0) = (4096, 1) := by decide +kernel

theorem witness_SliceTables : linked.quiet = true ∧ linked.on = true ∧ linked.power.d3 = false ∧ linked.power.st ≠ .held ∧
    (linked.setCtx 0 Ctx.reset).partOpen 0 = false ∧ linked.partOpen 0 = true := by decide +kernel

/-! #### Landing zones -/

/-- Target granule 10, one unit, one source, list of source IDs at granule 17 under key 7. -/
def landingDesc (target tkey list : Nat) : RingDesc :=
  desc [(0, 0x50), (128, target), (169, tkey), (192, 1), (224, 1), (240, 5), (256, 4), (320, 16 * granuleBytes), (361, 7), (384, list), (425, 7)]

/-- The source list holds `v`. -/
def landingDev (x : RingDesc) (v : Byte) : Dev :=
  (give x linked).setByte (17 * granuleBytes) v

def goodLanding : RingDesc := landingDesc (10 * granuleBytes) 7 (17 * granuleBytes)

theorem test_landing : let d := run (.landing 0) (landingDev goodLanding 8)
    ((d.sh 0).groups.map LzGroup.sources) = [[8]] ∧ (d.ring 0).pend.map (·.phase) = [.done (Verdict.of 0)] := by decide +kernel

theorem witness_LandingOpened :
    (landingDev goodLanding 8).quiet = true ∧ (landingDev goodLanding 8).p8 = false ∧ (landingDev goodLanding 8).starts 0 0x50 (first goodLanding) ∧
    (landingDev (landingDesc 0 0 0) 8).starts 0 0x50 (first (landingDesc 0 0 0)) ∧
    (landingDev (landingDesc 0 7 0) 8).starts 0 0x50 (first (landingDesc 0 7 0)) ∧
    (landingDev (landingDesc (10 * granuleBytes) 7 0) 8).starts 0 0x50 (first (landingDesc (10 * granuleBytes) 7 0)) ∧
    (let g := landingGroup 0 goodLanding
     let d := landingDev goodLanding 8
     landingBad goodLanding g = false ∧ (d.sh 0).groups.length < 64 ∧ (d.sh 0).groups.any g.overlaps = false ∧
      d.rangeAccess (engineReq 0 g.tkey) true g.target 16384 = true ∧ d.rangeAccess (engineReq 0 g.zkey) true g.zone 17408 = true ∧
      ok (d.read (engineReq 0 7) (17 * granuleBytes) 4) = true ∧ leWords 4 (d.bytes (17 * granuleBytes) 4) = [8] ∧ ascending [8] = true ∧
      d.sourceId 0 ∉ [8] ∧ leWords 4 ((landingDev goodLanding 0).bytes (17 * granuleBytes) 4) = [0] ∧ d.sourceId 0 ∈ [0]) ∧
    landingBad (landingDesc 0 0 0) (landingGroup 0 (landingDesc 0 0 0)) = true ∧
    ((landingDev goodLanding 8).setSh 0 { ShPart.reset with groups := [landingGroup 0 goodLanding] }).sh 0 ≠ ShPart.reset ∧
    (landingGroup 0 goodLanding).overlaps (landingGroup 0 goodLanding) = true ∧
    (landingDev (landingDesc 0 7 0) 8).rangeAccess (engineReq 0 7) true 0 16384 = false ∧
    ok ((landingDev (landingDesc (10 * granuleBytes) 7 0) 8).read (engineReq 0 7) 0 4) = false := by
  unfold Dev.starts; dsimp only; and_intros <;> decide +kernel

/-- Every granule of the unit committed. -/
def complete : LzGroup := { group with gran := (List.range 256).map fun n => (n, .committed) }

def mergeDev : Dev := (linked.setSh 0 { ShPart.reset with groups := [complete] }).setFence 5 (live 0)

/-- The zones read, the target read in mode 0, the unit written: whether all of it is granted. -/
def mergeOk (d : Dev) (g : LzGroup) (u : Nat) : Bool :=
  match d.readZones g u (List.range g.sources.length) with
  | .fail _ _ => false
  | .ok e zs =>
    match (if g.mode = 0 then e.read (engineReq g.ctx g.tkey) (g.target + 16384 * u) 16384 else .ok e []) with
    | .fail _ _ => false
    | .ok e' t => ok (e'.write (engineReq g.ctx g.tkey) (g.target + 16384 * u) (mergeSum g.mode t zs))

theorem merge_of {d : Dev} {g : LzGroup} {u : Nat} (h : mergeOk d g u = true) : ∃ e zs e' t e'' x,
    d.readZones g u (List.range g.sources.length) = .ok e zs ∧
    (if g.mode = 0 then e.read (engineReq g.ctx g.tkey) (g.target + 16384 * u) 16384 else .ok e []) = .ok e' t ∧
    e'.write (engineReq g.ctx g.tkey) (g.target + 16384 * u) (mergeSum g.mode t zs) = .ok e'' x := by
  unfold mergeOk at h
  split at h
  · cases h
  · rename_i e zs h1
    split at h
    · cases h
    · rename_i e' t h2
      obtain ⟨e'', x, h3⟩ := ok_of h
      exact ⟨e, zs, e', t, e'', x, h1, h2, h3⟩

theorem witness_LandingMerged : mergeDev.quiet = true ∧ (mergeDev.sh 0).groups[0]? = some complete ∧ mergeDev.servingIn 0 = true ∧
    0 < complete.units ∧ complete.merged.contains 0 = false ∧ complete.complete 0 = true ∧ group.complete 0 = false ∧
    mergeOk mergeDev complete 0 = true := by and_intros <;> decide +kernel

/-! ### Tiles (03, 10 R299 to R305, 09 R262 to R266) -/

/-- Bytes of 64-byte ops laid one behind the other. -/
def listBytes (l : List OpDesc) : List Byte := l.flatMap fun x => leBytes 64 x.toNat

/-- One 1 × 2 op of opcode `c`, FP4 in blocks of 128 where the op admits it, between places of the tile's own store; a remote op reaches device
memory. -/
def opFor (c : Nat) : OpDesc :=
  let near := [(128, 0x10000), (169, 1)]
  let out := [(320, 0x20000), (361, 1)]
  let size := [(50, 4), (64, 1), (80, 2)]
  let far := [(64, 1), (80, 2), (320, 8 * granuleBytes), (363, 7)]
  let two := [(12, 5), (224, 0x10000), (265, 1)]
  opd ((0, c) :: match c with
    | 0x01 => [(8, 5), (16, 5), (96, 2)] ++ near ++ two ++ out ++ size
    | 0x10 => [(8, 5), (16, 5)] ++ near ++ two ++ out ++ size
    | 0x11 => [(8, 5), (16, 5)] ++ near ++ out ++ size
    | 0x12 => [(8, 5), (16, 5)] ++ near ++ two ++ out ++ size
    | 0x20 => [(8, 5), (16, 5)] ++ near ++ out ++ size
    | 0x21 => [(8, 5), (16, 5)] ++ near ++ two ++ out ++ size
    | 0x22 => near
    | 0x30 => (8, 5) :: near ++ out ++ size
    | 0x31 => (8, 5) :: near ++ out ++ size
    | 0x32 => (8, 5) :: near ++ out ++ size
    | 0x40 => [(8, 5), (16, 5)] ++ near ++ out ++ size
    | 0x41 => (16, 5) :: out ++ size
    | 0x50 => near ++ far
    | 0x51 => near ++ far
    | 0x52 => [(64, 1), (80, 1), (128, 8 * granuleBytes), (171, 7)] ++ out
    | 0x53 => [(24, 5), (416, 9)]
    | 0x61 => [(24, 5), (416, 9)]
    | 0x70 => [(416, 100), (480, 7)]
    | _ => [])

def slot : Slot :=
  { ring := 0, seq := 0, ctx := 0, list := 8 * granuleBytes, key := 7, op := 0, unit := 0, wait := none, carry := Carry.blank }

def pick (ps : List Piece) : Pick :=
  { slot := 0, serial := 1, op := 0, unit := 0, pieces := ps, whole := ps, close := .bound, nextOp := 1, nextUnit := 0, inPlace := [], reserved := true,
    saved := [], shadow := [], sets0 := [], segs0 := [], base0 := 0, step0 := 0, carry0 := Carry.blank, sigs := [], sent := [],
    all16 := [], sat := 0, nanint := 0, steps := 0, unchecked := 0, suspect := none, start := 0, askedAt := 0, held := none }

/-- Table set 0 of 64 entries. -/
def table : TableSet := { lo := 0, hi := 0x3F800000, invW := 0x42800000, base := 0, count := 64, mode := 0 }

/-- Logical tile 0, tiles switched on, its part the one of dispatch 0 of ring 0. -/
def tiled (x : LTile) : Dev :=
  { (((regs [(0x20000, 1)] linked).setLt 0 x).setFence 5 (live 0)) with
    dispatches := [{ ring := 0, seq := 0, ctx := 0, parts := [{ tile := 0, list := 8 * granuleBytes, key := 7, out := .begun }] }] }

/-- A header of table set 0 at 0x10000 of the store. -/
def header : LTile := LTile.reset.setBytes 0x10000 (leBytes 4 0 ++ leBytes 4 0x3F800000 ++ leBytes 4 0x42800000 ++ leBytes 2 0 ++ leBytes 2 64)

/-- The op `c` in hand. -/
def working (c : Nat) : Dev :=
  tiled { header with slots := [slot], sets := [(0, some table)],
                      pick := some (pick [{ op := 0, desc := opFor c, first := 0, count := 1 }]) }

def uok {α : Type} (r : URes α) : Bool :=
  match r with
  | .ok _ _ => true
  | _ => false

theorem uok_of {α : Type} {r : URes α} (h : uok r = true) : ∃ e x, r = .ok e x := by
  cases r with
  | ok e x => exact ⟨e, x, rfl⟩
  | fail => cases h
  | hold => cases h

/-- Table 03-11, R71 with rounding to nearest: 2 × 3, 1/2, √2 in FP32. -/
theorem test_vector : enc32 (vec2Op 2 (dec32 0x40000000) (dec32 0x40400000)) = 0x40C00000 ∧
    enc32 (vec1Op 4 .nan (dec32 0x40000000)) = 0x3F000000 ∧ enc32 (vec1Op 6 .nan (dec32 0x40000000)) = 0x3FB504F3 := by decide +kernel

/-- Table 03-9: `SETRNG` loads base and step; `FSIG` holds its signal for the commit. -/
theorem test_ops : (((run (.setrng 0) (working 0x70)).lt 0).base, ((run (.setrng 0) (working 0x70)).lt 0).step) = (100, 7) ∧
    ((run (.fsig 0) (working 0x61)).lt 0).pick.map (·.sigs) = some [(5, 9)] ∧ ((run (.fsig 0) (working 0x61)).fence 5).value = 3 := by
  decide +kernel

/-- Every op completes on some operands. -/
theorem witness_OpRuns :
    (opRows.map Prod.fst).all (fun c =>
      let d := working c
      d.quiet && oCode (opFor c) = c && (d.runCtx 0 = some 0) &&
        ((d.lt 0).pick.map (·.pieces) = some [{ op := 0, desc := opFor c, first := 0, count := 1 }]) &&
        d.mayRun 0 0 (pick [{ op := 0, desc := opFor c, first := 0, count := 1 }]) && !opBad (opFor c) && uok (d.runUnits 0 0 0 (opFor c) 1 0)) = true ∧
    ((working 0x20).lt 0).pick.bind Pick.suspect = none ∧
    opRows.length = 20 ∧ ((tiled LTile.reset).lt 0).pick = none ∧
    uok ((tiled { LTile.reset with slots := [slot] }).runUnits 0 0 0 (opFor 0x20) 1 0) = false := by
  and_intros <;> decide +kernel

theorem witness_OpUnits :
    (let d := working 0x12
     d.fld 0x8060 63 1 = 0 ∧ uok (d.readA 0 0 (opFor 0x12) .fp32 0 0) = true ∧ uok (d.readA 0 0 (opFor 0x40) .move 0 0) = true ∧
      uok (d.readB 0 0 (opFor 0x12) 0 0) = true) ∧
    (let x := opFor 0x12
     let d := working 0x12
     uok (d.readPanel 0 0 (oD x) (fmtOf (oFmtD x)) (oBsz x) .fp32 false (oMp x) (oNp x) 0 0) = true) ∧
    ((working 0x20).lt 0).set_ (oSub (opFor 0x20)) = some table ∧ ((tiled LTile.reset).lt 0).set_ (oSub (opFor 0x20)) = none ∧
    (let d := working 0x22
     let x := opFor 0x22
     uok (d.readAt 0 0 (oA x) (oA x).addr 64) = true ∧ tableHeader ((d.lt 0).bytes 0x10000 64) = some table ∧
      uok (d.readAt 0 0 (oA x) ((oA x).addr + 64) (32 * table.count)) = true ∧
      ((chunksOf 16 128 ((d.lt 0).bytes 0x10040 2048)).map tableEntry).any Option.isNone = false) ∧
    (working 0x61).signalOk 0 5 = true ∧ ((working 0x61).setFence 5 Fence.reset).signalOk 0 5 = false ∧
    (working 0x53).canSend 0 (opFor 0x53) = true ∧ ((working 0x53).canSend 4 (opFor 0x53)) = false ∧
    (List.replicate 64 (List.replicate 64 FV.zero)).length = 64 ∧ Fmt.bf16.isInt = false ∧ Fmt.int8.isInt = true := by
  dsimp only; and_intros <;> decide +kernel

/-- One tile, its entry at granule 8: list at granule 9. -/
def dispatchDesc (x1 : Nat) : RingDesc := desc [(0, 1), (128, 8 * granuleBytes), (169, 7), (208, x1)]

def dispatchDev (x : RingDesc) (entry : List Byte) : Dev :=
  (give x (regs [(0x20000, 1)] linked)).setBytes (8 * granuleBytes) entry

def entry : List Byte := leBytes 8 (9 * granuleBytes + 7 * 2 ^ 41)

theorem test_dispatch : let d := run (.dispatch 0) (dispatchDev (dispatchDesc 0) entry)
    ((d.lt 0).slots.map fun y => (y.list, y.key)) = [(9 * granuleBytes, 7)] ∧ d.dispatches.length = 1 := by decide +kernel

theorem witness_DispatchBegins :
    (let x := dispatchDesc 0
     let d := dispatchDev x entry
     d.quiet = true ∧ d.starts 0 1 (first x) ∧ d.dispatchBad 0 x = false ∧ rectangle x = [0] ∧
      ok (d.read (tileReq 0 7) (8 * granuleBytes) 16) = true ∧
      (((rectangle x).zip (chunksOf 16 1024 (d.bytes (8 * granuleBytes) 16))).mapM fun e => dispatchEntry e.1 e.2) =
        some [[{ tile := 0, list := 9 * granuleBytes, key := 7, out := .queued }]] ∧ d.physOf 0 = some 0 ∧ d.dispatches = []) ∧
    (let x := desc [(0, 1)]
     (dispatchDev x []).starts 0 1 (first x) ∧ (dispatchDev x []).dispatchBad 0 x = true) ∧
    (let x := desc [(0, 1), (128, 0), (169, 7)]
     (dispatchDev x []).starts 0 1 (first x) ∧ (dispatchDev x []).dispatchBad 0 x = false ∧ ok ((dispatchDev x []).read (tileReq 0 7) 0 16) = false) ∧
    (let x := dispatchDesc 0
     (dispatchDev x (leBytes 8 (2 ^ 60))).starts 0 1 (first x) ∧
      (((rectangle x).zip (chunksOf 16 1024 ((dispatchDev x (leBytes 8 (2 ^ 60))).bytes (8 * granuleBytes) 16))).mapM fun e =>
        dispatchEntry e.1 e.2) = none) := by
  unfold Dev.starts; dsimp only; and_intros <;> decide +kernel

/-- A part whose list holds these ops. -/
def listed (l : List OpDesc) : Dev := (tiled { LTile.reset with slots := [slot] }).setBytes (8 * granuleBytes) (listBytes l)

def fwaitOp : OpDesc := opd [(0, 0x60), (24, 5), (416, 4)]

/-- R96, R98: a pick runs up to the `FSIG` that closes it; a list at `FWAIT` waits. -/
theorem test_pick : ((run (.pickStart 0) (listed [opFor 0x70, opFor 0x61])).lt 0).pick.map (fun p => (p.pieces.length, p.nextOp, p.close)) =
      some (2, 2, .fsig) ∧
    (((run (.pickStart 0) (listed [fwaitOp])).lt 0).slots.map (·.wait)) = [some (5, 4)] := by decide +kernel

theorem witness_PickStarts :
    (let d := listed [opFor 0x70, opFor 0x61]
     d.quiet = true ∧ d.p8 = false ∧ d.tileReady 0 = true ∧ d.nextSlot 0 0 = some 0 ∧ (d.lt 0).undo = none ∧
      (d.lt 0).slots[0]? = some slot ∧ (d.cutOps 0 slot.list 7 65537 0 0 Cut.empty).2.cut.pieces ≠ []) ∧
    (let d := listed [fwaitOp]
     d.tileReady 0 = true ∧ d.nextSlot 0 0 = some 0 ∧ (d.lt 0).undo = none ∧
      (d.cutOps 0 slot.list 7 65537 0 0 Cut.empty).2.cut.pieces = [] ∧ (d.cutOps 0 slot.list 7 65537 0 0 Cut.empty).2.close = .fwait 5 4 ∧
      ((d.cutOps 0 slot.list 7 65537 0 0 Cut.empty).1.lt 0).slots = (d.lt 0).slots) ∧
    ((tiled LTile.reset).nextSlot 0 0 = none ∧ (tiled LTile.reset).p8 = false ∧ (linked.setTileState 0 5).tileReady 0 = false ∧ (linked.lt 0).undo = none) ∧
    (let p := { pick [] with reserved := false, inPlace := [(131072, 7)] }
     let d := tiled { LTile.reset with slots := [slot], pick := some p }
     (d.lt 0).pick = some p ∧ d.runCtx 0 = some 0 ∧ d.asideArea 0 < d.asideUsed 0 + p.asideBytes ∧
      (regs [(0x4128, 2 ^ 53)] d).asideUsed 0 + p.asideBytes ≤ (regs [(0x4128, 2 ^ 53)] d).asideArea 0) ∧
    (∀ v ∈ [3, 4],
      let y := { slot with wait := some (5, v) }
      let d := tiled { LTile.reset with slots := [y] }
      d.servingIn (tilePart d.parts 0) = true ∧ (d.lt 0).pick = none ∧ (d.lt 0).replay = none ∧ (d.lt 0).slots = [y] ∧
      d.waitFence 0 5 v = (if v = 3 then .ready else .notYet)) := by
  dsimp only; and_intros <;> decide +kernel

/-- Where a line of granule 8 lies. -/
theorem line_near (x : Nat) (h : x < 8192) : 128 * (131072 + x) / granuleBytes = 8 ∧ 128 * (131072 + x) < 2 ^ 41 := by
  unfold granuleBytes; omega

/-- Line 0 of region 2 is bad and its counters are used up: a write to it waits (12 R372, R376). -/
def clogged (d : Dev) : Dev :=
  (d.setRegion 2 { d.region 2 with hw := 0xFFFF }).setLine (16 * 16384) (some { key := 7, secret := 0, epoch := 0, ctr := 0, bad := true, ecc := false })

/-- A restore of that line is owed to tile 0, its copies in 1 MiB from granule 8 on under key 7. -/
def owing : Undo := { ctx := 0, space := 128, lines := [(16 * 16384, 7, List.replicate 128 1)] }

/-- So in a context that is torn down. -/
def undoing : Dev :=
  (clogged (regs [(0x4128, 8 * 2 ^ 21 + 7 * 2 ^ 41 + 2 ^ 53)] (tiled { LTile.reset with undo := some owing }))).setCtx 0
    { Ctx.reset with st := .tearing, phase := 1, seedSet := true }

theorem witness_PickStarts_undo : undoing.quiet = true ∧ (undoing.lt 0).undo = some owing ∧
    ∃ e r, undoing.unaside owing.ctx 0 owing.lines = (e, r) ∧ r ≠ [] := by
  refine ⟨by decide +kernel, by decide +kernel, ?_⟩
  have hk : bits (undoing.asideWord 0) 41 12 = 7 := by decide +kernel
  have ha : undoing.asideAddr 0 0 (16 * 16384) = 128 * (131072 + Config.asidePlace 0 0 (16 * 16384) % 8192) := by
    have h1 : bits (undoing.asideWord 0) 21 20 = 8 := by decide +kernel
    have h2 : undoing.asideArea 0 / 128 = 8192 := by decide +kernel
    rw [Dev.asideAddr, h1, h2]; unfold granuleBytes; omega
  generalize hx : Config.asidePlace 0 0 (16 * 16384) % 8192 = x at ha
  have hl : x < 8192 := hx ▸ Nat.mod_lt _ (by decide)
  have hn := line_near x hl
  have hr : undoing.regionOf (128 * (131072 + x)) = some 1 := by
    rw [Dev.regionOf, hn.1]; decide +kernel
  have hg : undoing.access (engineReq 0 7) (128 * (131072 + x)) false = .granted 1 := by
    have hw : undoing.window = 2 ^ 41 := by decide +kernel
    have hp : undoing.parts = 1 := by decide +kernel
    have hi : undoing.inWindow 0 (128 * (131072 + x)) = true := by
      simp only [Dev.inWindow, Dev.populated, hw, hp, Nat.mod_eq_of_lt hn.2, hn.1, Nat.div_eq_of_lt hn.2, hn.2]; decide
    unfold Dev.access
    rw [hr]
    simp only [engineReq, ctxPart]
    rw [if_neg (by simpa using hi)]
    decide +kernel
  have hR : undoing.region 1 = { Region.reset with st := .live, base := 8, granules := 8, key := 7 } := by decide +kernel
  have hs : (undoing.key 7).secret = 0 ∧ undoing.sv.latent = [] := by decide +kernel
  have hc : (undoing.touch (131072 + x)).checkLine 1 (131072 + x) 0 7 = (undoing.touch (131072 + x), true) := by
    have hm : (undoing.touch (131072 + x)).lineMeta { Region.reset with st := .live, base := 8, granules := 8, key := 7 } (131072 + x) =
        { key := 7, secret := 0, epoch := 0, ctr := 0, bad := false, ecc := false } := by
      have hl : (undoing.touch (131072 + x)).lines =
          [(262144, some { key := 7, secret := 0, epoch := 0, ctr := 0, bad := true, ecc := false })] := by
        show undoing.lines = _; decide +kernel
      simp only [Dev.lineMeta, hl, Sparse.get, if_neg (show ¬131072 + x = 262144 by omega), Region.epochOf, Region.reset]
      rfl
    have h1 : (undoing.touch (131072 + x)).region 1 = undoing.region 1 := rfl
    have h2 : ((undoing.touch (131072 + x)).key 7).secret = (undoing.key 7).secret := rfl
    have h3 : (undoing.touch (131072 + x)).latent (131072 + x) = .good := by
      show Sparse.get (fun _ => .good) undoing.sv.latent _ = _; rw [hs.2]; rfl
    unfold Dev.checkLine
    rw [h1, hR, hm, h2, h3, hs.1]
    rfl
  have hw : undoing.access (engineReq 0 7) (128 * 262144) true = .granted 2 ∧ undoing.regionOf (128 * 262144) = some 2 ∧
      (undoing.pl (128 * 262144 / undoing.window)).cur = none ∧ (undoing.region 2).st = .live ∧ (undoing.region 2).key ≠ 0 ∧
      (undoing.lineMeta (undoing.region 2) 262144).bad = true ∧ 0xFFFF ≤ (undoing.region 2).hw := by and_intros <;> decide +kernel
  have hf : (undoing.touch (131072 + x)).write (engineReq 0 7) (128 * 262144) (List.replicate 128 1) = .fail (undoing.touch (131072 + x)) .wait :=
    Dev.write_waits _ List.length_replicate (by simpa using hw.2.1) (by simpa using hw.1) (by simpa using hw.2.2.1)
      (by simpa using hw.2.2.2.1) (by simpa using hw.2.2.2.2.1) (by simpa using hw.2.2.2.2.2.1) (by simpa using hw.2.2.2.2.2.2)
  have hd : undoing.read (engineReq 0 (bits (undoing.asideWord 0) 41 12)) (undoing.asideAddr 0 0 (16 * 16384)) 128 =
      .ok (undoing.touch (131072 + x)) ((undoing.touch (131072 + x)).bytes (128 * (131072 + x)) 128) := by
    rw [hk, ha]; exact Dev.read_line _ hr hg hc
  exact ⟨undoing.touch (131072 + x), _, Dev.unaside_waits undoing (r := []) hd hf, by simp⟩

theorem witness_AbandonRestores :
    (let d := tiled { LTile.reset with slots := [slot], pick := some (pick []) }
     (d.lt 0).pick = some (pick []) ∧ (pick []).shadow = [] ∧ uok (d.storeWrite 0 0 0x10000 [1]) = true) := by
  dsimp only; and_intros <;> decide +kernel

/-- A pick whose ops have run, with one signal held. -/
def ended (sigs : List (Nat × Nat)) : Dev :=
  (tiled { LTile.reset with slots := [slot], pick := some { pick [] with sigs := sigs } }).setBytes (8 * granuleBytes) (listBytes [opFor 0x70, opFor 0x61])

/-- R100: the commit applies the held signal and counts. -/
theorem test_commit : let d := run (.pickCommit 0 none) (ended [(5, 9)])
    (d.fence 5).value = 9 ∧ (d.lt 0).pick = none ∧ d.reg 0x20108 = 1 := by decide +kernel

theorem witness_PickCommits :
    (let d := ended [(5, 9)]
     let p := { pick [] with sigs := [(5, 9)] }
     d.quiet = true ∧ (d.lt 0).pick = some p ∧ d.runCtx 0 = some 0 ∧ (d.lt 0).slots = [slot] ∧ p.slot = 0 ∧ d.mayRun 0 0 p = true ∧
      p.pieces = [] ∧ d.causeOf 0 p none = none ∧ p.sent = [] ∧ p.all16 = [] ∧ p.close = .bound ∧ (d.fence 5).st = .live ∧
      (d.fence 5).maySignal 0 = true ∧ d.fenceIn 0 5 = true ∧ (d.fence 5).value < 9 ∧ d.physOf 0 = some 0 ∧ p.suspect = none) ∧
    (let p := { pick [] with suspect := some 1 }
     let d := tiled { LTile.reset with slots := [slot], pick := some p }
     d.quiet = true ∧ (d.lt 0).pick = some p ∧ d.runCtx 0 = some 0 ∧ d.mayRun 0 0 p = true ∧ p.pieces = [] ∧ d.causeOf 0 p none = some 1 ∧
      d.physOf 0 = some 0) ∧
    (∀ n ∈ [0, 1, 2], (regs [(0x8100, n)] (ended [])).fld (0x8100 + 0x80 * 0) 0 2 = n) ∧
    (((working 0x70).lt 0).pick.map (·.pieces.isEmpty) = some false ∧ ((working 0x70).lt 0).slots = [slot]) := by
  dsimp only; and_intros <;> decide +kernel

/-- 09 R259: with `ROWS` 0 row 63 of a pick numbered 1 is recomputed, row 62 is not. -/
theorem test_spot : (linked.spotRow 0 1 63, linked.spotRow 0 1 62) = (true, false) := by decide +kernel

/-- The pick `p` of logical tile 0 in replay: runs over, runs under way. -/
def replaying (p : Pick) (runs : List Run) (on : List (Nat × Nat)) : Dev :=
  tiled { LTile.reset with slots := [slot], replay := some { pick := p, first := 0, on := on, runs := runs, got := [] } }

/-- A run of the empty pick that ended so, having held these outputs. -/
def ranAs (e : RunEnd) (outs : List (Nat × Held)) : Run :=
  { tile := 16, serial := 2, fin := e,
    ran := some { pick := { pick [] with held := some (0, outs) }, store := [], sets := [], segs := [], base := 0, step := 0, carry := Carry.blank } }

/-- A run that an op refused. -/
def refusedRun : Run := { tile := 16, serial := 2, fin := .refusedAt 0 0x54, ran := none }

/-- The pick of one table op, whose set is not loaded. -/
def badPick : Pick := pick [{ op := 0, desc := opFor 0x20, first := 0, count := 1 }]

/-- The run under way ends: its end, and the device and the replay with it among the runs. -/
def endOfRun (d : Dev) : Option (RunEnd × Dev × Replay) :=
  (d.lt 0).replay.bind fun r =>
    match r.on with
    | [] => none
    | (t, n) :: ts => (d.replayRun 0 0 r t n .none).map fun x =>
      let q := { r with runs := r.runs ++ [x.2], on := ts }
      (x.2.fin, x.1.setLt 0 { x.1.lt 0 with replay := some q }, q)

/-- Whether the two agreeing runs commit from run `b`; none when a run is still under way. -/
def commits (d : Dev) (b : Run) : Option Bool := (endOfRun d).map fun x => (x.2.1.replayCommit 0 0 x.2.2 slot b).isSome

/-- Every spare tile fenced: none is permitted. -/
def noSpares (d : Dev) : Dev :=
  { d with tiles := { d.tiles with phys := ((List.range 1088).filter fun t => t % 34 = 16 || t % 34 = 17).map fun t => (t, 7) } }

/-- 09 R263: two runs of one digest commit, the logical tile moves to the first run's tile. -/
theorem test_replay : let d := run (.pickReplayEnd 0 .none) (replaying (pick []) [ranAs (.passed 0) []] [(17, 3)])
    (d.lt 0).replay = none ∧ d.physOf 0 = some 16 ∧ d.reg 0x20108 = 1 := by decide +kernel

theorem witness_ReplayRuns :
    (∀ x ∈ [([], [(16, 2), (17, 3)]), ([ranAs (.passed 0) []], [(17, 3)]), ([ranAs (.passed 1) []], [(17, 3)]),
        ([ranAs (.passed 1) [], ranAs (.passed 2) []], [(18, 3)])],
      let d := replaying (pick []) x.1 x.2
      d.quiet = true ∧ (d.lt 0).replay.map (fun r => (r.on, r.runs)) = some (x.2, x.1) ∧ (d.lt 0).slots[0]? = some slot ∧ (d.lt 0).undo = none ∧
      d.servingIn (ctxPart 0) = true ∧ (d.ctx 0).st = .opened ∧ d.inDispatch slot = true ∧ d.awaitsGet 0 0 2 = false ∧ d.awaitsGet 0 0 3 = false ∧
      (endOfRun d).map Prod.fst = some (.passed 0)) ∧
    ((replaying (pick []) [] [(16, 2)]).setSh 0 { ShPart.reset with rgets := [{ get1 with serial := 2 }] }).awaitsGet 0 0 2 = true ∧
    commits (replaying (pick []) [ranAs (.passed 0) []] [(17, 3)]) (ranAs (.passed 0) []) = some true ∧
    commits (clogged (replaying (pick []) [ranAs (.passed 0) []] [(17, 3)]))
      (ranAs (.passed 0) [(0, .line 7 (16 * granuleBytes) (List.replicate 128 1))]) = some false ∧
    (endOfRun (replaying badPick [refusedRun] [(17, 3)])).map Prod.fst = some (.refusedAt 0 0x54) ∧
    agree (.passed 1) (.passed 0) = false ∧ agree (.passed 1) (.passed 2) = false ∧ agree (.passed 2) (.passed 0) = false := by
  dsimp only; and_intros <;> decide +kernel

theorem witness_ReplayHolds :
    let d := tiled { LTile.reset with slots := [slot], pick := some { pick [] with held := some (0, []) } }
    let o : Opnd := { addr := 8 * granuleBytes, loc := 0, key := 7, stride := 0 }
    d.holds 0 = true ∧ uok (d.writeAt 0 0 1 o o.addr (List.replicate 64 1)) = true ∧
      uok (d.writeAt 0 0 1 { o with addr := 0x10000, loc := 2 } 0x10000 (List.replicate 64 1)) = true := by
  dsimp only; and_intros <;> decide +kernel

theorem witness_ReplayAndReplacement :
    (tiled LTile.reset).quiet = true ∧ ((tiled LTile.reset).lt 0).replay = none ∧
    (let d := (tiled LTile.reset).setLeaving 0 2
     d.logicalOf 0 = some 0 ∧ d.leavingFor 0 ≠ 0 ∧ (d.lt 0).pick = none ∧ (d.lt 0).replay = none ∧ d.spareFor 0 = some 16 ∧
      d.takesSpare 0 16 = true) ∧
    (let d := regs [(0x8000, 0)] ((tiled LTile.reset).setLeaving 0 1)
     d.logicalOf 0 = some 0 ∧ d.spareFor 0 = some 16 ∧ d.takesSpare 0 16 = false) ∧
    (let d := noSpares ((tiled LTile.reset).setLeaving 0 2)
     d.logicalOf 0 = some 0 ∧ d.leavingFor 0 = 2 ∧ (d.lt 0).pick = none ∧ (d.lt 0).replay = none ∧ d.spareFor 0 = none ∧ (d.lt 0).slots = [] ∧
      (d.lt 0).queue = [] ∧ (d.dispatches.all fun y => y.parts.any fun p => !p.out.isOver) = true) ∧
    ((tiled LTile.reset).leavingFor 0 = 0 ∧ (tiled LTile.reset).logicalOf 0 = some 0) := by
  dsimp only; and_intros <;> decide +kernel

/-! ### Batten (06) -/

/-- An `UPDATE` of two panels: record at granule 8, norm record behind it, step 1; it waits for fence 5 at `v`. -/
def updDesc (v : Nat) : RingDesc :=
  desc [(0, 0x60), (128, 8 * granuleBytes), (169, 7), (192, 1), (320, 2), (352, 8 * granuleBytes + 512), (393, 7), (416, 0x3F800000),
    (448, 0x7F800000), (480, 1), (512, 5), (528, 5), (544, 5), (560, 6), (576, v), (640, v), (704, 9), (768, 1), (896, 1)]

/-- Slot 0 the FP16 master, slot 1 an E4M3 slot derived from it in blocks of 16. -/
def slots : List StreamSlot :=
  [{ addr := 9 * granuleBytes, key := 7, fmt := 2, role := 3, bsz := 0 }, { addr := 10 * granuleBytes, key := 7, fmt := 3, role := 4, bsz := 1 }] ++
    List.replicate 6 { addr := 0, key := 0, fmt := 0, role := 0, bsz := 0 }

/-- The record's first 32 bytes: the two slots; `END` is word 0 of the program. -/
def record : List Byte := leBytes 16 (word [(0, 9 * granuleBytes), (41, 7), (64, 2), (68, 3)]) ++ leBytes 16 (word [(0, 10 * granuleBytes), (41, 7), (64, 3), (68, 4), (72, 1)])

/-- Every Batten's log lies in granule 18, four slots of 200 lines; the norm record holds `SUMSQ` `q` of step `s`, one shard. -/
def battened (q s : Nat) (d : Dev) : Dev :=
  (((regs ((0x1C000, 1) :: (List.range 16).flatMap fun n => [(0x1C100 + 0x20 * n, 18 * 2 ^ 21 + 7 * 2 ^ 41), (0x1C108 + 0x20 * n, 4 + 200 * 2 ^ 16)])
    d).setBytes (8 * granuleBytes) record).setBytes (8 * granuleBytes + 512) (leBytes 4 q ++ leBytes 4 s ++ leBytes 4 1)).setFence 5 (live 0)

def updDev (x : RingDesc) : Dev := battened 0 1 (give x linked)

/-- R157: a sound descriptor starts and waits for its norm; one without panels is invalid. -/
theorem test_update : ((run (.update 0) (updDev (updDesc 3))).bt 0).update.map (·.gate) = some .waiting ∧
    ((run (.update 0) (updDev (desc [(0, 0x60)]))).ring 0).pend.map (·.phase) = [.done (Verdict.of 0x61)] := by decide +kernel

theorem witness_UpdateStarts :
    (let x := updDesc 3
     let d := updDev x
     d.quiet = true ∧ d.starts 0 0x60 (first x) ∧ d.p8 = false ∧ d.fld 0x1C000 0 1 = 1 ∧ (d.bt 0).update = none ∧ d.battensOf 0 ≠ [] ∧
      d.logsReady 0 = true ∧ updateBad x = false ∧ ok (d.read (engineReq 0 7) (8 * granuleBytes) 512) = true ∧
      recordBitsOk (d.bytes (8 * granuleBytes) 512) = true ∧
      ((chunksOf 16 8 ((d.bytes (8 * granuleBytes) 512).take 128)).map fun b => streamSlot (leNat b)) = slots ∧ d.slotsOk 0 x slots = true ∧
      progOk (slots.map StreamSlot.role) (leWords 4 ((d.bytes (8 * granuleBytes) 512).drop 256)) = true ∧ uMaskMode x = 0 ∧
      leNat (((d.bytes (8 * granuleBytes) 512).drop 192).take 8) ≠ uStep x + 2 ^ 32) ∧
    (let x := desc [(0, 0x60)]
     (updDev x).starts 0 0x60 (first x) ∧ updateBad x = true ∧ (linked.fld 0x1C000 0 1 = 0)) ∧
    (let x := desc [(0, 0x60), (169, 7), (320, 1), (896, 1)]
     (updDev x).starts 0 0x60 (first x) ∧ updateBad x = false ∧ why ((updDev x).read (engineReq 0 7) 0 512) = some .denied) ∧
    (let d := (updDev (updDesc 3)).setBytes (8 * granuleBytes) [0, 0, 0, 0, 0, 0, 0, 0, 0xFF]
     d.starts 0 0x60 (first (updDesc 3)) ∧ ok (d.read (engineReq 0 7) (8 * granuleBytes) 512) = true ∧
      recordBitsOk (d.bytes (8 * granuleBytes) 512) = false) ∧
    (let x := updDesc 3
     let d := (give x (regs [(0x4000, 9)] up))
     d.starts 0 0x60 (first x) ∧ d.p8 = true) := by
  unfold Dev.starts; dsimp only; and_intros <;> decide +kernel

/-- The `UPDATE` under way. -/
def update (v : Nat) (g : Gate) (ws : List Nat) : Update :=
  { ring := 0, seq := 0, ctx := 0, desc := updDesc v, slots := slots, consts := [], prog := ws, mask := [], gate := g, clip := 0, norm := 0,
    taken := [0], finished := [], stash := false, stashFrom := none, nanNoted := false }

/-- Batten 0 at work on it, with these blocks in hand, checked and logged. -/
def atWork (q s : Nat) (u : Update) (h : Option Hand) (checked logged : List BlockOut) : Dev :=
  ((battened q s linked).setUpdate 0 u).setBatten 0 { started := true, placed := false, hand := h, checked := checked, logged := logged }

/-- R160: `SUMSQ` 4 gives norm 2 and with `CLIP` 1 the factor 1/2; a NaN skips the step. -/
theorem test_gate : ((run (.normGate 0) (atWork 0x40800000 1 (update 3 .waiting []) none [] [])).bt 0).update.map
      (fun u => (u.gate, u.norm, u.clip)) = some (.passed, 0x40000000, 0x3F000000) ∧
    ((run (.normGate 0) (atWork 0x7FC00000 1 (update 3 .waiting []) none [] [])).bt 0).update.map (·.gate) = some .skipped := by decide +kernel

theorem witness_NormGate :
    (∀ q ∈ [0x40800000, 0x7FC00000, 0xBF800000], ∀ s ∈ [1, 2],
      let u := update 3 .waiting []
      let d := atWork q s u none [] []
      d.quiet = true ∧ (d.bt 0).update = some u ∧ u.gate = .waiting ∧ d.servingIn 0 = true ∧
      d.waitFence u.ctx (uNormFence u.desc) (uNormVal u.desc) = .ready ∧
      ok (d.read (engineReq 0 7) (uNormAddr u.desc) 64) = true ∧ leNat (((d.bytes (uNormAddr u.desc) 64).drop 4).take 4) = s ∧
      leNat (((d.bytes (uNormAddr u.desc) 64).drop 8).take 4) = uNormCount u.desc ∧ leNat ((d.bytes (uNormAddr u.desc) 64).take 4) = q ∧
      uStep u.desc = 1) ∧
    left ((atWork 0 1 (update 3 .waiting []) none [] []).read (engineReq 0 7) (8 * granuleBytes + 512) 64)
      (fun e => e.bt 0 = (atWork 0 1 (update 3 .waiting []) none [] []).bt 0) = true ∧
    (atWork 0 1 (update 4 .waiting []) none [] []).waitFence 0 5 4 = .notYet ∧ (linked.bt 0).update = none ∧
    ((atWork 0 1 (update 3 .passed []) none [] []).bt 0).update = some (update 3 .passed []) := by
  and_intros <;> decide +kernel

/-- A run of element 0 with 2 in f2 and 3 in f3. -/
def progRun : ProgRun :=
  { ProgRun.start 0 with f := [FV.zero, FV.zero, dec32 0x40000000, dec32 0x40400000] ++ List.replicate 12 FV.zero }

def hand : Hand := { block := 0, data := [], ran := [], run := some progRun }

/-- The instruction `op` f1, f2, f3 (Table 06-6). -/
def progWord (op : Nat) : Nat := op * 2 ^ 26 + 1 * 2 ^ 22 + 2 * 2 ^ 18 + 3 * 2 ^ 14

/-- Table 06-7: f1 = 2 + 3, f1 = 2 × 3. -/
theorem test_program :
    (((run (.progAdd 0 (progFields (progWord 0x10))) (atWork 0 1 (update 3 .passed [progWord 0x10]) (some hand) [] [])).batten 0).hand.map
      fun h => h.run.map fun r => (enc32 (r.fr 1), r.pc)) = some (some (0x40A00000, 1)) ∧
    (((run (.progMul 0 (progFields (progWord 0x12))) (atWork 0 1 (update 3 .passed [progWord 0x12]) (some hand) [] [])).batten 0).hand.map
      fun h => h.run.map fun r => (enc32 (r.fr 1), r.pc)) = some (some (0x40C00000, 1)) := by decide +kernel

theorem witness_ProgramRows :
    (progRows.map Prod.fst).all (fun op =>
      let w := progWord op
      let u := update 3 .passed [w]
      let d := atWork 0 1 u (some hand) [] []
      d.quiet && (d.battenWork 0 = some (0, u)) && ((d.batten 0).hand = some hand) && (hand.run = some progRun) &&
        (u.prog[progRun.pc]? = some w) && progOp w = op && guardHolds (progFields w) progRun) = true ∧ progRows.length = 28 ∧
    guardHolds (progFields (progWord 0x10 + 2 ^ 9)) progRun = false ∧ progOp (progWord 0x10) ≠ 0x12 := by
  and_intros <;> decide +kernel

theorem witness_ProgramEffects : progRun.f.length = 16 ∧ progRun.p.length = 4 ∧ (progRun.fr 2) ≠ .nan ∧
    ({ progRun with f := FV.nan :: progRun.f.drop 1 } : ProgRun).fr 0 = .nan := by decide +kernel

theorem witness_ProgramInOrder : hand.run = some progRun ∧ (∀ w ∈ [progWord 0x10, progWord 0x12], progOp w ≠ 0) ∧ progOp 0 = 0 := by
  decide +kernel

/-- A block checked. -/
def block (seq : Nat) : BlockOut :=
  { block := 0, seq := seq, stored := [(0, 9 * granuleBytes, 7, [1, 2])], derived := [(1, 10 * granuleBytes, 7, [3])], sat := 0, nan := 0 }

/-- R170, R171: the log gets entry 1, then the block waits for its working copy. -/
theorem test_seal : let d := run (.logSeal 0) (atWork 0 1 (update 3 .passed [0]) none [block 0] [])
    d.logSeq 0 = 1 ∧ (d.batten 0).logged.map (·.seq) = [1] ∧ leNat (d.bytes (d.logAddr 0 1) 4) = 0xBA770E01 := by decide +kernel

/-- A block whose master slot holds one element, 2 ulps. -/
def small : Hand := { block := 0, data := [[2, 0], [0]], ran := [], run := none }

/-- An error in a run's stored byte. -/
def err (run : Nat) (lane : Bool) (f : Byte) : BlockError := { run := run, lane := lane, slot := 0, byte := 0, flip := f }

/-- 09 R260, R261: the lane differs once and a re-run agrees; three runs differ. -/
theorem witness_BlocksInOrder_spot :
    (let u := update 3 .passed [0]
     let d := atWork 0 1 u (some small) [] []
     let o := (d.blockOut u small).1
     let es := [err 0 true 1]
     let fs := [err 0 false 1, err 0 true 2, err 1 false 4, err 2 false 8]
     d.quiet = true ∧ d.battenWork 0 = some (0, u) ∧ (d.batten 0).hand = some small ∧ d.fld 0x8060 63 1 = 0 ∧
      (o.hit es 0 false).same o = true ∧ u.spotAgrees 0 o (o.hit es 0 true) = false ∧ (o.hit es 1 false).same o = true ∧
      u.settledOut 0 o fs false = none ∧ d.fenced .batten 0 = false) ∧
    (let u := { update 3 .passed [0] with taken := [0, 1] }
     let d := atWork 0 1 u none [] []
     d.battenWork 0 = some (0, u) ∧ (d.batten 0).hand = none ∧ u.blocks ≤ d.nextBlock 0 0 u u.taken) := by
  dsimp only; and_intros <;> decide +kernel

theorem witness_BlocksInOrder :
    (let u := update 3 .passed [0]
     let d := atWork 0 1 u (some hand) [block 0] [block 1]
     d.quiet = true ∧ d.battenWork 0 = some (0, u) ∧ (d.batten 0).checked = [block 0] ∧
      u.gate ≠ .skipped ∧ d.logSeq 0 < d.logApplied 0 + d.logSlots 0 ∧ d.logSeq 0 + 1 < 2 ^ 64 ∧
      d.logApplied 0 + d.logSlots 0 ≤ (regs [(0x1C110, 4)] d).logSeq 0 ∧
      (let w (o : BlockOut) := d.writeAll 0 [(0, d.logAddr 0 1 + 128, d.logKey 0, payloadOf o), (0, d.logAddr 0 1, d.logKey 0, headerLine u o 1)]
       let far := { block 0 with stored := [(0, 9 * granuleBytes, 8, [1, 2])] }
       left (w (block 0)) (fun e => ok ((e.setReg (logReg 0 + 0x10) 1).writeAll 0 (block 0).stored)) = true ∧
       left (w far) (fun e => why ((e.setReg (logReg 0 + 0x10) 1).writeAll 0 far.stored) = some .denied) = true) ∧
      (d.batten 0).logged = [block 1] ∧ u.stash = false) ∧
    linked.battenWork 0 = none ∧
    (atWork 0 1 (update 3 .skipped [0]) none [block 0] []).battenWork 0 = some (0, update 3 .skipped [0]) ∧
    (atWork 0 1 (update 4 .passed [0]) none [] [block 1]).waitFence 0 (uStashFence (updDesc 4)) (uStashVal (updDesc 4)) = .notYet ∧
    (let u := { update 3 .passed [0] with stash := true }
     let d := atWork 0 1 u none [] [block 1]
     d.battenWork 0 = some (0, u) ∧ (d.batten 0).logged = [block 1] ∧
      left (d.writeAll 0 (block 1).derived) (fun e => left (e.blockDone 0 0 u (block 1)) fun f =>
        (f.bt 0).update = some { u with finished := [0] }) = true ∧ [0].length < u.blocks) ∧
    (let u := { update 3 .passed [0] with stash := true, finished := [1] }
     let d := atWork 0 1 u none [] [block 1]
     d.battenWork 0 = some (0, u) ∧ (d.batten 0).logged = [block 1] ∧ u.blocks ≤ (insNat 0 u.finished).length ∧
      left (d.writeAll 0 (block 1).derived) (fun e => left (e.blockDone 0 0 u (block 1)) fun f =>
        (f.bt 0).update = some { u with finished := [0, 1] } && ok (f.write (engineReq 0 7) (8 * granuleBytes + 192) (leBytes 8 (1 + 2 ^ 32)))) =
          true) ∧
    ((block 1).seq ≠ 0 ∧ linked.logSet 0 = false) := by
  dsimp only; and_intros <;> decide +kernel

/-- Recovery waits for the stash fence. -/
def waits : Dev := (atWork 0 1 (update 4 .passed [0]) none [] []).setBatten 0 { Batten.reset with placed := true }

/-- R174: nothing is written before the fence. -/
theorem test_stash : run (.battenLogRecovery 0 0 true) waits = waits := by decide +kernel

theorem witness_LogRecovered :
    (waits.quiet = true ∧ waits.serving = true ∧ waits.power.recover.contains 0 = false ∧ waits.memReady 0 = true ∧
      (waits.batten 0).started = false ∧ waits.logSet 0 = true ∧ waits.fenced .batten 0 = false ∧ waits.ctxOpen 0 = true ∧
      (waits.batten 0).placed = true ∧ waits.stashWait 0 = .notYet) ∧
    (let d := battened 0 1 linked
     d.quiet = true ∧ d.serving = true ∧ d.power.recover.contains 0 = false ∧ d.memReady 0 = true ∧ (d.batten 0).started = false ∧
      d.logSet 0 = true ∧ d.fenced .batten 0 = false ∧ d.ctxOpen 0 = true ∧
      ok (d.read (engineReq 0 (d.logKey 0)) (d.logBase 0) 128) = true ∧ leNat (d.bytes (d.logBase 0) 4) ≠ 0xBA770C01) ∧
    ((atWork 0 1 (update 3 .waiting []) none [] []).batten 0).started = true := by
  dsimp only; and_intros <;> decide +kernel

/-- A log with a control line, its first entry sealed: `BT_LOG_SEQ` is lost. -/
def withLog : Dev :=
  let d := (run (.logSeal 0) (atWork 0 1 (update 3 .passed [0]) none [block 0] [])).setBytes (18 * granuleBytes) (leBytes 4 0xBA770C01)
  (regs [(0x1C110, 0)] d).setBatten 0 { Batten.reset with started := false }

/-- R172: the sealed entry is found, its payload applied, and the registers follow. -/
theorem test_recovery : let d := run (.battenLogRecovery 0 0 true) withLog
    d.logSeq 0 = 1 ∧ d.logApplied 0 = 1 ∧ d.reg 0x1C440 = 1 ∧ (d.batten 0).started = true := by decide +kernel

theorem witness_LogRecovered_entries :
    (let d := withLog
     d.quiet = true ∧ d.serving = true ∧ d.power.recover.contains 0 = false ∧ d.memReady 0 = true ∧ (d.batten 0).started = false ∧
      d.logSet 0 = true ∧ d.fenced .batten 0 = false ∧ d.ctxOpen 0 = true ∧ (d.batten 0).placed = false ∧
      leNat (d.bytes (d.logBase 0) 4) = 0xBA770C01 ∧
      left (d.read (engineReq 0 (d.logKey 0)) (d.logBase 0) 128) (fun e => e.stashWait 0 = .ready &&
        (let g := e.takeControl 0 0
         ok (g.applyEntries 0 0 true (g.logSlots 0) 1 (g.bt 0).update))) = true) ∧
    left (withLog.readLines (engineReq 0 (withLog.logKey 0)) (linesOf (withLog.logAddr 0 2) 128)) (fun e => e.sealedAt 0 2 = none) = true ∧
    left (withLog.readLines (engineReq 0 (withLog.logKey 0)) (linesOf (withLog.logAddr 0 1) 128)) (fun e =>
      match e.sealedAt 0 1 with
      | none => false
      | some h => ok (e.applyEntry 0 0 1 (e.bt 0).update h true)) = true := by
  dsimp only; and_intros <;> decide +kernel

/-! ### Pleach (08) -/

/-- A source-list entry: two units of granule 9, under key 7, `FMT` 1. -/
def source (fmt : Nat) : List Byte := leBytes 32 (word [(0, 9 * granuleBytes), (41, 7), (64, 2), (96, 11), (192, fmt), (208, 2)])

/-- Pleach on; a group of 2 by 4; holdings from granule 16, sections of 4 positions; one source entry in granule 8; 10 ms. -/
def pleached (fmt : Nat) (d : Dev) : Dev :=
  (regs [(0x2C000, 1), (0x1460C, 3 + 1 * 2 ^ 5 + 3 * 2 ^ 11), (0x2C108, 16 * 2 ^ 21 + 7 * 2 ^ 41), (0x2C110, 4),
    (0x2C118, 8 * granuleBytes + 7 * 2 ^ 41), (0x2C120, 1), (0x2C128, 10 * 2 ^ 16), (0x2C130, 5 + 6 * 2 ^ 16)] d).setBytes (8 * granuleBytes) (source fmt)

def ranges : List SrcRange :=
  [{ addr := 9 * granuleBytes, key := 7, units := 2, tensor := 11, elemBase := 0, fmt := 1, cols := 2 }]

def armed : PlPart := { PlPart.reset with armed := true, srcs := ranges, msStep := 10 }

/-- A cut of step 3 into slot 0 under way. -/
def copying : PlPart := { armed with gen0 := { Gen.reset with step := 3, valid := true }, cur := some 0, cutAt := 40 }

def pled (x : PlPart) : Dev := (pleached 1 linked).setPl 0 x

/-- R253, R222: a sound list arms; `FMT` 3 does not. -/
theorem test_arm : ((run (.arm 0) (pleached 1 linked)).pl 0).srcs = ranges ∧ ((run (.arm 0) (pleached 3 linked)).pl 0).armed = false ∧
    (run (.pleachDue 0) (pled armed)).fld 0x2C140 3 1 = 1 := by decide +kernel

theorem witness_PleachArms :
    (∀ f ∈ [1, 3], (pleached f linked).quiet = true ∧ ((pleached f linked).pl 0).armed = false ∧
      (pleached f linked).fld 0x2C000 0 1 = 1 ∧ (pleached f linked).groupOk 0 = true ∧ (pleached f linked).sliceValid 0 = true ∧
      ok ((pleached f linked).read (engineReq 0 7) (8 * granuleBytes) 32) = true) ∧
    (pleached 1 linked).takesWrite (plReg 0) ∧ (pleached 3 linked).takesWrite (plReg 0) ∧ (pled armed).takesWrite (plReg 0) ∧
    srcRanges 0 (chunksOf 32 1 (source 3)) = .inr 0 ∧ srcRanges 0 (chunksOf 32 1 (source 1)) = .inl ranges ∧
    (ranges.map SrcRange.units).foldl (· + ·) 0 ≤ 7 * (pleached 1 linked).section_ 0 ∧
    ok ((regs [(0x2C118, 8 * granuleBytes)] (pleached 1 linked)).read (engineReq 0 0) (8 * granuleBytes) 32) = false ∧
    ((pled armed).quiet = true ∧ (pled armed).on = true ∧ ((pled armed).pl 0).armed = true ∧ (pled armed).fld 0x2C128 16 16 = 10 ∧
      10 ≤ ((pled armed).pl 0).msStep ∧ (pled armed).fld 0x2C140 3 1 = 0) := by
  unfold Dev.takesWrite; and_intros <;> decide +kernel

/-- R232: row 0 is the image's only one, so the copy of it sends READY. -/
theorem test_row : let d := run (.stripeRowCopy 0) (pled copying)
    (d.pl 0).taken = [0] ∧ ((d.pl 0).gen 0).sent = true ∧ d.fld 0x2C180 0 32 = 7 := by decide +kernel

/-- The copy of row 0, as far as the parity's write. -/
def rowOk (d : Dev) : Bool :=
  match d.readUnits 0 (rangeFrom 0 7) with
  | .fail _ _ => false
  | .ok e us =>
    let f := (e.sendStripes 0 0 0 0 us).bump (plReg 0 + 0x80) 7
    f.grantAll (engineReq 0 (f.holdKey 0)) true (linesOf (f.holdAddr 0 0 7 0) 4096) = none &&
      ok (f.writeLines (engineReq 0 (f.holdKey 0)) 33 (f.holdAddr 0 0 7 0) (parity us))

theorem rowOk_cases {d : Dev} (h : rowOk d = true) : ∃ e us g w, d.readUnits 0 (rangeFrom 0 7) = .ok e us ∧
    (let f := (e.sendStripes 0 0 0 0 us).bump (plReg 0 + 0x80) 7
     f.grantAll (engineReq 0 (f.holdKey 0)) true (linesOf (f.holdAddr 0 0 7 0) 4096) = none ∧
      f.writeLines (engineReq 0 (f.holdKey 0)) 33 (f.holdAddr 0 0 7 0) (parity us) = .ok g w) := by
  unfold rowOk at h
  split at h
  · cases h
  · rename_i e us he
    simp only [Bool.and_eq_true, decide_eq_true_eq] at h
    obtain ⟨g, w, hw⟩ := ok_of h.2
    exact ⟨e, us, g, w, he, h.1, hw⟩

theorem witness_RowsTaken :
    ((pled copying).quiet = true ∧ (pled copying).servingIn 0 = true ∧ ((pled copying).pl 0).cur = some 0 ∧ copying.rows = 1 ∧
      rowOk (pled copying) = true ∧ (9 * granuleBytes) / (pled copying).window = 0 ∧
      unitOfAddr ((pled copying).pl 0).srcs (9 * granuleBytes + 4096) 0 = some 1 ∧ 1 / 7 ∉ copying.taken ∧
      1 / 7 ∈ ({ copying with taken := [0] } : PlPart).taken ∧ armed.cur = none) ∧
    ok (((pled copying).setRegion 1 Region.reset).readUnits 0 (rangeFrom 0 7)) = false ∧ ([0, 1, 3] : List Nat).Pairwise (· < ·) ∧
    firstUntaken 0 [0, 1, 3] = 2 := by
  and_intros <;> decide +kernel

/-- R223, R239 on units of two bytes: the parity and the two others give the third. -/
theorem test_parity : xorBytes (xorBytes (xorBytes (xorBytes [1, 2] [8, 8]) [5, 7]) [1, 2]) [5, 7] = ([8, 8] : List Byte) := by decide +kernel

theorem witness_ParityRebuilds : (∀ x ∈ [List.replicate 4096 (1 : Byte), List.replicate 4096 2], x.length = 4096) ∧
    [List.replicate 4096 (1 : Byte), List.replicate 4096 2][1]? = some (List.replicate 4096 2) := by
  refine ⟨fun x hx => ?_, rfl⟩
  simp only [List.mem_cons, List.not_mem_nil, or_false] at hx
  rcases hx with rfl | rfl <;> exact List.length_replicate

/-- `copying` with READY of six members and COMMIT of seven, its own READY sent. -/
def waiting : PlPart :=
  { copying with gen0 := { copying.gen0 with sent := true, ready := [1, 2, 3, 4, 5, 6], commit := [0, 1, 2, 3, 4, 5, 6] } }

/-- Slot 0 counted at step 3 and kept (keep fence 6 holds 3); every second step cuts. -/
def cutting (x : PlPart) : Dev := ((regs [(0x2C128, 2)] (pled x)).setFence 6 { live 0 with value := 3 })

def counted : PlPart := { armed with gen0 := { Gen.reset with step := 3, valid := true, counted := true } }

/-- R230, R231: the cut of step 4 goes to the slot that is not kept, and writes its record, with a copy, and clears the bitmap. -/
theorem test_cut : let d := (cutting counted).evaluateCut 0 4
    (d.pl 0).gen1 = { Gen.reset with step := 4, valid := true, cuts := 1 } ∧ (d.pl 0).gen0 = counted.gen0 ∧ d.fld 0x2C160 0 32 = 1 ∧
    (d.lineMeta (d.region 1) (16 * 16384 + 1)).ctr = 1 ∧ (d.lineMeta (d.region 1) (16 * 16384 + 3)).ctr = 1 ∧
    (d.lineMeta (d.region 1) (17 * 16384)).ctr = 1 ∧
    ((cutting copying).evaluateCut 0 4).fld 0x2C168 0 32 = 1 := by decide +kernel

/-- R235: the eighth COMMIT counts the generation; R236: a record of another step is ignored and recorded. -/
theorem test_records : let d := run (.commitRecord 0 0 3 7) (pled waiting)
    ((d.pl 0).gen 0).counted = true ∧ (d.pl 0).cur = none ∧
    (((run (.readyRecord 0 0 4 7) (pled waiting)).pl 0).gen 0).ready = [1, 2, 3, 4, 5, 6] ∧
    (((run (.readyRecord 0 0 3 7) (pled waiting)).pl 0).gen 0).ready.length = 7 := by decide +kernel

theorem witness_GenerationCounts :
    (let d := pled waiting
     let g := (d.pl 0).gen 0
     d.quiet = true ∧ 7 ≠ d.member 0 ∧ d.servingIn 0 = true ∧ (d.pl 0).armed = true ∧ g.valid = true ∧ g.step = 3 ∧ g.step ≠ 4 ∧
      (insNat 6 g.ready).length < 7 ∧ g.commit.length < 8 ∧ (insNat 6 g.commit).length < 8 ∧ (insNat 7 g.commit).length = 8 ∧
      (d.pl 0).cur = some 0 ∧ g.counted = false ∧ (insNat 7 g.ready).length = 7 ∧ g.sent = true) ∧
    (let g := { waiting.gen0 with commit := [1, 2, 3, 4, 5, 6] }
     (pled waiting).member 0 ∉ g.commit ∧ (insNat ((pled waiting).member 0) g.commit).length < 8) ∧
    ((cutting counted).quiet = true ∧ ((cutting counted).pl 0).armed = true ∧ 4 % (cutting counted).fld (plReg 0 + 0x28) 0 16 = 0 ∧
      5 % (cutting counted).fld (plReg 0 + 0x28) 0 16 ≠ 0 ∧ ((cutting counted).fence ((cutting counted).cutFence 0)).value ≠ 5 ∧
      counted.owed = false ∧ counted.cur = none ∧ counted.op = none ∧ 0 < counted.rows ∧ copying.cur ≠ none ∧
      (cutting counted).keptSlot 0 = some 0 ∧ (cutting counted).cutSlot 0 = 1) ∧ ((pleached 1 linked).pl 0).armed = false := by
  and_intros <;> decide +kernel

/-- A `PLEACH` descriptor of operation `op` for step 3 with one host buffer entry at 0x600000; the source list in granule 8. -/
def plDesc (op ref : Nat) : RingDesc :=
  desc ([(0, 0x70), (128, op), (160, 3), (192, 0x600000), (256, 1), (288, 5), (320, 1), (448, 9)] ++
    (if ref = 0 then [] else [(384, 8 * granuleBytes), (425, 7), (480, ref)]))

/-- A counted generation of step 3 in slot 0, the host buffer of `n` bytes, the context stopped when `stop`. -/
def plDev (op ref n : Nat) (stop : Bool) : Dev :=
  let d := ((pleached 1 (give (plDesc op ref) linked)).setPl 0 { armed with gen0 := { Gen.reset with step := 3, valid := true, counted := true } }).setFence 5 (live 0)
  let d := (regs [(0x4130, 0x4001)] d).setCtx 0 { Ctx.reset with st := if stop then .stopped else .opened }
  d.hostWrite 0x600000 (leBytes 8 0x700000 ++ leBytes 4 n ++ leBytes 4 0)

/-- R245, R247: a record as a drain writes it opens in a reload. -/
theorem test_record (k : DrainKeys) (h : k.sized) :
    (openRecord k (drainRecord k (drainHeader 3 8 1 2 5) (List.replicate 4096 7) false)).map (fun x => (x.src, x.unit, x.isMap)) =
      some (8, 1, false) := by
  have hb : bit (leNat (((drainHeader 3 8 1 2 5).drop 12).take 4)) 31 = false := by decide +kernel
  have := openRecord_drainRecord h (hd := drainHeader 3 8 1 2 5) (body := List.replicate 4096 7) (by decide +kernel) (List.length_replicate ..)
  rw [hb] at this
  rw [this]
  decide +kernel

/-- Table 08-10: full buffers end a drain 0x86, a context not stopped a restore 0x82. -/
theorem test_pleach : ((run (.drain 0) (plDev 1 0 64 false)).ring 0).pend.map (·.phase) = [.done (Verdict.of 0x86)] ∧
    ((run (.restore 0 [] 0 false) (plDev 0 0 64 false)).ring 0).pend.map (·.phase) = [.done (Verdict.of 0x82)] := by decide +kernel

def exporting (n : Nat) : Dev :=
  (regs [(btReg 0 + 0x30, 3 + 2 ^ 32)] (plDev 3 1 n false)).setKey 9
    { KeySlot.reset 9 with typ := 5, valid := true, job := 3, uses := 1, uses0 := 1, link := 9, step := 3 }

/-- A restore under way on ring 0. -/
def restoring (left : List Nat) (stop : Bool) : Dev :=
  let d := plDev 0 0 64 stop
  d.setPl 0 { d.pl 0 with op := some { ring := 0, seq := 0, slot := 0, step := 3, left := left, fence := 5, fval := 1, lost := none, rebuild := false } }

/-- The host budget of the window used up but for 64 bytes. -/
def spent (write : Bool) (d : Dev) : Dev := d.use (hostKey write 0) (d.hostOwn 0 - 64)

/-- The host list read. -/
def withList (d : Dev) : Dev := d.hostCount false 0 16

theorem witness_PleachDescriptors :
    (∀ op ∈ [0, 1, 2, 3],
      let d := plDev op (if op = 3 then 1 else 0) 64 false
      let x := plDesc op (if op = 3 then 1 else 0)
      d.quiet = true ∧ ringPart 0 = 0 ∧ (d.starts 0 0x70 (first x)) ∧ (d.pl 0).op = none ∧ d.p8 = false ∧ pOp x = op ∧ pleachBad x = false ∧
        (d.pl 0).armed = true ∧ d.hostPath 0 16 = true ∧ pHostCount x = 1 ∧ (d.pl 0).countedSlot (pStep x) = some 0 ∧
        (d.ctx 0).st ≠ .stopped ∧ d.hostList x = some [(0x700000, 64)] ∧
        ((d.hostWrite 0x600000 (leBytes 16 (2 ^ 100))).hostList x = none)) ∧
    ((plDev 0 0 64 true).ctx 0).st = .stopped ∧ pLost (plDesc 0 0) = none ∧ pRebuild (plDesc 0 0) = false ∧ pRef (plDesc 2 0) = 0 ∧
    (let d := restoring [] true
     (d.pl 0).op.isSome = true ∧ d.servingIn 0 = true ∧ d.ctxOpen 0 = true ∧ (d.ctx 0).st = .stopped) ∧
    (let d := restoring [0] false
     d.servingIn 0 = true ∧ d.ctxOpen 0 = true ∧ (d.ctx 0).st ≠ .stopped) := by
  refine ⟨?_, ?_⟩
  · intro op hop
    simp only [List.mem_cons, List.not_mem_nil, or_false] at hop
    rcases hop with rfl | rfl | rfl | rfl <;> (unfold Dev.starts; dsimp only; and_intros <;> decide +kernel)
  · and_intros <;> decide +kernel

/-- What a drain into `n` bytes comes to: its status, its bytes, and whether the window has room for them. -/
def drained (d : Dev) (n : Nat) : Nat × Nat × Bool :=
  let o := (withList d).drainOut 0 0 3 [(0x700000, n)]
  (o.status, o.off, o.dev.hostMay true 0 o.off)

/-- A drain with full buffers, one of the source list alone, and one that has to wait for the next window. -/
theorem witness_PleachDescriptors_drain :
    (drained (plDev 1 0 64 false) 64).1 = 0x86 ∧ (drained (plDev 1 0 64 false) 64).2.2 = true ∧
    drained (regs [(0x2C110, 0)] (plDev 1 0 (2 ^ 20) false)) (2 ^ 20) = (0, 4160, true) ∧
    drained (spent true (regs [(0x2C110, 0)] (plDev 1 0 (2 ^ 20) false))) (2 ^ 20) = (0, 4160, false) ∧
    (spent true (regs [(0x2C110, 0)] (plDev 1 0 (2 ^ 20) false))).hostPath 0 16 = true := by
  and_intros <;> decide +kernel

/-- The device of a reload once the bytes of its records are paid for. -/
def paid (d : Dev) (bufs : List (Nat × Nat)) : Dev :=
  (withList d).use (hostKey false 0) ((withList d).hostTurn 0 ((withList d).reloadCost bufs))

/-- What the records of a reload give: the status, and whether every unit is there. -/
def reloaded (d : Dev) (bufs : List (Nat × Nat)) : Nat × Bool :=
  let x := (paid d bufs).takeRecords 0 none ((paid d bufs).drainKeys 0) ((paid d bufs).hostRecords bufs) []
  (x.2.1, (x.1.reloadNeeds 0 none).all x.2.2.contains)

theorem witness_PleachDescriptors_reload :
    (let d := plDev 2 0 64 false
     let e := d.setPl 0 { d.pl 0 with srcs := [] }
     reloaded d [(0x700000, 64)] = (0, false) ∧ reloaded e [(0x700000, 64)] = (0, true) ∧ (e.pl 0).armed = true ∧
      (withList e).hostMay false 0 ((withList e).reloadCost [(0x700000, 64)]) = true) ∧
    (let d := (plDev 2 0 4160 false).hostWrite 0x700000 (leBytes 4 0x9EAC4D01)
     reloaded d [(0x700000, 4160)] = (0x87, false) ∧
      (spent false d).hostPath 0 16 = true ∧
      (withList (spent false d)).hostMay false 0 ((withList (spent false d)).reloadCost [(0x700000, 4160)]) = false) := by
  dsimp only; and_intros <;> decide +kernel

theorem witness_PleachDescriptors_export :
    (plDev 3 1 64 false).exportSlot 0 (plDesc 3 1) = none ∧
    (∀ n ∈ [0, 2 ^ 20],
      let d := exporting n
      let bufs := [(0x700000, n)]
      d.exportSlot 0 (plDesc 3 1) = some 9 ∧ d.committedIs 0 3 = true ∧ d.hostList (plDesc 3 1) = some bufs ∧
      srcRanges 0 (chunksOf 32 1 ((withList d).bytes (8 * granuleBytes) 32)) = .inl ranges ∧
      left ((withList d).read (engineReq 0 7) (8 * granuleBytes) (32 * 1)) (fun e =>
        let o := Out.tensors { dev := e, bufs := bufs, off := 0, status := 0 } 0 (e.key 9).secret (plDesc 3 1) 0 ranges
        (o.status = 0) == (n ≠ 0) && o.dev.hostMay true 0 o.off) = true) ∧
    (let d := spent true (exporting (2 ^ 20))
     left ((withList d).read (engineReq 0 7) (8 * granuleBytes) (32 * 1)) (fun e =>
        let o := Out.tensors { dev := e, bufs := [(0x700000, 2 ^ 20)], off := 0, status := 0 } 0 (e.key 9).secret (plDesc 3 1) 0 ranges
        !o.dev.hostMay true 0 o.off) = true) := by
  dsimp only; and_intros <;> decide +kernel

/-- 08 R239: unit 0 comes back from the member after this one. -/
def unitBack (d : Dev) : Msg :=
  { msg with ch := 15, eng := true, key := 7, addr := d.holdAddr 0 0 0 0, src := d.memberSrc 0 ((d.member 0 + 1) % 8), len := 64,
             payload := List.replicate 4096 5 }

theorem witness_MessageEffects_unit :
    let d := restoring [0] true
    let m := unitBack d
    d.quiet = true ∧ lands d 0 1 m = true ∧ (arr d 0 m).restoreUnit 0 m = some 0 ∧
      left ((arr d 0 m).putUnit 0 0 m.payload) (fun e => e.byte (9 * granuleBytes) = 5) = true := by
  dsimp only; and_intros <;> decide +kernel

/-! ### Contexts, rings, staging (10, 11) -/

/-- Context 0 about to open: seed written, job 1, journal in granule 9, write-aside 1 MiB in granule 10, under key 7. -/
def opening : Dev :=
  ((regs [(0x4110, 1), (0x4120, 9 * 2 ^ 21 + 7 * 2 ^ 41), (0x4128, 10 * 2 ^ 21 + 7 * 2 ^ 41 + 2 ^ 53)] linked).setCtx 0
    { Ctx.reset with seedSet := true }).setByte (9 * granuleBytes) 1

/-- The image of a P8 context of one tile: save area at granule 10, journal in granule 9, write-aside 1 MiB in granule 12. -/
def p8Image : List Byte :=
  List.replicate 128 0 ++ leBytes 8 77 ++ leBytes 8 1 ++ leBytes 8 (10 * granuleBytes + 7 * 2 ^ 41) ++ leBytes 8 (9 * 2 ^ 21 + 7 * 2 ^ 41) ++
    leBytes 8 (12 * 2 ^ 21 + 7 * 2 ^ 41 + 2 ^ 53) ++ List.replicate 344 0

/-- In the P8 model, the image at host address 0x8000. -/
def p8Dev : Dev := (regs [(0x4000, 9), (0x4010, 7 * 2 ^ 41), (0x4110, 1)] linked).hostWrite 0x8000 p8Image

/-- `n` resident P8 contexts, the first `parts` each with a part on tile 0. -/
def crowded (n parts : Nat) : Dev :=
  let d := (List.range n).foldl (fun d i => d.setCtx (5 + i) { Ctx.reset with st := .opened, resident := true }) (p8Dev.setCtx 4 { Ctx.reset with st := .opened })
  d.setLt 0 { d.lt 0 with queue := (List.range parts).map fun i => { slot with ctx := 5 + i } }

/-- Causes of the entries kept. -/
def causes (d : Dev) : List Nat := d.log.entries.filterMap fun e => e.2.map LogEntry.cause

/-- R309: open, with the journal zeroed; without a seed refused with 0x0003. R310: an image opens context 4. -/
theorem test_open : ((run (.ctxOpen 0) opening).ctx 0).st = .opened ∧ (run (.ctxOpen 0) opening).byte (9 * granuleBytes) = 0 ∧
    causes (run (.ctxOpen 0) (opening.setCtx 0 Ctx.reset)) = [0x0003] ∧
    ((run (.p8Open 0 0x8000) p8Dev).ctx 4).seed = 77 := by decide +kernel

theorem witness_ContextOpens :
    (opening.quiet = true ∧ opening.canOpen .production 0 = true ∧ (opening.setCtx 0 Ctx.reset).canOpen .production 0 = false ∧
      opening.p8 = false) ∧ opening.takesWrite (ctxReg 0) ∧ opening.takesWrite p8Cmd ∧
    (p8Dev.quiet = true ∧ p8Dev.p8 = true ∧ p8Dev.servingIn 0 = true ∧ LifeCycle.opens .production = true ∧ (p8Dev.ctx 4).st = .closed ∧
      p8Dev.fld 0x4010 41 12 ≠ 0 ∧ p8Dev.fld 0x4110 0 12 ≠ 0 ∧ p8Dev.hostBytes 0x8000 512 = p8Image ∧ p8ImageOk p8Image = true ∧
      p8Dev.p8AreasOk 4 p8Image = true) ∧ p8Dev.takesWrite p8Cmd ∧
    (p8Dev.hostMay false 0 512 = true ∧ (p8Dev.use (hostKey false 0) (p8Dev.hostOwn 0)).hostMay false 0 512 = false) ∧
    ((crowded 2 0).p8 = true ∧ (crowded 2 0).ctxOpen 4 = true ∧ ((crowded 2 0).ctx 4).resident = false ∧
      ((crowded 2 0).setCtx 4 { (crowded 2 0).ctx 4 with asked := some 0 }).residents.length = 2 ∧ p8Dev.ctxOpen 4 = false) ∧
    (∀ n ∈ [0, 1],
      let d := crowded 48 n
      let e := d.setCtx 4 { d.ctx 4 with asked := some 0 }
      d.p8 = true ∧ d.ctxOpen 4 = true ∧ (d.ctx 4).resident = false ∧ e.residents.length = 48 ∧ e.p8Victim = some 5 ∧
        e.holdsPart 5 = decide (n = 1)) ∧
    (crowded 48 1).takesWrite p8Cmd ∧ (crowded 48 0).takesWrite p8Cmd ∧ (crowded 2 0).takesWrite p8Cmd := by
  unfold Dev.takesWrite; and_intros <;> decide +kernel

def ctxAt (k : Nat) (st : CtxState) (phase : Nat) (d : Dev) : Dev := d.setCtx k { Ctx.reset with st := st, phase := phase, seedSet := true }

/-- R316, R318: stop, then resume; a second stop is refused. R317: a larger sending epoch starts the counter anew. -/
theorem test_stop : ((run (.stop 0) linked).ctx 0).st = .stopped ∧ ((run (.resume 0) (ctxAt 0 .stopped 0 linked)).ctx 0).st = .opened ∧
    causes (run (.stop 0) (ctxAt 0 .stopped 0 linked)) = [0x0003] ∧
    ((run (.sendingEpochWrite 0 9) linked).sh 0).epoch = 9 ∧ ((run (.teardown 0) linked).ctx 0).phase = 1 := by decide +kernel

theorem witness_ContextCommands :
    (∀ st ∈ [CtxState.opened, .stopped, .closed], ∀ k ∈ [0, 5],
      ((ctxAt k st 0 (if k = 0 then linked else p8Dev)).ctx k).st = st ∧ (ctxAt k st 0 linked).tiles.logical = [] ∧
      ((ctxAt k st 0 linked).bt k).update = none ∧ (ctxAt k st 0 linked).quiet = true) ∧
    (ctxAt 0 .opened 0 linked).takesWrite (ctxReg 0) ∧ (ctxAt 5 .opened 0 p8Dev).takesWrite p8Cmd ∧
    (0, ctxReg 0, Instr.stop 0, Instr.resume 0, Instr.teardown 0, 4, 8, 2) ∈
      (List.range 4).map (fun p => (p, ctxReg p, Instr.stop p, Instr.resume p, Instr.teardown p, 4, 8, 2)) ∧
    linked.takesWrite (ctxReg 0 + 0x18) ∧ linked.ctxOpen 0 = true ∧ (linked.sh 0).epoch < (9 : BitVec 32).toNat ∧
    (0 : BitVec 32).toNat ≤ (linked.sh 0).epoch ∧ (linked.setCtx 0 Ctx.reset).ctxOpen 0 = false := by
  unfold Dev.takesWrite; and_intros <;> decide +kernel

/-- Table 10-10: the owned fence breaks; then the context closes. -/
theorem test_teardown : ((run (.teardownBreakFences 0) ((ctxAt 0 .tearing 1 linked).setFence 5 (live 0))).fence 5).st = .broken ∧
    ((run (.teardownClose 0) (ctxAt 0 .tearing 2 linked)).ctx 0).st = .closed ∧
    ((run (.teardownClose 0) (ctxAt 0 .tearing 2 linked)).region 1).st ≠ .live := by decide +kernel

theorem witness_TeardownSteps :
    (let d := ctxAt 0 .tearing 1 linked
     d.quiet = true ∧ (d.ctx 0).st = .tearing ∧ (d.ctx 0).phase = 1 ∧ d.replaying 0 = false ∧ d.serving = true ∧ d.recovered (ctxPart 0) = true) ∧
    (let d := ctxAt 0 .tearing 2 linked
     (d.ctx 0).phase = 2 ∧ d.servingIn (ctxPart 0) = true ∧ d.ringsDone 0 = true) ∧ (linked.ctx 0).st ≠ .tearing ∧
    (ctxAt 0 .tearing 2 (give 0 linked)).ringsDone 0 = false ∧ (ctxAt 0 .tearing 1 linked).undoing 0 = [] := by
  dsimp only; and_intros <;> decide +kernel

/-- The restore that waits is still owed after the attempt. -/
theorem witness_TeardownSteps_undo : undoing.quiet = true ∧ (undoing.ctx 0).st = .tearing ∧ (undoing.ctx 0).phase = 1 ∧
    undoing.replaying 0 = false ∧ undoing.serving = true ∧ undoing.recovered (ctxPart 0) = true ∧
    ((undoing.undoing 0).foldl Dev.undoAside undoing).undoing 0 ≠ [] := by
  refine ⟨by decide +kernel, by decide +kernel, by decide +kernel, by decide +kernel, by decide +kernel, by decide +kernel, ?_⟩
  obtain ⟨-, hu, e, r, h, hr⟩ := witness_PickStarts_undo
  have h0 : undoing.undoing 0 = [0] := by decide +kernel
  have hs : undoing.undoAside 0 = e.setLt 0 { e.lt 0 with undo := some { owing with lines := r } } := by
    rw [Dev.undoAside, hu]
    dsimp only
    rw [h]
    cases r with
    | nil => exact absurd rfl hr
    | cons => rfl
  rw [h0, List.foldl_cons, List.foldl_nil, hs]
  exact List.ne_nil_of_mem (Dev.mem_undoing _ (u := { owing with lines := r }) (by rw [Dev.lt_setLt, if_pos rfl]))

def ringAt (st : RingState) (x : List Accepted) : Dev :=
  (regs [(0x4810, 0x300000), (0x4818, b2n (decide (st ≠ .disabled)))] linked).setRing 0 { Ring.reset with st := st, pend := x }

/-- Channel 0 copies one line at granule 24, an unprotected region, to the host, with a fence signal. -/
def staged (st : Nat) : Dev :=
  ((regs [(0x4130, 1), (0x41C0, 0x900000), (0x41C8, 24 * granuleBytes), (0x41D0, 1 + 2 ^ 24)] linked).setRegion 3
    { Region.reset with st := .live, base := 24, granules := 1, key := 0 }).setStaging 0 { st := st, status := 0, copied := 0 }

/-- R291: enabling a ring writes its status line. 11 R346: the line is copied and the count rises. -/
theorem test_ring_staging : ((run (.ringEnable 0) (ringAt .disabled [])).ring 0).st = .active ∧
    (run (.stagingDone 0 0 none) ((staged 1).setByte (24 * granuleBytes) 9)).hostBytes 0x900000 1 = [9] ∧
    (run (.stagingDone 0 0 none) (staged 1)).reg 0x41D8 = 1 := by decide +kernel

/-- The end of a copy's turn: lines come to, and whether a bad line stopped it. -/
def turn (d : Dev) (e : Option Nat) : Nat × Bool :=
  (d.copyLines 0 true (d.fld (stgReg 0 0) 6 58 * 64) (24 * granuleBytes) (min (min 1 (e.getD 1)) (d.hostLeft true 0 / 64)) 0).2

theorem witness_RingsAndStaging :
    (∀ st ∈ [RingState.disabled, .active, .draining, .error], ((ringAt st []).ring 0).st = st ∧ (ringAt st []).quiet = true) ∧
    (ringAt .disabled []).takesWrite (ringReg 0 + 0x18) ∧ (ringAt .disabled []).hostMay true (ringPart 0) 64 = true ∧
    (∀ st ∈ [0, 1], (staged st).quiet = true ∧ ((staged st).staging_ 0).st = st ∧ (staged st).servingIn 0 = true ∧ (staged st).hostUp = true ∧
      (staged st).stagingLines 0 0 = 1 ∧ (staged st).fld 0x41D0 24 1 = 1 ∧ ((staged st).staging_ 0).copied = 0 ∧
      (staged st).fld 0x41C8 6 35 * 64 = 24 * granuleBytes ∧ (staged st).stagingGranted 0 (24 * granuleBytes) 64 = true ∧
      ((staged st).setRegion 3 Region.reset).stagingGranted 0 (24 * granuleBytes) 64 = false) ∧ (staged 0).takesWrite (stgReg 0 0 + 0x10) ∧
    turn (staged 1) none = (1, false) ∧ turn (staged 1) (some 0) = (0, false) ∧
    turn ((staged 1).use (hostKey true 0) ((staged 1).hostOwn 0)) none = (0, false) := by
  unfold Dev.takesWrite; and_intros <;> decide +kernel

/-! ### Selvedge (12) -/

/-- R362: granted in region 1 under key 7, not under key 0. R363, R370: a line written under key 7 has write counter 1. -/
theorem test_access : linked.access (engineReq 0 7) (8 * granuleBytes) true = .granted 1 ∧
    linked.access (engineReq 0 0) (8 * granuleBytes) false ≠ .granted 1 ∧
    left (linked.write (engineReq 0 7) (8 * granuleBytes) (List.replicate 128 5)) (fun e =>
      e.lineMeta (e.region 1) (8 * 16384) = { key := 7, secret := 0, epoch := 0, ctr := 1, bad := false, ecc := false }) = true := by decide +kernel

theorem witness_MemoryAccess :
    linked.access (engineReq 0 7) (8 * granuleBytes) true = .granted 1 ∧
    left (linked.write (engineReq 0 7) (8 * granuleBytes) (List.replicate 128 5)) (fun _ => true) = true ∧
    (let d0 := linked.forceRows (linesOf (8 * granuleBytes) 128)
     8 * granuleBytes % 128 = 0 ∧ d0.regionOf (8 * granuleBytes) = some 1 ∧ (d0.region 1).st = .live ∧ (d0.region 1).key ≠ 0) ∧
    2 ^ 40 / 128 ∈ linesOf (2 ^ 40) 128 ∧ (∀ n, linked.access (engineReq 0 7) (128 * (2 ^ 40 / 128)) true ≠ .granted n) ∧
    ok (linked.read (engineReq 0 7) (8 * granuleBytes) 128) = true := by
  refine ⟨by decide +kernel, by decide +kernel, by decide +kernel, by decide +kernel, ?_, by decide +kernel⟩
  have h : linked.regionOf (128 * (2 ^ 40 / 128)) = none := by decide +kernel
  intro n hn
  simp only [Dev.access, h] at hn
  split at hn <;> simp at hn

/-- Region 4 selected: granule 25 alone, key `key`, in state `st`. -/
def region4 (st : RegionState) (key : Nat) (taken : List Nat) : Dev :=
  (regs [(0x4110, 3), (0x10100, 4)] linked).setRegion 4 { Region.reset with st := st, base := 25, granules := 1, key := key, taken := taken }

/-- R360, R367: open takes the key's next epoch; refused on an open region with 0x0506; the zeroing makes it live. -/
theorem test_region : ((run (.regionOpen false 0) (region4 .closed 7 [])).region 4).st = .opening ∧
    causes (run (.regionOpen false 0) (region4 .live 7 [])) = [0x0506] ∧
    ((run (.regionOpenDone 4) (region4 .opening 7 [])).region 4).st = .live ∧
    ((run (.reencrypt false 0) (region4 .live 7 [])).region 4).st = .reencrypting := by decide +kernel

theorem witness_RegionCommands :
    (∀ st ∈ [RegionState.closed, .opening, .live, .reencrypting, .closing], ∀ key ∈ [0, 7],
      (region4 st key []).quiet = true ∧ (region4 st key []).selRegion = 4 ∧ ((region4 st key []).region 4).st = st ∧
        ((region4 st key []).region 4).key = key ∧ (region4 st key []).serving = true ∧ (region4 st key []).memReady ((region4 st key []).regionPart 4) = true ∧
        (region4 st key []).onFencedStack ((region4 st key []).region 4) = false) ∧
    (region4 .closed 7 []).takesWrite 0x10120 ∧ (region4 .closed 7 []).openReason 4 ((region4 .closed 7 []).region 4) = 0 ∧
    (region4 .closed 9 []).openReason 4 ((region4 .closed 9 []).region 4) = 4 ∧ (region4 .live 7 []).nextEpoch 7 ≠ 0xFFFFFFFF ∧
    ({ region4 .live 7 [] with rtp := { (region4 .live 7 []).rtp with nextEpoch := [(7, 0xFFFFFFFF)] } } : Dev).nextEpoch 7 = 0xFFFFFFFF ∧
    (((region4 .opening 7 []).setUnit .stack 9 { UnitRec.reset with fenced := true }).onFencedStack ((region4 .opening 7 []).region 4) = true) := by
  unfold Dev.takesWrite; and_intros <;> decide +kernel

/-- R368, R369: a step is taken, the last makes the region live; R375: a line found bad is marked. -/
theorem test_steps : ((run (.reencryptStep 4 9) (region4 .reencrypting 7 [])).region 4).taken = [0] ∧
    ((run (.reencryptStep 4 9) (region4 .reencrypting 7 (List.range 31))).region 4).st = .live ∧
    ((run (.patrolRead (25 * granuleBytes) .badEcc) (region4 .live 7 [])).region 4).bad = 1 ∧
    (run (.patrolRead (25 * granuleBytes) .retried) (region4 .live 7 [])).reg 0x10018 = 1 := by decide +kernel

theorem witness_StepsAndPatrol :
    (∀ taken ∈ [[], List.range 31],
      let d := region4 .reencrypting 7 taken
      let i := taken.length
      d.quiet = true ∧ d.serving = true ∧ d.power.stepBufs.contains 9 = false ∧ d.unready .stack 9 = false ∧ d.fenced .stack 9 = false ∧
        d.fenced .selvedge 9 = false ∧ d.nextStep (d.region 4) 9 = some i ∧ (d.region 4).st = .reencrypting ∧
        d.keyValid (d.regionPart 4) 7 = true ∧ d.regionOf (25 * granuleBytes + 65536 * i) = some 4 ∧ d.servingIn (d.regionPart 4) = true ∧
        (d.region 4).stepOf ((25 * granuleBytes + 65536 * i) / 128) = i ∧ (d.region 4).taken.contains i = false ∧ i < 32 ∧
        ((insNat i (d.region 4).taken).length < 32 ∨ (d.region 4).due = false ∧ (d.region 4).sig = none)) ∧
    (region4 .reencrypting 7 []).nextStep ((region4 .reencrypting 7 []).region 4) 8 = none ∧ (region4 .live 7 []).regionOf 0 = none ∧
    (∀ key ∈ [0, 7], let d := region4 .live key []
      d.regionOf (25 * granuleBytes) = some 4 ∧ d.servingIn (d.regionPart 4) = true ∧ d.populated (25 * granuleBytes) = true ∧
        (d.region 4).st = .live ∧ (d.lineMeta (d.region 4) (25 * granuleBytes / 128)).bad = false ∧
        (d.unit .stack (d.stackOf (25 * granuleBytes))).corrected < 16 ∧
        ((d.setLine (25 * 16384) (some { key := 7, secret := 0, epoch := 0, ctr := 1, bad := true, ecc := true })).lineMeta (d.region 4) (25 * granuleBytes / 128)).bad = true) := by
  and_intros <;> decide +kernel


/-- A stack whose step buffers a reset left to recover: none, or one of a step of region 4. -/
def leftOver (bs : List StepBuf) : Dev :=
  let d := (region4 .reencrypting 7 []).setBufs 9 bs
  { d with power := { d.power with stepBufs := [9] } }

/-- R373: the valid buffer is completed, then counted. -/
theorem test_buffer : let d := run (.stepBufferRecovery 9) (leftOver [{ num := 4, step := 0, lines := [] }])
    d.stepBufs 9 = [] ∧ (d.region 4).taken = [0] ∧ d.reg 0x10038 = 1 := by decide +kernel

theorem witness_StepsAndPatrol_buffers :
    (∀ bs ∈ [[], [({ num := 4, step := 0, lines := [] } : StepBuf)]],
      (leftOver bs).quiet = true ∧ (leftOver bs).serving = true ∧ (leftOver bs).unready .stack 9 = false ∧
        9 ∈ (leftOver bs).power.stepBufs ∧ (leftOver bs).stepBufs 9 = bs) ∧
    (∀ key ∈ [0, 7], let d := region4 .live key []
      d.latent (25 * granuleBytes / 128) = .good ∧
        (d.lineMeta (d.region 4) (25 * granuleBytes / 128)).failsUnder (d.region 4) (25 * granuleBytes / 128)
          (d.lineMeta (d.region 4) (25 * granuleBytes / 128)).key (d.key (d.lineMeta (d.region 4) (25 * granuleBytes / 128)).key).secret = false) := by
  dsimp only; and_intros <;> decide +kernel

/-! ### Coppice, registers (09, 00, 11) -/

/-- An hour after reset, and 20 minutes. -/
def later : Dev := { linked with timePs := 1000 * (testPeriod + 2 * testGrace) }

def unitAt (u : UnitType) (id : Nat) (r : UnitRec) : Dev := later.setUnit u id r

def testing : UnitRec := { UnitRec.reset with testing := true }

def broken : UnitRec := { UnitRec.reset with fenced := true, reason := 2, fencings := 1 }

/-- The pair's wires on two edges: quiet is (0, 1), an error (1, 0), broken both alike. -/
def pair (e1 n1 e2 n2 : Bool) (c : ErrorCause) : PairReading := { first := { e := e1, n := n1 }, second := { e := e2, n := n2 }, cause := c }

def err2 (c : ErrorCause) : PairReading := pair true false true false c

/-- R275: an uncorrectable error fences; R277: three passed re-tests return the unit; R273: a test overdue is forced. -/
theorem test_units : ((run (.errorSignal .videoEngine 3 (err2 .uncorrectable)) later).unit .videoEngine 3).fenced = true ∧
    ((run (.inFieldTestStart .audioEngine 1) later).unit .audioEngine 1).testing = true ∧
    ((run (.fencedUnitRetest .audioEngine 1 true) (unitAt .audioEngine 1 { broken with passes := 2 })).unit .audioEngine 1).fenced = false ∧
    ((run (.iftOverdue .audioEngine 1) later).unit .audioEngine 1).testing = true := by decide +kernel

/-- Three copies of a register's value. -/
def copies3 (a b c : Nat) : Copies := { a := BitVec.ofNat 64 a, b := BitVec.ofNat 64 b, c := BitVec.ofNat 64 c }

/-- R269: the odd copy of a field is rewritten; without two equal ones the device is fatal. -/
theorem test_copies : let d := linked.setCopies 0x4008 (copies3 5 5 7)
    (d.reg 0x4008 = 5) ∧ (d.compareField 0x4008 (0, 16)).copies 0x4008 = copies3 5 5 5 ∧
    ((linked.setCopies 0x4008 (copies3 5 6 7)).compareField 0x4008 (0, 16)).fatalDue = true := by decide +kernel

theorem witness_CoppiceUnits :
    (∀ u ∈ [UnitType.videoEngine, .audioEngine, .batten, .tile, .selvedge],
      later.quiet = true ∧ later.on = true ∧ isSource u 1 = true ∧ later.fenced u 1 = false ∧ later.testsOn = true ∧
        (later.unit u 1).testing = false ∧ (later.unit u 1).lastTest + testPeriod + testGrace ≤ later.now ∧ later.mayTest u 1 = true ∧
        later.fld 0x8060 63 1 = 0 ∧ (later.unit u 1).corrected + 1 ≤ 16 ∧ ((unitAt u 1 testing).unit u 1).testing = true ∧
        ((unitAt u 1 broken).unit u 1).fenced = true) ∧
    (isSource .tile 1088 = false ∧ linked.now < (linked.unit .tile 1).lastTest + testPeriod) ∧
    (∀ n ∈ [0, 2], ((unitAt .tile 1 { broken with passes := n }).unit .tile 1).passes = n ∧ (unitAt .tile 1 { broken with passes := n }).testsOn = true) ∧
    (later.logicalOf 1 = some 1 ∧ later.leavingFor 1 = 0 ∧ later.spareFor 1 = some 16 ∧ (later.lt 1).pick = none ∧ (later.lt 1).replay = none ∧
      (noSpares later).spareFor 1 = none ∧ (noSpares later).logicalOf 1 = some 1) ∧
    (let d := later.setLt 1 { later.lt 1 with pick := some (pick []) }
     d.spareFor 1 = some 16 ∧ (d.lt 1).pick ≠ none ∧ d.logicalOf 1 = some 1) ∧
    (∀ b ∈ [false, true], let d := noSpares (unitAt .tile 1 { UnitRec.reset with overdue := b })
     d.spareFor 1 = none ∧ d.logicalOf 1 = some 1 ∧ (d.unit .tile 1).overdue = b ∧ d.testsOn = true ∧
       (d.unit .tile 1).lastTest + testPeriod + testGrace ≤ d.now) ∧
    (later.hearsSource .videoEngine 3 = true ∧ pairState ⟨true, false⟩ = .error ∧ pairState ⟨false, true⟩ = .quiet ∧
      pairState ⟨true, true⟩ = .broken ∧ later.fencedFirst 1 16 = false) ∧
    ((later.setLeaving 2 2).fencedFirst 1 16 = true ∧ (later.setLeaving 2 2).spareFor 1 = some 16) ∧
    ((later.unit .videoEngine 3).hour ≠ later.hour ∨ (later.unit .videoEngine 3).corrected + 1 ≤ 16) ∧
    (let d := unitAt .videoEngine 1 { broken with lastTest := 0 }
     d.wholeFenced .videoEngine 1 = false ∧ broken.permanent = false ∧ (d.unit .videoEngine 1).lastTest + testPeriod ≤ d.now) ∧
    (let c := linked.copies 0x4008
     c.a = c.b ∧ c.b = c.c) := by
  dsimp only; and_intros <;> decide +kernel

/-- A C2 entry stands at position 0. -/
def entered : Dev := linked.record 2 0x0310 .tile 5 none 1

/-- R12, R13: a field is written, an access of 2 bytes refused. R287: a C2 entry is cleared. R21: PARTS changes with nothing open. -/
theorem test_registers : (run (.registerWrite false 0x4008 4 77) linked).fld 0x4008 0 16 = 77 ∧
    causes (run (.registerWrite false 0x4008 2 77) linked) = [0x0101] ∧
    ((run (.cpClear 0) entered).log.entry 0).map LogEntry.cleared = some true ∧
    (run (.partitionCountChange 1) ((((linked.setCtx 0 Ctx.reset).setRegion 1 Region.reset).setRegion 2 Region.reset))).parts = 2 ∧
    causes (run (.injectArm 1) linked) = [0x0320] := by decide +kernel

theorem witness_RegistersAndControls :
    (linked.quiet = true ∧ ({ linked with power := { linked.power with d3 := true } } : Dev).power.d3 = true ∧ linked.on = true ∧ linked.power.d3 = false ∧
      (regAt 0x4008).map Prod.snd = some 0x4008 ∧ (regAt 0x4008).map (fun x => 0x4008 % x.1.bytes) = some 0 ∧ plainAt 0x4008 = true) ∧
    linked.takesWrite 0x4008 ∧ linked.takesWrite (0x40000 + 12) ∧ linked.takesWrite 0x800C ∧ linked.takesWrite 0x8010 ∧
    linked.takesWrite 0x8060 ∧ linked.takesWrite 0x20130 ∧ linked.takesWrite 0x1C448 ∧ linked.takesWrite (mbReg 0) ∧ linked.takesWrite 0x1C ∧
    ((Instr.clearAll, 0x800C, 4, 1) ∈ writeRows ∧ (entered.log.entry 0).map (fun e => (e.cls, e.cleared)) = some (2, false) ∧ linked.log.entry 0 = none) ∧
    ((in_ .test linked).fuses.lc = .test ∧ linked.fld 0x8060 63 1 = 0 ∧ (regs [(0x8060, 2 ^ 63)] linked).fld 0x8060 63 1 = 1 ∧
      bits (1 + 2 ^ 63 : Nat) 0 4 ≤ 10) ∧
    (linked.fld (mbReg 0) 14 1 = 0 ∧ (regs [(mbReg 0, 2 ^ 14)] linked).fld (mbReg 0) 14 1 = 1 ∧ bits (2 ^ 14 + 5) 14 1 = 1) ∧
    (linked.fld 0x1C 0 2 = 0 ∧ linked.anyOpen = true ∧
      (let d := ((linked.setCtx 0 Ctx.reset).setRegion 1 Region.reset).setRegion 2 Region.reset
       d.anyOpen = false ∧ d.allClosed = true) ∧ linked.allClosed = false) := by
  unfold Dev.takesWrite; and_intros <;> decide +kernel

/-! ### Power, resets, time, the CXL link (15, 16, 11) -/

def pwr (f : Power → Power) (d : Dev) : Dev := { d with power := f d.power }

def off : Dev := pwr (fun w => { w with st := .off }) Dev.reset

/-- After reset, the firmware verified. -/
def booted : Dev := pwr (fun w => { w with booted := true, resetNote := none }) Dev.reset

/-- The region table's register copies were not trusted: an entry 0x0306 of 0x10100 stands. -/
def untrusted : Dev := linked.record 4 0x0306 .register (0x10100 / 4) none 0

/-- R438, R466: a warm reset keeps memory and goes to bring-up; R473: an image verified boots; a power loss goes to OFF. -/
theorem test_resets : (run .hotReset (linked.setByte (8 * granuleBytes) 3)).byte (8 * granuleBytes) = 3 ∧
    (run .hotReset linked).power.st = .bringup ∧ (run .clearingRegisterReset linked).regions = [] ∧
    (run (.bootVerify FwImage.first) Dev.reset).power.booted = true ∧ (run .powerLoss linked).power.st = .off ∧
    (run (.bringupFull []) booted).power.st = .full := by decide +kernel

theorem witness_ResetsAndBringup :
    (linked.quiet = true ∧ linked.on = true ∧ linked.tableUntrusted = false ∧ untrusted.tableUntrusted = true ∧ linked.power.st ≠ .bringup ∧
      linked.cxl.up = true ∧ Dev.reset.cxl.up = false ∧ Dev.reset.power.st = .bringup ∧ off.on = false ∧ linked.power.resetDue = none ∧
      (pwr (fun w => { w with resetDue := some false }) linked).power.resetDue = some false) ∧ linked.takesWrite 0x58 ∧
    (Dev.reset.quiet = true ∧ Dev.reset.on = true ∧ Dev.reset.power.booted = false ∧ Dev.reset.life.recovery = false ∧
      Dev.reset.life.image = some FwImage.first ∧ bootStep (some FwImage.first) FwImage.first 0 = none ∧
      bootStep (some FwImage.first) { FwImage.first with hashOk := false } 0 ≠ none) ∧
    (booted.bringsUp = true ∧ booted.minimumUp = true ∧ (pwr (fun w => { w with st := .reduced }) booted).minimumReady = true ∧
      (pwr (fun w => { w with st := .reduced, notReady := (List.range 4).map fun k => (unitCode .die, k) }) booted).minimumReady = false ∧
      Dev.reset.bringsUp = false) ∧
    (let d := pwr (fun w => { w with recover := [0] }) linked
     d.serving = true ∧ d.memReady 0 = true ∧ 0 ∈ d.power.recover ∧ d.power.stepBufs = [] ∧ d.dispatches = [] ∧ 0 ∉ linked.power.recover) := by
  unfold Dev.takesWrite; and_intros <;> decide +kernel

/-- R444: 1 W above the 125 % trips; R446: 100 °C steps a die's clock to 2,475 MHz; R449: a lost reference is a C4 entry. -/
theorem test_power : (run (.powerSample 4001) linked).power.tripped = true ∧ (run (.powerSample 4000) linked).power.tripped = false ∧
    (run (.thermalThreshold .die 1 100) linked).power.tempMhz = 2475 ∧ (run (.thermalThreshold .die 1 99) linked).power.tempMhz = 2500 ∧
    (run .refclkLost linked).power.fatal = true ∧ (run (.powerControlWrite 2000) linked).limit = 2000 := by decide +kernel

theorem witness_PowerAndClocks :
    (linked.quiet = true ∧ linked.on = true ∧ linked.power.sampleNo ≤ linked.now / 10000 ∧ linked.power.thermStep ≤ linked.now / 100000 ∧
      linked.limit = 3200 ∧ linked.fixed = false ∧ linked.power.refclk = true) ∧
    (let d := pwr (fun w => { w with isOver := true, loopMhz := 2000, sampleNo := 1 }) { linked with timePs := 10000000 }
     d.power.sampleNo ≤ d.now / 10000 ∧ (d.power.sampleNo - 1) / 100 = d.now / 10000 / 100 ∧ d.fixed = false ∧ d.power.isOver = true ∧
      4 * 3200 ≤ 5 * d.limit ∧ 3200 ≤ d.limit ∧ 1250 < d.power.loopMhz ∧ 4 * 3300 ≤ 5 * d.limit ∧ d.limit < 3300) ∧
    (linked.now / 10000 < (pwr (fun w => { w with sampleNo := 5 }) linked).power.sampleNo ∧ thermalLimits .die 1 = some (100, 110) ∧
      thermalLimits .tile 1 = none ∧ (pwr (fun w => { w with hot := [(unitCode .die, 1)] }) linked).power.hot.contains (unitCode .die, 1) = true ∧
      linked.power.hot.contains (unitCode .die, 1) = false ∧ linked.now / 100000 < (pwr (fun w => { w with thermStep := 5 }) linked).power.thermStep) ∧
    linked.takesWrite 0x40 ∧ (regs [(0x40, 3200 + 2 ^ 12)] linked).takesWrite 0x40 ∧ (regs [(0x40, 3200 + 2 ^ 12)] linked).fixed = true ∧
    ((linked.setTileState 3 1).tileState 3 = 1 ∧ (linked.setTileState 3 1).tileFree 3 = true ∧ linked.tileState 3 = 0 ∧ off.on = false ∧
      (pwr (fun w => { w with refclk := false }) linked).power.refclk = false) := by
  unfold Dev.takesWrite; and_intros <;> decide +kernel

/-- R331: a context stops when the link goes down; R454: a second's edge 20 ns late; R461: a backward adjust within 60 s. -/
theorem test_link : ((run .cxlLinkDown linked).ctx 0).st = .stopped ∧
    (let d := { regs [(0x60, 1)] linked with timePs := 1000 * (2 * 10 ^ 9 + 20) }
     (run .syncEdge d).fld 0x64 16 16 = 20 ∧ (run .syncEdge d).fld 0x64 0 1 = 1) ∧
    (run (.calendarAdjust (BitVec.ofNat 64 (2 ^ 64 - 60))) (regs [(0x78, 1000)] linked)).reg 0x78 = 940 ∧
    (run (.calendarAdjust (BitVec.ofNat 64 (2 ^ 64 - 61))) (regs [(0x78, 1000)] linked)).reg 0x78 = 1000 := by decide +kernel

/-- Time set to hold at the next edge. -/
def synced (k : Nat) (set : Option Nat) : Dev :=
  pwr (fun w => { w with edge := some k, timeSet := set }) { regs [(0x60, 1)] linked with timePs := 1000 * (5 * 10 ^ 9) }

theorem witness_LinkAndTime :
    (linked.quiet = true ∧ linked.on = true ∧ linked.cxl.up = true ∧ linked.power.d3 = false ∧ (linked.setCtx 0 Ctx.reset).openCtxs = [] ∧
      linked.openCtxs = [0] ∧ ({ linked with cxl := { linked.cxl with ideIo := [0] } } : Dev).cxl.ideIo.contains 0 = true ∧
      linked.cxl.ideCache.contains 0 = false ∧ (pwr (fun w => { w with d3 := true, st := .standby, before := .full }) linked).power.d3 = true ∧
      Dev.reset.cxl.up = false) ∧
    (booted.on = true ∧ booted.cxl.up = false ∧ booted.power.perst = false ∧ booted.power.booted = true ∧ 8 ∈ [1, 2, 4, 8] ∧
      booted.life.recovery = false) ∧
    ((synced 1 none).fld 0x60 0 1 = 1 ∧ (synced 1 (some (6 * 10 ^ 9))).now ≤ 6 * 10 ^ 9 ∧ 4 * 10 ^ 9 < (synced 1 (some (4 * 10 ^ 9))).now ∧
      (synced 1 none).power.edge = some 1 ∧ (1 + 3) * 1000000000 ≤ (synced 1 none).now ∧ (synced 1 none).now < (4 + 3) * 1000000000 ∧
      linked.fld 0x60 0 1 = 0 ∧ linked.power.edge = none) ∧
    linked.takesWrite 0x60 ∧ linked.takesWrite 0x88 ∧ (synced 1 none).takesWrite 0x60 ∧ (synced 1 none).takesWrite 0x88 ∧ linked.takesWrite 0x80 ∧
    (linked.power.backward = [] ∧ (2 : Nat) ^ 63 ≤ (BitVec.ofNat 64 (2 ^ 64 - 61)).toNat ∧ 60 < 2 ^ 64 - (BitVec.ofNat 64 (2 ^ 64 - 61)).toNat ∧
      linked.power.ticks ≤ linked.now / 1000000 ∧ linked.now / 1000000 < (pwr (fun w => { w with ticks := 9 }) linked).power.ticks ∧
      hardenedAt 0x1C = true ∧ off.on = false) := by
  unfold Dev.takesWrite; and_intros <;> decide +kernel


/-- Every compute die is fenced, so the minimum set is not there; a tick's window that is not an error breaks its pair. -/
theorem witness_ResetsAndBringup_minimum :
    (let d := (List.range 4).foldl (fun d k => d.setUnit .die k broken) booted
     d.quiet = true ∧ d.bringsUp = true ∧ d.power.st = .bringup ∧ d.minimumUp = false) ∧
    (pwr (fun w => { w with hot := [(unitCode .die, 1)] }) linked).thermOut = true ∧ linked.thermOut = false ∧
    linked.hearsSource .videoEngine 3 = true ∧ off.hearsSource .videoEngine 3 = false := by
  dsimp only; and_intros <;> decide +kernel

/-- R280: the window's error with a quiet pair after it is the strobe's; a quiet window breaks the pair; an error that stays is one. -/
theorem test_strobe :
    let x (i1 i2 a1 a2 : PairSample) : StrobeReading :=
      { unit := .videoEngine, id := 3, in1 := i1, in2 := i2, after1 := a1, after2 := a2, cause := .uncorrectable }
    let er : PairSample := { e := true, n := false }
    let qu : PairSample := { e := false, n := true }
    linked.strobe (x er er qu qu) = linked ∧ ((linked.strobe (x qu er qu qu)).unit .videoEngine 3).reason = 3 ∧
    ((linked.strobe (x er er er er)).unit .videoEngine 3).reason = 2 := by decide +kernel

/-! ### The root-of-trust processor (13) -/

/-- Partition 0's record in the RTP. -/
def rtp (x : RtpPart) (d : Dev) : Dev := d.setRtpPart 0 x

/-- The manifest with a floor of one owner and one 256th. -/
def terms : Manifest := { manifest with floorOwners := 1, floorShare := 1 }

def loaded : RtpPart := { RtpPart.reset with manifest := some terms }

def sealed : Sealed := { mh := 77, secret := 55, keys := [], ctrs := [(0, 4)], tpX := 1, tpM := 2 }

/-- The job of manifest 77 held in slot 11, as its creator. -/
def holding : RtpPart := { loaded with held := true, slot := 11, secret := 55, origin := 1, sealedRec := some sealed, ctrs := [(0, 4)] }

def held : Dev := (rtp holding linked).setKey 11 (jobSlot 11 terms 55)

/-- The device's own data key in slot 7 belongs to owner 1. -/
def notSig : DualSig := { ed := true, mldsa := false }

/-- Command `op` of partition 0 delivered by its final chunk. -/
def delivered (op : Nat) (d : Dev) : Dev := { d with rtp := { d.rtp with busy := true, cmd := some { op := op, part := 0, bytes := [] } } }

/-- R393: a manifest with a bad signature is counted and refused; R397: a job is created in slot 11. -/
theorem test_jobs : (run (.manifestLoad 0 terms notSig) (delivered 1 linked)).reg 0xC150 = 1 ∧
    (run (.manifestLoad 0 terms notSig) (delivered 1 linked)).rtp.status = 2 ∧
    ((run (.manifestLoad 0 terms sig) (delivered 1 linked)).rtpPart 0).manifest = some terms ∧
    ((run (.jobCreate 0 11 55) (delivered 2 (rtp loaded linked))).key 11).typ = 2 ∧
    (run (.jobCreate 0 11 55) (delivered 2 linked)).rtp.status = 5 := by decide +kernel

/-- The device after a command in life-cycle state TEST. -/
def runTest (c : Instr) (d : Dev) : Dev :=
  match exec c (in_ .test d) with
  | .next t => t.dev
  | _ => d

/-- The device in TEST names itself by identity hash 0. -/
def toSelf : Transport := { transport with idh := 0, env := { eph := 3, ct := 4, body := [] } }

/-- Bytes sealed under the hybrid key (R401, R402). -/
def sealedTo (r : RtpPart) (bs : List Byte) : Transport :=
  { toSelf with env := { toSelf.env with body := sealUnder (r.hybridFrom transportLabel 77 0 3 4) bs } }

/-- A release with the signatures of owners 0 and 1, or of these. -/
def signedBy (kind : Nat) (os : List Nat) : Release := { release with kind := kind, entries := os.map fun o => (o, sig) }

/-- Data key 9 of owner 1 in slot 12. -/
def held12 : Dev := held.setKey 12 (dataSlot 11 dataKey)

/-- The owner's fourth message after the first four revokes the key with that fingerprint. -/
def revoking : KeyUpdate := { keyUpdate with idh := 0, counter := 1, keyId := keyFingerprint 9 }

set_option maxRecDepth 20000 in
/-- R402, R403, R407, R408: a message without its magic is invalid, a counter out of order is refused, the right one revokes the key,
a release by a quorum gives an export slot or ends the job. -/
theorem test_keys : (runTest (transported 0 12 4761 { toSelf with magic := 0 }) (delivered 8 held)).rtp.status = 1 ∧
    (runTest (updated 0 3509 { revoking with counter := 6 }) (delivered 9 held)).rtp.status = 3 ∧
    ((runTest (updated 0 3509 revoking) (delivered 9 held12)).key 12).valid = false ∧
    ((runTest (released 0 (signedBy 1 [0, 1])) (delivered 10 held)).key 1).typ = 5 ∧
    (runTest (released 0 (signedBy 2 [0])) (delivered 10 held)).rtp.revoked = [77] := by decide +kernel

/-- R402: the transport opens under the hybrid key and has the length that the message asks. -/
theorem witness_MailboxCommands_transport (r : RtpPart) :
    (sealedTo r (List.replicate 32 9)).env.body.length = 48 ∧ (sealedTo r (List.replicate 32 9)).idh = 0 ∧ ownIdh .test = 0 ∧
    openUnder (r.hybridFrom transportLabel 77 0 3 4) (sealedTo r (List.replicate 32 9)).env.body = some (List.replicate 32 9) := by
  simp only [sealedTo]
  exact ⟨Crypt.length_sealUnder _ _, rfl, rfl, Crypt.openUnder_sealUnder _ _⟩

theorem witness_MailboxCommands_formed : toSelf.magic = 0x10B34B01 ∧ toSelf.rsvd = 0 ∧ toSelf.mh = 77 ∧ toSelf.env.eph = 3 ∧
    toSelf.env.ct = 4 ∧ toSelf.owner < terms.n ∧ held.slotRefusal 0 12 = none := by decide +kernel

theorem witness_MailboxCommands :
    (linked.quiet = true ∧ linked.mailboxUp = true ∧ linked.rtp.busy = false ∧ linked.turnedAway .production 1 4 = some 1 ∧
      linked.turnedAway .blank 1 0 = some 0x0B ∧ Dev.reset.mailboxUp = false ∧
      (let d := { linked with rtp := { linked.rtp with busy := true, cmd := some { op := 4, part := 0, bytes := [] } } }
       d.mailboxUp = true ∧ d.rtp.busy = true ∧ d.rtp.cmd.map (fun c => (c.op, c.part)) ≠ some (1, 0))) ∧
    (∀ op ∈ rangeFrom 1 11, linked.looksAt .production op 0 ∧ (rtp loaded linked).looksAt .production op 0 ∧ held.looksAt .production op 0) ∧
    (manifestFits terms = true ∧ manifestFits { terms with t := 3 } = false ∧ manifestSigned terms = true ∧
      manifestSigned { terms with signed := [0] } = false ∧ sigOk sig = true ∧ sigOk notSig = false ∧
      manifestExpired terms linked.calendar = false ∧ manifestExpired terms (regs [(0x78, 1001)] linked).calendar = true) ∧
    ((rtp loaded linked).sliceFor 0 terms = true ∧ (rtp loaded linked).sliceFor 0 { terms with slice := 6 } = false ∧
      linked.slotRefusal 0 11 = none ∧ linked.slotRefusal 0 7 = some 7 ∧ linked.slotsRefusal 0 [11, 12] = none ∧
      linked.rtp.revoked.contains 77 = false ∧ held.slotRefusal 0 12 = none) ∧
    (let d := { rtp { loaded with sealedRec := some sealed } linked with life := { linked.life with running := some { image with measurement := 0 } } }
     sealed.mh = terms.mh ∧ d.imageAdmitted terms = true ∧ (sealed.keys.filter fun y => !y.2.expireRst).length ≤ [12].length ∧ 11 ∉ [12] ∧
       d.slotsRefusal 0 [11, 12] = none) ∧ (∀ op ∈ [4], ({ rtp { loaded with sealedRec := some sealed } linked with life := { linked.life with running := some { image with measurement := 0 } } } : Dev).looksAt .production op 0) ∧
    (held.rtpUp = true ∧ (held.rtpPart 0).slot = 11 ∧ (11, held.key 11) ∈ held.keys ∧ held.keyValid 0 11 = true ∧ (held.key 11).typ = 2 ∧
      (held.key 7).typ = 4 ∧ held.keyValid 0 7 = true ∧ held.jobIs 0 77 = some terms ∧ held.jobIs 0 78 = none ∧ dataKey.owner < terms.n) ∧
    (let d := held.setKey 12 (dataSlot 11 dataKey)
     (d.key 12).typ = 4 ∧ (d.key 12).secret = 9 ∧ (d.key 12).owner = 1 ∧ rangePart d.parts 4096 12 = 0 ∧ (12, d.key 12) ∈ d.keys) ∧
    (Sparse.get (fun _ => 0) holding.ctrs 0 + 1 = 5 ∧ Sparse.get (fun _ => 0) holding.ctrs 1 + 1 = 1) ∧
    (holding.lastRelease = none ∧ held.calendar ≤ 100 ∧ (regs [(0x78, 101)] held).calendar = 101 ∧ terms.t ≤ (signersOf terms [(0, sig), (1, sig)]).length ∧
      (signersOf terms [(5, sig)]).length < terms.t ∧ held.holders 77 = [0] ∧ held.freeSlot 0 = some 1 ∧
      (rtp { holding with lastRelease := some 1 } held).rtp.parts.any (fun e => e.2.lastRelease = some 1 && e.2.manifest = some terms) = true) := by
  unfold Dev.looksAt; dsimp only; and_intros <;> decide +kernel

/-- R403: that key update is in order, signed and names the key. -/
theorem witness_MailboxCommands_update : held12.looksAt .test 9 0 ∧ held12.looksAt .test 8 0 ∧ held12.looksAt .test 0x0A 0 ∧
    held12.jobIs 0 77 = some terms ∧ revoking.magic = 0x10B35501 ∧ revoking.idh = ownIdh .test ∧ revoking.owner < terms.n ∧
    revoking.counter = Sparse.get (fun _ => 0) (held12.rtpPart 0).ctrs 1 + 1 ∧ (held12.key 12).typ = 4 ∧ (held12.key 12).secret = 9 ∧
    (held12.key 12).owner = 1 ∧ (12, held12.key 12) ∈ held12.keys := by
  unfold Dev.looksAt; and_intros <;> decide +kernel

/-- A final chunk of 8 bytes for opcode 5 of partition 0. -/
def chunk : BitVec 32 := BitVec.ofNat 32 (word [(0, 5), (8, 1), (9, 1), (12, 8), (31, 1)])

/-- R410: the final chunk makes the command; R398: the first check that fails is recorded; R382: tamper erases every key. -/
theorem test_rtp : (run (.mailboxChunk chunk) linked).rtp.cmd.map MailCmd.op = some 5 ∧
    causes (run (.admissionRequest 0 0 4096 { evidence with slice := 6 }) held) = [0x0404] ∧
    (run (.admissionRequest 0 0 4096 evidence) held).rtp.relayed.length = 1 ∧ (run (.tamper 1) held).keys = [] := by decide +kernel

/-- A join waits for the holder. -/
def joining : Dev := rtp { loaded with joining := some (4096, 11, [12]) } linked

/-- R399, R401: the holder's text opens under the hybrid key; an empty body does not. -/
theorem witness_RtpMessages_admission (lc : LifeCycle) (r : RtpPart) (x : Nat) (keys : List DataKey) :
    r.admits lc 77 { eph := 3, ct := 4, body := sealUnder (r.hybridFrom admitLabel 77 (ownIdh lc) 3 4) (admissionText x keys) } x keys = true := by
  simp only [RtpPart.admits, Crypt.openUnder_sealUnder, decide_true]

theorem witness_RtpMessages_noAdmission (r : RtpPart) (x : Nat) (keys : List DataKey) :
    r.admits .production 77 { eph := 3, ct := 4, body := [] } x keys = false := by
  have hk := Crypt.length_secretBytes (r.hybridFrom admitLabel 77 (ownIdh .production) 3 4)
  have hn : openUnder (r.hybridFrom admitLabel 77 (ownIdh .production) 3 4) [] = none := by
    unfold openUnder
    refine if_neg fun h => ?_
    have := congrArg List.length h
    simp [(Crypt.gcmTag_bytes hk _ _ _).1] at this
  simp [RtpPart.admits, hn]

theorem witness_RtpMessages :
    (linked.quiet = true ∧ linked.rtp.busy = false ∧ linked.rtpUp = true ∧ bit chunk.toNat 31 = true ∧ bit chunk.toNat 9 = true ∧ bits chunk.toNat 12 14 ≤ 8192 ∧
      (linked.getBuf (bits chunk.toNat 12 14)).length ≤ 2097152 ∧ bits chunk.toNat 0 8 ∈ mailOpcodes ∧
      bit (BitVec.ofNat 32 (word [(0, 5), (8, 1), (12, 8), (31, 1)])).toNat 9 = false ∧ linked.mailboxUp = true) ∧ linked.takesWrite 0xC008 ∧
    (held.rtpUp = true ∧ held.rtp.tampered = false ∧ held.life.recovery = false ∧ held.keysServed .production = true ∧ 0 < held.parts ∧ held.managed 0 = true ∧
      (held.rtpPart 0).manifest = some terms ∧ (held.rtpPart 0).held = true ∧ failedCheck terms evidence = none ∧
      failedCheck terms { evidence with slice := 6 } = some 6 ∧ (linked.rtpPart 0).held = false ∧ 4096 % 2 ^ 17 ≠ held.here.toNat) ∧
    ((joining.rtpPart 0).joining = some (4096, 11, [12]) ∧ (joining.rtpPart 0).manifest = some terms ∧ (joining.ctx 0).st ≠ .tearing ∧
      [dataKey].length ≤ [12].length ∧ joining.slotsRefusal 0 [11, 12] = none ∧ 11 ∉ [12]) := by
  unfold Dev.takesWrite; and_intros <;> decide +kernel

/-- Where an SPDM exchange stands. -/
def spdm (v n k s : Bool) : Dev :=
  { linked with rtp := { linked.rtp with rsPresent := true, spdmVersion := v, spdmNegotiated := n, spdmKex := k, spdmSession := s } }

/-- R395: requests in their order; 11 R333: a stream's keys are set inside a session. -/
theorem test_spdm : (run (.finish true) (spdm true true true false)).rtp.spdmSession = true ∧
    (run .keyExchange (spdm true false false false)).rtp.spdmOut = [(0x7F, [])] ∧
    (run (.ideKm false 3 true) (spdm true true false true)).cxl.ideIo = [3] := by decide +kernel

theorem witness_SpdmRows :
    (∀ x ∈ [(true, true, true, true), (false, false, false, false)], let d := spdm x.1 x.2.1 x.2.2.1 x.2.2.2
      d.quiet = true ∧ d.rtpUp = true ∧ (d.fld 0xC000 0 1 ≠ 0 ∨ d.fld 0xC000 1 1 ≠ 0) ∧ d.life.recovery = false ∧ d.rtp.rsPresent = true ∧
        d.rtp.tampered = false ∧ d.rtp.spdmVersion = x.1 ∧ d.rtp.spdmNegotiated = x.2.1 ∧ d.rtp.spdmKex = x.2.2.1 ∧ d.rtp.spdmSession = x.2.2.2) ∧
    LifeCycle.production ≠ .blank ∧ (regs [(0xC000, 0)] linked).fld 0xC000 0 2 = 0 := by
  and_intros <;> decide +kernel

/-! ### Life cycle, firmware, debug (14) -/

def life (f : Life → Life) (d : Dev) : Dev := { d with life := f d.life }

/-- The fuses after a command in life-cycle state `l`. -/
def fuse (l : LifeCycle) (c : Instr) (d : Dev) : LifeCycle :=
  match exec c (in_ l d) with
  | .next t => t.fuses.lc
  | _ => l

/-- A nonce given out; a certificate of no identity for state `l`, all rights but `SCAN`. -/
def challenged : Dev := life (fun x => { x with nonce := some 4 }) linked

def debugCert (l : LifeCycle) (rights : Nat) : DebugCert :=
  { idh := 0, nonce := 4, states := 2 ^ lcCode l, rights := rights, notAfter := 100, sig := sig }

/-- R415, R417: BLANK goes to TEST; an armed EOL_CONFIRM within 10 s is final, with another value nothing happens. -/
theorem test_life : fuse .blank (.lcAdvance 1 true none) (delivered 0x40 linked) = .test ∧
    fuse .production (.eolConfirm 9) (delivered 0x42 (life (fun x => { x with eolArm := some (9, 0) }) linked)) = .endOfLife ∧
    fuse .production (.eolConfirm 8) (delivered 0x42 (life (fun x => { x with eolArm := some (9, 0) }) linked)) = .production := by
  decide +kernel

/-- R421: an image below the fused SVN is a rollback; R426, R427: a certificate opens its rights; R430: the spare blocks. -/
theorem test_firmware : (run (.fwCommit image) (delivered 0x45 (life (fun x => { x with fwState := 2 }) linked))).life.image = some image ∧
    commitCheck { image with svn := 0 } 1 = .rollback ∧
    (runTest (.debugOpen (debugCert .test 3)) (delivered 0x48 challenged)).life.rights = 0x3F ∧
    (run .flashInfo (delivered 0x4C linked)).getBuf 8 = leBytes 8 252 := by decide +kernel

theorem witness_LifeCycleAndFirmware :
    (∀ op ∈ rangeFrom 0x40 13, ∀ l ∈ [LifeCycle.blank, .test, .production, .endOfLife, .analysis],
      linked.quiet = true ∧ linked.looksAt l op 0 ∧ challenged.looksAt l op 0) ∧
    ((life (fun x => { x with recovery := true }) linked).turnedAway .production 0x40 0 = some 0x0B ∧
      (life (fun x => { x with recovery := true }) linked).looksAt .production 0x45 0) ∧
    (linked.life.cert = true ∧ (life (fun x => { x with cert := false }) linked).life.cert = false) ∧
    (let d := life (fun x => { x with eolArm := some (9, 0) }) linked
     d.eolHolds .production 9 = true ∧ d.eolHolds .production 8 = false) ∧
    (sigOk sig = true ∧ sigOk notSig = false ∧ linked.life.spare ≠ 0 ∧ (life (fun x => { x with spare := 0 }) linked).life.spare = 0 ∧
      (∀ n ∈ [1, 2, 3], (life (fun x => { x with fwState := n }) linked).life.fwState = n) ∧ linked.life.fwEnd ≤ 0 ∧ linked.tableUntrusted = false) ∧
    (commitCheck image 0 = .good ∧ commitCheck image 2 = .rollback ∧ commitCheck { image with hashOk := false } 0 = .bad) ∧
    (linked.svnRaise { lc := .production, svn := 0 } = none ∧
      (life (fun x => { x with running := some image }) linked).svnRaise { lc := .production, svn := 0 } = some 1) ∧
    (∀ l ∈ [LifeCycle.blank, .test],
      challenged.certCheck l (lcCode l) (debugCert l 3) = .good ∧ challenged.certCheck l (lcCode l) { debugCert l 3 with sig := notSig } = .signature ∧
        challenged.certCheck l (lcCode l) { debugCert l 3 with magic := 0 } = .malformed ∧
        challenged.certCheck l (lcCode l) { debugCert l 3 with idh := 1 } = .device ∧
        challenged.certCheck l (lcCode l) { debugCert l 3 with states := 0 } = .state ∧
        (regs [(0x78, 101)] challenged).certCheck l (lcCode l) (debugCert l 3) = .expired) ∧
    (∀ l ∈ [LifeCycle.endOfLife, .analysis],
      let d := life (fun x => { x with testSecret := true }) challenged
      d.certCheck l (lcCode l) (debugCert l 0x10) = .good ∧ d.certCheck .endOfLife 4 (debugCert .analysis 0x10) = .good ∧ invasive 0x10 = true ∧
        invasive 3 = false ∧ d.anyOpen = true ∧ (d.setCtx 0 Ctx.reset).anyOpen = false) ∧
    (linked.calendar ≤ linked.life.notAfter ∧ (regs [(0x78, 1)] linked).rtpUp = true ∧
      (life (fun x => { x with notAfter := 0 }) (regs [(0x78, 1)] linked)).life.notAfter < (regs [(0x78, 1)] linked).calendar) := by
  unfold Dev.looksAt; and_intros <;> decide +kernel

/-- In PRODUCTION the certificate names the device. -/
theorem witness_cert : challenged.certCheck .production 2 { debugCert .production 0x10 with idh := Config.identityHash } = .good ∧
    (challenged.setCtx 0 Ctx.reset).anyOpen = false := by
  refine ⟨?_, by decide +kernel⟩
  have h : challenged.debugIdh .production = Config.identityHash := rfl
  have h1 : challenged.life.nonce = some 4 := rfl
  have h2 : challenged.calendar = 0 := by decide +kernel
  simp [Dev.certCheck, h, h1, h2, debugCert, sigOk, sig, bit, lcCode]
  decide

/-- The debug rights `r` are open. -/
def rights (r : Nat) : Dev := life (fun x => { x with rights := r }) linked

/-- R425: without the right a TAP instruction selects BYPASS; IDCODE needs none. 12 R362: the debug master has no key. -/
theorem test_debug : (run (.extest [true]) linked).tap.ir = 1 ∧ (run (.extest [true]) (rights 1)).tap.ir = 3 ∧
    (run .idcode linked).tap.dr.take 8 = [true, true, false, true, true, true, false, false] ∧
    (run (.debugMasterAccess (8 * granuleBytes) false [0]) (rights 8)).tap.dr = [] ∧
    (run (.debugMasterAccess (24 * granuleBytes) true [7]) ((rights 8).setRegion 3 { Region.reset with st := .live, base := 24, granules := 1 })).byte
      (24 * granuleBytes) = 7 ∧ (run (.sequencerHalt 3 false) (rights 16)).tap.halted = [3] := by decide +kernel

theorem witness_DebugPort :
    (linked.quiet = true ∧ linked.on = true ∧ off.on = false ∧ (∀ i ∈ [0, 2, 3, 4, 5], linked.right i = false ∧ (rights 0x3F).right i = true)) ∧
    (24 * granuleBytes / linked.window = 0 ∧ 0 < linked.parts ∧ (rights 0x3F).servingIn 0 = true ∧ linked.parts ≤ 2 ^ 41 / linked.window) ∧
    (let d := (rights 0x3F).setRegion 3 { Region.reset with st := .live, base := 24, granules := 1 }
     ok (d.write { ctx := 0, cls := 3, key := 0 } (24 * granuleBytes) [7]) = true ∧ ok (d.read { ctx := 0, cls := 3, key := 0 } (24 * granuleBytes) 1) = true) ∧
    (∃ x ∈ linesOf (8 * granuleBytes) 1, (rights 0x3F).access { ctx := 0, cls := 3, key := 0 } (128 * x) false = .refused) ∧
    ((linked.lt 3).pick = none ∧ 3 < 1024) := by
  and_intros <;> decide +kernel

/-! ### Every step -/

theorem witness_EveryStepKeeps : (at_ linked).dev.quiet = true ∧
    (∀ x y z, (Instr.regionOpenDone 1) ≠ .lcAdvance x y z) ∧ (∀ v, (Instr.regionOpenDone 1) ≠ .eolConfirm v) ∧ (Instr.regionOpenDone 1) ≠ .svnLock := by
  refine ⟨by decide +kernel, ?_, ?_, ?_⟩ <;> intros <;> nofun

/-- PV_ID and PARTS after reset; an idle step is 10 ns. -/
theorem test_reset : (State.reset.dev.quiet = true ∧ State.reset.dev.reg 0 = 0x4C161E3B ∧ State.reset.dev.parts = 1) ∧
    (match step State.reset with | .next t => t.dev.timePs | _ => 0) = 10000 := by decide +kernel

end Sys2Proof.Tests
end

section
/-! SUPPORT. Where a register lies: the row of Table 00-5 that a lookup finds, and the offsets its registers take. -/

namespace Sys2Proof.Machine

/-- A lookup answers with a row of its table that has a register at the offset. -/
theorem findReg_some {rs : List RegSpec} {off o : Nat} {r : RegSpec} (h : findReg rs off = some (r, o)) :
    r ∈ rs ∧ r.hit off = some o := by
  induction rs with
  | nil => cases h
  | cons q rs ih =>
    rw [findReg] at h
    split at h
    · next p hp =>
      obtain ⟨rfl, rfl⟩ : q = r ∧ p = o := by simpa using h
      exact ⟨List.mem_cons_self, hp⟩
    · obtain ⟨hm, hh⟩ := ih h
      exact ⟨List.mem_cons_of_mem _ hm, hh⟩

/-- The offsets of the registers of a row. -/
def RegSpec.places (r : RegSpec) : List Nat :=
  (List.range (max 1 r.n1)).flatMap fun i => (List.range (max 1 r.n2)).map fun j => r.base + i * r.s1 + j * r.s2

theorem RegSpec.mem_places_of_hit {r : RegSpec} {off o : Nat} (h : r.hit off = some o) : o ∈ r.places := by
  have below : ∀ n s x, (if n ≤ 1 ∨ s = 0 then 0 else min (n - 1) x) < max 1 n := by intro n s x; split <;> omega
  rw [RegSpec.hit] at h
  split at h
  · cases h
  · simp only [Option.ite_none_right_eq_some, Option.some.injEq] at h
    obtain ⟨-, rfl⟩ := h
    exact List.mem_flatMap.mpr ⟨_, List.mem_range.mpr (below _ _ _), List.mem_map.mpr ⟨_, List.mem_range.mpr (below _ _ _), rfl⟩⟩

/-- Every row of the register tables. -/
def regRows : List RegSpec :=
  regsPv ++ regsHx ++ regsCp ++ regsRt ++ regsSv ++ regsRdSh ++ regsWf ++ regsBt ++ regsTl ++ regsPl

theorem regBlock_subset_regRows (off : Nat) : regBlock off ⊆ regRows := by
  unfold regBlock regRows
  (repeat' split) <;> intro r hr <;> simp only [List.mem_append] <;> tauto

theorem regAt_some {off o : Nat} {r : RegSpec} (h : regAt off = some (r, o)) : r ∈ regRows ∧ o ∈ r.places := by
  obtain ⟨hm, hh⟩ := findReg_some h
  exact ⟨regBlock_subset_regRows _ hm, RegSpec.mem_places_of_hit hh⟩

theorem regRows_sound : ∀ r ∈ regRows, r.sound = true ∧ (r.bytes = 4 ∨ r.bytes = 8) := by decide +kernel

/-- The upper half of each plain register of the row, where it has 8 bytes, belongs to that register. -/
def RegSpec.joined (r : RegSpec) : Bool :=
  r.bytes = 4 || r.places.all fun o => !plainAt o || (regAt (o + 4)).map Prod.snd = some o

theorem regRows_joined : ∀ r ∈ regRows, r.joined = true := by decide +kernel

/-- Both halves of a plain register of 8 bytes are that register's. -/
theorem regAt_upper {o : Nat} {r : RegSpec} (h : regAt o = some (r, o)) (hp : plainAt o = true) (h8 : r.bytes = 8) :
    ∃ q, regAt (o + 4) = some (q, o) := by
  obtain ⟨hm, hpl⟩ := regAt_some h
  have hj := regRows_joined r hm
  simp only [RegSpec.joined, h8, Bool.or_eq_true, decide_eq_true_eq, List.all_eq_true, Bool.not_eq_true'] at hj
  rcases hj with hj | hj
  · omega
  · rcases hj o hpl with hj | hj
    · rw [hp] at hj; cases hj
    · obtain ⟨⟨q, _⟩, hq, rfl⟩ := Option.map_eq_some_iff.1 hj
      exact ⟨q, hq⟩

end Sys2Proof.Machine
end

section
/-! SUPPORT. How the port delivers a write (11 R335, R340, R344): lost, ignored with an entry, or taken by one register. -/

namespace Sys2Proof.Machine

variable (d : Dev)

theorem exec_registerWrite (b : Bool) (off size : Nat) (v : Word64) (s : State) :
    exec (.registerWrite b off size v) s = s.after fun d => d.portWrite s.fuses.lc b off size v.toNat := rfl

/-- A command that records one entry of class 0 leaves just that entry. -/
theorem exec_of_record {s : State} {i : Instr} {f : Dev → Dev} {k : Nat} {u : UnitType} {id : Nat} {p : Option Nat} {x : Nat}
    (hq : s.dev.quiet = true) (key : exec i s = s.after f) (e : f s.dev = s.dev.record 0 k u id p x) :
    exec i s = .next (s.withDev (s.dev.record 0 k u id p x)) :=
  exec_of_quiet key e hq (by simp) (by simp) (by simp) (by simp)

theorem Dev.onWrite_lost (h : d.on = false ∨ d.power.d3 = true) (off v : Nat) (f : Dev → Dev) : d.onWrite off v f = d := by
  unfold Dev.onWrite
  rcases h with h | h <;> simp [h]

theorem Dev.onWrite_onWrite (off v : Nat) (f : Dev → Dev) : d.onWrite off v (fun e => e.onWrite off v f) = d.onWrite off v f := by
  unfold Dev.onWrite
  split
  · rfl
  · next hlost =>
    split
    · rfl
    · next hheld => exact (if_neg hlost).trans (if_neg hheld)

theorem Dev.onWrite_of_takesWrite {off : Nat} (h : d.takesWrite off) (v : Nat) (f : Dev → Dev) : d.onWrite off v f = f d := by
  obtain ⟨h1, h2, h3⟩ := h
  exact d.onWrite_of_on off v f h1 h2 h3

theorem Dev.portWrite_lost (h : d.on = false ∨ d.power.d3 = true) (lc : LifeCycle) (b : Bool) (off size v : Nat) :
    d.portWrite lc b off size v = d := by
  unfold Dev.portWrite
  rcases h with h | h <;> simp [h]

theorem Dev.portWrite_misfit (h1 : d.on = true) (h2 : d.power.d3 = false) (lc : LifeCycle) {b : Bool} {off size : Nat} (v : Nat)
    (h : size ≠ 4 ∧ size ≠ 8 ∨ off % size ≠ 0) :
    d.portWrite lc b off size v = if b then d.badWrite2 off v else d.badWrite off v := by
  unfold Dev.portWrite
  rw [if_neg (by simp [h1, h2]), if_pos h]

theorem Dev.badWrites_eq (b : Bool) (off v : Nat) :
    (if b then d.badWrite2 off v else d.badWrite off v) =
      d.record 0 (if d.power.st = .held ∧ (b = true ∨ heldWritable off = false) then 0x0102 else 0x0101)
        (if b then .hub else .register) (if b then 3 else off / 4 % 65536) none (off % 2 ^ 18 + v % 2 ^ 32 * 2 ^ 32) := by
  cases b <;> simp [Dev.badWrite, Dev.badWrite2, Dev.heldOut]

/-- Outside the CXL component registers an offset below the windows names the register that lies there. -/
theorem Dev.target_of_regAt {off o : Nat} {r : RegSpec} (h : regAt off = some (r, o)) (hlt : off < 0x30000)
    (hc : off < 0x7000 ∨ 0x8000 ≤ off) : d.target off = .reg r o := by
  rw [Dev.target, if_pos hlt, Target.at, if_neg (by omega), h]

/-- A 4-byte write goes to the register at its offset. -/
theorem Dev.portWrite_four (lc : LifeCycle) {off o : Nat} {r : RegSpec} (v : Nat) (h : regAt off = some (r, o)) (hlt : off < 0x30000)
    (hc : off < 0x7000 ∨ 0x8000 ≤ off) (h4 : off % 4 = 0) :
    d.portWrite lc false off 4 v = d.regWrite lc { s := r, o := o, lo := 8 * (off % r.bytes), w := 32, v := v % 2 ^ 32 } := by
  unfold Dev.portWrite
  split
  · next hd => exact (d.onWrite_lost (by simpa using hd) _ _ _).symm
  · rw [if_neg (by simp [h4]), if_neg (by simp), if_pos rfl, Dev.write4, d.target_of_regAt h hlt hc]

/-- An 8-byte write of a whole register goes to it at once. -/
theorem Dev.portWrite_eight (lc : LifeCycle) {o : Nat} {r q : RegSpec} (v : Nat) (h : regAt o = some (r, o))
    (hu : regAt (o + 4) = some (q, o)) (hlt : o + 4 < 0x30000) (hc : o + 4 < 0x7000 ∨ 0x8000 ≤ o) (h8 : o % 8 = 0) :
    d.portWrite lc false o 8 v = d.regWrite lc { s := r, o := o, lo := 0, w := 64, v := v } := by
  unfold Dev.portWrite
  split
  · next hd => exact (d.onWrite_lost (by simpa using hd) _ _ _).symm
  · rw [if_neg (by simp [h8]), if_neg (by simp), if_neg (by simp), Dev.write8, d.target_of_regAt h (by omega) (by omega),
      d.target_of_regAt hu hlt (by omega)]
    simp

end Sys2Proof.Machine
end

section
/-! SUPPORT. A register whose write does nothing beyond changing its fields (00 R12 to R16). -/

namespace Sys2Proof.Machine

variable (d : Dev)

theorem plainAt_range {o : Nat} (h : plainAt o = true) : o < 0x2C100 ∧ (o < 0x4100 ∨ 0x8000 ≤ o) := by
  simp [plainAt] at h
  omega

/-- The write of a plain register changes its fields under their access codes. -/
theorem Dev.regWrite_plain (lc : LifeCycle) (r : RegW) (h : plainAt r.o = true) (ht : d.takesWrite r.o) :
    d.regWrite lc r = d.fieldWrite r := by
  simp [plainAt] at h
  rw [Dev.regWrite, d.onWrite_of_takesWrite ht]
  split
  · unfold Dev.writePv
    split
    case h_8 => rfl
    all_goals omega
  · split
    · rw [Dev.writeHx, if_neg (by omega), if_neg (by unfold p8Cmd; omega), if_pos (by omega)]
    · split
      · unfold Dev.writeCp
        split
        case h_4 => rfl
        all_goals omega
      · split
        · rw [Dev.writeRt, if_neg (by unfold rtCmdReg; omega), if_neg (by omega)]
        · split
          · rw [Dev.writeSv, if_neg (by omega), if_neg (by omega)]
          · split
            · rw [Dev.writeRdSh, if_neg (by omega), if_neg (by omega), if_neg (by omega), if_neg (by omega)]
            · split
              · rw [Dev.writeWf, if_neg (by omega)]
              · split
                · rw [Dev.writeBt, if_neg (by omega), if_neg (by omega)]
                · split
                  · rw [Dev.writeTl, if_neg (by omega), if_neg (by omega), if_neg (by omega)]
                  · rw [Dev.writePl, if_pos (by omega)]

/-- The host's write of a whole plain register of 4 or 8 bytes. -/
theorem Dev.portWrite_plain (lc : LifeCycle) {o : Nat} {r : RegSpec} (v : Nat) (h : regAt o = some (r, o)) (hp : plainAt o = true)
    (ha : o % r.bytes = 0) (ht : d.takesWrite o) :
    ∃ x, (∀ lo w, lo + w ≤ 8 * r.bytes → bits x lo w = bits v lo w) ∧
      d.portWrite lc false o r.bytes v = d.applyWrite r o 0 (8 * r.bytes) x := by
  obtain ⟨hlt, hc⟩ := plainAt_range hp
  rcases (regRows_sound r (regAt_some h).1).2 with h4 | h8
  · refine ⟨v % 2 ^ 32, fun lo w hw => bits_mod v lo w 32 (by omega), ?_⟩
    rw [h4] at ha ⊢
    rw [d.portWrite_four lc v h (by omega) (by omega) ha, d.regWrite_plain lc { s := r, o := o, lo := _, w := _, v := _ } hp ht, h4, ha]
    rfl
  · obtain ⟨q, hq⟩ := regAt_upper h hp h8
    refine ⟨v, fun _ _ _ => rfl, ?_⟩
    rw [h8] at ha ⊢
    rw [d.portWrite_eight lc v h hq (by omega) (by omega) ha, d.regWrite_plain lc { s := r, o := o, lo := _, w := _, v := _ } hp ht]
    rfl

/-- A field write changes registers and may record entries of no partition; all else stands. -/
theorem Dev.applyWrite_rest (r : RegSpec) (o lo w v : Nat) :
    (d.applyWrite r o lo w v).mem = d.mem ∧ (d.applyWrite r o lo w v).rings = d.rings ∧ (d.applyWrite r o lo w v).tiles = d.tiles ∧
    (d.applyWrite r o lo w v).sigsDue = d.sigsDue ∧ (d.applyWrite r o lo w v).stopsDue = d.stopsDue ∧
    (d.applyWrite r o lo w v).fatalDue = d.fatalDue ∧ (d.applyWrite r o lo w v).sv = d.sv := by
  unfold Dev.applyWrite
  simp only []
  (repeat' split) <;> simp [Dev.recordReg]

/-- A write of a whole plain register: each field by its access code, every other register, memory, rings and tiles as before. -/
theorem exec_registerWrite_plain {s : State} (hq : s.dev.quiet = true) {o : Nat} {r : RegSpec} (v : Word64)
    (h : regAt o = some (r, o)) (hp : plainAt o = true) (ha : o % r.bytes = 0) (ht : s.dev.takesWrite o) :
    ∃ t, exec (.registerWrite false o r.bytes v) s = .next t ∧
      (∀ f ∈ r.fields, (∀ b, lockAt o = some (o, b) → f.lo + f.w ≤ b ∨ b < f.lo) →
        t.dev.fld o f.lo f.w = f.after (s.dev.locked o) (s.dev.fld o f.lo f.w) (bits v.toNat f.lo f.w)) ∧
      (∀ x, x ≠ o → t.dev.reg x = s.dev.reg x) ∧ t.dev.mem = s.dev.mem ∧ t.dev.rings = s.dev.rings ∧ t.dev.tiles = s.dev.tiles := by
  obtain ⟨x, hx, e⟩ := s.dev.portWrite_plain s.fuses.lc v.toNat h hp ha ht
  obtain ⟨hmem, hrings, htiles, hsigs, hstops, hfatal, hsv⟩ := s.dev.applyWrite_rest r o 0 (8 * r.bytes) x
  have hs := (regRows_sound r (regAt_some h).1).1
  refine ⟨_, exec_of_quiet (exec_registerWrite ..) e hq hsigs hstops hfatal (by rw [hsv]), ?_, fun y hy => s.dev.reg_applyWrite hy,
    hmem, hrings, htiles⟩
  intro f hf hl
  have hfit : f.lo + f.w ≤ 8 * r.bytes := by
    simp only [RegSpec.sound, Bool.and_eq_true, decide_eq_true_eq, List.all_eq_true] at hs
    exact (hs.1.2 f hf).2
  rw [s.dev.fld_applyWrite hs hf hl, hx _ _ hfit]

end Sys2Proof.Machine
end

section
/-! SUPPORT. The MSI-X table (11 R344), and the rows that are the write of one register (00 R12). -/

namespace Sys2Proof.Machine

variable (d : Dev)

/-- A vector that is sent leaves the table and the registers alone, and makes nothing due. -/
theorem Dev.unmasked_rest (v : Nat) :
    (d.unmasked v).msix = d.msix ∧ (d.unmasked v).regs = d.regs ∧ (d.unmasked v).sigsDue = d.sigsDue ∧
    (d.unmasked v).stopsDue = d.stopsDue ∧ (d.unmasked v).fatalDue = d.fatalDue ∧ (d.unmasked v).sv = d.sv := by
  unfold Dev.unmasked
  split <;> simp

/-- A write of a word of an MSI-X entry changes that entry. -/
theorem exec_registerWrite_msix {s : State} (hq : s.dev.quiet = true) {off : Nat} (v : Word64) (hlt : off < 0x8000) (h4 : off % 4 = 0)
    (h1 : s.dev.on = true) (h2 : s.dev.power.d3 = false) (h3 : s.dev.power.st ≠ .held) :
    ∃ t, exec (.registerWrite true off 4 v) s = .next t ∧
      t.dev.msixEntry (off / 16) = (s.dev.msixEntry (off / 16)).write (off % 16 / 4) (v.toNat % 2 ^ 32) ∧ t.dev.regs = s.dev.regs := by
  have e : s.dev.portWrite s.fuses.lc true off 4 v.toNat = s.dev.msixWrite4 off (v.toNat % 2 ^ 32) := by
    unfold Dev.portWrite
    rw [if_neg (by simp [h1, h2]), if_neg (by simp [h4]), if_pos rfl, Dev.bar2Write,
      if_neg (by simp only [h3, false_or]; omega), if_pos hlt]
    rfl
  let x := (s.dev.msixEntry (off / 16)).write (off % 16 / 4) (v.toNat % 2 ^ 32)
  obtain ⟨hmsix, hregs, hsigs, hstops, hfatal, hsv⟩ := Dev.unmasked_rest
    { s.dev with msix := Sparse.set (fun _ => MsixEntry.reset) s.dev.msix (off / 16) x } (off / 16)
  refine ⟨_, exec_of_quiet (exec_registerWrite ..) e hq hsigs hstops hfatal (congrArg _ hsv), ?_, hregs⟩
  rw [Dev.msixEntry, Dev.msixWrite4, hmsix, Sparse.get_set_self]

/-- A row with the effect that a 4-byte write of `v` has on the register at `off` equals that write. -/
theorem exec_eq_registerWrite {s : State} {i : Instr} {f : Dev → Dev} {off v : Nat} (key : exec i s = s.after f)
    (h : (regAt off).map Prod.snd = some off) (hlt : off < 0x30000) (hc : off < 0x7000 ∨ 0x8000 ≤ off) (h4 : off % 4 = 0)
    (hv : v < 2 ^ 32) (hf : ∀ (d : Dev) r lo, d.regWrite s.fuses.lc { s := r, o := off, lo := lo, w := 32, v := v } = f d) :
    exec i s = exec (.registerWrite false off 4 (BitVec.ofNat 64 v)) s := by
  obtain ⟨⟨r, _⟩, hr, rfl⟩ := Option.map_eq_some_iff.1 h
  have hv64 : (BitVec.ofNat 64 v).toNat % 2 ^ 32 = v := by
    rw [BitVec.toNat_ofNat, Nat.mod_mod_of_dvd _ (by decide), Nat.mod_eq_of_lt hv]
  rw [key, exec_registerWrite, State.after, State.after, Dev.portWrite_four _ _ _ hr hlt hc h4, hv64, hf]

/-- `HX_CTX_CTRL` takes commands. -/
theorem Dev.regWrite_ctxCtrl {p : Nat} (hp : p < 4) (lc : LifeCycle) (r : RegSpec) (lo v : Nat) :
    d.regWrite lc { s := r, o := ctxReg p, lo := lo, w := 32, v := v } =
      d.onWrite (ctxReg p) v fun d => d.writeCtxCtrl lc p { s := r, o := ctxReg p, lo := lo, w := 32, v := v } := by
  have ho : ctxReg p = 0x4100 + 0x100 * p := rfl
  refine congrArg (d.onWrite _ _) (funext fun d => ?_)
  dsimp only
  rw [if_neg (by omega), if_pos (by omega), Dev.writeHx]
  dsimp only
  rw [if_neg (by omega), if_neg (by unfold p8Cmd; omega), if_neg (by omega), if_pos (by omega),
    show (ctxReg p - 0x4100) / 0x100 = p by omega, show ctxReg p % 0x100 = 0 by omega]
  rfl

/-- `CP_LOG_CTRL` clears the entries, or pins anew. -/
theorem Dev.regWrite_logCtrl (lc : LifeCycle) (r : RegSpec) (lo v : Nat) :
    d.regWrite lc { s := r, o := 0x800C, lo := lo, w := 32, v := v } = d.onWrite 0x800C v fun d =>
      (fun e : Dev => if bit v 1 then e.unpin else e) (if bit v 0 then d.clearAll else d) := by
  refine congrArg (d.onWrite _ _) (funext fun d => ?_)
  dsimp only
  rw [if_neg (by omega), if_neg (by omega), if_pos (by omega)]
  rfl

/-- `TL_OVF_CLEAR`. -/
theorem Dev.regWrite_tlOvf {p : Nat} (hp : p < 4) (lc : LifeCycle) (r : RegSpec) (lo : Nat) :
    d.regWrite lc { s := r, o := 0x20130 + 0x40 * p, lo := lo, w := 32, v := 1 } = d.tlOvfClear p := by
  refine .trans (congrArg (d.onWrite _ _) (funext fun d => ?_)) (d.onWrite_onWrite (0x20130 + 0x40 * p) 1 _)
  dsimp only
  (iterate 8 rw [if_neg (by omega)])
  rw [if_pos (by omega), Dev.writeTl]
  dsimp only
  rw [if_neg (by omega), if_pos (by omega), if_pos (by decide), show (0x20130 + 0x40 * p - 0x20100) / 0x40 = p by omega]
  rfl

/-- `BT_OVF_CLEAR`. -/
theorem Dev.regWrite_btOvf {p : Nat} (hp : p < 4) (lc : LifeCycle) (r : RegSpec) (lo : Nat) :
    d.regWrite lc { s := r, o := 0x1C448 + 0x80 * p, lo := lo, w := 32, v := 1 } = d.btOvfClear p := by
  refine .trans (congrArg (d.onWrite _ _) (funext fun d => ?_)) (d.onWrite_onWrite (0x1C448 + 0x80 * p) 1 _)
  dsimp only
  (iterate 7 rw [if_neg (by omega)])
  rw [if_pos (by omega), Dev.writeBt]
  dsimp only
  rw [if_neg (by omega), if_pos (by omega), if_pos (by decide), show (0x1C448 + 0x80 * p - 0x1C400) / 0x80 = p by omega]
  rfl

/-- The registers of the rows that are writes of one register are where those rows write. -/
theorem regAt_writeRows : ∀ x ∈ writeRows, (regAt x.2.1).map Prod.snd = some x.2.1 := by
  have h : ∀ o ∈ writeRows.map fun x => x.2.1, (regAt o).map Prod.snd = some o := by decide +kernel
  exact fun x hx => h _ (List.mem_map_of_mem hx)

/-- A row that commands a partition's context equals the write of its command to `HX_CTX_CTRL`. -/
theorem exec_eq_ctxCtrl {s : State} {i : Instr} {p v : Nat} {f : Dev → Dev} (hp : p < 4) (hi : (i, ctxReg p, 4, v) ∈ writeRows)
    (key : exec i s = s.after fun d => if p < 4 then f d else d) (hv : v < 2 ^ 32)
    (hf : ∀ (d : Dev) r lo, d.onWrite (ctxReg p) v (fun d =>
      d.writeCtxCtrl s.fuses.lc p { s := r, o := ctxReg p, lo := lo, w := 32, v := v }) = f d) :
    exec i s = exec (.registerWrite false (ctxReg p) 4 (BitVec.ofNat 64 v)) s :=
  exec_eq_registerWrite key (regAt_writeRows _ hi) (by unfold ctxReg; omega) (by unfold ctxReg; omega) (by unfold ctxReg; omega) hv
    fun d r lo => by rw [d.regWrite_ctxCtrl hp, hf, if_pos hp]

/-- Every row of `writeRows` equals its register write. -/
theorem exec_writeRows (s : State) {x : Instr × Nat × Nat × Nat} (hx : x ∈ writeRows) :
    exec x.1 s = exec (.registerWrite false x.2.1 x.2.2.1 (BitVec.ofNat 64 x.2.2.2)) s := by
  have hreg := regAt_writeRows x hx
  have hmem := hx
  simp only [writeRows, List.mem_append, List.mem_flatMap, List.mem_range, List.mem_cons, List.not_mem_nil, or_false] at hmem
  rcases hmem with (rfl | rfl) | ⟨p, hp, rfl | rfl | rfl | rfl | rfl | rfl⟩
  case inl.inl =>
    exact exec_eq_registerWrite (f := Dev.clearAll) rfl hreg (by decide) (by decide) (by decide) (by decide) fun d r lo =>
      (d.regWrite_logCtrl _ r lo 1).trans (d.onWrite_onWrite _ _ _)
  case inl.inr =>
    exact exec_eq_registerWrite (f := Dev.unpin) rfl hreg (by decide) (by decide) (by decide) (by decide) fun d r lo =>
      (d.regWrite_logCtrl _ r lo 2).trans (d.onWrite_onWrite _ _ _)
  · exact exec_eq_ctxCtrl (v := 1) (f := fun d => d.openCtx s.fuses.lc p) hp hx rfl (by decide) fun d _ _ => d.onWrite_onWrite _ _ _
  · exact exec_eq_ctxCtrl (v := 2) (f := fun d => d.teardown p (ctxReg p) 2) hp hx rfl (by decide) fun d _ _ => d.onWrite_onWrite _ _ _
  · exact exec_eq_ctxCtrl (v := 4) (f := fun d => d.stopCtx p (ctxReg p) 4) hp hx rfl (by decide) fun d _ _ => d.onWrite_onWrite _ _ _
  · exact exec_eq_ctxCtrl (v := 8) (f := fun d => d.resumeCtx p (ctxReg p) 8) hp hx rfl (by decide) fun d _ _ => d.onWrite_onWrite _ _ _
  · exact exec_eq_registerWrite (f := fun d => d.tlOvfClear p) rfl hreg (by dsimp only; omega) (by dsimp only; omega)
      (by dsimp only; omega) (by dsimp only; omega) fun d _ _ => d.regWrite_tlOvf hp _ _ _
  · exact exec_eq_registerWrite (f := fun d => d.btOvfClear p) rfl hreg (by dsimp only; omega) (by dsimp only; omega)
      (by dsimp only; omega) (by dsimp only; omega) fun d _ _ => d.regWrite_btOvf hp _ _ _

end Sys2Proof.Machine
end

section
/-! SUPPORT. The controls of the fault log, fault injection, the overflow clears and stage balance (09 R283, R285, R287, 03 R106,
06 R182, 05 R148). -/

namespace Sys2Proof.Machine

/-- Listed values changed where there is one: what a key reads as changes likewise. -/
theorem Sparse.get_map_option {α : Type} (f : α → α) (m : Sparse (Option α)) (k : Nat) :
    Sparse.get (fun _ => none) (m.map fun e => (e.1, e.2.map f)) k = (Sparse.get (fun _ => none) m k).map f := by
  induction m with
  | nil => rfl
  | cons e m ih =>
    simp only [List.map_cons, Sparse.get, ih]
    split <;> rfl

/-- A listed value after `Sparse.alter` is `f` of one that was listed. -/
theorem Sparse.mem_alter {α : Type} [DecidableEq α] {g : Nat → α} {m : Sparse α} {f : Nat → α → α} {e : Nat × α}
    (h : e ∈ Sparse.alter g m f) : ∃ y, e.2 = f e.1 y := by
  obtain ⟨x, -, rfl⟩ := List.mem_map.1 (List.mem_of_mem_filter h)
  exact ⟨x.2, rfl⟩

/-- An entry of no partition changes no field. -/
theorem Dev.fld_record_none (d : Dev) (c k : Nat) (u : UnitType) (i y o lo w : Nat) :
    (d.record c k u i none y).fld o lo w = d.fld o lo w := by
  rw [Dev.fld, Dev.reg_record_none, Dev.fld]

theorem exec_clearAll {s : State} (hq : s.dev.quiet = true) (h : s.dev.takesWrite 0x800C) :
    ∃ t, exec .clearAll s = .next t ∧ t.dev.log.uncleared = 0 ∧ t.dev.faultLow = false ∧ t.dev.log.lostTop = 0 ∧
      (∀ i e, t.dev.log.entry i = some e → 2 ≤ e.cls → e.cleared = true) ∧ t.dev.log.seq = s.dev.log.seq := by
  refine ⟨_, exec_of_quiet (f := Dev.clearAll) rfl (Dev.onWrite_of_takesWrite _ h _ _) hq rfl rfl rfl rfl, rfl, rfl, rfl, ?_, rfl⟩
  intro i e he hc
  rw [FaultLog.entry, Sparse.get_map_option] at he
  obtain ⟨x, -, rfl⟩ := Option.map_eq_some_iff.1 he
  exact Bool.or_eq_true_iff.mpr (.inr (decide_eq_true hc))

theorem exec_unpin {s : State} (hq : s.dev.quiet = true) (h : s.dev.takesWrite 0x800C) :
    exec .unpin s = .next (s.withDev { s.dev with log := { s.dev.log with pinned := 0 } }) :=
  exec_of_quiet (f := Dev.unpin) rfl (Dev.onWrite_of_takesWrite _ h _ _) hq rfl rfl rfl rfl

/-- `CP_CLEAR` of no entry, of a class that is not counted or of a cleared entry does nothing. -/
theorem exec_cpClear_idle {s : State} (hq : s.dev.quiet = true) {i : Nat} (h : s.dev.takesWrite 0x8010)
    (hi : ∀ e, s.dev.log.entry i = some e → e.cls < 2 ∨ e.cleared = true) : exec (.cpClear i) s = .next s := by
  refine exec_of_quiet (f := fun d => d.clearEntry i) (d := s.dev) rfl ?_ hq rfl rfl rfl rfl
  rw [Dev.clearEntry, Dev.onWrite_of_takesWrite _ h]
  split
  · next e he => exact if_pos (hi e he)
  · rfl

theorem exec_cpClear {s : State} (hq : s.dev.quiet = true) {i : Nat} {e : LogEntry} (h : s.dev.takesWrite 0x8010)
    (hi : s.dev.log.entry i = some e) (h2 : 2 ≤ e.cls) (hc : e.cleared = false) :
    ∃ t, exec (.cpClear i) s = .next t ∧ t.dev.log.entry i = some { e with cleared := true } ∧
      (∀ j, j ≠ i → t.dev.log.entry j = s.dev.log.entry j) ∧
      t.dev.log.uncleared = (if s.dev.log.uncleared = 0xFFFF then 0xFFFF else s.dev.log.uncleared - 1) := by
  have he : s.dev.clearEntry i = { s.dev with log := { s.dev.log with
      entries := Sparse.set (fun _ => none) s.dev.log.entries i (some { e with cleared := true })
      uncleared := if s.dev.log.uncleared = 0xFFFF then 0xFFFF else s.dev.log.uncleared - 1 } } := by
    rw [Dev.clearEntry, Dev.onWrite_of_takesWrite _ h, hi]
    exact if_neg (by simp only [hc, Bool.false_eq_true, or_false]; omega)
  refine ⟨_, exec_of_quiet (f := fun d => d.clearEntry i) rfl he hq rfl rfl rfl rfl, ?_, fun j hj => ?_, rfl⟩
  · rw [FaultLog.entry, Sparse.get_set_self]
  · rw [FaultLog.entry, Sparse.get_set_ne _ _ _ hj, FaultLog.entry]

/-! ### Injection -/

theorem exec_injectArm_outside {s : State} (hq : s.dev.quiet = true) (v : Word64) (h : s.dev.takesWrite 0x8060) (hl : s.fuses.lc ≠ .test) :
    exec (.injectArm v) s = .next (s.withDev (s.dev.record 0 0x0320 .register (0x8060 / 4) none v.toNat)) := by
  refine exec_of_record (f := fun d => d.injectArm s.fuses.lc v.toNat v.toNat) hq rfl ?_
  rw [Dev.injectArm, Dev.onWrite_of_takesWrite _ h, if_pos hl, Dev.recordReg]

theorem exec_injectArm_armed {s : State} (hq : s.dev.quiet = true) (v : Word64) (h : s.dev.takesWrite 0x8060) (hl : s.fuses.lc = .test)
    (ha : s.dev.fld 0x8060 63 1 = 1) :
    exec (.injectArm v) s = .next (s.withDev (s.dev.record 0 0x0003 .register (0x8060 / 4) none v.toNat)) := by
  refine exec_of_record (f := fun d => d.injectArm s.fuses.lc v.toNat v.toNat) hq rfl ?_
  rw [Dev.injectArm, Dev.onWrite_of_takesWrite _ h, if_neg (by simp [hl]), if_pos ha, Dev.recordReg]

/-- A whole write of a register whose row is known is that of its fields. -/
theorem Dev.plainWrite_eq (d : Dev) {o q : Nat} {r : RegSpec} (h : regAt o = some (r, q)) (v : Nat) :
    d.plainWrite o v = d.applyWrite r o 0 (8 * r.bytes) v := by
  rw [Dev.plainWrite, h]

/-- The fields of `CP_INJECT`. -/
def injectSpec : RegSpec :=
  ⟨0x08060, 1, 0x0, 1, 0x0, 8, [⟨0, 4, .rw, 0, 10⟩, ⟨4, 8, .rw, 0, 13⟩, ⟨12, 16, .rw, 0, 65535⟩, ⟨28, 5, .rw, 0, 31⟩, ⟨63, 1, .rw, 0, 1⟩]⟩

theorem regAt_inject : regAt 0x8060 = some (injectSpec, 0x8060) := by decide +kernel

/-- An RW field takes every value of its range. -/
theorem RegField.after_rw {f : RegField} (h : f.acc = .rw) (lk : Bool) (old : Nat) {x : Nat} (hx : f.least ≤ x ∧ x ≤ f.most) :
    f.after lk old x = x := by
  rw [RegField.after, h]
  exact if_neg (by omega)

theorem Dev.fld_plainWrite_inject (d : Dev) (v : Nat) {f : RegField} (hf : f ∈ injectSpec.fields) (hr : f.acc = .rw)
    (hx : f.least ≤ bits v f.lo f.w ∧ bits v f.lo f.w ≤ f.most) : (d.plainWrite 0x8060 v).fld 0x8060 f.lo f.w = bits v f.lo f.w := by
  rw [d.plainWrite_eq regAt_inject, d.fld_applyWrite (by decide) hf (fun b hb => absurd hb (by simp [lockAt])), f.after_rw hr _ _ hx]

theorem exec_injectArm {s : State} (hq : s.dev.quiet = true) (v : Word64) (h : s.dev.takesWrite 0x8060) (hl : s.fuses.lc = .test)
    (ha : s.dev.fld 0x8060 63 1 = 0) (hk : bits v.toNat 0 4 ≤ 10) :
    ∃ t, exec (.injectArm v) s = .next t ∧ t.dev.fld 0x8060 0 4 = bits v.toNat 0 4 ∧ t.dev.fld 0x8060 63 1 = bits v.toNat 63 1 ∧
      t.dev.mem = s.dev.mem := by
  have e : s.dev.injectArm s.fuses.lc v.toNat v.toNat = s.dev.plainWrite 0x8060 v.toNat := by
    rw [Dev.injectArm, Dev.onWrite_of_takesWrite _ h, if_neg (by simp [hl]), if_neg (by omega)]
  obtain ⟨hmem, -, -, hsigs, hstops, hfatal, hsv⟩ := s.dev.applyWrite_rest injectSpec 0x8060 0 (8 * injectSpec.bytes) v.toNat
  rw [← s.dev.plainWrite_eq regAt_inject] at hmem hsigs hstops hfatal hsv
  refine ⟨_, exec_of_quiet (f := fun d => d.injectArm s.fuses.lc v.toNat v.toNat) rfl e hq hsigs hstops hfatal (congrArg _ hsv), ?_, ?_, hmem⟩
  · exact s.dev.fld_plainWrite_inject v.toNat (f := ⟨0, 4, .rw, 0, 10⟩) (by decide) rfl ⟨Nat.zero_le _, hk⟩
  · exact s.dev.fld_plainWrite_inject v.toNat (f := ⟨63, 1, .rw, 0, 1⟩) (by decide) rfl ⟨Nat.zero_le _, Nat.le_of_lt_succ (bits_lt _ _ _)⟩

/-! ### Overflow clears -/

theorem exec_tlOvfClear {s : State} (hq : s.dev.quiet = true) {p : Nat} (h : s.dev.takesWrite (0x20130 + 0x40 * p)) :
    ∃ t, exec (.tlOvfClear p) s = .next t ∧
      (∀ e ∈ t.dev.tiles.logical, tilePart s.dev.parts e.1 = p → e.2.sat = 0 ∧ e.2.nanint = 0) ∧ t.dev.regs = s.dev.regs ∧
      t.dev.mem = s.dev.mem := by
  refine ⟨_, exec_of_quiet (f := fun d => d.tlOvfClear p) rfl (Dev.onWrite_of_takesWrite _ h _ _) hq rfl rfl rfl rfl, ?_, rfl, rfl⟩
  intro e he hp
  dsimp only at he
  obtain ⟨y, hy⟩ := Sparse.mem_alter he
  rw [hy, if_pos hp]
  exact ⟨rfl, rfl⟩

theorem exec_btOvfClear {s : State} (hq : s.dev.quiet = true) {p : Nat} (h : s.dev.takesWrite (0x1C448 + 0x80 * p)) :
    exec (.btOvfClear p) s = .next (s.withDev (s.dev.setReg (btReg p + 0x18) 0)) :=
  exec_of_quiet (f := fun d => d.btOvfClear p) rfl (Dev.onWrite_of_takesWrite _ h _ _) hq rfl rfl rfl rfl

/-! ### Stage balance -/

/-- The fields of `TL_MB_CTRL`. -/
def mbSpec : RegSpec := ⟨0x26000, 4, 0x40, 1, 0x0, 4, [⟨0, 14, .rw, 0, 16383⟩, ⟨14, 1, .rw, 0, 1⟩, ⟨16, 8, .rw, 9, 255⟩]⟩

theorem regAt_mbReg : ∀ p < 4, regAt (mbReg p) = some (mbSpec, mbReg p) := by decide +kernel

theorem lockAt_mbReg {p : Nat} (hp : p < 4) : lockAt (mbReg p) = some (0x20000, 1) := by
  have ho : mbReg p = 0x26000 + 0x40 * p := rfl
  rw [lockAt, if_neg (by omega), if_neg (by omega), if_neg (by omega), if_pos (by omega), if_pos (by omega)]

theorem Dev.fld_plainWrite_mb (d : Dev) {p : Nat} (hp : p < 4) (v : Nat) {f : RegField} (hf : f ∈ mbSpec.fields) (hr : f.acc = .rw)
    (hx : f.least ≤ bits v f.lo f.w ∧ bits v f.lo f.w ≤ f.most) :
    (d.plainWrite (mbReg p) v).fld (mbReg p) f.lo f.w = bits v f.lo f.w := by
  have hl : ∀ b, lockAt (mbReg p) = some (mbReg p, b) → f.lo + f.w ≤ b ∨ b < f.lo := by
    intro b hb
    rw [lockAt_mbReg hp] at hb
    have ho : mbReg p = 0x26000 + 0x40 * p := rfl
    simp only [Option.some.injEq, Prod.mk.injEq] at hb
    omega
  rw [d.plainWrite_eq (regAt_mbReg p hp), d.fld_applyWrite (by decide) hf hl, f.after_rw hr _ _ hx]

theorem Dev.mb_plainWrite (d : Dev) {p : Nat} (hp : p < 4) (v : Nat) : (d.plainWrite (mbReg p) v).mb p = d.mb p := by
  obtain ⟨-, -, htiles, -⟩ := d.applyWrite_rest mbSpec (mbReg p) 0 (8 * mbSpec.bytes) v
  rw [d.plainWrite_eq (regAt_mbReg p hp), Dev.mb, htiles]
  rfl

/-- Registers at offsets `l` from `b` set to 0. -/
theorem Dev.reg_foldl_setReg_zero (b : Nat) (l : List Nat) : ∀ (d : Dev) (x : Nat),
    (l.foldl (fun d i => d.setReg (b + i) 0) d).reg x = if x ∈ l.map (b + ·) then 0 else d.reg x := by
  induction l with
  | nil => intro d x; rfl
  | cons i l ih =>
    intro d x
    rw [List.foldl_cons, ih, Dev.reg_setReg, List.map_cons]
    by_cases h : x ∈ l.map (b + ·)
    · rw [if_pos h, if_pos (List.mem_cons_of_mem _ h)]
    · simp only [if_neg h, List.mem_cons, or_iff_left h]

@[simp] theorem Dev.reg_setMb (d : Dev) (p : Nat) (m : MbPart) (x : Nat) : (d.setMb p m).reg x = d.reg x := rfl

theorem Dev.reg_mbStart (d : Dev) (p x : Nat) :
    (d.mbStart p).reg x = if x ∈ [8, 0x10, 0x18, 0x20, 0x28].map (mbReg p + ·) then 0 else d.reg x := by
  rw [Dev.mbStart, Dev.reg_setMb, Dev.reg_foldl_setReg_zero]

theorem Dev.mb_mbStart (d : Dev) (p : Nat) : (d.mbStart p).mb p = { origin := none, durations := [] } := by
  rw [Dev.mb, Dev.mbStart, Dev.setMb, Sparse.get_set_self]

theorem Dev.mbStart_due (d : Dev) (p : Nat) :
    (d.mbStart p).sigsDue = d.sigsDue ∧ (d.mbStart p).stopsDue = d.stopsDue ∧ (d.mbStart p).fatalDue = d.fatalDue ∧
    (d.mbStart p).sv = d.sv := by
  simp [Dev.mbStart, Dev.setMb]

theorem Dev.plainWrite_mb_due (d : Dev) {p : Nat} (hp : p < 4) (v : Nat) :
    (d.plainWrite (mbReg p) v).sigsDue = d.sigsDue ∧ (d.plainWrite (mbReg p) v).stopsDue = d.stopsDue ∧
    (d.plainWrite (mbReg p) v).fatalDue = d.fatalDue ∧ (d.plainWrite (mbReg p) v).sv = d.sv := by
  obtain ⟨-, -, -, hdue⟩ := d.applyWrite_rest mbSpec (mbReg p) 0 (8 * mbSpec.bytes) v
  rwa [d.plainWrite_eq (regAt_mbReg p hp)]

/-- `ENABLE` from 0 to 1: the fields take the write, every counter and the history start anew. -/
theorem exec_mbTimingEnable_start {s : State} (hq : s.dev.quiet = true) {p : Nat} (v : BitVec 32) (hp : p < 4)
    (h : s.dev.takesWrite (mbReg p)) (h0 : s.dev.fld (mbReg p) 14 1 = 0) (h1 : bits v.toNat 14 1 = 1) :
    ∃ t, exec (.mbTimingEnable p v) s = .next t ∧ t.dev.fld (mbReg p) 14 1 = 1 ∧ t.dev.fld (mbReg p) 0 14 = bits v.toNat 0 14 ∧
      (∀ i ∈ [8, 0x10, 0x18, 0x20, 0x28], t.dev.reg (mbReg p + i) = 0) ∧ t.dev.mb p = { origin := none, durations := [] } := by
  have hon : (s.dev.plainWrite (mbReg p) v.toNat).fld (mbReg p) 14 1 = 1 :=
    (s.dev.fld_plainWrite_mb hp v.toNat (f := ⟨14, 1, .rw, 0, 1⟩) (by decide) rfl ⟨Nat.zero_le _, h1.le⟩).trans h1
  have hfence : (s.dev.plainWrite (mbReg p) v.toNat).fld (mbReg p) 0 14 = bits v.toNat 0 14 :=
    s.dev.fld_plainWrite_mb hp v.toNat (f := ⟨0, 14, .rw, 0, 16383⟩) (by decide) rfl
      ⟨Nat.zero_le _, Nat.le_of_lt_succ (bits_lt _ _ _)⟩
  have e : s.dev.mbControl p v.toNat = (s.dev.plainWrite (mbReg p) v.toNat).mbStart p := by
    rw [Dev.mbControl, Dev.onWrite_of_takesWrite _ h]
    dsimp only
    rw [if_neg (by simp [h0]), if_pos hon]
  obtain ⟨hsigs, hstops, hfatal, hsv⟩ := s.dev.plainWrite_mb_due hp v.toNat
  obtain ⟨ksigs, kstops, kfatal, ksv⟩ := (s.dev.plainWrite (mbReg p) v.toNat).mbStart_due p
  have hself : ∀ lo w, ((s.dev.plainWrite (mbReg p) v.toNat).mbStart p).fld (mbReg p) lo w =
      (s.dev.plainWrite (mbReg p) v.toNat).fld (mbReg p) lo w := by
    intro lo w
    rw [Dev.fld, Dev.reg_mbStart, if_neg (by simp), Dev.fld]
  exact ⟨_, exec_of_quiet (f := fun d => d.mbControl p v.toNat) rfl e hq (ksigs.trans hsigs) (kstops.trans hstops)
      (kfatal.trans hfatal) (congrArg _ (ksv.trans hsv)), (hself 14 1).trans hon, (hself 0 14).trans hfence,
    fun i hi => (Dev.reg_mbStart _ _ _).trans (if_pos (List.mem_map_of_mem hi)), Dev.mb_mbStart _ _⟩

/-- While `ENABLE` is 1 neither `FENCE` nor the counters change. -/
theorem exec_mbTimingEnable_on {s : State} (hq : s.dev.quiet = true) {p : Nat} (v : BitVec 32) (hp : p < 4)
    (h : s.dev.takesWrite (mbReg p)) (h1 : s.dev.fld (mbReg p) 14 1 = 1) :
    ∃ t, exec (.mbTimingEnable p v) s = .next t ∧ t.dev.fld (mbReg p) 0 14 = s.dev.fld (mbReg p) 0 14 ∧ t.dev.mb p = s.dev.mb p := by
  have e : s.dev.mbControl p v.toNat = ((s.dev.plainWrite (mbReg p) v.toNat).setFld (mbReg p) 0 14
      (s.dev.fld (mbReg p) 0 14)).recordReg 0x0003 (mbReg p) v.toNat := by
    rw [Dev.mbControl, Dev.onWrite_of_takesWrite _ h]
    dsimp only
    rw [if_pos (by simp [h1])]
  obtain ⟨hsigs, hstops, hfatal, hsv⟩ := s.dev.plainWrite_mb_due hp v.toNat
  refine ⟨_, exec_of_quiet (f := fun d => d.mbControl p v.toNat) rfl e hq (by simp [Dev.recordReg, hsigs])
    (by simp [Dev.recordReg, hstops]) (by simp [Dev.recordReg, hfatal]) (by simp [Dev.recordReg, hsv]), ?_, ?_⟩
  · dsimp only
    rw [Dev.recordReg, Dev.fld_record_none]
    exact (Dev.fld_setFld _ (by decide : 0 + 14 ≤ 64)).trans (Nat.mod_eq_of_lt (bits_lt _ _ _))
  · rw [← s.dev.mb_plainWrite hp v.toNat]
    simp [Dev.mb, Dev.recordReg]

end Sys2Proof.Machine
end

section
/-! SUPPORT. The partition count changes while nothing is open (01 R19 to R21): the shares of Table 01-3, and the logical tiles that
go back to their dies. -/

namespace Sys2Proof.Machine

variable (d : Dev)

/-- `e` is `d` but for registers, tiles and units. -/
def Dev.Rehomed (d e : Dev) : Prop := e = { d with regs := e.regs, tiles := e.tiles, units := e.units }

theorem Dev.Rehomed.refl (d : Dev) : d.Rehomed d := rfl

theorem Dev.Rehomed.trans {a b c : Dev} (h : a.Rehomed b) (k : b.Rehomed c) : a.Rehomed c := by
  unfold Dev.Rehomed at *; rw [k, h]

theorem Dev.Rehomed.foldl {α : Type} {f : Dev → α → Dev} (hf : ∀ (d : Dev) x, d.Rehomed (f d x)) (l : List α) : ∀ d : Dev,
    d.Rehomed (l.foldl f d) := by
  induction l with
  | nil => exact Dev.Rehomed.refl
  | cons x l ih => exact fun d => (hf d x).trans (ih _)

theorem Dev.rehomed_setReg (o : Nat) (v : Word64) : d.Rehomed (d.setReg o v) := rfl

theorem Dev.rehomed_setMap (l : Nat) (t : Option Nat) : d.Rehomed (d.setMap l t) := rfl

theorem Dev.reg_setMap (l : Nat) (t : Option Nat) (o : Nat) : (d.setMap l t).reg o = d.reg o := rfl

theorem Dev.rehomed_bump (o n : Nat) : d.Rehomed (d.bump o n) := rfl

theorem Dev.rehomed_showState (l c : Nat) : d.Rehomed (d.showState l c) := by
  unfold Dev.showState; split <;> rfl

theorem Dev.rehomed_restState (l : Nat) : d.Rehomed (d.restState l) := by
  unfold Dev.restState
  simp only []
  refine .trans ?_ (Dev.rehomed_showState _ _ _)
  (repeat' split) <;> rfl

theorem Dev.rehomed_beginTest (t : Nat) : d.Rehomed (d.beginTest t) := by
  unfold Dev.beginTest; (repeat' split) <;> rfl

theorem Dev.rehomed_freed (t : Nat) : d.Rehomed (d.freed t) := by
  unfold Dev.freed
  split
  · rfl
  · split
    · exact .trans (b := d.setLeaving t 0) rfl (Dev.rehomed_beginTest _ t)
    · exact d.rehomed_beginTest t
    · rfl

/-- A unit's test, and a tile that is freed, change no register. -/
theorem Dev.regs_freed (t : Nat) : (d.freed t).regs = d.regs := by
  unfold Dev.freed Dev.beginTest
  (repeat' split) <;> simp

/-- A tile that goes back to its own dies. -/
theorem Dev.rehomed_rehome (l : Nat) : d.Rehomed (d.rehome l) := by
  unfold Dev.rehome
  split
  · rfl
  · split
    · rfl
    · refine .trans ?_ (Dev.rehomed_freed _ _)
      split
      · exact .trans (.trans (d.rehomed_setMap l _) (Dev.rehomed_bump _ _ _)) (Dev.rehomed_restState _ l)
      · exact d.rehomed_setMap l _

theorem Dev.rehomed_rehomeAll : d.Rehomed d.rehomeAll := Dev.Rehomed.foldl (fun d l => d.rehomed_rehome l) _ d

/-- Rehoming counts in the tiles' own counters alone. -/
theorem Dev.reg_rehome (l o : Nat) (ho : o < 0x20120) : (d.rehome l).reg o = d.reg o := by
  have hregs : ∀ a b : Dev, a.regs = b.regs → a.reg o = b.reg o := by intro a b h; rw [Dev.reg, h, Dev.reg]
  unfold Dev.rehome
  split
  · rfl
  · split
    · rfl
    · rw [hregs _ _ (Dev.regs_freed _ _)]
      split
      · rw [Dev.reg_restState _ _ _ (by intro p; omega), Dev.reg_bump, if_neg (by omega), Dev.reg_setMap]
      · exact d.reg_setMap l _ o

theorem Dev.reg_rehomeAll {o : Nat} (ho : o < 0x20120) : d.rehomeAll.reg o = d.reg o := by
  have h : ∀ (ls : List Nat) (d : Dev), (ls.foldl Dev.rehome d).reg o = d.reg o := by
    intro ls
    induction ls with
    | nil => intro d; rfl
    | cons l ls ih => intro d; rw [List.foldl_cons, ih, d.reg_rehome l o ho]
  exact h _ d

/-! ### Shares -/

/-- `HX_SHARE` of partition `p` at share `x` for its host and link path, 0 where `p` is not presented. -/
def Dev.putShare (x : Nat) (d : Dev) (p : Nat) : Dev :=
  d.setReg (0x4130 + 0x100 * p) (BitVec.ofNat 64 (if p < d.parts then x + x * 256 else 0))

theorem Dev.defaultShares_eq : d.defaultShares = (List.range 4).foldl (Dev.putShare (64 / d.parts)) d := rfl

theorem Dev.rehomed_defaultShares : d.Rehomed d.defaultShares := by
  rw [Dev.defaultShares_eq]
  exact Dev.Rehomed.foldl (fun d p => d.rehomed_setReg _ _) _ d

theorem Dev.parts_of_reg {d e : Dev} (h : e.reg 0x1C = d.reg 0x1C) : e.parts = d.parts := by
  rw [Dev.parts, Dev.fld, h, Dev.parts, Dev.fld]

theorem Dev.reg_putShare_count (x : Nat) (ps : List Nat) : ∀ d : Dev, (ps.foldl (Dev.putShare x) d).reg 0x1C = d.reg 0x1C := by
  induction ps with
  | nil => intro d; rfl
  | cons p ps ih => intro d; rw [List.foldl_cons, ih, Dev.putShare, Dev.reg_setReg_ne _ _ (by omega)]

theorem Dev.reg_putShare (x q : Nat) (ps : List Nat) : ∀ d : Dev, (ps.foldl (Dev.putShare x) d).reg (0x4130 + 0x100 * q) =
    if q ∈ ps then BitVec.ofNat 64 (if q < d.parts then x + x * 256 else 0) else d.reg (0x4130 + 0x100 * q) := by
  induction ps with
  | nil => intro d; rfl
  | cons p ps ih =>
    intro d
    have hp : (d.putShare x p).parts = d.parts := Dev.parts_of_reg (d.reg_setReg_ne _ (by omega))
    rw [List.foldl_cons, ih, hp]
    by_cases hq : q ∈ ps
    · rw [if_pos hq, if_pos (List.mem_cons_of_mem _ hq)]
    · by_cases h : q = p
      · subst h
        rw [if_neg hq, if_pos List.mem_cons_self, Dev.putShare, Dev.reg_setReg, if_pos rfl]
      · rw [if_neg hq, if_neg (by simp [h, hq]), Dev.putShare, Dev.reg_setReg_ne _ _ (by omega)]

theorem Dev.parts_cases : d.parts = 1 ∨ d.parts = 2 ∨ d.parts = 4 := by
  unfold Dev.parts; split <;> simp

/-- The host share of a partition presented is an equal part of 64 (Table 01-3). -/
theorem Dev.fld_defaultShares {p : Nat} (hp : p < d.parts) : d.defaultShares.fld (0x4130 + 0x100 * p) 0 7 = 64 / d.parts := by
  rw [Dev.fld, d.defaultShares_eq, Dev.reg_putShare, if_pos hp]
  rcases d.parts_cases with h | h | h <;> rw [h] at hp ⊢ <;> rw [if_pos (List.mem_range.mpr (by omega))] <;> rfl

/-! ### `PARTITION_COUNT_CHANGE` -/

/-- `PARTS` at `v` with everything that follows. -/
def Dev.recounted (d : Dev) (v : Nat) : Dev := (d.setFld 0x1C 0 2 v).defaultShares.rehomeAll

theorem Dev.rehomed_recounted (v : Nat) : d.Rehomed (d.recounted v) :=
  .trans (d.rehomed_setReg _ _) (.trans (Dev.rehomed_defaultShares _) (Dev.rehomed_rehomeAll _))

theorem Dev.reg_recounted_count (v : Nat) : (d.recounted v).reg 0x1C = (d.setFld 0x1C 0 2 v).reg 0x1C := by
  rw [Dev.recounted, Dev.reg_rehomeAll _ (by omega), Dev.defaultShares_eq, Dev.reg_putShare_count]

theorem Dev.fld_recounted_count {v : Nat} (hv : v < 4) : (d.recounted v).fld 0x1C 0 2 = v := by
  rw [Dev.fld, Dev.reg_recounted_count]
  exact (d.fld_setFld (by decide : 0 + 2 ≤ 64)).trans (Nat.mod_eq_of_lt hv)

theorem Dev.fld_recounted_share {v p : Nat} (hp : p < (d.recounted v).parts) :
    (d.recounted v).fld (0x4130 + 0x100 * p) 0 7 = 64 / (d.recounted v).parts := by
  have hn : (d.recounted v).parts = (d.setFld 0x1C 0 2 v).parts := Dev.parts_of_reg (d.reg_recounted_count v)
  have h4 := Dev.parts_cases (d.recounted v)
  rw [hn] at hp ⊢
  rw [← Dev.fld_defaultShares _ hp, Dev.fld, Dev.recounted, Dev.reg_rehomeAll _ (by omega), Dev.fld]

/-- A write of `PARTS` that the port delivers. -/
theorem Dev.partitionCount_eq (h : d.takesWrite 0x1C) (v : Nat) : d.partitionCount v =
    if v % 4 = 3 then d.recordReg 0x0001 0x1C v
    else if v % 4 = d.fld 0x1C 0 2 then d
    else if d.anyOpen ∨ !d.allClosed then (d.setFld 0x1C 8 1 1).recordReg 0x0003 0x1C v
    else d.recounted v := d.onWrite_of_takesWrite h _ _

/-- `PARTITION_COUNT_CHANGE` with an effect that makes nothing due. -/
theorem exec_partitionCountChange {s : State} {v : BitVec 2} {d : Dev} (e : s.dev.partitionCount v.toNat = d)
    (hq : s.dev.quiet = true) (h1 : d.sigsDue = s.dev.sigsDue) (h2 : d.stopsDue = s.dev.stopsDue)
    (h3 : d.fatalDue = s.dev.fatalDue) (h4 : d.sv = s.dev.sv) : exec (.partitionCountChange v) s = .next (s.withDev d) :=
  exec_of_quiet (f := fun d => d.partitionCount v.toNat) rfl e hq h1 h2 h3 (congrArg _ h4)

/-- A count that is not reserved is one of 0, 1 and 2. -/
theorem toNat_lt_of_ne_three {v : BitVec 2} (h : v ≠ 3) : v.toNat < 3 := by
  have hne : v.toNat ≠ 3 := fun e => h (BitVec.eq_of_toNat_eq e)
  have hlt := v.isLt
  omega

/-- The reserved count 3 is not taken (00 R14). -/
theorem exec_partitionCountChange_reserved {s : State} (hq : s.dev.quiet = true) (h : s.dev.takesWrite 0x1C) :
    exec (.partitionCountChange 3) s = .next (s.withDev (s.dev.record 0 0x0001 .register (0x1C / 4) none 3)) :=
  exec_partitionCountChange ((s.dev.partitionCount_eq h _).trans (if_pos rfl)) hq (by simp) (by simp) (by simp) (by simp)

theorem exec_partitionCountChange_same {s : State} (hq : s.dev.quiet = true) (h : s.dev.takesWrite 0x1C) {v : BitVec 2}
    (hv : v.toNat = s.dev.fld 0x1C 0 2) (h3 : v ≠ 3) : exec (.partitionCountChange v) s = .next s := by
  have hlt := toNat_lt_of_ne_three h3
  refine exec_partitionCountChange ?_ hq rfl rfl rfl rfl
  rw [s.dev.partitionCount_eq h, if_neg (by omega), if_pos (by omega)]

/-- With a context or a region open the count stands: `REFUSED` is set, an entry recorded (01 R21). -/
theorem exec_partitionCountChange_refused {s : State} (hq : s.dev.quiet = true) (h : s.dev.takesWrite 0x1C) {v : BitVec 2}
    (h3 : v ≠ 3) (hv : v.toNat ≠ s.dev.fld 0x1C 0 2) (ho : s.dev.anyOpen = true ∨ s.dev.allClosed = false) :
    ∃ t, exec (.partitionCountChange v) s = .next t ∧ t.dev.fld 0x1C 8 1 = 1 ∧ t.dev.fld 0x1C 0 2 = s.dev.fld 0x1C 0 2 ∧
      t.dev.log.seq = s.dev.log.seq + 1 := by
  have hlt := toNat_lt_of_ne_three h3
  refine ⟨_, exec_partitionCountChange (d := (s.dev.setFld 0x1C 8 1 1).recordReg 0x0003 0x1C v.toNat) ?_ hq (by simp [Dev.recordReg])
    (by simp [Dev.recordReg]) (by simp [Dev.recordReg]) (by simp [Dev.recordReg]), ?_, ?_, ?_⟩
  · rw [s.dev.partitionCount_eq h, if_neg (by omega), if_neg (by omega), if_pos (by simpa using ho)]
  · exact (Dev.fld_record_none ..).trans (s.dev.fld_setFld (by decide : 8 + 1 ≤ 64))
  · exact (Dev.fld_record_none ..).trans (s.dev.fld_setFld_ne (by decide : 0 + 2 ≤ 64) (.inr (.inl (by decide))))
  · simp [Dev.recordReg]

/-- With nothing open the count and the shares change (01 R21). -/
theorem exec_partitionCountChange_done {s : State} (hq : s.dev.quiet = true) (h : s.dev.takesWrite 0x1C) {v : BitVec 2}
    (h3 : v ≠ 3) (hv : v.toNat ≠ s.dev.fld 0x1C 0 2) (ho : s.dev.anyOpen = false) (hc : s.dev.allClosed = true) :
    ∃ t, exec (.partitionCountChange v) s = .next t ∧ t.dev.fld 0x1C 0 2 = v.toNat ∧
      (∀ p, p < t.dev.parts → t.dev.fld (0x4130 + 0x100 * p) 0 7 = 64 / t.dev.parts) ∧ t.dev.mem = s.dev.mem ∧
      t.dev.log = s.dev.log := by
  have hlt := toNat_lt_of_ne_three h3
  have hr := s.dev.rehomed_recounted v.toNat
  unfold Dev.Rehomed at hr
  refine ⟨_, exec_partitionCountChange (d := s.dev.recounted v.toNat) ?_ hq (by rw [hr]) (by rw [hr]) (by rw [hr]) (by rw [hr]),
    s.dev.fld_recounted_count (by omega), fun p hp => s.dev.fld_recounted_share hp, ?_, ?_⟩
  · rw [s.dev.partitionCount_eq h, if_neg (by omega), if_neg (by omega), if_neg (by simp [ho, hc])]
  · dsimp only; rw [hr]
  · dsimp only; rw [hr]

end Sys2Proof.Machine
end

section
/-! What a register write and the controls of Coppice, tiles, Batten and Privet do (00 R12 to R16, 01 R21, 09 R283 to R287, 11 R344). -/

namespace Sys2Proof

open Sys2Proof.Machine

/-- Settles O50: each clause is the lemma about its row or its kind of write. -/
theorem registersAndControls : Obligations.RegistersAndControls := by
  unfold Obligations.RegistersAndControls
  intro s hq
  dsimp only
  refine ⟨?lost, ?misfit, ?plain, ?msix, ?rows, ?logCtrl, ?cpClear, ?inject, ?tlOvf, ?btOvf, ?balance, ?parts⟩
  case lost =>
    intro b off size v hlost
    exact exec_of_quiet (exec_registerWrite ..) (s.dev.portWrite_lost hlost _ _ _ _ _) hq rfl rfl rfl rfl
  case misfit =>
    intro b off size v hon hd3 hmis
    exact exec_of_record hq (exec_registerWrite ..)
      ((s.dev.portWrite_misfit hon hd3 _ v.toNat hmis).trans (s.dev.badWrites_eq b off v.toNat))
  case plain => exact fun o v sp hreg hplain halign ht => exec_registerWrite_plain hq v hreg hplain halign ht
  case msix => exact fun off v hlt h4 hon hd3 hheld => exec_registerWrite_msix hq v hlt h4 hon hd3 hheld
  case rows => exact fun x hx => exec_writeRows s hx
  case logCtrl => exact fun ht => ⟨exec_clearAll hq ht, exec_unpin hq ht⟩
  case cpClear =>
    exact fun i ht => ⟨exec_cpClear_idle hq ht, fun e he hcls hclr => exec_cpClear hq ht he hcls hclr⟩
  case inject =>
    exact fun v ht => ⟨exec_injectArm_outside hq v ht, exec_injectArm_armed hq v ht, exec_injectArm hq v ht⟩
  case tlOvf => exact fun p _ ht => exec_tlOvfClear hq ht
  case btOvf => exact fun p _ ht => exec_btOvfClear hq ht
  case balance =>
    exact fun p v hp ht => ⟨exec_mbTimingEnable_start hq v hp ht, exec_mbTimingEnable_on hq v hp ht⟩
  case parts =>
    intro v ht
    refine ⟨?_, exec_partitionCountChange_same hq ht, fun h3 hv =>
      ⟨exec_partitionCountChange_refused hq ht h3 hv, exec_partitionCountChange_done hq ht h3 hv⟩⟩
    rintro rfl
    exact exec_partitionCountChange_reserved hq ht

end Sys2Proof
end

section
/-! SUPPORT. Weft's reads: what they depend on, and what they return after an update (02 R31 to R38). -/

namespace Sys2Proof.Machine

variable (d : Dev)

/-! ### What the reads depend on -/

theorem Dev.fld_congr {a b : Dev} (h : a.regs = b.regs) (o lo w : Nat) : a.fld o lo w = b.fld o lo w := by
  simp only [Dev.fld, Dev.reg, h]

theorem Dev.parts_congr {a b : Dev} (h : a.regs = b.regs) : a.parts = b.parts := by
  simp only [Dev.parts, Dev.fld_congr h]

theorem Dev.profile_congr {a b : Dev} (h : a.regs = b.regs) (n : Nat) : a.profile n = b.profile n := by
  simp only [Dev.profile, Dev.reg, h]

theorem Dev.taps_congr {a b : Dev} (h : a.regs = b.regs) (base : Nat) : a.taps base = b.taps base := by
  simp only [Dev.taps, Dev.reg, h]

theorem Dev.ownsProfile_congr {a b : Dev} (h : a.regs = b.regs) (p n : Nat) : a.ownsProfile p n = b.ownsProfile p n := by
  simp only [Dev.ownsProfile, Dev.parts_congr h]

theorem Dev.dataKeyOk_congr {a b : Dev} (hr : a.regs = b.regs) (hk : a.keys = b.keys) (p k o : Nat) :
    a.dataKeyOk p k o = b.dataKeyOk p k o := by
  unfold Dev.dataKeyOk Dev.keyValid Dev.key
  rw [Dev.parts_congr hr, hk]

theorem Dev.wf_congr {a b : Dev} (h : a.weft = b.weft) (p : Nat) : a.wf p = b.wf p := by
  simp only [Dev.wf, h]

/-! ### What they return after an update -/

@[simp] theorem Dev.wf_setPhase (r q : Nat) (ph : Phase) (p : Nat) : (d.setPhase r q ph).wf p = d.wf p :=
  Dev.wf_congr (by simp) p

@[simp] theorem Dev.wf_finish (r q : Nat) (v : Verdict) (p : Nat) : (d.finish r q v).wf p = d.wf p :=
  d.wf_setPhase r q (.done v) p

theorem Dev.epochOf_setEpoch (p : Nat) (e : WfEpoch) : (d.setEpoch p e).epochOf p = some e := by
  simp [Dev.epochOf, Dev.setEpoch]

/-- Counting the packer's wait changes no epoch and no ingest ring. -/
theorem Dev.wf_notePacker (p : Nat) :
    ((d.notePacker p).wf p).epochs = (d.wf p).epochs ∧ ((d.notePacker p).wf p).ingest = (d.wf p).ingest := by
  unfold Dev.notePacker
  split <;> simp

/-- The host's writes change host memory alone. -/
theorem Dev.hostCells_eq (cs : Cells) : d.hostCells cs = { d with hostMem := (d.hostCells cs).hostMem } := by
  induction cs generalizing d with
  | nil => rfl
  | cons c cs ih => rw [Dev.hostCells, ih]; rfl

/-- A row that finishes a descriptor and does nothing else leaves just that. -/
theorem exec_of_finish {s : State} {i : Instr} {f : Dev → Dev} {r q : Nat} {v : Verdict} (hq : s.dev.quiet = true)
    (key : exec i s = s.after f) (e : f s.dev = s.dev.finish r q v) : exec i s = .next (s.withDev (s.dev.finish r q v)) :=
  exec_of_quiet key e hq (by simp [Dev.finish]) (by simp [Dev.finish]) (by simp [Dev.finish]) (by simp [Dev.finish])

/-- So does a row that ends a sample. -/
theorem exec_of_endSample {s : State} {i : Instr} {f : Dev → Dev} {p n : Nat} {x : Sample} {c : Nat} (hq : s.dev.quiet = true)
    (key : exec i s = s.after f) (e : f s.dev = s.dev.endSample p n x c) : exec i s = .next (s.withDev (s.dev.endSample p n x c)) :=
  exec_of_quiet key e hq (by simp) (by simp) (by simp) (by simp)

end Sys2Proof.Machine
end

section
/-! SUPPORT. Stream descriptors: which epoch and window a sound one meets (02 R31, R32, R59), and how its sample is taken
(02 R33, R50). -/

namespace Sys2Proof.Machine

theorem exec_streamDescriptor (r : Nat) (s : State) : exec (.streamDescriptor r) s = s.after fun d => d.streamRow r := rfl

/-! ### Judging the descriptor -/

section
variable {d : Dev} {r : Nat} {a : Accepted} (h : d.starts r 0x40 a) (h8 : d.p8 = false) (hon : d.fld 0x18000 0 1 = 1)
  (heng : d.hasEngine (ringPart r) false = true)
include h h8 hon heng

theorem Dev.streamRow_of_bad (hb : streamBad a.desc = true) : d.streamRow r = d.finish r a.seq (Verdict.of 1) := by
  simp [Dev.streamRow, d.startNext_of_starts h, h8, hon, heng, hb]

theorem Dev.streamRow_of_wrongRing (hb : streamBad a.desc = false) (he : a.epoch = none)
    (hi : (d.wf (ringPart r)).ingest ≠ some r) : d.streamRow r = d.finish r a.seq (Verdict.of 0x4C) := by
  simp [Dev.streamRow, d.startNext_of_starts h, h8, hon, heng, hb, he, Dev.streamTie, hi]

variable {n c : Nat} (hb : streamBad a.desc = false) (he : a.epoch = some (n, c))
include hb he

/-- The sample's number lies beyond the epoch's samples. -/
theorem Dev.streamRow_of_beyond (hn : c ≤ sSample a.desc) : d.streamRow r = d.finish r a.seq (Verdict.of 0x4D) := by
  simp [Dev.streamRow, d.startNext_of_starts h, h8, hon, heng, hb, he, hn]

variable {e : WfEpoch} (hn : sSample a.desc < c)
  (hf : (d.wf (ringPart r)).epochs.find? (fun e => e.serial = n) = some e) (ha : e.active = true)
include hn hf ha

/-- A descriptor of the epoch in effect goes by where its window stands (R59). -/
theorem Dev.streamRow_of_inEffect : d.streamRow r =
    if e.windowIs (sSample a.desc) = .past then d.finish r a.seq (Verdict.of 0x48)
    else if e.windowIs (sSample a.desc) = .later then d
    else if (e.sample (sSample a.desc)).isSome then d.finish r a.seq (Verdict.of 0x49)
    else d.takeStream (ringPart r) r a e := by
  cases hw : e.windowIs (sSample a.desc) <;>
    simp [Dev.streamRow, d.startNext_of_starts h, h8, hon, heng, hb, he, Nat.not_le.2 hn, hf, ha, hw]

theorem Dev.streamRow_of_past (hw : e.windowIs (sSample a.desc) = .past) :
    d.streamRow r = d.finish r a.seq (Verdict.of 0x48) := by
  simp [Dev.streamRow_of_inEffect h h8 hon heng hb he hn hf ha, hw]

theorem Dev.streamRow_of_later (hw : e.windowIs (sSample a.desc) = .later) : d.streamRow r = d := by
  simp [Dev.streamRow_of_inEffect h h8 hon heng hb he hn hf ha, hw]

theorem Dev.streamRow_of_second (hw : e.windowIs (sSample a.desc) = .filling) (hs : (e.sample (sSample a.desc)).isSome = true) :
    d.streamRow r = d.finish r a.seq (Verdict.of 0x49) := by
  simp [Dev.streamRow_of_inEffect h h8 hon heng hb he hn hf ha, hw, hs]

theorem Dev.streamRow_of_first (hw : e.windowIs (sSample a.desc) = .filling) (hs : (e.sample (sSample a.desc)).isNone = true) :
    d.streamRow r = d.takeStream (ringPart r) r a e := by
  simp [Dev.streamRow_of_inEffect h h8 hon heng hb he hn hf ha, hw, Option.isNone_iff_eq_none.1 hs]

end

/-- The descriptor whose turn it is has its sample taken. -/
theorem Dev.streamRow_of_turn {d : Dev} {r : Nat} {a : Accepted} {e : WfEpoch} (h : d.streamTurn r a e) :
    d.streamRow r = d.takeStream (ringPart r) r a e := by
  obtain ⟨hs, h8, hon, heng, hb, he, hw, ha, hn, hfill, hnone⟩ := h
  exact Dev.streamRow_of_first hs h8 hon heng hb he hn (by simp [hw]) ha hfill hnone

/-! ### Taking the sample -/

/-- The descriptor has started and its sample stands in the epoch, with nothing of it fetched. -/
def Dev.entered (d : Dev) (p r : Nat) (a : Accepted) (e : WfEpoch) : Dev :=
  (d.setPhase r a.seq .started).setEpoch p (e.setSample (sSample a.desc) (Sample.blank r a.seq a.desc))

section
variable (d : Dev) (p r : Nat) (a : Accepted) (e : WfEpoch)

/-- A sample that is entered changes rings and Weft alone. -/
@[simp] theorem Dev.entered_rest :
    (d.entered p r a e).regs = d.regs ∧ (d.entered p r a e).mem = d.mem ∧ (d.entered p r a e).keys = d.keys ∧
    (d.entered p r a e).hostMem = d.hostMem ∧ (d.entered p r a e).ctxs = d.ctxs ∧ (d.entered p r a e).fences = d.fences ∧
    (d.entered p r a e).sv = d.sv ∧ (d.entered p r a e).sigsDue = d.sigsDue ∧ (d.entered p r a e).stopsDue = d.stopsDue ∧
    (d.entered p r a e).fatalDue = d.fatalDue := by
  simp [Dev.entered]

/-- Once entered, a sample that ends finishes its descriptor as if it had never started. -/
theorem Dev.ring_endSample_of_entered {b : Dev} (hr : b.rings = (d.entered p r a e).rings) (hw : b.weft = (d.entered p r a e).weft)
    (n c : Nat) : (b.endSample p n (Sample.blank r a.seq a.desc) c).ring r = (d.finish r a.seq (Verdict.of c)).ring r := by
  have hring : b.ring r = (d.setPhase r a.seq .started).ring r := Dev.ring_congr (hr.trans (by simp [Dev.entered])) r
  have hep : (b.epochOf p).isSome = true := by
    rw [Dev.epochOf, Dev.wf_congr hw, ← Dev.epochOf, Dev.entered, Dev.epochOf_setEpoch]; rfl
  rw [Dev.ring_congr (b.endSample_ring _ _ _ _ hep), Sample.blank, ← d.finish_setPhase r a.seq .started, Dev.finish_ring,
    Dev.finish_ring, hring]

theorem Dev.dataKeyOk_entered (k o : Nat) : (d.entered p r a e).dataKeyOk p k o = d.dataKeyOk p k o :=
  Dev.dataKeyOk_congr (by simp) (by simp) p k o

theorem Dev.takeStream_of_absent (h : sCount a.desc = 0) :
    d.takeStream p r a e = (d.entered p r a e).endSample p (sSample a.desc) (Sample.blank r a.seq a.desc) 0x4A :=
  if_pos h

theorem Dev.takeStream_of_badKey (h : sCount a.desc ≠ 0) (hk : d.dataKeyOk p (sKey a.desc) (sOwner a.desc) = false) :
    d.takeStream p r a e = (d.entered p r a e).endSample p (sSample a.desc) (Sample.blank r a.seq a.desc) 0x42 := by
  rw [← d.dataKeyOk_entered p r a e] at hk
  exact (if_neg h).trans (if_pos (by simpa [Dev.entered] using hk))

/-- With a data key of its owner the profile decides, the key's use being counted. -/
theorem Dev.takeStream_of_key (h : sCount a.desc ≠ 0) (hk : d.dataKeyOk p (sKey a.desc) (sOwner a.desc) = true) :
    d.takeStream p r a e =
      if d.ownsProfile p (sProfile a.desc) = false ∨ profileOk (e.profiles.getD (sProfile a.desc) 0) = false then
        ((d.entered p r a e).countUse (sKey a.desc)).endSample p (sSample a.desc) (Sample.blank r a.seq a.desc) 0x4B
      else (d.entered p r a e).countUse (sKey a.desc) := by
  rw [← d.dataKeyOk_entered p r a e] at hk
  have hp : ((d.entered p r a e).countUse (sKey a.desc)).ownsProfile p (sProfile a.desc) = d.ownsProfile p (sProfile a.desc) :=
    Dev.ownsProfile_congr (by simp) _ _
  rw [← hp]
  refine (if_neg h).trans ((if_neg (by simpa [Dev.entered] using hk)).trans ?_)
  simp only [Bool.not_eq_true']
  rfl

end

/-- A slot of number 0, or one that does not carry the owner's tag, is no data key of that owner (R33). -/
theorem Dev.dataKeyOk_of_unowned (d : Dev) (p : Nat) {k o : Nat} (h : k = 0 ∨ (d.key k).owner ≠ o) : d.dataKeyOk p k o = false := by
  rcases h with h | h <;> simp [Dev.dataKeyOk, h]

/-- A counted use changes keys alone. -/
theorem Dev.countUse_eq (d : Dev) (k : Nat) : d.countUse k = { d with keys := (d.countUse k).keys } := by
  unfold Dev.countUse
  split <;> rfl

/-- A stream descriptor whose sample ends as it is taken, a use of its key counted or not: its ring shows the status, and host
bytes, device memory and fences stand. -/
theorem exec_streamDescriptor_ends {s : State} {r : Nat} {a : Accepted} {e : WfEpoch} {b : Dev} {c : Nat} (hq : s.dev.quiet = true)
    (ht : s.dev.streamTurn r a e) (hb : b = { s.dev.entered (ringPart r) r a e with keys := b.keys })
    (h : s.dev.takeStream (ringPart r) r a e = b.endSample (ringPart r) (sSample a.desc) (Sample.blank r a.seq a.desc) c) :
    ∃ t, exec (.streamDescriptor r) s = .next t ∧ t.dev.ring r = (s.dev.finish r a.seq (Verdict.of c)).ring r ∧
      t.dev.hostMem = s.dev.hostMem ∧ t.dev.ctxs = s.dev.ctxs ∧ t.dev.keys = b.keys ∧ t.dev.mem = s.dev.mem ∧
      t.dev.fences = s.dev.fences ∧ t.fuses = s.fuses ∧ t.pending = s.pending := by
  have hx : exec (.streamDescriptor r) s = .next (s.withDev (b.endSample (ringPart r) (sSample a.desc)
      (Sample.blank r a.seq a.desc) c)) := by
    refine exec_of_quiet (exec_streamDescriptor r s) ((Dev.streamRow_of_turn ht).trans h) hq ?_ ?_ ?_ ?_ <;> rw [hb] <;> simp
  refine ⟨_, hx, s.dev.ring_endSample_of_entered (ringPart r) r a e (by rw [hb]) (by rw [hb]) _ _,
    ?_, ?_, by simp, ?_, ?_, rfl, rfl⟩ <;> rw [hb] <;> simp

theorem exec_streamDescriptor_taken {s : State} {r : Nat} {a : Accepted} {e : WfEpoch} (hq : s.dev.quiet = true)
    (ht : s.dev.streamTurn r a e) (hc : sCount a.desc ≠ 0)
    (hk : s.dev.dataKeyOk (ringPart r) (sKey a.desc) (sOwner a.desc) = true)
    (hp : s.dev.ownsProfile (ringPart r) (sProfile a.desc) = true) (ho : profileOk (e.profiles.getD (sProfile a.desc) 0) = true) :
    exec (.streamDescriptor r) s = .next (s.withDev ((s.dev.entered (ringPart r) r a e).countUse (sKey a.desc))) := by
  have h := s.dev.takeStream_of_key (ringPart r) r a e hc hk
  rw [if_neg (by rw [hp, ho]; decide)] at h
  exact exec_of_quiet (exec_streamDescriptor r s) ((Dev.streamRow_of_turn ht).trans h) hq (by simp) (by simp) (by simp) (by simp)

end Sys2Proof.Machine
end

section
/-! SUPPORT. Epoch descriptors: the statuses of one that cannot stand, and how an epoch takes effect (02 R36 to R38). -/

namespace Sys2Proof.Machine

theorem exec_epochDescriptor (r : Nat) (s : State) : exec (.epochDescriptor r) s = s.after fun d => d.epochRow r := rfl

theorem exec_epochTakeEffect (p : Nat) (s : State) : exec (.epochTakeEffect p) s = s.after fun d => d.epochTakeEffect p := rfl

/-! ### Taking effect -/

/-- An epoch that takes effect: profiles and taps of the registers as they stand, the window's half the next one (R37, R59). -/
theorem Dev.epochs_activate (d : Dev) (p : Nat) (e : WfEpoch) :
    ∃ g, ((d.activate p e).wf p).epochs = g :: (d.wf p).epochs.drop 1 ∧ g.desc = e.desc ∧ g.active = true ∧
      g.profiles = (List.range 64).map d.profile ∧ g.fir2 = d.taps 0x1A000 ∧ g.fir3 = d.taps 0x1A100 ∧
      g.firstHalf = (d.wf p).nextHalf := by
  rw [Dev.activate, (Dev.wf_notePacker _ p).1, Dev.wf_setWf, if_pos rfl]
  exact ⟨_, rfl, rfl, rfl, rfl, rfl, rfl, rfl⟩

theorem Dev.ingest_activate (d : Dev) (p : Nat) (e : WfEpoch) : ((d.activate p e).wf p).ingest = (d.wf p).ingest := by
  rw [Dev.activate, (Dev.wf_notePacker _ p).2, Dev.wf_setWf, if_pos rfl]

theorem Dev.epochTakeEffect_of_finished {d : Dev} {p : Nat} {e f : WfEpoch} {l : List WfEpoch} (hs : d.servingIn p = true)
    (hw : (d.wf p).epochs = e :: f :: l) (he : e.finished = true) :
    d.epochTakeEffect p = (d.setWf p { d.wf p with epochs := f :: l }).activate p f := by
  rw [Dev.epochTakeEffect, hw]
  exact if_pos ⟨hs, he⟩

theorem exec_epochTakeEffect_finished {s : State} {p : Nat} {e f : WfEpoch} {l : List WfEpoch} (hq : s.dev.quiet = true)
    (hs : s.dev.servingIn p = true) (hw : (s.dev.wf p).epochs = e :: f :: l) (he : e.finished = true) :
    ∃ t g, exec (.epochTakeEffect p) s = .next t ∧ (t.dev.wf p).epochs = g :: l ∧ g.desc = f.desc ∧ g.active = true ∧
      g.profiles = (List.range 64).map s.dev.profile ∧ g.firstHalf = (s.dev.wf p).nextHalf ∧
      t.dev.mem = s.dev.mem ∧ t.dev.rings = s.dev.rings := by
  let b := s.dev.setWf p { s.dev.wf p with epochs := f :: l }
  obtain ⟨g, hg, hdesc, hact, hprof, -, -, hhalf⟩ := b.epochs_activate p f
  have hb : b.wf p = { s.dev.wf p with epochs := f :: l } := by simp [b]
  refine ⟨_, g, exec_of_quiet (exec_epochTakeEffect p s) (Dev.epochTakeEffect_of_finished hs hw he) hq (by simp) (by simp) (by simp)
    (by simp), ?_, hdesc, hact, ?_, ?_, by simp, by simp⟩
  · rw [hg, hb]; rfl
  · rw [hprof]; exact List.map_congr_left fun n _ => Dev.profile_congr rfl n
  · rw [hhalf, hb]

/-! ### Judging the descriptor -/

/-- An epoch as accepted, nothing of it begun (R36). -/
def WfEpoch.accepted (serial r : Nat) (x : RingDesc) : WfEpoch :=
  { serial := serial, ring := r, desc := x, active := false, profiles := [], fir2 := [], fir3 := [], base := 0, halfBytes := 0,
    work := 0, firstHalf := 0, fill := 0, filling := false, used := 0, samples := [], pj := 0, pi := 0, cur := [], tokens := 0,
    k := 0, finished := false }

section
variable {d : Dev} {r : Nat} {a : Accepted} (h : d.starts r 0x41 a) (h8 : d.p8 = false) (hon : d.fld 0x18000 0 1 = 1)
  (hwin : d.fld (wfReg (ringPart r) + 8) 0 16 ≠ 0) (hwork : d.fld (wfReg (ringPart r) + 0x18) 0 16 ≠ 0)
include h h8 hon

theorem Dev.epochRow_of_bad (hb : epochBad a.desc = true) :
    d.epochRow r = (d.finish r a.seq (Verdict.of 1)).judgeAfter r a.seq := by
  simp [Dev.epochRow, d.startNext_of_starts h, h8, hon, hb]

variable (hb : epochBad a.desc = false)
include hwin hwork hb

theorem Dev.epochRow_of_outOfRange (hn : 16777216 < ceilDiv (eN a.desc) (eWin a.desc)) :
    d.epochRow r = (d.finish r a.seq (Verdict.of 0x4D)).judgeAfter r a.seq := by
  simp [Dev.epochRow, d.startNext_of_starts h, h8, hon, hwin, hwork, hb, hn]

variable (hn : ceilDiv (eN a.desc) (eWin a.desc) ≤ 16777216)
include hn

theorem Dev.epochRow_of_fenceDenied
    (hf : d.fenceIn (ringPart r) (eReady a.desc) = false ∨ d.fenceIn (ringPart r) (eRetire a.desc) = false) :
    d.epochRow r = (d.finish r a.seq (Verdict.of 7)).judgeAfter r a.seq := by
  simp [Dev.epochRow, d.startNext_of_starts h, h8, hon, hwin, hwork, hb, Nat.not_lt.2 hn, hf]

/-- With no epoch in hand an accepted one takes effect at once (R37). -/
theorem Dev.epochRow_of_first (hr : d.fenceIn (ringPart r) (eReady a.desc) = true)
    (ht : d.fenceIn (ringPart r) (eRetire a.desc) = true) (hw : (d.wf (ringPart r)).epochs = []) :
    d.epochRow r =
      (((d.finish r a.seq (Verdict.of 0)).setWf (ringPart r)
          { d.wf (ringPart r) with ingest := some r, serial := (d.wf (ringPart r)).serial + 1,
                                   epochs := [WfEpoch.accepted (d.wf (ringPart r)).serial r a.desc] }).activate (ringPart r)
        (WfEpoch.accepted (d.wf (ringPart r)).serial r a.desc)).judgeAfter r a.seq := by
  simp [Dev.epochRow, d.startNext_of_starts h, h8, hon, hwin, hwork, hb, Nat.not_lt.2 hn, hr, ht, hw, WfEpoch.accepted]

end

/-! ### Descriptors behind it -/

theorem map_seq_setPhase (q : Nat) (ph : Phase) (l : List Accepted) : (Machine.setPhase q ph l).map Accepted.seq = l.map Accepted.seq := by
  induction l with
  | nil => rfl
  | cons a l ih =>
    rw [Machine.setPhase]
    split
    · rfl
    · rw [List.map_cons, ih, List.map_cons]

/-- With no descriptor behind it an epoch's end leaves none to judge. -/
theorem Dev.judgeAfter_of_last {d : Dev} {r q : Nat} (h : ∀ n ∈ (d.ring r).pend.map Accepted.seq, n ≤ q) : d.judgeAfter r q = d := by
  have hnone : (d.ring r).pend.filter (fun a => decide (q < a.seq)) = [] := by
    refine List.filter_eq_nil_iff.2 fun b hb => ?_
    simpa using h b.seq (List.mem_map_of_mem hb)
  rw [Dev.judgeAfter, hnone]
  rfl

theorem exec_epochDescriptor_first {s : State} {r : Nat} {a : Accepted} (hq : s.dev.quiet = true) (h : s.dev.starts r 0x41 a)
    (h8 : s.dev.p8 = false) (hon : s.dev.fld 0x18000 0 1 = 1) (hwin : s.dev.fld (wfReg (ringPart r) + 8) 0 16 ≠ 0)
    (hwork : s.dev.fld (wfReg (ringPart r) + 0x18) 0 16 ≠ 0) (hb : epochBad a.desc = false)
    (hn : ceilDiv (eN a.desc) (eWin a.desc) ≤ 16777216) (hr : s.dev.fenceIn (ringPart r) (eReady a.desc) = true)
    (ht : s.dev.fenceIn (ringPart r) (eRetire a.desc) = true) (hw : (s.dev.wf (ringPart r)).epochs = [])
    (hl : ∀ b ∈ (s.dev.ring r).pend, b.seq ≤ a.seq) :
    ∃ t e, exec (.epochDescriptor r) s = .next t ∧ t.dev.ring r = (s.dev.finish r a.seq (Verdict.of 0)).ring r ∧
      (t.dev.wf (ringPart r)).epochs = [e] ∧ (t.dev.wf (ringPart r)).ingest = some r ∧ e.desc = a.desc ∧ e.active = true ∧
      e.profiles = (List.range 64).map s.dev.profile ∧ e.fir2 = s.dev.taps 0x1A000 ∧ e.fir3 = s.dev.taps 0x1A100 ∧
      e.firstHalf = (s.dev.wf (ringPart r)).nextHalf := by
  let w := s.dev.wf (ringPart r)
  let x := WfEpoch.accepted w.serial r a.desc
  let b := (s.dev.finish r a.seq (Verdict.of 0)).setWf (ringPart r) { w with ingest := some r, serial := w.serial + 1, epochs := [x] }
  obtain ⟨g, hg, hdesc, hact, hprof, hfir2, hfir3, hhalf⟩ := b.epochs_activate (ringPart r) x
  have hbw : b.wf (ringPart r) = { w with ingest := some r, serial := w.serial + 1, epochs := [x] } := by simp [b]
  have hring : (b.activate (ringPart r) x).ring r = (s.dev.finish r a.seq (Verdict.of 0)).ring r := by
    exact Dev.ring_congr (by simp [b]) r
  have hlast : s.dev.epochRow r = b.activate (ringPart r) x := by
    refine (Dev.epochRow_of_first h h8 hon hwin hwork hb hn hr ht hw).trans (Dev.judgeAfter_of_last ?_)
    rw [hring, Dev.finish_ring, if_pos rfl, map_seq_setPhase]
    exact List.forall_mem_map.2 hl
  refine ⟨_, g, exec_of_quiet (exec_epochDescriptor r s) hlast hq (by simp [b, Dev.finish]) (by simp [b, Dev.finish])
    (by simp [b, Dev.finish]) (by simp [b, Dev.finish]), hring, ?_, ?_, hdesc, hact, ?_, ?_, ?_, ?_⟩
  · rw [hg, hbw]; rfl
  · rw [Dev.ingest_activate, hbw]
  · rw [hprof]; exact List.map_congr_left fun n _ => Dev.profile_congr rfl n
  · rw [hfir2]; exact Dev.taps_congr rfl _
  · rw [hfir3]; exact Dev.taps_congr rfl _
  · rw [hhalf, hbw]

end Sys2Proof.Machine
end

section
/-! SUPPORT. A sample in decode: the chunk that arrives, the picture and the audio frame that finish (02 R34, R35, R41, R47, R49). -/

namespace Sys2Proof.Machine

theorem exec_chunkArrival (p n : Nat) (cs : Cells) (fs : Option StreamFacts) (s : State) :
    exec (.chunkArrival p n cs fs) s = s.after fun d => (d.hostCells cs).chunkArrival p n fs := rfl

theorem exec_pictureDecode (p n i : Nat) (pic : Option Picture) (s : State) :
    exec (.pictureDecode p n i pic) s = s.after fun d => d.pictureDecode p n i pic := rfl

theorem exec_audioFrameDecode (p n i : Nat) (pcm : Option (List (List Nat))) (s : State) :
    exec (.audioFrameDecode p n i pcm) s = s.after fun d => d.audioDecode p n i pcm := rfl

/-! ### Chunks -/

/-- What the host writes changes no sample, no service and no key. -/
theorem Dev.decoding_hostCells (d : Dev) (cs : Cells) (p n : Nat) : (d.hostCells cs).decoding p n = d.decoding p n := by
  rw [Dev.hostCells_eq]; rfl

theorem Dev.ingestKey_hostCells (d : Dev) (cs : Cells) (k : Nat) : (d.hostCells cs).ingestKey k = d.ingestKey k := by
  rw [Dev.hostCells_eq]; rfl

section
variable {d : Dev} {x : Sample}

theorem Dev.nextChunk_of_badEntry (h : chunkEntry (d.hostBytes (sList x.desc + 16 * x.chunks) 16) = none) :
    d.nextChunk x = .error 1 := by
  rw [Dev.nextChunk, h]

variable {a len : Nat} (h : chunkEntry (d.hostBytes (sList x.desc + 16 * x.chunks) 16) = some (a, len))
include h

theorem Dev.nextChunk_of_badTag (ht : openChunk (d.ingestKey (sKey x.desc)) x.desc x.chunks (d.hostBytes a len) = none) :
    d.nextChunk x = .error 0x41 := by
  simp only [Dev.nextChunk, h, ht]

theorem Dev.nextChunk_of_opened {bs : List Byte}
    (ht : openChunk (d.ingestKey (sKey x.desc)) x.desc x.chunks (d.hostBytes a len) = some bs) :
    d.nextChunk x = .ok { x with chunks := x.chunks + 1, stream := x.stream ++ bs } := by
  simp only [Dev.nextChunk, h, ht]

end

section
variable {d : Dev} {p n : Nat} {e : WfEpoch} {x : Sample} (h : d.decoding p n = some (e, x)) (hc : x.chunks < sCount x.desc)
  (ho : d.fetchOpen p (d.chunkCost x) = true)
include h hc ho

/-- A list entry that breaks its table ends the sample. -/
theorem Dev.chunkArrival_of_badEntry (fs : Option StreamFacts) (hy : d.nextChunk x = .error 1) :
    d.chunkArrival p n fs = (d.hostCount false p (d.chunkCost x)).endSample p n x 1 := by
  simp [Dev.chunkArrival, h, Nat.not_le.2 hc, ho, hy]

/-- A chunk that does not verify is counted and recorded, and ends the sample (R35). -/
theorem Dev.chunkArrival_of_badTag (fs : Option StreamFacts) (hy : d.nextChunk x = .error 0x41) :
    d.chunkArrival p n fs = (((d.hostCount false p (d.chunkCost x)).bump (wfReg p + 0x38) 1).record 0 0x0801 .hub 4 (some p)
      (sOwner x.desc)).endSample p n x 0x41 := by
  simp [Dev.chunkArrival, h, Nat.not_le.2 hc, ho, hy]

variable {y : Sample} (hy : d.nextChunk x = .ok y)
include hy

/-- A chunk that makes nothing new known of the headers joins the stream. -/
theorem Dev.chunkArrival_of_joined {fs : Option StreamFacts} (hf : fs = none ∨ y.facts.isSome = true) :
    d.chunkArrival p n fs = (d.hostCount false p (d.chunkCost x)).sampleCheck p n e y := by
  rcases hf with rfl | hf
  · simp [Dev.chunkArrival, h, Nat.not_le.2 hc, ho, hy]
  · obtain ⟨g, hg⟩ := Option.isSome_iff_exists.1 hf
    simp [Dev.chunkArrival, h, Nat.not_le.2 hc, ho, hy, hg]

variable {f : StreamFacts} (hf : y.facts = none)
include hf

theorem Dev.chunkArrival_of_headers
    (hs : (d.hostCount false p (d.chunkCost x)).headerStatus p e y.desc y.stream.length f = none) :
    d.chunkArrival p n (some f) = (d.hostCount false p (d.chunkCost x)).sampleCheck p n e { y with facts := some f } := by
  simp [Dev.chunkArrival, h, Nat.not_le.2 hc, ho, hy, hf, hs]

theorem Dev.chunkArrival_of_badHeaders {c : Nat}
    (hs : (d.hostCount false p (d.chunkCost x)).headerStatus p e y.desc y.stream.length f = some c) :
    d.chunkArrival p n (some f) = (d.hostCount false p (d.chunkCost x)).endSample p n y c := by
  simp [Dev.chunkArrival, h, Nat.not_le.2 hc, ho, hy, hf, hs]

end

/-! ### Pictures and audio frames -/

section
variable {d : Dev} {p n i : Nat} {e : WfEpoch} {x : Sample} {fr : Frame} (h : d.decoding p n = some (e, x))
  (hfr : x.frames[i]? = some fr) (hp : (x.plan (e.profiles.getD (sProfile x.desc) 0)).contains i = true) (hpic : x.pic i = none)
  (heng : d.hasEngine p false = true) (hb : fr.stop ≤ x.stream.length)
include h hfr hp hpic heng hb

/-- A planned picture whose references stand is decoded; it is kept where a kept frame shows it (R46). -/
theorem Dev.pictureDecode_of_decoded (hr : x.refsBad (x.plan (e.profiles.getD (sProfile x.desc) 0)) fr = some false) (q : Picture) :
    ∃ out, (out = .kept q ∨ out = .decoded) ∧ d.pictureDecode p n i (some q) =
      ((d.bump (wfReg p + 0x20) 1).bump (wfReg p + 0x40) (codedLuma (sVcodec x.desc) fr)).sampleCheck p n e
        { x with pics := x.pics ++ [(i, out)] } := by
  refine ⟨if (x.kept (e.profiles.getD (sProfile x.desc) 0)).any fun k => k.a = i || k.b = i then .kept q else .decoded, ?_, ?_⟩
  · split
    · exact .inl rfl
    · exact .inr rfl
  · simp only [Dev.pictureDecode, h, hfr]
    rw [if_neg (by rw [hp, hpic]; simp [heng, hb]), hr]

/-- One with a reference that was dropped, or that the codec cannot decode, is dropped (R47). -/
theorem Dev.pictureDecode_of_dropped {pic : Option Picture}
    (hr : x.refsBad (x.plan (e.profiles.getD (sProfile x.desc) 0)) fr = some true ∨
      (x.refsBad (x.plan (e.profiles.getD (sProfile x.desc) 0)) fr = some false ∧ pic = none)) :
    d.pictureDecode p n i pic =
      (d.bump (wfReg p + 0x28) 1).sampleCheck p n e { x with pics := x.pics ++ [(i, .dropped)] } := by
  simp only [Dev.pictureDecode, h, hfr]
  rw [if_neg (by rw [hp, hpic]; simp [heng, hb])]
  rcases hr with hr | ⟨hr, rfl⟩ <;> rw [hr]

end

theorem Dev.audioDecode_of_arrived {d : Dev} {p n i : Nat} {e : WfEpoch} {x : Sample} {u : AudioFrame}
    (h : d.decoding p n = some (e, x)) (hp : (x.audioPlan (e.profiles.getD (sProfile x.desc) 0)).contains i = true)
    (ha : (x.audio.any fun a => a.1 = i) = false) (heng : d.hasEngine p true = true) (hu : x.audioFrames[i]? = some u)
    (hb : u.stop ≤ x.stream.length) (pcm : Option (List (List Nat))) :
    d.audioDecode p n i pcm = d.sampleCheck p n e { x with audio := x.audio ++ [(i, pcm)] } := by
  simp only [Dev.audioDecode, h]
  exact if_neg (by rw [hp, ha, hu]; simp [heng, hb])

end Sys2Proof.Machine
end

section
/-! SUPPORT. A window begins to fill, a sample takes its panels, a sequence closes (02 R59 to R61, R63). -/

namespace Sys2Proof.Machine

theorem exec_windowFillStart (p : Nat) (s : State) : exec (.windowFillStart p) s = s.after fun d => d.windowFill p := rfl

theorem exec_samplePlace (p n : Nat) (s : State) : exec (.samplePlace p n) s = s.after fun d => d.samplePlace p n := rfl

theorem exec_sequenceClose (p : Nat) (s : State) : exec (.sequenceClose p) s = s.after fun d => d.sequenceClose p := rfl

/-- The entry of a sequence record for a sample of number `n` whose panels stand at `a` (Table 02-7). -/
def Sample.entryAt (x : Sample) (e : WfEpoch) (n a : Nat) : SeqEntry :=
  let pr := e.profiles.getD (sProfile x.desc) 0
  { sample := n, owner := sOwner x.desc, key := sKey x.desc, omitted := x.audioOmitted pr, vtokens := x.vtokens pr,
    atokens := (x.audioKept pr).length, pad := x.padTokens pr, offset := 0, panels := a, half := e.half e.fill }

/-- The panels of a sample of the epoch. -/
def WfEpoch.panelsOf (e : WfEpoch) (x : Sample) : List Byte := x.panels (e.profiles.getD (sProfile x.desc) 0) e.fir2 e.fir3

/-- The next free place of the half that fills (R60). -/
def WfEpoch.place (e : WfEpoch) : Nat := e.base + e.half e.fill * e.halfBytes + e.used

section
variable {d : Dev} {p : Nat} {e : WfEpoch} (he : d.epochOf p = some e) (hs : d.servingIn p = true)
include he hs

theorem Dev.windowFill_of_halfFree (ha : e.active = true) (hf : e.filling = false) (hw : e.fill < e.windows)
    (hh : d.halfFree p e (e.half e.fill) = true) :
    d.windowFill p =
      (d.setWf p { (if e.half e.fill = 0 then { d.wf p with half0 := some (e.serial, e.fill) }
          else { d.wf p with half1 := some (e.serial, e.fill) }) with nextHalf := 1 - e.half e.fill }).setEpoch p
        { e with filling := true, used := 0 } := by
  simp only [Dev.windowFill, he]
  exact if_neg (by simp [hs, ha, hf, Nat.not_le.2 hw, hh])

theorem Dev.sequenceClose_of_written {d' : Dev} {u : Unit} (hc : e.closeDue = true) (ho : (d.wf p).out.length < 4)
    (hw : d.write (engineReq p (((d.regionOf e.recordAddr).map fun n => (d.region n).key).getD 0)) e.recordAddr
      (seqRecord (e.k + 1) e.tokens (e.windows ≤ e.pj) e.cur) = .ok d' u) :
    d.sequenceClose p = d'.sequenceReady p e := by
  simp only [Dev.sequenceClose, he]
  rw [if_neg (by simp [hs, hc, ho]), hw]

variable {n i : Nat} {x : Sample} (hx : e.sample n = some x) (hr : x.st = .ready) (hf : e.filling = true)
  (hi : ((List.range (e.count e.fill)).find? fun i => e.sampleAt e.fill i = n) = some i)
  (hk : ∀ k, k < i → e.sampleOver (e.sampleAt e.fill k) = true)
include hx hr hf hi hk

theorem Dev.samplePlace_of_full (hb : e.halfBytes < e.used + (e.panelsOf x).length) :
    d.samplePlace p n = d.endSample p n x 0x47 := by
  simp only [Dev.samplePlace, he, hx, hi]
  rw [if_neg (by simpa [hs, hf, hr] using hk)]
  exact if_pos hb

/-- Panels that fit are written at the next free place and the descriptor completes with its token counts (R60). -/
theorem Dev.samplePlace_of_written (hb : e.used + (e.panelsOf x).length ≤ e.halfBytes) {d' : Dev} {u : Unit}
    (hw : d.write (engineReq p (sKey x.desc)) e.place (e.panelsOf x) = .ok d' u) :
    d.samplePlace p n =
      ((d'.setEpoch p ({ e with used := e.used + (e.panelsOf x).length }.setSample n
        { x.cleared with st := .placed (x.entryAt e n e.place) })).finish x.ring x.seq
          { Verdict.of 0 with info := (x.entryAt e n e.place).vtokens + (x.entryAt e n e.place).atokens * 2 ^ 32 }).weftAdvance p := by
  simp only [Dev.samplePlace, he, hx, hi]
  rw [if_neg (by simpa [hs, hf, hr] using hk)]
  refine (if_neg (Nat.not_lt.2 hb)).trans ?_
  rw [WfEpoch.place, WfEpoch.panelsOf] at hw
  rw [hw]
  rfl

end

end Sys2Proof.Machine
end

section
/-! Weft's ingest: stream and epoch descriptors, samples in decode, windows and sequences (02 R31 to R64). -/

namespace Sys2Proof

open Sys2Proof.Machine

/-- Settles O9: with chunks to fetch the missing data key alone decides how the sample ends. -/
theorem streamKeyInvalid : Obligations.StreamKeyInvalid := by
  unfold Obligations.StreamKeyInvalid
  intro r s a e hq ht hc hk
  have hkey := s.dev.dataKeyOk_of_unowned (ringPart r) hk
  obtain ⟨t, hx, hring, hhost, hctxs, hkeys, hrest⟩ := exec_streamDescriptor_ends hq ht rfl
    (s.dev.takeStream_of_badKey (ringPart r) r a e hc hkey)
  exact ⟨t, hx, hring, hhost, hctxs, by simpa using hkeys, hrest⟩

/-- Settles O10: each clause is the lemma about how the descriptor is judged, or about how its sample is taken. -/
theorem streamTaken : Obligations.StreamTaken := by
  unfold Obligations.StreamTaken
  intro r s a e hq
  dsimp only
  refine ⟨fun h h8 hon heng => ⟨?bad, ?wrongRing, ?beyond, ?inEffect⟩, fun ht => ⟨?taken, ?absent, ?badProfile⟩⟩
  case bad => exact fun hb => exec_of_finish hq (exec_streamDescriptor r s) (Dev.streamRow_of_bad h h8 hon heng hb)
  case wrongRing =>
    exact fun hb he hi => exec_of_finish hq (exec_streamDescriptor r s) (Dev.streamRow_of_wrongRing h h8 hon heng hb he hi)
  case beyond =>
    exact fun n c hb he hn => exec_of_finish hq (exec_streamDescriptor r s) (Dev.streamRow_of_beyond h h8 hon heng hb he hn)
  case inEffect =>
    intro n c hb he hn hf ha
    refine ⟨fun hw => ?_, fun hw => ?_, fun hw hs => ?_⟩
    · exact exec_of_finish hq (exec_streamDescriptor r s) (Dev.streamRow_of_past h h8 hon heng hb he hn hf ha hw)
    · exact exec_of_quiet (exec_streamDescriptor r s) (Dev.streamRow_of_later h h8 hon heng hb he hn hf ha hw) hq rfl rfl rfl rfl
    · exact exec_of_finish hq (exec_streamDescriptor r s) (Dev.streamRow_of_second h h8 hon heng hb he hn hf ha hw hs)
  case taken => exact fun hc hk hp ho => exec_streamDescriptor_taken hq ht hc hk hp ho
  case absent =>
    intro hc
    obtain ⟨t, hx, hring, hhost, -, hkeys, -⟩ := exec_streamDescriptor_ends hq ht rfl
      (s.dev.takeStream_of_absent (ringPart r) r a e hc)
    exact ⟨t, hx, hring, by simpa using hkeys, hhost⟩
  case badProfile =>
    intro hc hk hp
    obtain ⟨t, hx, hring, hhost, -⟩ := exec_streamDescriptor_ends hq ht (Dev.countUse_eq _ _)
      ((s.dev.takeStream_of_key (ringPart r) r a e hc hk).trans (if_pos hp))
    exact ⟨t, hx, hring, hhost⟩

/-- Settles O11: each clause is the lemma about how the descriptor is judged, or about how an epoch takes effect. -/
theorem epochAccepted : Obligations.EpochAccepted := by
  unfold Obligations.EpochAccepted
  refine ⟨?accepted, fun p s e f l hq hs hw he => exec_epochTakeEffect_finished hq hs hw he⟩
  intro r s a hq h h8 hon hwin hwork
  dsimp only
  refine ⟨fun hb => ?_, fun hb hn => ?_, fun hb hn hf => ?_, fun hb hn hr ht hw hl => ?_⟩
  · exact exec_of_effect (exec_epochDescriptor r s) (Dev.epochRow_of_bad h h8 hon hb)
  · exact exec_of_effect (exec_epochDescriptor r s) (Dev.epochRow_of_outOfRange h h8 hon hwin hwork hb hn)
  · exact exec_of_effect (exec_epochDescriptor r s) (Dev.epochRow_of_fenceDenied h h8 hon hwin hwork hb hn hf)
  · exact exec_epochDescriptor_first hq h h8 hon hwin hwork hb hn hr ht hw hl

/-- Settles O12: each clause is the lemma about the chunk, the picture or the audio frame. -/
theorem sampleDecoded : Obligations.SampleDecoded := by
  unfold Obligations.SampleDecoded
  intro p n i s e x hq hd
  dsimp only
  refine ⟨fun cs hc ho => ?chunk, fun fr hfr hp hpic heng hb => ⟨fun q hr => ?decoded, fun pic hr => ?dropped⟩,
    fun pcm u hp ha heng hu hb => ?audio⟩
  case chunk =>
    have hdec := (s.dev.decoding_hostCells cs p n).trans hd
    rw [← s.dev.ingestKey_hostCells cs]
    refine ⟨fun fs hent => ?_, fun fs b len hent htag => ?_, fun b len bs hent htag => ?_⟩
    · exact exec_of_effect (exec_chunkArrival p n cs fs s)
        (Dev.chunkArrival_of_badEntry hdec hc ho fs (Dev.nextChunk_of_badEntry hent))
    · exact exec_of_effect (exec_chunkArrival p n cs fs s)
        (Dev.chunkArrival_of_badTag hdec hc ho fs (Dev.nextChunk_of_badTag hent htag))
    · have hy := Dev.nextChunk_of_opened hent htag
      refine ⟨?_, fun f hf => ?_, fun f hf hs => ?_, fun f c hf hs => ?_⟩
      · exact exec_of_effect (exec_chunkArrival p n cs none s) (Dev.chunkArrival_of_joined hdec hc ho hy (.inl rfl))
      · exact exec_of_effect (exec_chunkArrival p n cs (some f) s) (Dev.chunkArrival_of_joined hdec hc ho hy (.inr hf))
      · exact exec_of_effect (exec_chunkArrival p n cs (some f) s) (Dev.chunkArrival_of_headers hdec hc ho hy hf hs)
      · exact exec_of_effect (exec_chunkArrival p n cs (some f) s) (Dev.chunkArrival_of_badHeaders hdec hc ho hy hf hs)
  case decoded =>
    obtain ⟨out, hout, heq⟩ := Dev.pictureDecode_of_decoded hd hfr hp hpic heng hb hr q
    exact ⟨out, hout, exec_of_effect (exec_pictureDecode p n i (some q) s) heq⟩
  case dropped =>
    exact exec_of_effect (exec_pictureDecode p n i pic s) (Dev.pictureDecode_of_dropped hd hfr hp hpic heng hb hr)
  case audio =>
    exact exec_of_effect (exec_audioFrameDecode p n i pcm s) (Dev.audioDecode_of_arrived hd hp ha heng hu hb pcm)

/-- Settles O13: each clause is the lemma about the window, the sample's place or the sequence. -/
theorem windowsAndSequences : Obligations.WindowsAndSequences := by
  unfold Obligations.WindowsAndSequences
  intro p s e hq he hs
  dsimp only
  refine ⟨fun ha hf hw hh => ?fill, fun n i x d' u hx hr hf hi hk => ⟨fun hb => ?full, fun hb hw => ?placed⟩,
    fun d' u hc ho hw => ?close⟩
  case fill =>
    exact exec_of_quiet (exec_windowFillStart p s) (Dev.windowFill_of_halfFree he hs ha hf hw hh) hq (by simp) (by simp) (by simp)
      (by simp)
  case full => exact exec_of_endSample hq (exec_samplePlace p n s) (Dev.samplePlace_of_full he hs hx hr hf hi hk hb)
  case placed => exact exec_of_effect (exec_samplePlace p n s) (Dev.samplePlace_of_written he hs hx hr hf hi hk hb hw)
  case close => exact exec_of_effect (exec_sequenceClose p s) (Dev.sequenceClose_of_written he hs hc ho hw)

end Sys2Proof
end

section
/-! SUPPORT. Shadow lines (03 R101): what a pick keeps of a line at its first write, that every store write keeps the pick covered,
and what restoring the kept lines leaves. -/

namespace Sys2Proof.Machine

/-! ### Lines that a pick has kept -/

/-- The pick has kept line `n` of tile `t`'s store. -/
def Pick.keeps (p : Pick) (t n : Nat) : Prop := ∃ x ∈ p.shadow, x.1 = t ∧ x.2.1 = n

/-- The pick keeps `bs` as line `n` of tile `t`, unless it has kept that line before. -/
def Pick.kept (p : Pick) (t n : Nat) (bs : List Byte) : Pick :=
  if p.shadow.any fun s => s.1 = t ∧ s.2.1 = n then p else { p with shadow := p.shadow ++ [(t, n, bs)] }

theorem Dev.shadowLine_eq (d : Dev) (l t n : Nat) :
    d.shadowLine l t n = d.modPickOf l fun p => p.kept t n ((d.lt t).bytes (64 * n) 64) := rfl

theorem Pick.any_shadow_iff (p : Pick) (t n : Nat) : (p.shadow.any fun s => s.1 = t ∧ s.2.1 = n) = true ↔ p.keeps t n := by
  simp only [List.any_eq_true, decide_eq_true_eq, Pick.keeps]

theorem Pick.kept_of_keeps {p : Pick} {t n : Nat} (h : p.keeps t n) (bs : List Byte) : p.kept t n bs = p :=
  if_pos ((p.any_shadow_iff t n).2 h)

theorem Pick.shadow_kept_of_new {p : Pick} {t n : Nat} (h : ¬ p.keeps t n) (bs : List Byte) :
    (p.kept t n bs).shadow = p.shadow ++ [(t, n, bs)] :=
  congrArg Pick.shadow (if_neg (mt (p.any_shadow_iff t n).1 h))

/-- Keeping a line forgets none, and keeps that one. -/
theorem Pick.keeps_kept (p : Pick) (t n : Nat) (bs : List Byte) (u m : Nat) :
    (p.kept t n bs).keeps u m ↔ p.keeps u m ∨ (u = t ∧ m = n) := by
  by_cases h : p.keeps t n
  · rw [Pick.kept_of_keeps h]
    exact ⟨.inl, fun k => k.elim id fun ⟨hu, hm⟩ => hu ▸ hm ▸ h⟩
  · simp only [Pick.keeps, Pick.shadow_kept_of_new h, List.mem_append, List.mem_singleton, or_and_right, exists_or, exists_eq_left,
      eq_comm]

/-! ### The store of a tile -/

/-- A run of store bytes depends on the bytes it holds alone. -/
theorem LTile.bytes_congr {x y : LTile} {a n : Nat} (h : ∀ b, a ≤ b → b < a + n → x.byteAt b = y.byteAt b) :
    x.bytes a n = y.bytes a n :=
  List.map_congr_left fun i hi => h (a + i) (by omega) (by have := List.mem_range.1 hi; omega)

theorem LTile.length_bytes (x : LTile) (a n : Nat) : (x.bytes a n).length = n := by simp [LTile.bytes]

/-- Writing a line of another store over a line makes its bytes those of the other's, and leaves every other byte. -/
theorem LTile.byteAt_setBytes_line (x y : LTile) (n b : Nat) :
    (x.setBytes (64 * n) (y.bytes (64 * n) 64)).byteAt b = if b / 64 = n then y.byteAt b else x.byteAt b := by
  rw [LTile.byteAt_setBytes, LTile.length_bytes]
  by_cases h : b / 64 = n
  · rw [if_pos (by omega), if_pos h, LTile.bytes, List.getD_eq_getElem _ _ (by simp; omega)]
    simp only [List.getElem_map, List.getElem_range, show 64 * n + (b - 64 * n) = b by omega]
  · rw [if_neg (by omega), if_neg h]

/-- After a write of tile `t`'s store: the bytes written there, every other byte as before. -/
theorem Dev.byteAt_setBytes (d : Dev) (t a : Nat) (bs : List Byte) (u b : Nat) :
    ((d.setLt t ((d.lt t).setBytes a bs)).lt u).byteAt b =
      if u = t ∧ a ≤ b ∧ b < a + bs.length then bs.getD (b - a) 0 else (d.lt u).byteAt b := by
  rw [Dev.lt_setLt]
  by_cases h : u = t
  · subst h
    rw [if_pos rfl, LTile.byteAt_setBytes]
    simp
  · rw [if_neg h, if_neg (fun k => h k.1)]

theorem Dev.pick_setBytes (d : Dev) (t a : Nat) (bs : List Byte) (l : Nat) :
    ((d.setLt t ((d.lt t).setBytes a bs)).lt l).pick = (d.lt l).pick := by
  rw [Dev.lt_setLt]
  split
  · next h => rw [LTile.setBytes_pick, h]
  · rfl

/-! ### Every store write keeps a pick covered -/

/-- A pick that has kept nothing is covered against the device as it is. -/
theorem Dev.covers_self {d : Dev} {l : Nat} {p : Pick} (hp : (d.lt l).pick = some p) (hs : p.shadow = []) : d.covers d l :=
  ⟨p, hp, by simp [hs], fun _ _ => .inr rfl⟩

/-- A line not kept before still holds the bytes of the last commit when it is kept. -/
theorem Dev.covers_shadowLine {c d : Dev} {l : Nat} (h : c.covers d l) (t n : Nat) : c.covers (d.shadowLine l t n) l := by
  obtain ⟨p, hp, hkept, hrest⟩ := h
  refine ⟨p.kept t n ((d.lt t).bytes (64 * n) 64), by rw [Dev.shadowLine_eq, Dev.modPickOf_pick, hp]; rfl, ?_, fun u a => ?_⟩
  · by_cases hk : p.keeps t n
    · rwa [Pick.kept_of_keeps hk]
    · rw [Pick.shadow_kept_of_new hk]
      have hline : (d.lt t).bytes (64 * n) 64 = (c.lt t).bytes (64 * n) 64 :=
        LTile.bytes_congr fun b _ _ => (hrest t b).resolve_left (by rwa [show b / 64 = n by omega])
      simp only [List.forall_mem_append, List.forall_mem_singleton]
      exact ⟨hkept, hline⟩
  · rw [Dev.shadowLine_eq, Dev.modPickOf_store]
    exact (hrest u a).imp_left fun k => (p.keeps_kept t n _ u (a / 64)).2 (.inl k)

/-- The pick of tile `l` has kept line `n` of tile `t`'s store. -/
def Dev.keepsLine (d : Dev) (l t n : Nat) : Prop := ∃ p, (d.lt l).pick = some p ∧ p.keeps t n

theorem Dev.keepsLine_shadowLine {d : Dev} {l : Nat} {p : Pick} (hp : (d.lt l).pick = some p) (t n u m : Nat) :
    (d.shadowLine l t n).keepsLine l u m ↔ d.keepsLine l u m ∨ (u = t ∧ m = n) := by
  simp only [Dev.keepsLine, Dev.shadowLine_eq, Dev.modPickOf_pick, hp, Option.map_some, Option.some.injEq, exists_eq_left',
    Pick.keeps_kept]

/-- The lines shadowed one after another: the pick stays covered and has kept each of them. -/
theorem Dev.covers_shadowLines {c : Dev} {l t : Nat} (ns : List Nat) : ∀ {d : Dev}, c.covers d l →
    c.covers (ns.foldl (fun d n => d.shadowLine l t n) d) l ∧
      ∀ m, m ∈ ns ∨ d.keepsLine l t m → (ns.foldl (fun d n => d.shadowLine l t n) d).keepsLine l t m := by
  induction ns with
  | nil => exact fun h => ⟨h, fun m hm => hm.resolve_left (by simp)⟩
  | cons n ns ih =>
    intro d h
    obtain ⟨p, hp, -, -⟩ := id h
    obtain ⟨hcov, hkeep⟩ := ih (Dev.covers_shadowLine h t n)
    refine ⟨hcov, fun m hm => hkeep m ?_⟩
    rw [Dev.keepsLine_shadowLine hp]
    rcases hm with hm | hm
    · exact (List.mem_cons.1 hm).elim (fun e => .inr (.inr ⟨rfl, e⟩)) .inl
    · exact .inr (.inl hm)

/-- Bytes written over lines that the pick has kept leave it covered. -/
theorem Dev.covers_setBytes {c d : Dev} {l t a : Nat} {bs : List Byte} (h : c.covers d l)
    (hk : ∀ b, a ≤ b → b < a + bs.length → d.keepsLine l t (b / 64)) : c.covers (d.setLt t ((d.lt t).setBytes a bs)) l := by
  obtain ⟨p, hp, hkept, hrest⟩ := h
  refine ⟨p, (d.pick_setBytes t a bs l).trans hp, hkept, fun u b => ?_⟩
  by_cases hb : u = t ∧ a ≤ b ∧ b < a + bs.length
  · obtain ⟨rfl, hlo, hhi⟩ := hb
    obtain ⟨q, hq, hkeeps⟩ := hk b hlo hhi
    obtain rfl : q = p := Option.some.inj (hq.symm.trans hp)
    exact .inl hkeeps
  · exact (hrest u b).imp_right fun k => ((d.byteAt_setBytes t a bs u b).trans (if_neg hb)).trans k

/-- The lines of a range of bytes. -/
theorem mem_rangeFrom_line {a n b : Nat} (hlo : a ≤ b) (hhi : b < a + n) :
    b / 64 ∈ rangeFrom (a / 64) ((a + n - 1) / 64 - a / 64 + 1) := by
  refine List.mem_map.2 ⟨b / 64 - a / 64, List.mem_range.2 ?_, ?_⟩ <;> omega

/-- A write of the pick's, into its own tile or another, keeps it covered (R101). -/
theorem Dev.covers_storeWrite {c d e : Dev} {l t a : Nat} {bs : List Byte} {u : Unit} (h : c.covers d l)
    (hw : d.storeWrite l t a bs = .ok e u) : c.covers e l := by
  unfold Dev.storeWrite at hw
  split at hw
  · cases hw
  · cases hw
    obtain ⟨hcov, hkeep⟩ := Dev.covers_shadowLines (t := t) (rangeFrom (a / 64) ((a + bs.length - 1) / 64 - a / 64 + 1)) h
    exact Dev.covers_setBytes hcov fun b hlo hhi => hkeep _ (.inl (mem_rangeFrom_line hlo hhi))

/-! ### Restoring the kept lines -/

/-- Kept lines of `c` restored: in a device that differs from `c` in no other line, every byte of every store is that of `c`. -/
theorem Dev.byteAt_unshadow {c : Dev} (xs : List (Nat × Nat × List Byte))
    (hc : ∀ x ∈ xs, x.2.2 = (c.lt x.1).bytes (64 * x.2.1) 64) : ∀ {d : Dev},
    (∀ t a, (∃ x ∈ xs, x.1 = t ∧ x.2.1 = a / 64) ∨ (d.lt t).byteAt a = (c.lt t).byteAt a) →
      ∀ t a, ((d.unshadow xs).lt t).byteAt a = (c.lt t).byteAt a := by
  induction xs with
  | nil => exact fun h t a => (h t a).resolve_left (by simp)
  | cons x xs ih =>
    obtain ⟨t, n, bs⟩ := x
    obtain ⟨hbs, hxs⟩ := List.forall_mem_cons.1 hc
    dsimp only at hbs
    subst hbs
    intro d h
    refine ih hxs fun u a => ?_
    by_cases hx : u = t ∧ a / 64 = n
    · obtain ⟨rfl, hn⟩ := hx
      right
      rw [Dev.lt_setLt, if_pos rfl, LTile.byteAt_setBytes_line, if_pos hn]
    · refine (h u a).imp (fun k => ?_) fun k => ?_
      · obtain ⟨y, hy, hyu, hya⟩ := k
        rcases List.mem_cons.1 hy with rfl | hy
        · exact absurd ⟨hyu.symm, hya.symm⟩ hx
        · exact ⟨y, hy, hyu, hya⟩
      · rw [Dev.byteAt_setBytes, if_neg, k]
        rw [LTile.length_bytes]
        exact fun e => hx ⟨e.1, by omega⟩

end Sys2Proof.Machine
end

section
/-! A pick abandoned after writes to tile stores (03 R101, R102). -/

namespace Sys2Proof

open Sys2Proof.Machine

/-- Settles O27: a line is kept while it still holds the last commit's bytes, so the kept lines restored give every byte back. -/
theorem abandonRestores : Obligations.AbandonRestores := by
  unfold Obligations.AbandonRestores
  refine ⟨fun l d p hp hs => Dev.covers_self hp hs, fun l t a bs c d e u h hw => Dev.covers_storeWrite h hw, ?_⟩
  intro l c d p h hp
  obtain ⟨q, hq, hkept, hrest⟩ := h
  obtain rfl : q = p := Option.some.inj (hq.symm.trans hp)
  exact Dev.byteAt_unshadow q.shadow hkept hrest

end Sys2Proof
end

section
/-! SUPPORT. The op rows: each is the head piece of its opcode (03 R68, R102, R104). -/

namespace Sys2Proof.Machine

theorem exec_opRow {row : Nat × (Nat → Instr)} (h : row ∈ opRows) (l : Nat) (s : State) :
    exec (row.2 l) s = s.after fun d => d.opRow l row.1 := by
  have hall : ∀ row ∈ opRows, exec (row.2 l) s = s.after fun d => d.opRow l row.1 := by
    simp only [opRows, List.forall_mem_cons, List.not_mem_nil, false_implies, implies_true, and_true]
    and_intros <;> rfl
  exact hall row h

theorem Dev.opRow_of_noPick {d : Dev} {l : Nat} (h : (d.lt l).pick = none) (code : Nat) : d.opRow l code = d := by
  simp only [Dev.opRow, h]

section
variable {d : Dev} {l k : Nat} {p : Pick} {q : Piece} {qs : List Piece} (hp : (d.lt l).pick = some p) (hk : d.runCtx l = some k)
  (hq : p.pieces = q :: qs)
include hp hk hq

theorem Dev.opRow_of_other {code : Nat} (hc : oCode q.desc ≠ code) : d.opRow l code = d := by
  simp only [Dev.opRow, hp, hk, hq, if_pos (Or.inl hc)]

variable (hr : d.mayRun k l p = true)
include hr

theorem Dev.opRow_of_ok {e : Dev} {u : Unit} (h : d.runUnits k l q.op q.desc q.count q.first = .ok e u) :
    d.opRow l (oCode q.desc) = e.modPickOf l fun p => { p with pieces := qs } := by
  simp [Dev.opRow, hp, hk, hq, hr, h]

theorem Dev.opRow_of_fail {e : Dev} {st : Nat} (h : d.runUnits k l q.op q.desc q.count q.first = .fail e st) :
    d.opRow l (oCode q.desc) = e.stopPick l st q.op := by
  simp [Dev.opRow, hp, hk, hq, hr, h]

theorem Dev.opRow_of_hold (h : d.runUnits k l q.op q.desc q.count q.first = .hold) : d.opRow l (oCode q.desc) = d := by
  simp [Dev.opRow, hp, hk, hq, hr, h]

end

theorem Dev.stopPick_of_sound {d : Dev} {l : Nat} (h : (d.lt l).pick.bind Pick.suspect = none) (st op : Nat) :
    d.stopPick l st op = d.failPick l st op := by
  rw [Dev.stopPick, h]

theorem Dev.stopPick_of_suspect {d : Dev} {l c : Nat} (h : (d.lt l).pick.bind Pick.suspect = some c) (st op : Nat) :
    d.stopPick l st op = d.suspect l c := by
  rw [Dev.stopPick, h]

end Sys2Proof.Machine
end

section
/-! SUPPORT. One unit of an op (Table 03-9), its operand panels in hand and no injection armed: vectors and tables (03 R71, R72,
R91), moves (R94), remote, fence and control ops (R95 to R97), a K panel of `MMUL` (R89). -/

namespace Sys2Proof.Machine

@[simp] theorem URes.bind_ok {α β : Type} (d : Dev) (x : α) (f : Dev → α → URes β) : (URes.ok d x).bind f = f d x := rfl

/-- With no injection armed a result panel is just written (09 R287). -/
theorem Dev.putChecked_of_disarmed {d : Dev} (h : d.fld 0x8060 63 1 = 0) (k l : Nat) (x : OpDesc) (i j : Nat) (spot : Bool)
    (m : List (List FV)) : d.putChecked k l x i j spot m = d.putWhole k l x i j m := by
  cases spot <;> simp [Dev.putChecked, Dev.injectCheck_of_disarmed _ h]

section
variable {d e : Dev} {k l op u : Nat} {x : OpDesc} {a : List (List FV)}

/-! ### Vector ops and table ops -/

section
variable (ha : d.readA k l x .fp32 (unitI x u) (unitJ x u) = .ok e a)
include ha

theorem Dev.runUnit_vec1 (hc : oCode x = 0x11) (he : e.fld 0x8060 63 1 = 0) :
    d.runUnit k l op x u = e.putWhole k l x (unitI x u) (unitJ x u) (mapPanel (vec1Op (oSub x) (dec32 (oImm x))) a) := by
  simp only [Dev.runUnit, hc, Dev.vec1Unit, ha, URes.bind_ok, Dev.putChecked_of_disarmed he]

theorem Dev.runUnit_tfwd (hc : oCode x = 0x20) {t : TableSet} (ht : (d.lt l).set_ (oSub x) = some t)
    (he : e.fld 0x8060 63 1 = 0) :
    d.runUnit k l op x u = e.putWhole k l x (unitI x u) (unitJ x u) (mapPanel ((e.lt l).tableAt t false) a) := by
  simp only [Dev.runUnit, hc, Dev.tfwdUnit, ht, ha, URes.bind_ok, Dev.putChecked_of_disarmed he]

variable {f : Dev} {b : List (List FV)} (hb : e.readB k l x (unitI x u) (unitJ x u) = .ok f b)
include hb

theorem Dev.runUnit_vec2 (hc : oCode x = 0x10) (hf : f.fld 0x8060 63 1 = 0) :
    d.runUnit k l op x u = f.putWhole k l x (unitI x u) (unitJ x u) (zipPanels (vec2Op (oSub x)) a b) := by
  simp only [Dev.runUnit, hc, Dev.vec2Unit, ha, hb, URes.bind_ok, Dev.putChecked_of_disarmed hf]

theorem Dev.runUnit_tslope (hc : oCode x = 0x21) {t : TableSet} (ht : (d.lt l).set_ (oSub x) = some t)
    (hf : f.fld 0x8060 63 1 = 0) :
    d.runUnit k l op x u = f.putWhole k l x (unitI x u) (unitJ x u)
      (zipPanels (fun v w => rn32 (((f.lt l).tableAt t true v).mul w)) a b) := by
  simp only [Dev.runUnit, hc, Dev.tslopeUnit, ht, ha, hb, URes.bind_ok, Dev.putChecked_of_disarmed hf]

theorem Dev.runUnit_vfma (hc : oCode x = 0x12) {g : Dev} {c : List (List FV)}
    (hd : f.readPanel k l (oD x) (fmtOf (oFmtD x)) (oBsz x) .fp32 false (oMp x) (oNp x) (unitI x u) (unitJ x u) = .ok g c)
    (hg : g.fld 0x8060 63 1 = 0) :
    d.runUnit k l op x u = g.putWhole k l x (unitI x u) (unitJ x u)
      (List.zipWith (fun (p : List (FV × FV)) (r : List FV) => List.zipWith (fun e z => fma32 e.1 e.2 z) p r)
        (List.zipWith List.zip a b) c) := by
  simp only [Dev.runUnit, hc, Dev.vfmaUnit, ha, hb, hd, URes.bind_ok, Dev.putChecked_of_disarmed hg]

end

/-- A table op whose set is not loaded fails `TABLE_UNLOADED`. -/
theorem Dev.runUnit_unloaded (hc : oCode x = 0x20 ∨ oCode x = 0x21) (ht : (d.lt l).set_ (oSub x) = none) :
    d.runUnit k l op x u = .fail d 0x54 := by
  rcases hc with hc | hc
  · simp only [Dev.runUnit, hc, Dev.tfwdUnit, ht]
  · simp only [Dev.runUnit, hc, Dev.tslopeUnit, ht]

theorem LTile.set_loadSet (y : LTile) (s : Nat) (t : TableSet) (fwd slope : List Segment) :
    (y.loadSet s t fwd slope).set_ s = some t := by
  simp only [LTile.set_, LTile.loadSet, Sparse.get_set_self]

theorem Dev.runUnit_tload {f : Dev} {h bs : List Byte} {t : TableSet} (hc : oCode x = 0x22)
    (hh : d.readAt k l (oA x) (oA x).addr 64 = .ok e h) (ht : tableHeader h = some t)
    (hb : e.readAt k l (oA x) ((oA x).addr + 64) (32 * t.count) = .ok f bs)
    (hs : ((chunksOf 16 (2 * t.count) bs).map tableEntry).any Option.isNone = false) :
    let es := ((chunksOf 16 (2 * t.count) bs).map tableEntry).filterMap id
    d.runUnit k l op x u = .ok (f.setLt l ((f.lt l).loadSet (oSub x) t (es.take t.count) (es.drop t.count))) () := by
  simp only [Dev.runUnit, hc, Dev.tloadUnit, hh, ht, hb, hs, URes.bind_ok, Bool.false_eq_true, if_false]

/-! ### Moves -/

theorem Dev.runUnit_move (hc : oCode x = 0x40) (ha : d.readA k l x .move (unitI x u) (unitJ x u) = .ok e a)
    (he : e.fld 0x8060 63 1 = 0) : d.runUnit k l op x u = e.putWhole k l x (unitI x u) (unitJ x u) a := by
  simp only [Dev.runUnit, hc, Dev.moveUnit, ha, URes.bind_ok, Dev.putChecked_of_disarmed he]

theorem Dev.runUnit_fill (hc : oCode x = 0x41) (hd : d.fld 0x8060 63 1 = 0) :
    d.runUnit k l op x u =
      d.putWhole k l x (unitI x u) (unitJ x u) (List.replicate 64 (List.replicate 64 (dec32 (oImm x)))) := by
  simp only [Dev.runUnit, hc, Dev.fillUnit, Dev.putChecked_of_disarmed hd]

/-! ### Control and fence ops -/

theorem Dev.runUnit_setrng (hc : oCode x = 0x70) :
    d.runUnit k l op x u = .ok (d.setLt l { d.lt l with base := oFval x % 2 ^ 48, step := oImm x }) () := by
  simp only [Dev.runUnit, hc, Dev.setrngUnit]

theorem Dev.runUnit_nothing (hc : oCode x = 0x00 ∨ oCode x = 0x7F) : d.runUnit k l op x u = .ok d () := by
  rcases hc with hc | hc <;> simp only [Dev.runUnit, hc]

theorem Dev.runUnit_fsig (hc : oCode x = 0x61) : d.runUnit k l op x u = d.holdSignal k l (oFence x) (oFval x) := by
  simp only [Dev.runUnit, hc, Dev.fsigUnit]

theorem Dev.holdSignal_of_ok {n v : Nat} (h : d.signalOk k n = true) :
    d.holdSignal k l n v = .ok (d.modPickOf l fun p => { p.hold (.sig n v) with sigs := p.sigs ++ [(n, v)] }) () := if_pos h

theorem Dev.holdSignal_of_denied {n v : Nat} (h : d.signalOk k n = false) : d.holdSignal k l n v = .fail d 7 :=
  if_neg (by simp [h])

/-! ### Remote ops -/

/-- A remote op whose destination cannot be reached fails `REMOTE_UNREACHABLE`. -/
theorem Dev.runUnit_unreachable (hc : oCode x = 0x50 ∨ oCode x = 0x51 ∨ oCode x = 0x52 ∨ oCode x = 0x53)
    (h : d.canSend k x = false) : d.runUnit k l op x u = .fail d 0x57 := by
  rcases hc with hc | hc | hc | hc
  · simp [Dev.runUnit, hc, Dev.rputUnit, h]
  · simp [Dev.runUnit, hc, Dev.rputUnit, h]
  · simp [Dev.runUnit, hc, Dev.rgetUnit, h]
  · simp [Dev.runUnit, hc, Dev.rsigUnit, h]

@[simp] theorem Dev.modPickOf_rest (d : Dev) (l : Nat) (f : Pick → Pick) :
    (d.modPickOf l f).mem = d.mem ∧ (d.modPickOf l f).fences = d.fences := by
  simp [Dev.modPickOf]

@[simp] theorem Dev.isSome_pick_modPickOf (d : Dev) (l : Nat) (f : Pick → Pick) :
    ((d.modPickOf l f).lt l).pick.isSome = (d.lt l).pick.isSome := by
  rw [Dev.modPickOf_pick, Option.isSome_map]

@[simp] theorem Dev.sendFrom_rest (d : Dev) (k l n : Nat) (x : OpDesc) (w : Draft) :
    (d.sendFrom k l n x w).tiles = d.tiles ∧ (d.sendFrom k l n x w).mem = d.mem ∧ (d.sendFrom k l n x w).fences = d.fences := by
  simp [Dev.sendFrom]

@[simp] theorem Dev.lt_sendFrom (d : Dev) (k l n : Nat) (x : OpDesc) (w : Draft) (m : Nat) :
    (d.sendFrom k l n x w).lt m = d.lt m := by
  simp only [Dev.lt, Dev.sendFrom_rest]

/-- A tile's message, sent or held, leaves memory, fences and whether the tile has a pick. -/
@[simp] theorem Dev.tileSend_rest (d : Dev) (k l : Nat) (x : OpDesc) (w : Draft) :
    (d.tileSend k l x w).mem = d.mem ∧ (d.tileSend k l x w).fences = d.fences ∧
      ((d.tileSend k l x w).lt l).pick.isSome = (d.lt l).pick.isSome := by
  unfold Dev.tileSend Dev.noteSent
  split
  · simp [Dev.hold]
  · simp

/-- The pick owes the destination `g` a COMMIT on every channel (07 R197). -/
def Pick.oweAll16 (p : Pick) (g : Nat) : Pick := if p.all16.contains g then p else { p with all16 := p.all16 ++ [g] }

theorem Pick.mem_all16_oweAll16 (p : Pick) (g : Nat) : g ∈ (p.oweAll16 g).all16 := by
  unfold Pick.oweAll16
  split
  · next h => simpa using h
  · simp

/-- The SIGNAL that `RSIG` forms (07 Table 07-6). -/
def signalDraft (x : OpDesc) : Draft :=
  { Draft.blank with typ := 5, len := 1, payload := leBytes 8 (oFval x) ++ leBytes 56 (oFence x) }

theorem Dev.rsigUnit_of_reachable (h : d.canSend k x = true) :
    d.rsigUnit k l x = .ok ((d.tileSend k l x (signalDraft x)).modPickOf l fun p => p.oweAll16 (oDest x)) () :=
  if_neg (by simp [h])

theorem Dev.runUnit_rsig (hc : oCode x = 0x53) : d.runUnit k l op x u = d.rsigUnit k l x := by
  simp only [Dev.runUnit, hc]

/-- A SIGNAL: its destination is owed a COMMIT on every channel; memory and fences stand. -/
theorem Dev.runUnit_rsig_owes (hc : oCode x = 0x53) (h : d.canSend k x = true) {p : Pick} (hp : (d.lt l).pick = some p) :
    ∃ e q, d.runUnit k l op x u = .ok e () ∧ (e.lt l).pick = some q ∧ oDest x ∈ q.all16 ∧ e.mem = d.mem ∧
      e.fences = d.fences := by
  have hpick : ((d.tileSend k l x (signalDraft x)).lt l).pick.isSome = true := by simp [hp]
  obtain ⟨q, hq⟩ := Option.isSome_iff_exists.1 hpick
  exact ⟨_, q.oweAll16 (oDest x), (Dev.runUnit_rsig hc).trans (Dev.rsigUnit_of_reachable h),
    by rw [Dev.modPickOf_pick, hq]; rfl, q.mem_all16_oweAll16 _, by simp, by simp⟩

end

/-! ### A K panel of `MMUL` (03 R89) -/

/-- Element (r, k) of the accumulator before a K panel joins it. -/
def Carry.elAt (c : Carry) (r k : Nat) : AccEl :=
  { acc := (c.acc.getD r []).getD k FV.zero, tau := (c.tau.getD r []).getD k FV.zero, sat := (c.satEl.getD r []).getD k false }

/-- Each accumulator takes the products of its row of A and its column of B, whatever the mask. -/
theorem Carry.acc_step (c : Carry) (t : Fmt) (mask : List Bool) {a bt : List (List FV)} (ha : a.length = 64) (hb : bt.length = 64)
    {r k : Nat} (hr : r < 64) (hk : k < 64) :
    ((c.step t mask a bt).acc.getD r []).getD k FV.zero =
      (addPanel t (c.elAt r k) (a.getD r []) (bt.getD k [])).acc := by
  simp [Carry.step, Carry.elAt, List.getD_eq_getElem?_getD, ha, hb, hr, hk]

theorem addPanel_of_int {t : Fmt} (h : t.isInt = true) (x : AccEl) (as bs : List FV) :
    addPanel t x as bs = (List.zipWith FV.mul as bs).foldl addInt x := if_pos h

/-- Two groups of 32 products, one after the other. -/
theorem addPanel_of_float {t : Fmt} (h : t.isInt = false) (x : AccEl) (as bs : List FV) :
    addPanel t x as bs = addGroup (windowQ (rateClass t))
      (addGroup (windowQ (rateClass t)) x ((List.zipWith FV.mul as bs).take 32)) ((List.zipWith FV.mul as bs).drop 32) :=
  if_neg (by simp [h])

end Sys2Proof.Machine
end

section
/-! Op rows and what a unit of each op gives (03 R68, R71, R72, R89, R91, R94 to R97, R102, R104). -/

namespace Sys2Proof

open Sys2Proof.Machine

/-- Settles O25: each clause is the lemma about how the head piece of the pick fares. -/
theorem opRuns : Obligations.OpRuns := by
  unfold Obligations.OpRuns
  intro row l s hquiet hrow
  have hexec := exec_opRow hrow l s
  have stands (h : s.dev.opRow l row.1 = s.dev) : exec (row.2 l) s = .next s := exec_of_quiet hexec h hquiet rfl rfl rfl rfl
  refine ⟨fun hp => stands (Dev.opRow_of_noPick hp _), fun p k q qs hp hk hq =>
    ⟨fun hc => stands (Dev.opRow_of_other hp hk hq hc), fun hc hr => ?_⟩⟩
  rw [← hc] at hexec stands
  refine ⟨fun e u hu => exec_of_effect hexec (Dev.opRow_of_ok hp hk hq hr hu), fun e st hu => ⟨fun hs => ?_, fun c hs => ?_⟩,
    fun hu => stands (Dev.opRow_of_hold hp hk hq hr hu)⟩
  · exact exec_of_effect hexec ((Dev.opRow_of_fail hp hk hq hr hu).trans (Dev.stopPick_of_sound hs st q.op))
  · exact exec_of_effect hexec ((Dev.opRow_of_fail hp hk hq hr hu).trans (Dev.stopPick_of_suspect hs st q.op))

/-- Settles O26: each clause is the lemma about its op's unit; the accumulators of a K panel are `Carry.acc_step`. -/
theorem opUnits : Obligations.OpUnits := by
  unfold Obligations.OpUnits
  refine ⟨fun d k l op u x hd => ?units, fun c t mask a bt r k ha hb hr hk => ?panel⟩
  case units =>
    dsimp only
    refine ⟨fun e a ha he => ⟨fun hc => Dev.runUnit_vec1 ha hc he, fun hc t ht => Dev.runUnit_tfwd ha hc ht he,
        fun f b hb hf => ⟨fun hc => Dev.runUnit_vec2 ha hb hc hf, fun hc t ht => Dev.runUnit_tslope ha hb hc ht hf,
          fun hc g c hg hdis => Dev.runUnit_vfma ha hb hc hg hdis⟩⟩,
      fun e a hc ha he => Dev.runUnit_move hc ha he, fun hc => Dev.runUnit_fill hc hd, Dev.runUnit_unloaded,
      fun e h t f bs hc hh ht hb hs => ⟨_, Dev.runUnit_tload hc hh ht hb hs, ?loaded, ?store⟩,
      fun hc => ⟨_, Dev.runUnit_setrng hc, ?base, ?others⟩,
      fun hc hok => (Dev.runUnit_fsig hc).trans (Dev.holdSignal_of_ok hok),
      fun hc hdenied => (Dev.runUnit_fsig hc).trans (Dev.holdSignal_of_denied hdenied),
      fun p hc hsend hp => Dev.runUnit_rsig_owes hc hsend hp, Dev.runUnit_unreachable, Dev.runUnit_nothing⟩
    case loaded => rw [Dev.lt_setLt, if_pos rfl, LTile.set_loadSet]
    case store => rw [Dev.lt_setLt, if_pos rfl]; rfl
    case base => rw [Dev.lt_setLt, if_pos rfl]
    case others => exact fun m hm => by rw [Dev.lt_setLt, if_neg hm]
  case panel =>
    dsimp only
    rw [c.acc_step t mask ha hb hr hk]
    exact ⟨fun hint => by rw [addPanel_of_int hint]; rfl, fun hfloat => by rw [addPanel_of_float hfloat]; rfl⟩

end Sys2Proof
end

section
/-! SUPPORT. Effects that leave the device as it is, folds that leave a part of it alone, and what partitions, Battens and registers
read as after the updates of this family. -/

namespace Sys2Proof.Machine

/-- A command whose effect is none answers with the same state. -/
theorem exec_of_idle {s : State} {i : Instr} {f : Dev → Dev} (hq : s.dev.quiet = true) (key : exec i s = s.after f)
    (e : f s.dev = s.dev) : exec i s = .next s :=
  exec_of_quiet key e hq rfl rfl rfl rfl

theorem foldl_keeps {α β γ : Type} (g : α → β) {f : α → γ → α} (h : ∀ a x, g (f a x) = g a) (xs : List γ) (a : α) :
    g (xs.foldl f a) = g a := by
  induction xs generalizing a with
  | nil => rfl
  | cons x xs ih => exact (ih _).trans (h a x)

variable (d : Dev)

/-! ### What a partition and a Batten hold -/

@[simp] theorem Dev.batten_setBatten (d : Dev) (n : Nat) (x : Batten) (m : Nat) :
    (d.setBatten n x).batten m = if m = n then x else d.batten m := by
  simp [Dev.batten, Dev.setBatten, Sparse.get_set]

@[simp] theorem Dev.bt_setBt (d : Dev) (p : Nat) (x : BtPart) (q : Nat) :
    (d.setBt p x).bt q = if q = p then x else d.bt q := by
  simp [Dev.bt, Dev.setBt, Sparse.get_set]

@[simp] theorem Dev.bt_setUpdate (d : Dev) (p : Nat) (u : Update) (q : Nat) :
    (d.setUpdate p u).bt q = if q = p then { d.bt p with update := some u } else d.bt q := Dev.bt_setBt ..

@[simp] theorem Dev.bt_setPhase (d : Dev) (r q : Nat) (ph : Phase) (p : Nat) : (d.setPhase r q ph).bt p = d.bt p := rfl

theorem Dev.bt_congr {a b : Dev} (h : a.btParts = b.btParts) (p : Nat) : a.bt p = b.bt p := by
  rw [Dev.bt, h, Dev.bt]

/-! ### Registers -/

theorem Dev.reg_setUpdate (p : Nat) (u : Update) (o : Nat) : (d.setUpdate p u).reg o = d.reg o := rfl

theorem Dev.btParts_bump (o n : Nat) : (d.bump o n).btParts = d.btParts := rfl

theorem Dev.btParts_record (c k : Nat) (u : UnitType) (i : Nat) (p : Option Nat) (x : Nat) :
    (d.record c k u i p x).btParts = d.btParts := by simp

/-- An entry's partition counters lie at the offsets 0x28, 0x30 and 0x38 of a block of 0x80. -/
theorem counters_ne {x : Nat} (h : x % 0x80 ≠ 0x28 ∧ x % 0x80 ≠ 0x30 ∧ x % 0x80 ≠ 0x38) (p : Nat) :
    x ≠ 0x8128 + 0x80 * p ∧ x ≠ 0x8130 + 0x80 * p ∧ x ≠ 0x8138 + 0x80 * p := by
  omega

end Sys2Proof.Machine
end

section
/-! SUPPORT. The instructions of an update program (06 R161 to R164): the registers of a run read back, what an opcode of each
group does, and a run whose instructions are executed one after the other. -/

namespace Sys2Proof.Machine

theorem getD_modifyAt_const {α : Type} (v z : α) {xs : List α} {i : Nat} (h : i < xs.length) :
    (modifyAt (fun _ => v) xs i).getD i z = v := by
  induction xs generalizing i with
  | nil => exact absurd h (Nat.not_lt_zero _)
  | cons x xs ih =>
    cases i with
    | zero => rfl
    | succ i => simpa [modifyAt] using ih (Nat.lt_of_succ_lt_succ h)

variable {r : ProgRun}

theorem ProgRun.fr_setF (h : r.f.length = 16) (i : BitVec 4) (v : FV) : (r.setF i v).fr i = v :=
  getD_modifyAt_const v _ (by have := i.isLt; omega)

theorem ProgRun.pr_setP (h : r.p.length = 4) (i : BitVec 4) (v : Bool) : (r.setP i v).pr i.toNat = v :=
  getD_modifyAt_const v _ (by omega)

section
variable (env : ProgEnv) {op : Nat} (i : ProgFields) (r : ProgRun)

/-- The arithmetic opcodes write `fd` (Table 06-7). -/
theorem progEffect_arith (h : op = 0x03 ∨ 0x10 ≤ op ∧ op ≤ 0x1B) :
    progEffect env op i r = r.setF i.d (progArith op (r.fr i.a) (r.fr i.b) (r.fr i.c)) := by
  have hlow : ¬ 0x30 ≤ op := by omega
  unfold progEffect
  dsimp only
  split
  case h_13 => rw [if_neg hlow]
  all_goals omega

/-- The comparisons write `pd` (Table 06-7). -/
theorem progEffect_compare (h : 0x30 ≤ op ∧ op ≤ 0x32) :
    progEffect env op i r = r.setP i.d (progCmp op (r.fr i.a) (r.fr i.b)) := by
  unfold progEffect
  dsimp only
  split
  case h_13 => rw [if_pos h.1]
  all_goals omega

/-- No instruction takes its run to another element. -/
@[simp] theorem progEffect_el (op : Nat) : (progEffect env op i r).el = r.el := by
  unfold progEffect
  dsimp only
  (repeat' split) <;> rfl

@[simp] theorem progStep_el (op : Nat) : (progStep env op i r).el = r.el := by
  unfold progStep
  dsimp only
  split
  · exact progEffect_el env i r op
  · rfl

end

theorem progCmp_of_nan (op : Nat) {a b : FV} (h : a = .nan ∨ b = .nan) : progCmp op a b = false := by
  rcases h with rfl | rfl
  · rfl
  · simp [progCmp, FV.isNan]

theorem FV.isNan_eq_false {a : FV} (h : a ≠ .nan) : a.isNan = false := by
  cases a with
  | nan => exact absurd rfl h
  | inf => rfl
  | fin => rfl

theorem progCmp_of_numbers {a b : FV} (ha : a ≠ .nan) (hb : b ≠ .nan) :
    progCmp 0x30 a b = decide (FV.cmp a b < 0) ∧ progCmp 0x31 a b = decide (FV.cmp a b ≤ 0) ∧
      progCmp 0x32 a b = decide (FV.cmp a b = 0) := by
  simp [progCmp, FV.isNan_eq_false ha, FV.isNan_eq_false hb]

theorem progStep_of_unguarded (env : ProgEnv) (op : Nat) {i : ProgFields} {r : ProgRun} (hg : guardHolds i r = false) :
    progStep env op i r = { r with pc := r.pc + 1 } := by
  rw [progStep, hg]
  rfl

theorem progStep_of_guarded (env : ProgEnv) (op : Nat) {i : ProgFields} {r : ProgRun} (hg : guardHolds i r = true) :
    progStep env op i r = { progEffect env op i r with pc := r.pc + 1 } := by
  rw [progStep, hg]
  rfl

/-! ### A run executed one instruction at a time -/

/-- The block in hand after the instruction `w` of the run under way, if there is one. -/
def Dev.stepHand (d : Dev) (u : Update) (h : Hand) (w : Nat) : Hand :=
  match h.run with
  | some r => d.stepRun u h r w
  | none => h

variable {d : Dev} {u : Update} {h : Hand} {w : Nat}

theorem Dev.stepRun_of_end (hw : progOp w = 0) :
    d.stepRun u h r w = { h with ran := h.ran ++ [(r.el, r.stores)], run := none } := if_pos hw

theorem Dev.stepRun_of_other (hw : progOp w ≠ 0) : d.stepRun u h r w =
    { h with run := some (progStep (d.progEnv u h.block r.el (slotsPanels u h.data)) (progOp w) (progFields w) r) } := if_neg hw

theorem Dev.stepHand_of_run (hr : h.run = some r) (w : Nat) : d.stepHand u h w = d.stepRun u h r w := by
  rw [Dev.stepHand, hr]

/-- Executed one by one up to `END`, the words leave the stores that `runProg` gives from where the run stood. -/
theorem Dev.foldl_stepHand {ws : List Nat} {e : Nat} (hr : h.run = some r) (hws : ∀ w ∈ ws, progOp w ≠ 0) (he : progOp e = 0) :
    (ws ++ [e]).foldl (d.stepHand u) h =
      { h with ran := h.ran ++ [(r.el, runProg (d.progEnv u h.block r.el (slotsPanels u h.data)) (ws ++ [e]) r)], run := none } := by
  induction ws generalizing h r with
  | nil =>
    rw [List.nil_append, List.foldl_cons, List.foldl_nil, Dev.stepHand_of_run hr, Dev.stepRun_of_end he, runProg, if_pos he]
  | cons w ws ih =>
    obtain ⟨hw, hws⟩ := List.forall_mem_cons.1 hws
    rw [List.cons_append, List.foldl_cons, Dev.stepHand_of_run hr, Dev.stepRun_of_other hw, ih rfl hws, runProg, if_neg hw,
      progStep_el]

/-! ### The rows -/

theorem exec_progRow {row : Nat × (Nat → ProgFields → Instr)} (h : row ∈ progRows) (n : Nat) (f : ProgFields) (s : State) :
    exec (row.2 n f) s = s.after fun d => d.progRow n row.1 f := by
  have hall : ∀ row ∈ progRows, exec (row.2 n f) s = s.after fun d => d.progRow n row.1 f := by
    simp only [progRows, List.forall_mem_cons, List.not_mem_nil, false_implies, implies_true, and_true]
    and_intros <;> rfl
  exact hall row h

theorem Dev.takeBlock_of_hand {n : Nat} (hh : (d.batten n).hand = some h) (p : Nat) (u : Update) :
    d.takeBlock p n u = .ok d (some h) := by
  rw [Dev.takeBlock, hh]

/-- A row executes the next word of the run under way when it is that word's instruction, and only then. -/
theorem Dev.progRow_of_run {n p w : Nat} (hw : d.battenWork n = some (p, u)) (hg : u.gate = .passed)
    (hh : (d.batten n).hand = some h) (hr : h.run = some r) (hpc : u.prog[r.pc]? = some w) (op : Nat) (f : ProgFields) :
    d.progRow n op f =
      if progOp w = op ∧ progFields w = f then d.setBatten n { d.batten n with hand := some (d.stepRun u h r w) } else d := by
  simp only [Dev.progRow, hw, hg, ne_eq, not_true_eq_false, if_false, Dev.takeBlock_of_hand hh, hr, hpc]

end Sys2Proof.Machine
end

section
/-! SUPPORT. What accesses to device memory leave of Batten and of the fault log: reads, writes, the re-encryption steps and stripe
rows they take first (12 R353, R362, R368, R369, 08 R232, R233) change no update and no Batten, and no entry of the log goes. -/

namespace Sys2Proof.Machine

/-- `e` is `d` after accesses to memory: updates and Battens stand, and the log has lost no entry. -/
structure Dev.Accessed (d e : Dev) : Prop where
  battens : e.battens = d.battens
  btParts : e.btParts = d.btParts
  seq : d.log.seq ≤ e.log.seq

/-- The device that an access leaves, whether it succeeds or fails. -/
def Res.dev {α : Type} : Res α → Dev
  | .ok d _ => d
  | .fail d _ => d

namespace Dev.Accessed

theorem refl (d : Dev) : d.Accessed d := ⟨rfl, rfl, le_rfl⟩

theorem ite {d a b : Dev} {c : Prop} [Decidable c] (h : d.Accessed a) (k : d.Accessed b) : d.Accessed (if c then a else b) := by
  split <;> assumption

variable {d e : Dev}

theorem ok {α : Type} {x : α} (h : d.Accessed e) : d.Accessed (Res.ok e x).dev := h

theorem fail {α : Type} {w : MemFail} (h : d.Accessed e) : d.Accessed (Res.fail e w : Res α).dev := h

theorem iteRes {α : Type} {a b : Res α} {c : Prop} [Decidable c] (h : d.Accessed a.dev) (k : d.Accessed b.dev) :
    d.Accessed (if c then a else b).dev := by
  split <;> assumption

theorem of_ok {α : Type} {f : Dev} {r : Res α} {x : α} (h : d.Accessed r.dev) (hr : r = .ok f x) : d.Accessed f := by
  rwa [hr] at h

theorem of_fail {α : Type} {f : Dev} {r : Res α} {w : MemFail} (h : d.Accessed r.dev) (hr : r = .fail f w) : d.Accessed f := by
  rwa [hr] at h

variable (h : d.Accessed e)
include h

theorem same {f : Dev} (hb : f.battens = e.battens) (hp : f.btParts = e.btParts) (hl : f.log = e.log) : d.Accessed f :=
  ⟨hb.trans h.battens, hp.trans h.btParts, hl ▸ h.seq⟩

theorem foldl {α : Type} {f : Dev → α → Dev} (hf : ∀ {c : Dev} x, d.Accessed c → d.Accessed (f c x)) (xs : List α) :
    d.Accessed (xs.foldl f e) := by
  induction xs generalizing e with
  | nil => exact h
  | cons x xs ih => exact ih (hf x h)

/-! ### State updates, entries, signals, messages -/

theorem setReg {o : Nat} {v : Word64} : d.Accessed (e.setReg o v) := h.same rfl rfl rfl

theorem bump {o n : Nat} : d.Accessed (e.bump o n) := h.setReg

theorem setRegion {n : Nat} {x : Region} : d.Accessed (e.setRegion n x) := h.same rfl rfl rfl

theorem setLine {l : Nat} {m : Option LineMeta} : d.Accessed (e.setLine l m) := h.same rfl rfl rfl

theorem setLatent {l : Nat} {f : LineFound} : d.Accessed (e.setLatent l f) := h.same rfl rfl rfl

theorem touchRun {l n : Nat} : d.Accessed (e.touchRun l n) := h.same rfl rfl rfl

theorem touch {l : Nat} : d.Accessed (e.touch l) := h.touchRun

theorem setByte {a : Nat} {b : Byte} : d.Accessed (e.setByte a b) := h.same rfl rfl rfl

theorem setBufs {k : Nat} {bs : List StepBuf} : d.Accessed (e.setBufs k bs) := h.same rfl rfl rfl

theorem setUnit {u : UnitType} {i : Nat} {r : UnitRec} : d.Accessed (e.setUnit u i r) := h.same rfl rfl rfl

theorem takeEpoch {k : Nat} : d.Accessed (e.takeEpoch k) := h.same rfl rfl rfl

theorem account {k i n : Nat} : d.Accessed (e.account k i n) := h.same rfl rfl rfl

theorem finish {r q : Nat} {v : Verdict} : d.Accessed (e.finish r q v) := h.same rfl rfl rfl

theorem raisePart {p i : Nat} : d.Accessed (e.raisePart p i) := h.same (by simp) (by simp) (by simp)

theorem setPl {p : Nat} {x : PlPart} : d.Accessed (e.setPl p x) := h.same rfl rfl rfl

theorem record {c k i x : Nat} {u : UnitType} {p : Option Nat} : d.Accessed (e.record c k u i p x) :=
  ⟨by simp [h.battens], by simp [h.btParts], by simpa using Nat.le_succ_of_le h.seq⟩

theorem recordC3 {k c x : Nat} : d.Accessed (e.recordC3 k c x) :=
  ⟨by simp [h.battens], by simp [h.btParts], by simpa using Nat.le_succ_of_le h.seq⟩

theorem signal {k f v : Nat} {b : Bool} : d.Accessed (e.signal k f v b).1 := by
  unfold Dev.signal
  dsimp only
  split
  · exact h
  · split
    · exact h
    · exact h.record
    · generalize (if b = true then (e.fence f).remote else (e.fence f).maySignal k) = may
      split
      · exact h
      · split
        · exact h.record
        · exact h.same (by simp [Dev.applySignal]) (by simp [Dev.applySignal]) (by simp [Dev.applySignal])

theorem engineSignal {k f v : Nat} : d.Accessed (e.engineSignal k f v).1 := by
  unfold Dev.engineSignal
  dsimp only
  split
  · exact h.signal.account
  · exact h.signal

theorem rollEpoch {p : Nat} : d.Accessed (e.rollEpoch p) := h.same (by simp) (by simp) (by simp)

theorem send {p : Nat} {w : Draft} : d.Accessed (e.send p w) := by
  refine ⟨by simp [h.battens], by simp [h.btParts], h.seq.trans ?_⟩
  have hroll : (e.rollEpoch p).log = e.log := by simp
  unfold Dev.send
  dsimp only
  split
  · unfold Dev.noteHeld
    split <;> simp
  · simp
  · simp

/-! ### Reads -/

theorem badLine {n l c k : Nat} {b p : Bool} : d.Accessed (e.badLine n l c k b p) :=
  .ite h.setRegion.bump.record h.setRegion.bump.recordC3

theorem meetLine {n l c k : Nat} {f : LineFound} {p : Bool} : d.Accessed (e.meetLine n l c k f p).1 := by
  cases f with
  | good => exact h
  | corrected b => exact h.setLatent.bump.record.same rfl rfl rfl
  | retried => exact h.setLatent.bump.record
  | badEcc => exact h.setLatent.setLine.badLine
  | badMac =>
    unfold Dev.meetLine
    dsimp only
    split
    · exact h
    · exact h.setLatent.setLine.badLine

theorem checkLine {n l c k : Nat} : d.Accessed (e.checkLine n l c k).1 := by
  unfold Dev.checkLine
  dsimp only
  split
  · exact h.badLine
  · exact h.meetLine

theorem readLine {q : Req} {l : Nat} : d.Accessed (e.readLine q l).dev := by
  unfold Dev.readLine
  split
  · exact h
  · next n _ =>
    have hc : d.Accessed ((e.touch l).checkLine n l q.ctx q.key).1 := h.touch.checkLine
    split <;> next he => rwa [he] at hc

theorem readLines {q : Req} {ls : List Nat} : d.Accessed (e.readLines q ls).dev := by
  induction ls generalizing e with
  | nil => exact h
  | cons l ls ih =>
    have hl : d.Accessed (e.readLine q l).dev := h.readLine
    unfold Dev.readLines
    split
    · next he => exact ih (hl.of_ok he)
    · next he => exact hl.of_fail he

theorem refuse {q : Req} {a : Nat} {w f : Bool} : d.Accessed (e.refuse q a w f) := .ite h.bump.record h.bump.record

theorem read {q : Req} {a n : Nat} : d.Accessed (e.read q a n).dev := by
  have hl : d.Accessed (e.readLines q (linesOf a n)).dev := h.readLines
  unfold Dev.read
  split
  · exact h
  · exact .fail h.refuse
  · exact .fail h.refuse
  · split
    · next he => exact hl.of_ok he
    · next he => exact hl.of_fail he

/-! ### Re-encryption steps -/

theorem stopLaneTests {x : Region} : d.Accessed (e.stopLaneTests x) := by
  unfold Dev.stopLaneTests
  exact h.foldl (fun _ hc => .ite hc.setUnit hc) _

theorem startReencrypt {n : Nat} {sig : Option (Nat × Nat)} : d.Accessed (e.startReencrypt n sig) := by
  unfold Dev.startReencrypt Dev.refuseRegion
  dsimp only
  split
  · exact h.record
  · exact h.takeEpoch.stopLaneTests.setRegion

theorem regionSignal {n : Nat} {sig : Option (Nat × Nat)} : d.Accessed (e.regionSignal n sig) := by
  cases sig with
  | none => exact h
  | some fv => exact h.engineSignal

theorem reencryptDone {n : Nat} : d.Accessed (e.reencryptDone n) := by
  unfold Dev.reencryptDone
  dsimp only
  exact .ite (.ite h.setRegion.record.regionSignal.startReencrypt h.setRegion.record.regionSignal) h

theorem meetStep {n first : Nat} : d.Accessed (e.meetStep n first) := by
  unfold Dev.meetStep
  exact h.foldl (fun _ hc => hc.meetLine) _

theorem fillBuf {n i k : Nat} : d.Accessed (e.fillBuf n i k).1 := h.touchRun.meetStep.setBufs

theorem drainBuf {k : Nat} {b : StepBuf} : d.Accessed (e.drainBuf k b) := by
  unfold Dev.drainBuf
  dsimp only
  split
  · exact h.setBufs
  · refine .reencryptDone (.bump (.setRegion ?_))
    exact h.same rfl rfl rfl

theorem takeStep {n i : Nat} : d.Accessed (e.takeStep n i) := .ite h h.fillBuf.drainBuf

theorem forceStep {n l : Nat} : d.Accessed (e.forceStep n l) := .ite h.takeStep.bump h

theorem scheduleAt {n c : Nat} : d.Accessed (e.scheduleAt n c) :=
  .ite h (.ite h.startReencrypt (.ite h.setRegion h))

/-! ### Lines written -/

theorem setBytes {bs : List Byte} {a : Nat} : d.Accessed (e.setBytes a bs) := by
  induction bs generalizing e a with
  | nil => exact h
  | cons b bs ih => exact ih h.setByte

theorem putLine {n k l off c : Nat} {bs : List Byte} {known : Bool} : d.Accessed (e.putLine n k l off c bs known) := by
  have hburst : d.Accessed (if known then e else e.bump 0x10048 1) := .ite h h.bump
  exact hburst.setLine.setLatent.setBytes.setRegion.touch.scheduleAt

theorem writeLine {q : Req} {l off : Nat} {bs : List Byte} : d.Accessed (e.writeLine q l off bs).dev := by
  unfold Dev.writeLine
  split
  · exact h
  · next n _ =>
    have hread : d.Accessed (if decide (bs.length = 128) then (e.forceStep n l, true)
        else ((e.forceStep n l).touch l).checkLine n l q.ctx q.key).1 := by
      split
      · exact h.forceStep
      · exact h.forceStep.touch.checkLine
    dsimp only
    split
    · next he => rwa [he] at hread
    · next he =>
      rw [he] at hread
      exact .iteRes (.ok hread.setLine.setLatent.touch.setBytes) (.iteRes (.fail hread) (.ok hread.putLine))

theorem writeLines {q : Req} {fuel a : Nat} {bs : List Byte} : d.Accessed (e.writeLines q fuel a bs).dev := by
  induction fuel generalizing e a bs with
  | zero => exact h
  | succ fuel ih =>
    have hl : d.Accessed (e.writeLine q (a / 128) (a % 128) (bs.take (128 - a % 128))).dev := h.writeLine
    unfold Dev.writeLines
    dsimp only
    split
    · exact h
    · split
      · next he => exact ih (hl.of_ok he)
      · next he => exact hl.of_fail he

/-! ### Stripe rows -/

theorem writeHeld {p off : Nat} {bs : List Byte} : d.Accessed (e.writeHeld p off bs) := by
  have hw : d.Accessed (e.writeLines (engineReq p (e.holdKey p)) (bs.length / 128 + 2) (e.holdBase p + off) bs).dev := h.writeLines
  unfold Dev.writeHeld
  dsimp only
  split
  · exact h
  · split
    · next he => exact hw.of_ok he
    · next he => exact hw.of_fail he

theorem writeSlot {p k : Nat} : d.Accessed (e.writeSlot p k) := h.writeHeld.writeHeld

theorem sendStripe {p g a : Nat} {bs : List Byte} : d.Accessed (e.sendStripe p g a bs) := h.rollEpoch.setPl.send

theorem sendRecords {p k c : Nat} : d.Accessed (e.sendRecords p k c) := h.foldl (fun _ hc => hc.sendStripe) _

theorem commitIfReady {p k : Nat} : d.Accessed (e.commitIfReady p k) := .ite h.setPl.writeHeld.sendRecords h

theorem countIfCommitted {p k : Nat} : d.Accessed (e.countIfCommitted p k) := by
  unfold Dev.countIfCommitted
  dsimp only
  exact .ite h.setPl.writeSlot.setReg.setReg.raisePart h

theorem readyIfDone {p : Nat} : d.Accessed (e.readyIfDone p) := by
  unfold Dev.readyIfDone
  dsimp only
  split
  · exact h
  · exact .ite h.setPl.sendRecords.commitIfReady.countIfCommitted h

theorem readUnits {p : Nat} {us : List Nat} : d.Accessed (e.readUnits p us).dev := by
  induction us generalizing e with
  | nil => exact h
  | cons u us ih =>
    unfold Dev.readUnits
    split
    · have hrest := ih h
      split
      · next he => exact hrest.of_ok he
      · next he => exact hrest.of_fail he
    · next a k _ =>
      have hu : d.Accessed (e.read (engineReq p k) a 4096).dev := h.read
      split
      · next he => exact hu.of_fail he
      · next f _ he =>
        have hrest := ih (hu.of_ok he)
        split
        · next hf => exact hrest.of_ok hf
        · next hf => exact hrest.of_fail hf

theorem sendStripes {p k q j : Nat} {us : List (List Byte)} : d.Accessed (e.sendStripes p k q j us) := by
  induction us generalizing e j with
  | nil => exact h
  | cons u us ih => exact ih h.sendStripe

/-- The reads, the grant and the writes of a row stand for themselves: written out, the kernel would evaluate them, 4096 bytes at a
time, to compare two matches on how they end. -/
theorem takeRow {p q : Nat} : d.Accessed (e.takeRow p q) := by
  unfold Dev.takeRow
  obtain ⟨put, hput⟩ : ∃ put, put = @Dev.writeLines := ⟨_, rfl⟩
  obtain ⟨grant, hgrant⟩ : ∃ grant, grant = @Dev.grantAll := ⟨_, rfl⟩
  obtain ⟨units, hunits⟩ : ∃ units, units = @Dev.readUnits := ⟨_, rfl⟩
  rw [← hput, ← hgrant, ← hunits]
  have hread : d.Accessed (units e p (rangeFrom (7 * q) 7)).dev := hunits ▸ h.readUnits
  have hwrite {c : Dev} (hc : d.Accessed c) (q fuel a bs) : d.Accessed (put c q fuel a bs).dev := hput ▸ hc.writeLines
  dsimp only
  split
  · exact h
  · refine .ite h ?_
    split
    · next he => exact (hread.of_fail he).setPl
    · next he =>
      have hf := hread.of_ok he
      split
      · exact hf.sendStripes.bump.setPl
      · split
        · next hw => exact ((hwrite hf.sendStripes.bump ..).of_fail hw).setPl
        · next hw => exact ((hwrite hf.sendStripes.bump ..).of_ok hw).setPl.writeHeld.readyIfDone

theorem forceRow {a : Nat} : d.Accessed (e.forceRow a) := by
  unfold Dev.forceRow
  dsimp only
  split
  · exact .ite h h.takeRow.bump
  · exact h

/-! ### Writes -/

theorem grantWrite {q : Req} {ls : List Nat} : d.Accessed (e.grantWrite q ls).dev := by
  unfold Dev.grantWrite
  split
  · exact h
  · exact .fail h.refuse
  · exact .fail h.refuse
  · exact h

theorem write {q : Req} {a : Nat} {bs : List Byte} : d.Accessed (e.write q a bs).dev := by
  have hg : d.Accessed (e.grantWrite q (linesOf a bs.length)).dev := h.grantWrite
  unfold Dev.write
  split
  · next he => exact Accessed.writeLines ((hg.of_ok he).foldl (fun _ hc => hc.forceRow) _)
  · next he => exact hg.of_fail he

theorem writeControl {p n : Nat} : d.Accessed (e.writeControl p n).dev := by
  unfold Dev.writeControl
  split
  · exact h.write
  · exact h

theorem writeControls {p : Nat} {ns : List Nat} : d.Accessed (e.writeControls p ns) := by
  refine h.foldl (fun n hc => ?_) ns
  have hw := hc.writeControl (p := p) (n := n)
  split
  · next he => exact hw.of_ok he
  · next he => exact hw.of_fail he

end Dev.Accessed

end Sys2Proof.Machine
end

section
/-! SUPPORT. What Batten's own operations leave of its parts: looking at the log, starting it, and ending a descriptor. -/

namespace Sys2Proof.Machine

variable (d : Dev)

@[simp] theorem Dev.btParts_startLogs (p : Nat) : (d.startLogs p).btParts = d.btParts :=
  foldl_keeps Dev.btParts (fun e n => by dsimp only; split <;> rfl) _ d

theorem Dev.log_clearBattens (p : Nat) : (d.clearBattens p).log = d.log := by
  have hstash : (d.closeStash p).log = d.log := by
    unfold Dev.closeStash
    split
    · split <;> rfl
    · rfl
  refine (foldl_keeps Dev.log (fun e n => ?_) _ _).trans hstash
  dsimp only
  (repeat' split) <;> rfl

/-- A descriptor that ends leaves its partition without an update and the log no shorter. -/
theorem Dev.endUpdate_rest (p st : Nat) (done : Bool) :
    ((d.endUpdate p st done).bt p).update = none ∧ d.log.seq ≤ (d.endUpdate p st done).log.seq := by
  unfold Dev.endUpdate
  split
  · next hu => exact ⟨hu, le_rfl⟩
  · next u hu =>
    dsimp only
    generalize hc : (d.clearBattens p).setBt p { d.bt p with update := none } = c
    have hbt : (c.bt p).update = none := by rw [← hc]; simp
    have hlog : d.log = c.log := by rw [← hc]; exact (d.log_clearBattens p).symm
    have hwrite : c.Accessed (c.writeControls p (c.battensOf p)) := (Dev.Accessed.refl c).writeControls
    have hsig : c.Accessed (if done = true
        then (c.writeControls p (c.battensOf p)).engineSignal u.ctx (uDoneFence u.desc) (uDoneVal u.desc)
        else (c.writeControls p (c.battensOf p), 0)).1 := by
      split
      · exact hwrite.engineSignal
      · exact hwrite
    exact ⟨(congrArg BtPart.update (Dev.bt_congr hsig.finish.btParts p)).trans hbt, hlog ▸ hsig.finish.seq⟩

theorem Dev.mem_stopsDue_recordC3 (k c x : Nat) : c ∈ (d.recordC3 k c x).stopsDue := by
  simp only [Dev.recordC3, Dev.logged, Dev.afterEntry, Dev.entryDue, Dev.newEntry]
  split
  · exact List.mem_append_right _ (List.mem_singleton.2 rfl)
  · next h => simpa using h

/-! ### Registers that no read touches -/

/-- A read counts at 0x10010 to 0x10030 and in the entry counters of the partitions alone. -/
def unread (x : Nat) : Prop := 0x10030 < x ∧ x % 0x80 ≠ 0x28 ∧ x % 0x80 ≠ 0x30 ∧ x % 0x80 ≠ 0x38

section
variable {x : Nat} (hx : unread x)
include hx

theorem Dev.reg_recordC3 (k c y : Nat) : (d.recordC3 k c y).reg x = d.reg x := by
  unfold Dev.recordC3 Dev.logged
  rw [Dev.reg_afterEntry _ _ _ x (counters_ne hx.2)]
  rfl

theorem Dev.reg_badLine (n l c k : Nat) (e p : Bool) : (d.badLine n l c k e p).reg x = d.reg x := by
  obtain ⟨hlt, hc⟩ := hx
  have hbump : ((d.setRegion n { d.region n with bad := (d.region n).bad + 1 }).bump (if e then 0x10020 else 0x10028) 1).reg x =
      d.reg x := by
    rw [Dev.reg_bump, if_neg (by split <;> omega)]
    rfl
  unfold Dev.badLine
  dsimp only
  split
  · rw [Dev.reg_record _ _ _ _ _ _ _ _ (counters_ne hc), hbump]
  · rw [Dev.reg_recordC3 _ ⟨hlt, hc⟩, hbump]

theorem Dev.reg_meetLine (n l c k : Nat) (f : LineFound) (p : Bool) : (d.meetLine n l c k f p).1.reg x = d.reg x := by
  have hcount (o : Nat) (ho : o ≤ 0x10030) : ((d.setLatent l .good).bump o 1).reg x = d.reg x := by
    rw [Dev.reg_bump, if_neg (by have := hx.1; omega)]
    rfl
  have hbad (m : Option LineMeta) (e : Bool) : (((d.setLatent l .good).setLine l m).badLine n l c k e p).reg x = d.reg x :=
    Dev.reg_badLine _ hx ..
  cases f with
  | good => rfl
  | corrected b => exact (Dev.reg_record _ _ _ _ _ _ _ _ (counters_ne hx.2)).trans (hcount 0x10010 (by decide))
  | retried => exact (Dev.reg_record _ _ _ _ _ _ _ _ (counters_ne hx.2)).trans (hcount 0x10018 (by decide))
  | badEcc => exact hbad _ true
  | badMac =>
    unfold Dev.meetLine
    dsimp only
    split
    · rfl
    · exact hbad _ false

theorem Dev.reg_readLine (q : Req) (l : Nat) : (d.readLine q l).dev.reg x = d.reg x := by
  unfold Dev.readLine
  split
  · rfl
  · next n _ =>
    have h : ((d.touch l).checkLine n l q.ctx q.key).1.reg x = d.reg x := by
      unfold Dev.checkLine
      dsimp only
      split
      · exact Dev.reg_badLine _ hx ..
      · exact Dev.reg_meetLine _ hx ..
    split <;> next he => rwa [he] at h

theorem Dev.reg_readLines (q : Req) (ls : List Nat) : (d.readLines q ls).dev.reg x = d.reg x := by
  induction ls generalizing d with
  | nil => rfl
  | cons l ls ih =>
    have h := d.reg_readLine hx q l
    unfold Dev.readLines
    split
    · next hl => rw [hl] at h; exact (ih _).trans h
    · next hl => rw [hl] at h; exact h

theorem Dev.reg_read {q : Req} {a n : Nat} {e : Dev} {bs : List Byte} (h : d.read q a n = .ok e bs) : e.reg x = d.reg x := by
  have hl := d.reg_readLines hx q (linesOf a n)
  unfold Dev.read at h
  split at h <;> try cases h
  split at h
  · next he => rw [he] at hl; cases h; exact hl
  · cases h

end

/-- A read leaves the place of every log. -/
theorem Dev.logBase_read {q : Req} {a n : Nat} {e : Dev} {bs : List Byte} (h : d.read q a n = .ok e bs) (m : Nat) :
    e.logBase m = d.logBase m := by
  have hm : unread (logReg m) := ⟨by unfold logReg; omega, by unfold logReg; omega⟩
  rw [Dev.logBase, Dev.logBase, Dev.fld, Dev.fld, d.reg_read hm h]

end Sys2Proof.Machine
end

section
/-! SUPPORT. The norm gate (06 R158 to R160): when a `SUMSQ` skips the step, the clip factor, and where the gate leads. -/

namespace Sys2Proof.Machine

theorem skips_iff (v above : FV) : skips v above = true ↔
    v = .nan ∨ (∃ b, v = .inf b) ∨ (∃ m x, v = .fin true m x ∧ m ≠ 0) ∨ (above ≠ .nan ∧ v ≠ .nan ∧ FV.cmp v above > 0) := by
  cases v with
  | nan => simp [skips]
  | inf b => simp [skips]
  | fin s m x => cases above <;> cases s <;> simp [skips]

/-- The norm exceeds `CLIP`, which is neither zero nor a NaN: the factor is their quotient (R160). -/
theorem clipFactor_of_above {clip s : FV} (h0 : clip.isZero = false) (hn : clip ≠ .nan) (h : FV.cmp s clip > 0) :
    clipFactor clip s = rn32 (clip.div s) := by
  simp [clipFactor, h0, FV.isNan_eq_false hn, h]

theorem clipFactor_of_within {clip s : FV} (h : clip.isZero = true ∨ clip = .nan ∨ FV.cmp s clip ≤ 0) :
    clipFactor clip s = .fin false 1 0 := by
  refine if_neg fun hc => ?_
  simp only [Bool.and_eq_true, Bool.not_eq_true', decide_eq_true_eq] at hc
  obtain ⟨⟨h0, hn⟩, hgt⟩ := hc
  rcases h with h | rfl | h
  · simp [h0] at h
  · cases hn
  · omega

theorem exec_normGate (p : Nat) (s : State) : exec (.normGate p) s = s.after fun d => d.normGate p := rfl

section
variable {d e : Dev} {p : Nat} {u : Update}

theorem Dev.normGate_of_none (h : (d.bt p).update = none) : d.normGate p = d := by
  rw [Dev.normGate, h]

variable (hu : (d.bt p).update = some u)
include hu

theorem Dev.normGate_of_shut (h : u.gate ≠ .waiting ∨ d.servingIn p = false) : d.normGate p = d := by
  simp only [Dev.normGate, hu]
  refine if_pos ?_
  rcases h with h | h
  · exact .inr h
  · exact .inl (by simp [h])

variable (hg : u.gate = .waiting) (hs : d.servingIn p = true)
include hg hs

theorem Dev.normGate_of_notYet (h : d.waitFence u.ctx (uNormFence u.desc) (uNormVal u.desc) = .notYet) : d.normGate p = d := by
  simp [Dev.normGate, hu, hg, hs, h]

theorem Dev.normGate_of_read (h : d.waitFence u.ctx (uNormFence u.desc) (uNormVal u.desc) = .ready) {bs : List Byte}
    (hr : d.read (engineReq u.ctx (uNormKey u.desc)) (uNormAddr u.desc) 64 = .ok e bs) : d.normGate p = e.gateOn p u bs := by
  simp [Dev.normGate, hu, hg, hs, h, hr]

end

/-- The update whose gate passed with norm `s`. -/
def Update.passed (u : Update) (s : FV) : Update :=
  { u with gate := .passed, norm := enc32 s, clip := enc32 (clipFactor (dec32 (uClip u.desc)) s) }

/-- The norm record is of the step of the descriptor and counts all its shards (R158). -/
def Update.fresh (u : Update) (bs : List Byte) : Prop :=
  leNat ((bs.drop 4).take 4) = uStep u.desc ∧ leNat ((bs.drop 8).take 4) = uNormCount u.desc

section
variable {e : Dev} (p : Nat) {u : Update} {bs : List Byte}

theorem Dev.gateOn_of_stale (h : ¬ u.fresh bs) : e.gateOn p u bs = e.endUpdate p 0x62 false :=
  if_pos (by rwa [← not_and_or])

variable (h : u.fresh bs)
include h

/-- A skipped step is counted and noted, and the update goes on with its gate so. -/
theorem Dev.gateOn_of_skips (hs : skips (dec32 (leNat (bs.take 4))) (dec32 (uSkipAbove u.desc)) = true) :
    ((e.gateOn p u bs).bt p).update = some { u with gate := .skipped } ∧
      (e.gateOn p u bs).reg (btReg p + 0x10) = e.reg (btReg p + 0x10) + 1 ∧ (e.gateOn p u bs).log.seq = e.log.seq + 1 ∧
      (e.gateOn p u bs).mem = e.mem := by
  have hreg : btReg p + 0x10 ≠ btReg p + 0x38 := by omega
  have hcount := counters_ne (x := btReg p + 0x10) (by unfold btReg; omega)
  rw [Dev.gateOn, if_neg (by rw [← not_and_or, not_not]; exact h), if_pos hs]
  refine ⟨?_, ?_, by simp, by simp⟩
  · rw [Dev.bt_congr (Dev.btParts_record ..), Dev.bt_congr (Dev.btParts_bump ..), Dev.bt_setUpdate, if_pos rfl]
  · rw [Dev.reg_record _ _ _ _ _ _ _ _ hcount, Dev.reg_bump, if_pos rfl, Dev.reg_setUpdate, Dev.reg_setReg_ne _ _ hreg]
    rfl

theorem Dev.gateOn_of_passes (hs : skips (dec32 (leNat (bs.take 4))) (dec32 (uSkipAbove u.desc)) = false) :
    (e.gateOn p u bs).log = e.log ∧ (e.gateOn p u bs).mem = e.mem ∧
      ((e.gateOn p u bs).bt p).update = some (u.passed (rn32 (dec32 (leNat (bs.take 4))).sqrt)) := by
  rw [Dev.gateOn, if_neg (by rw [← not_and_or, not_not]; exact h), if_neg (by simp [hs])]
  refine ⟨by simp, by simp, ?_⟩
  rw [Dev.bt_setUpdate, if_pos rfl]
  rfl

end

end Sys2Proof.Machine
end

section
/-! SUPPORT. How an `UPDATE` starts (06 R155 to R157): what it waits for, what ends it, and the update in progress that it leaves. -/

namespace Sys2Proof.Machine

theorem exec_update (r : Nat) (s : State) : exec (.update r) s = s.after fun d => d.update r := rfl

/-- Batten can take a descriptor of partition `p`: it is enabled, has none of the partition's in progress, has a Batten left there
and has looked at every log. -/
def Dev.battenFree (d : Dev) (p : Nat) : Prop :=
  d.fld 0x1C000 0 1 = 1 ∧ (d.bt p).update = none ∧ d.battensOf p ≠ [] ∧ d.logsReady p = true

/-- What the model asks before it lets a descriptor wait. -/
theorem Dev.battenFree_iff (d : Dev) (p : Nat) :
    (d.fld 0x1C000 0 1 = 0 ∨ (d.bt p).update.isSome ∨ d.battensOf p = [] ∨ !d.logsReady p) ↔ ¬ d.battenFree p := by
  have hbit : d.fld 0x1C000 0 1 < 2 := bits_lt _ 0 1
  have hen : d.fld 0x1C000 0 1 = 1 ↔ ¬ d.fld 0x1C000 0 1 = 0 := by omega
  cases hu : (d.bt p).update with
  | none =>
    simp only [Dev.battenFree, hen, hu, Bool.not_eq_true', Option.isSome_none, Bool.false_eq_true, true_and]
    cases d.logsReady p <;> tauto
  | some u => simp [Dev.battenFree, hu]

section
variable {d : Dev} {r : Nat} {a : Accepted} (h : d.starts r 0x60 a)
include h

theorem Dev.update_of_p8 (h8 : d.p8 = true) : d.update r = d.finish r a.seq (Verdict.of 0x61) := by
  rw [Dev.update, d.startNext_of_starts h _ rfl]
  exact if_pos h8

variable (h8 : d.p8 = false)
include h8

theorem Dev.update_of_busy (hb : ¬ d.battenFree (ringPart r)) : d.update r = d := by
  rw [Dev.update, d.startNext_of_starts h _ rfl]
  dsimp only
  rw [if_neg (by simp [h8]), if_pos ((d.battenFree_iff _).2 hb)]

variable (hf : d.battenFree (ringPart r))
include hf

theorem Dev.update_of_free : d.update r = if updateBad a.desc then d.finish r a.seq (Verdict.of 0x61) else d.beginUpdate r a := by
  rw [Dev.update, d.startNext_of_starts h _ rfl]
  dsimp only
  rw [if_neg (by simp [h8]), if_neg (mt (d.battenFree_iff _).1 (not_not_intro hf))]

theorem Dev.update_of_bad (hx : updateBad a.desc = true) : d.update r = d.finish r a.seq (Verdict.of 0x61) := by
  rw [Dev.update_of_free h h8 hf, if_pos hx]

theorem Dev.update_of_good (hx : updateBad a.desc = false) : d.update r = d.beginUpdate r a := by
  rw [Dev.update_of_free h h8 hf, if_neg (by simp [hx])]

end

/-! ### The record (R157) -/

/-- The stream slots of the record `bs`. -/
def recordSlots (bs : List Byte) : List StreamSlot := (chunksOf 16 8 (bs.take 128)).map fun b => streamSlot (leNat b)

/-- The record `bs` is valid for the descriptor `x` of partition `p`. -/
def Dev.recordSound (d : Dev) (p : Nat) (x : RingDesc) (bs : List Byte) : Prop :=
  recordBitsOk bs = true ∧ d.slotsOk p x (recordSlots bs) = true ∧
    progOk ((recordSlots bs).map StreamSlot.role) (leWords 4 (bs.drop 256)) = true

/-- The update that the descriptor `a` of ring `r` without a mask starts from the record `bs`. -/
def Accepted.startedFrom (a : Accepted) (r : Nat) (bs : List Byte) : Update :=
  { ring := r, seq := a.seq, ctx := ringCtx r, desc := a.desc, slots := recordSlots bs,
    consts := leWords 4 ((bs.drop 128).take 64), prog := leWords 4 (bs.drop 256), mask := [], gate := .waiting, clip := 0,
    norm := 0, taken := [], finished := [], stash := false, stashFrom := none, nanNoted := false }

section
variable {d e : Dev} {r : Nat} {a : Accepted}

theorem Dev.beginUpdate_of_denied {w : MemFail}
    (hr : d.read (engineReq (ringCtx r) (uRecKey a.desc)) (uRecAddr a.desc) 512 = .fail e w) (hw : w ≠ .bad) :
    d.beginUpdate r a = e.finish r a.seq (Verdict.of 0x65) := by
  cases w with
  | bad => exact absurd rfl hw
  | denied => simp only [Dev.beginUpdate, hr]
  | bounds => simp only [Dev.beginUpdate, hr]
  | wait => simp only [Dev.beginUpdate, hr]

variable {bs : List Byte} (hr : d.read (engineReq (ringCtx r) (uRecKey a.desc)) (uRecAddr a.desc) 512 = .ok e bs)
include hr

theorem Dev.beginUpdate_of_unsound (hs : ¬ e.recordSound (ctxPart (ringCtx r)) a.desc bs) :
    d.beginUpdate r a = e.finish r a.seq (Verdict.of 0x61) := by
  have hbad : (!recordBitsOk bs) = true ∨ (!e.slotsOk (ctxPart (ringCtx r)) a.desc (recordSlots bs)) = true ∨
      (!progOk ((recordSlots bs).map StreamSlot.role) (leWords 4 (bs.drop 256))) = true := by
    simp only [Bool.not_eq_true', ← Bool.not_eq_true]
    unfold Dev.recordSound at hs
    tauto
  simp only [Dev.beginUpdate, hr]
  exact if_pos hbad

variable (hs : e.recordSound (ctxPart (ringCtx r)) a.desc bs) (hm : uMaskMode a.desc = 0)
  (hd : leNat ((bs.drop 192).take 8) ≠ uStep a.desc + 2 ^ 32)
include hs hm hd

/-- A sound descriptor without a mask, not yet done: the step waits for its commit, Battens without a log start one, and the control
lines are written with the update in progress. -/
theorem Dev.beginUpdate_of_sound : ∃ ns, d.beginUpdate r a =
    ((((e.setBt (ctxPart (ringCtx r)) { e.bt (ctxPart (ringCtx r)) with
        commit := some (uCommitFence a.desc, uCommitVal a.desc, uStep a.desc) }).startLogs (ctxPart (ringCtx r))).setUpdate
      (ctxPart (ringCtx r)) (a.startedFrom r bs)).setPhase r a.seq .started).writeControls (ctxPart (ringCtx r)) ns := by
  obtain ⟨hbits, hslots, hprog⟩ := hs
  have hgood : ¬ ((!recordBitsOk bs) = true ∨ (!e.slotsOk (ctxPart (ringCtx r)) a.desc (recordSlots bs)) = true ∨
      (!progOk ((recordSlots bs).map StreamSlot.role) (leWords 4 (bs.drop 256))) = true) := by
    simp [hbits, hslots, hprog]
  have hmask (f : Dev) : f.readMask (ringCtx r) a.desc = .ok f [] := by simp only [Dev.readMask, hm]
  simp only [Dev.beginUpdate, hr, hmask]
  exact ⟨_, (if_neg hgood).trans (if_neg hd)⟩

theorem Dev.bt_beginUpdate_of_sound : (d.beginUpdate r a).bt (ctxPart (ringCtx r)) =
    { update := some (a.startedFrom r bs), commit := some (uCommitFence a.desc, uCommitVal a.desc, uStep a.desc) } := by
  obtain ⟨ns, hb⟩ := Dev.beginUpdate_of_sound hr hs hm hd
  rw [hb, Dev.bt_congr (Dev.Accessed.writeControls (.refl _)).btParts, Dev.bt_setPhase, Dev.bt_setUpdate, if_pos rfl,
    Dev.bt_congr (Dev.btParts_startLogs ..), Dev.bt_setBt, if_pos rfl]

end

end Sys2Proof.Machine
end

section
/-! SUPPORT. Log recovery (06 R172 to R174): whether it waits, what it finds in the log, and how the entries are applied. -/

namespace Sys2Proof.Machine

theorem exec_battenLogRecovery (n m : Nat) (b : Bool) (s : State) :
    exec (.battenLogRecovery n m b) s = s.after fun d => d.logRecovery n m b := rfl

@[simp] theorem Dev.batten_logSeen (d : Dev) (n m : Nat) : (d.logSeen n).batten m = d.batten m := rfl

@[simp] theorem Dev.bt_logSeen (d : Dev) (n p : Nat) : (d.logSeen n).bt p = d.bt p := rfl

@[simp] theorem Dev.log_logSeen (d : Dev) (n : Nat) : (d.logSeen n).log = d.log := rfl

@[simp] theorem Dev.stopsDue_logSeen (d : Dev) (n : Nat) : (d.logSeen n).stopsDue = d.stopsDue := rfl

/-- Batten `n` may recover its own log now (R172). -/
def Dev.mayRecover (d : Dev) (n : Nat) : Prop :=
  d.serving = true ∧ d.power.recover.contains (stackPart d.parts n) = false ∧ d.memReady (stackPart d.parts n) = true ∧ n < 16 ∧
    (d.batten n).started = false ∧ d.logSet n = true ∧ d.fenced .batten n = false ∧ d.ctxOpen (stackPart d.parts n) = true

section
variable {d : Dev} {n : Nat}

theorem Dev.logRecovery_of_started (h : (d.batten n).started = true) (m : Nat) (b : Bool) : d.logRecovery n m b = d := by
  simp [Dev.logRecovery, h]

variable (h : d.mayRecover n) (b : Bool)
include h

theorem Dev.logRecovery_of_mayRecover : d.logRecovery n n b =
    match (d.batten n).placed, d.stashWait (stackPart d.parts n) with
    | true, .notYet => d.logSeen n
    | true, .fails st => (d.endUpdate (stackPart d.parts n) st false).logSeen n
    | _, _ => (d.lookAtLog (stackPart d.parts n) n b).logSeen n := by
  obtain ⟨hs, hr, hm, hn, hst, hl, hf, ho⟩ := h
  refine if_neg ?_
  simp only [hs, hr, hm, hst, hl, hf, ho]
  simp
  omega

theorem Dev.logRecovery_of_waits (hp : (d.batten n).placed = true) (hw : d.stashWait (stackPart d.parts n) = .notYet) :
    d.logRecovery n n b = d.logSeen n := by
  simp only [Dev.logRecovery_of_mayRecover h, hp, hw]

theorem Dev.logRecovery_of_looks (hw : (d.batten n).placed = false ∨ d.stashWait (stackPart d.parts n) = .ready) :
    d.logRecovery n n b = (d.lookAtLog (stackPart d.parts n) n b).logSeen n := by
  rw [Dev.logRecovery_of_mayRecover h]
  rcases hw with hw | hw
  · simp only [hw]
  · rw [hw]
    cases (d.batten n).placed <;> rfl

end

theorem Dev.lookAtLog_of_unreadable (d : Dev) (p n : Nat) : d.lookAtLog p n false = d.logLost p n := if_pos rfl

section
variable {d e : Dev} {p n : Nat} {bs : List Byte} (hr : d.read (engineReq p (d.logKey n)) (d.logBase n) 128 = .ok e bs)
include hr

theorem Dev.lookAtLog_of_noControl (hm : leNat (bs.take 4) ≠ 0xBA770C01) :
    d.lookAtLog p n true = e.setBatten n { e.batten n with started := true } := by
  simp [Dev.lookAtLog, hr, hm]

/-- With a control line there and the stash fence held, a log whose entries are all applied starts its Batten. -/
theorem Dev.lookAtLog_of_control (hm : leNat (bs.take 4) = 0xBA770C01) (hw : e.stashWait p = .ready) {f : Dev} {x : Unit}
    (ha : (e.takeControl p n).applyEntries p n true ((e.takeControl p n).logSlots n) (leNat ((bs.drop 8).take 8) + 1)
      ((e.takeControl p n).bt p).update = .ok f x) :
    d.lookAtLog p n true = ((f.setBatten n { Batten.reset with started := true }).writeControls p [n]).updateDone p := by
  obtain ⟨hmem, hbs⟩ := d.read_ok hr
  have hline : e.bytes (e.logBase n) 128 = bs := by
    rw [hbs, d.logBase_read hr]
    simp only [Dev.bytes, Dev.byte, hmem]
  simp only [Dev.lookAtLog, Bool.not_true, Bool.false_eq_true, if_false, hr, hm, if_true, Dev.recoverLog, hw, decide_true, hline, ha]

end

/-- An unreadable log: no update is left, and the C3 entry stops the partition's context (R173). -/
theorem Dev.logLost_rest (d : Dev) (p n : Nat) :
    ((d.logLost p n).bt p).update = none ∧ d.log.seq < (d.logLost p n).log.seq ∧ p ∈ (d.logLost p n).stopsDue := by
  obtain ⟨hu, hseq⟩ := ((d.setReg (logReg n + 0x10) (BitVec.ofNat 64 (d.logTop n))).setBatten n
    { Batten.reset with started := true }).endUpdate_rest p 0x66 false
  unfold Dev.logLost
  refine ⟨?_, ?_, Dev.mem_stopsDue_recordC3 ..⟩
  · rw [Dev.bt_congr (Dev.Accessed.recordC3 (.refl _)).btParts, hu]
  · rw [Dev.recordC3_log, FaultLog.push_seq]
    exact Nat.lt_succ_of_le hseq

/-! ### Entries -/

theorem Dev.sealedAt_iff (d : Dev) (n k : Nat) : (∃ h, d.sealedAt n k = some h) ↔
    (leNat ((d.bytes (d.logAddr n k) 128).take 4) = 0xBA770E01 ∧ leNat (((d.bytes (d.logAddr n k) 128).drop 8).take 8) = k) := by
  simp [Dev.sealedAt]

/-- The update once block `b` counts as taken and finished. -/
def Update.recovered (u : Update) (b : Nat) : Update := { u with taken := insNat b u.taken, finished := insNat b u.finished }

theorem Dev.logApplied_of_applied (d : Dev) (p n : Nat) {k : Nat} (hk : k < 2 ^ 64) :
    ((d.setApplied n k).bump (btReg p + 0x40) 1).logApplied n = k := by
  have hne : logReg n + 0x18 ≠ btReg p + 0x40 := by unfold logReg btReg; omega
  rw [Dev.logApplied, Dev.reg_bump, if_neg hne, Dev.setApplied, Dev.reg_setReg, if_pos rfl, BitVec.toNat_ofNat, Nat.mod_eq_of_lt hk]

/-- An entry applied with its working copy moves `APPLIED_SEQ` to it, and in the descriptor in progress its block counts. -/
theorem Dev.applyEntry_ok {d e : Dev} {p n k : Nat} {u v : Option Update} {h : List Byte} (hk : k < 2 ^ 64)
    (ha : d.applyEntry p n k u h true = .ok e v) : e.logApplied n = k ∧
      ∀ w, u = some w → (e.bt p).update = v ∧ v = some (w.recovered (leNat ((h.drop 24).take 4))) := by
  unfold Dev.applyEntry at ha
  dsimp only at ha
  split at ha
  · cases ha
  · split at ha
    · cases ha
    · next g _ _ =>
      rw [if_neg (by simp)] at ha
      cases u with
      | none =>
        cases ha
        exact ⟨g.logApplied_of_applied p n hk, fun w hw => nomatch hw⟩
      | some u =>
        cases ha
        refine ⟨g.logApplied_of_applied p n hk, fun w hw => ?_⟩
        cases hw
        exact ⟨by rw [Dev.bt_setUpdate, if_pos rfl], rfl⟩

section
variable {d e : Dev} {p n k : Nat} {x : Unit}
  (hr : d.readLines (engineReq p (d.logKey n)) (linesOf (d.logAddr n k) 128) = .ok e x)
include hr

theorem Dev.applyEntries_of_unsealed (hs : e.sealedAt n k = none) (m : Nat) (u : Option Update) :
    d.applyEntries p n true (m + 1) k u = .ok e () := by
  rw [Dev.applyEntries, hr, Res.elim_ok, hs]
  rfl

theorem Dev.applyEntries_of_sealed {f : Dev} {h : List Byte} {u v : Option Update} (hs : e.sealedAt n k = some h)
    (ha : e.applyEntry p n k u h true = .ok f v) (m : Nat) :
    d.applyEntries p n true (m + 1) k u = f.applyEntries p n true m (k + 1) v := by
  rw [Dev.applyEntries, hr, Res.elim_ok, hs, Option.elim_some, ha, Res.elim_ok]

end

end Sys2Proof.Machine
end

section
/-! SUPPORT. The end of an update takes no free value while no log is set; the write of the record's `DONE` takes one when it
forces a stripe row (06 R168, 08 R233), and that is what O35 leaves out. -/

namespace Sys2Proof.Machine

variable (d : Dev) {p n : Nat} {u : Update}

theorem exec_workingCopyWrite (n : Nat) (s : State) : exec (.workingCopyWrite n) s = s.after fun d => d.workingCopy n := rfl

theorem settle_eq_of_after {s : State} {f : Dev → Dev} {e : Dev} (h : s.after f = .next (s.withDev e)) : (f s.dev).settle = e := by
  injection h with hs
  exact congrArg State.dev hs

/-- Free values taken so far, whether anything is due, and the fences. -/
def Dev.aside (d : Dev) : Nat × Bool × Sparse Fence := (d.draws, d.quiet, d.fences)

theorem Dev.aside_clearBattens (p : Nat) : (d.clearBattens p).aside = d.aside := by
  have hstash : (d.closeStash p).aside = d.aside := by
    unfold Dev.closeStash
    split
    · split <;> rfl
    · rfl
  refine (foldl_keeps Dev.aside (fun e n => ?_) _ _).trans hstash
  dsimp only
  (repeat' split) <;> rfl

theorem Dev.logSet_congr {a b : Dev} (hk : a.reg (logReg n) = b.reg (logReg n)) (hs : a.reg (logReg n + 8) = b.reg (logReg n + 8)) :
    a.logSet n = b.logSet n := by
  rw [Dev.logSet, Dev.logKey, Dev.logSlots, Dev.fld, Dev.fld, hk, hs, Dev.logSet, Dev.logKey, Dev.logSlots, Dev.fld, Dev.fld]

theorem Dev.logSet_bump_btReg (hn : n < 16) (k x : Nat) : (d.bump (btReg p + k) x).logSet n = d.logSet n := by
  refine Dev.logSet_congr (d.reg_setReg_ne _ ?_) (d.reg_setReg_ne _ ?_) <;> (unfold logReg btReg; omega)

theorem Dev.logSet_setApplied (m k : Nat) : (d.setApplied m k).logSet n = d.logSet n := by
  refine Dev.logSet_congr (d.reg_setReg_ne _ ?_) (d.reg_setReg_ne _ ?_) <;> (unfold logReg; omega)

theorem Dev.logSet_clearBattens (hn : n < 16) (p : Nat) : (d.clearBattens p).logSet n = d.logSet n := by
  have hstash : (d.closeStash p).logSet n = d.logSet n := by
    unfold Dev.closeStash
    split
    · split
      · rfl
      · exact d.logSet_bump_btReg hn ..
    · rfl
  refine (foldl_keeps (Dev.logSet · n) (fun e m => ?_) _ _).trans hstash
  dsimp only
  split
  · split
    · exact e.logSet_setApplied ..
    · rfl
  · rfl

/-- A Batten without a log has no control line to write. -/
theorem Dev.writeControls_of_unset {ns : List Nat} (h : ∀ n ∈ ns, d.logSet n = false) : d.writeControls p ns = d := by
  induction ns with
  | nil => rfl
  | cons n ns ih =>
    have hn : d.writeControl p n = .ok d () := by
      rw [Dev.writeControl, h n (List.mem_cons_self ..)]
      rfl
    rw [Dev.writeControls, List.foldl_cons, hn]
    exact ih fun m hm => h m (List.mem_cons_of_mem _ hm)

theorem Dev.engineSignal_of_free {f : Nat} (h : (d.fence f).st = .free) (ctx v : Nat) : d.engineSignal ctx f v = (d, 7) := by
  have hs : d.signal ctx f v false = (d, 7) := by
    rw [Dev.signal, h]
    split <;> rfl
  rw [Dev.engineSignal, hs]
  rfl

theorem Dev.aside_endUpdate (hlog : ∀ n < 16, d.logSet n = false) (hu : (d.bt p).update = some u)
    (hf : (d.fence (uDoneFence u.desc)).st = .free) (st : Nat) : (d.endUpdate p st true).aside = d.aside := by
  rw [Dev.endUpdate, hu]
  dsimp only
  generalize hc : (d.clearBattens p).setBt p { d.bt p with update := none } = c
  have haside : c.aside = d.aside := by
    rw [← hc]
    exact d.aside_clearBattens p
  have hset : ∀ n ∈ c.battensOf p, c.logSet n = false := fun n hn => by
    have hlt : n < 16 := List.mem_range.1 (List.mem_of_mem_filter hn)
    rw [← hc]
    exact (d.logSet_clearBattens hlt p).trans (hlog n hlt)
  have hfree : (c.fence (uDoneFence u.desc)).st = .free := by
    have hfences : c.fences = d.fences := congrArg (·.2.2) haside
    rw [Dev.fence, hfences]
    exact hf
  rw [c.writeControls_of_unset hset, if_pos rfl, c.engineSignal_of_free hfree]
  exact haside

theorem Dev.draws_endUpdate (hq : d.quiet = true) (hlog : ∀ n < 16, d.logSet n = false) (hu : (d.bt p).update = some u)
    (hf : (d.fence (uDoneFence u.desc)).st = .free) (st : Nat) : (d.endUpdate p st true).settle.draws = d.draws := by
  have hend := d.aside_endUpdate hlog hu hf st
  have hquiet : (d.endUpdate p st true).quiet = true := (congrArg (·.2.1) hend).trans hq
  rw [Dev.settle_of_quiet _ hquiet]
  exact congrArg Prod.fst hend

/-- A write that forced a row waited for it, which is one free value. -/
theorem Dev.aside_copyWaited {e : Dev} (h : e.reg (plReg p + 0x78) ≠ d.reg (plReg p + 0x78)) :
    (d.copyWaited e p).aside = (e.draws + 1, e.aside.2) := by
  rw [Dev.copyWaited, if_neg h]
  rfl

theorem Dev.logSet_copyWaited {e : Dev} (hn : n < 16) : (d.copyWaited e p).logSet n = e.logSet n := by
  unfold Dev.copyWaited
  split
  · rfl
  · exact e.draw.2.logSet_bump_btReg hn ..

theorem Dev.bt_copyWaited {e : Dev} (q : Nat) : (d.copyWaited e p).bt q = e.bt q := by
  unfold Dev.copyWaited
  split <;> rfl

theorem Dev.draws_endUpdate_copyWaited {e : Dev} (h : e.reg (plReg p + 0x78) ≠ d.reg (plReg p + 0x78)) (hq : e.quiet = true)
    (hlog : ∀ n < 16, e.logSet n = false) (hu : (e.bt p).update = some u) (hf : (e.fence (uDoneFence u.desc)).st = .free)
    (st : Nat) : ((d.copyWaited e p).endUpdate p st true).settle.draws = e.draws + 1 := by
  have hwait := d.aside_copyWaited h
  have hfences : (d.copyWaited e p).fences = e.fences := congrArg (·.2.2) hwait
  have hquiet : (d.copyWaited e p).quiet = true := (congrArg (·.2.1) hwait).trans hq
  have hset : ∀ n < 16, (d.copyWaited e p).logSet n = false := fun n hn => (d.logSet_copyWaited hn).trans (hlog n hn)
  have hfree : ((d.copyWaited e p).fence (uDoneFence u.desc)).st = .free := by
    rw [Dev.fence, hfences]
    exact hf
  rw [Dev.draws_endUpdate _ hquiet hset ((congrArg BtPart.update (d.bt_copyWaited p)).trans hu) hfree]
  exact congrArg Prod.fst hwait

/-- The write of the record's `DONE` (06 Table 06-3). -/
def Update.writeDone (u : Update) (d : Dev) : Res Unit :=
  d.write (engineReq u.ctx (uRecKey u.desc)) (uRecAddr u.desc + 192) (leBytes 8 (uStep u.desc + 2 ^ 32))

theorem Update.writeDone_finished (bs : List Nat) : { u with finished := bs }.writeDone d = u.writeDone d := rfl

/-- The last block's `DONE` is a Batten write, whose wait the machine draws. -/
theorem Dev.updateDone_of_last {f : Dev} (hu : (d.bt p).update = some u) (hall : u.blocks ≤ u.finished.length)
    (hg : u.gate ≠ .skipped) (hc : ctxPart u.ctx = p)
    (hw : u.writeDone d = .ok f ()) : d.updateDone p = (d.copyWaited f p).endUpdate p 0 true := by
  rw [Dev.updateDone, hu]
  dsimp only
  rw [if_neg (Nat.not_lt.2 hall), Dev.battenWrite, ← Update.writeDone, hw, if_neg hg, hc]

/-- A block without derived lines whose stash fence is met. -/
theorem Dev.workingCopy_of_bare {f : Dev} {o : BlockOut} {os : List BlockOut} (hw : d.battenWork n = some (p, u))
    (hl : (d.batten n).logged = o :: os) (hs : u.stash = true) (ho : o.derived = []) (hb : d.blockDone p n u o = .ok f ()) :
    d.workingCopy n = f.updateDone p := by
  rw [Dev.workingCopy, hw, hl]
  dsimp only
  rw [if_pos hs]
  dsimp only
  rw [Dev.openStash, if_pos hs, ho]
  dsimp only [Dev.writeAll]
  rw [hb]

/-- Whether an access succeeds. -/
def Res.succeeds {α : Type} : Res α → Bool
  | .ok _ _ => true
  | .fail _ _ => false

theorem Res.eq_ok_dev {r : Res Unit} (h : r.succeeds = true) : r = .ok r.dev () := by
  cases r with
  | ok d x => rfl
  | fail d w => exact absurd h Bool.false_ne_true

/-! ### A last block whose `DONE` forces a stripe row -/

/-- An update without blocks, its gate passed and its stash fence met, whose record is at address 0 under key 1. -/
def lastUpdate : Update :=
  { ring := 0, seq := 0, ctx := 0, desc := BitVec.ofNat 1024 (2 ^ 169), slots := [], consts := [], prog := [], mask := [],
    gate := .passed, clip := 0, norm := 0, taken := [], finished := [], stash := true, stashFrom := none, nanNoted := false }

/-- A sealed block without lines. -/
def lastBlock : BlockOut := { block := 0, seq := 0, stored := [], derived := [], sat := 0, nan := 0 }

/-- Batten 0 has the last block's working copy to write; a Pleach generation has yet to take the stripe row of the record. -/
def lastDev : Dev :=
  { Dev.reset with
    power := { Power.reset with st := .full, resetNote := none }
    regs := [(0x10000, Copies.of 1)]
    regions := [(0, { Region.reset with st := .live, granules := 1, key := 1 })]
    keys := [(1, { KeySlot.reset 1 with valid := true })]
    ctxs := [(0, { Ctx.reset with st := .opened })]
    battens := [(0, { Batten.reset with started := true, logged := [lastBlock] })]
    btParts := [(0, { update := some lastUpdate, commit := none })]
    pleach := [(0, { PlPart.reset with
      cur := some 0, srcs := [{ addr := 0, key := 0, units := 1, tensor := 0, elemBase := 0, fmt := 0, cols := 0 }] })] }

/-- `lastDev` with its block counted as finished. -/
def lastDone : Dev := (lastDev.blockDone 0 0 lastUpdate lastBlock).dev

def lastWrite : Res Unit := lastUpdate.writeDone lastDone

def lastFinished : Update := { lastUpdate with finished := [0] }

theorem lastDev_blockDone : lastDev.blockDone 0 0 lastUpdate lastBlock = .ok lastDone () := Res.eq_ok_dev (by decide +kernel)

theorem lastWrite_ok : lastWrite = .ok lastWrite.dev () := Res.eq_ok_dev (by decide +kernel)

theorem lastDone_bt : (lastDone.bt 0).update = some lastFinished := by decide +kernel

theorem lastWrite_bt : (lastWrite.dev.bt 0).update = some lastFinished := by decide +kernel

/-- The write forces the row. -/
theorem lastWrite_forces : lastWrite.dev.reg (plReg 0 + 0x78) ≠ lastDone.reg (plReg 0 + 0x78) := by decide +kernel

theorem lastWrite_unset : ∀ n < 16, lastWrite.dev.logSet n = false := by decide +kernel

theorem lastWrite_free : (lastWrite.dev.fence (uDoneFence lastFinished.desc)).st = .free := by decide +kernel

theorem lastWrite_quiet : lastWrite.dev.quiet = true := by decide +kernel

theorem lastDev_workingCopy : lastDev.workingCopy 0 = (lastDone.copyWaited lastWrite.dev 0).endUpdate 0 0 true := by
  have hwork : lastDev.workingCopy 0 = lastDone.updateDone 0 :=
    lastDev.workingCopy_of_bare (os := []) (by decide +kernel) (by decide +kernel) rfl rfl lastDev_blockDone
  rw [hwork, lastDone.updateDone_of_last lastDone_bt (by decide +kernel) (by decide) (by decide)
    ((Update.writeDone_finished lastDone [0]).trans lastWrite_ok)]

end Sys2Proof.Machine
end

section
/-! PROOFS of the statements about Batten (06). -/

namespace Sys2Proof

open Sys2Proof.Machine

/-- Settles O30: what ends the descriptor or makes it wait comes first, then the record's soundness decides. -/
theorem updateStarts : Obligations.UpdateStarts := by
  unfold Obligations.UpdateStarts
  intro r s a hq h d p x taken ends
  have hends {e : Dev} {st : Nat} (he : d.update r = e.finish r a.seq (Verdict.of st)) : ends e st :=
    exec_of_effect (exec_update r s) he
  refine ⟨fun h8 => hends (Dev.update_of_p8 h h8), fun h8 hb => exec_of_idle hq (exec_update r s) (Dev.update_of_busy h h8 hb),
    fun h8 hf hx => hends (Dev.update_of_bad h h8 hf hx), fun h8 hf hx => ?_⟩
  have hgood := Dev.update_of_good h h8 hf hx
  refine ⟨fun e w hr hw => hends (hgood.trans (Dev.beginUpdate_of_denied hr hw)), fun e bs hr =>
    ⟨fun hs => ?unsound, fun hs hm hd hk => ?sound⟩⟩
  case unsound => exact hends (hgood.trans (Dev.beginUpdate_of_unsound hr hs))
  case sound =>
    have hbt := Dev.bt_beginUpdate_of_sound hr hs hm hd
    have hp : ctxPart (ringCtx r) = ringCtx r := if_pos hk
    rw [hp] at hbt
    refine ⟨_, a.startedFrom r bs, exec_of_effect (exec_update r s) hgood, ?_, rfl, rfl, rfl, rfl, rfl, rfl, rfl, rfl, rfl, ?_⟩
    · rw [hbt]
    · rw [hbt]

/-- Settles O31: the gate shut or waiting changes nothing, and past the fence the record alone decides where it leads. -/
theorem normGate : Obligations.NormGate := by
  unfold Obligations.NormGate
  intro p s hq d
  refine ⟨fun hu => exec_of_idle hq (exec_normGate p s) (Dev.normGate_of_none hu),
    fun u hu hshut => exec_of_idle hq (exec_normGate p s) (Dev.normGate_of_shut hu hshut), fun u hu hg hs => ?_⟩
  dsimp only
  refine ⟨fun hw => exec_of_idle hq (exec_normGate p s) (Dev.normGate_of_notYet hu hg hs hw), fun e bs hw hr _ => ?_⟩
  have hexec : exec (.normGate p) s = .next (s.withDev (e.gateOn p u bs).settle) :=
    exec_of_effect (exec_normGate p s) (Dev.normGate_of_read hu hg hs hw hr)
  refine ⟨fun hstale => ?stale, fun hfresh hskip => ?skipped, fun hfresh hskip => ?passed⟩
  case stale => rw [hexec, Dev.gateOn_of_stale p hstale]
  case skipped => exact ⟨_, hexec, Dev.gateOn_of_skips p hfresh ((skips_iff _ _).2 hskip)⟩
  case passed =>
    obtain ⟨hlog, hmem, hu'⟩ := Dev.gateOn_of_passes (e := e) p hfresh (Bool.eq_false_iff.2 (mt (skips_iff _ _).1 hskip))
    exact ⟨_, hexec, hlog, hmem, _, hu', clipFactor_of_above, clipFactor_of_within⟩

/-- Settles O33: arithmetic and comparisons by the lemma of their group, every other opcode by its own row of Table 06-7. -/
theorem programEffects : Obligations.ProgramEffects := by
  unfold Obligations.ProgramEffects
  intro env i r hf hp a b x reg pred put
  have write (v : FV) : (r.setF i.d v).fr i.d = v := ProgRun.fr_setF hf i.d v
  have test (v : Bool) : (r.setP i.d v).pr i.d.toNat = v := ProgRun.pr_setP hp i.d v
  have arith (op : Nat) (h : op = 0x03 ∨ 0x10 ≤ op ∧ op ≤ 0x1B) : reg op = progArith op a b (r.fr i.c) := by
    rw [← write (progArith op a b (r.fr i.c)), ← progEffect_arith env i r h]
  have compare (op : Nat) (h : 0x30 ≤ op ∧ op ≤ 0x32) : pred op = progCmp op a b := by
    rw [← test (progCmp op a b), ← progEffect_compare env i r h]
  refine ⟨write _, write _, arith 0x03 (by decide), arith 0x10 (by decide), arith 0x11 (by decide), arith 0x12 (by decide),
    arith 0x13 (by decide), arith 0x14 (by decide), arith 0x15 (by decide), arith 0x16 (by decide), arith 0x17 (by decide),
    arith 0x18 (by decide), arith 0x19 (by decide), arith 0x1A (by decide), arith 0x1B (by decide), write _, write _,
    fun hnan => ?nan, fun ha hb => ?numbers, test _, test _, test _, test _, rfl, rfl, rfl⟩
  case nan =>
    rw [compare 0x30 (by decide), compare 0x31 (by decide), compare 0x32 (by decide)]
    exact ⟨progCmp_of_nan _ hnan, progCmp_of_nan _ hnan, progCmp_of_nan _ hnan⟩
  case numbers =>
    rw [compare 0x30 (by decide), compare 0x31 (by decide), compare 0x32 (by decide)]
    exact progCmp_of_numbers ha hb

/-- Settles O34, by induction on the words before `END`. -/
theorem programInOrder : Obligations.ProgramInOrder := by
  unfold Obligations.ProgramInOrder
  intro d u h r ws e hr hws he go env
  have hgo : go = d.stepHand u := rfl
  rw [hgo, Dev.foldl_stepHand hr hws he]
  exact ⟨rfl, rfl⟩

/-- Settles O32: a row whose word comes next leaves `Dev.stepRun`, any other leaves the device. -/
theorem programRows : Obligations.ProgramRows := by
  unfold Obligations.ProgramRows
  intro row n p f s u h r w hq hrow hw hg hh hr hpc d env
  have hstep : d.progRow n row.1 f = _ := Dev.progRow_of_run hw hg hh hr hpc row.1 f
  have hhand (x : Hand) : ((d.setBatten n { d.batten n with hand := some x }).batten n).hand = some x := by
    rw [Dev.batten_setBatten, if_pos rfl]
  refine ⟨fun hne => ?other, fun hop hf => ?this⟩
  case other =>
    exact exec_of_quiet (exec_progRow hrow n f s) (hstep.trans (if_neg (by tauto))) hq rfl rfl rfl rfl
  case this =>
    refine ⟨_, exec_of_quiet (exec_progRow hrow n f s) (hstep.trans (if_pos ⟨hop, hf⟩)) hq rfl rfl rfl rfl, rfl, rfl, rfl, rfl,
      fun m hm => ?_, fun h0 => ?_, fun h0 hguard => ?_, fun h0 hguard => ?_⟩
    · exact (Dev.batten_setBatten ..).trans (if_neg hm)
    · rw [hhand, Dev.stepRun_of_end (hop.trans h0)]
    · rw [hhand, Dev.stepRun_of_other (hop ▸ h0), hop, hf, progStep_of_unguarded _ _ hguard]
    · rw [hhand, Dev.stepRun_of_other (hop ▸ h0), hop, hf, progStep_of_guarded _ _ hguard]

/-- Refutes O35: the write of `DONE` after the last block is a Batten write; where it forces a stripe row, the machine also draws
the time it waited (08 R233, log 129), which the clause on the last block leaves out. -/
theorem not_blocksInOrder : ¬ Obligations.BlocksInOrder := by
  intro h
  obtain ⟨-, -, -, -, -, -, hcopy, -⟩ := h 0 { State.reset with dev := lastDev } (by decide +kernel)
  have hclaim := (hcopy 0 lastUpdate lastBlock [] (by decide +kernel) (by decide +kernel) (.inl rfl) lastDev () lastDone () rfl
    lastDev_blockDone lastDone_bt).2 (by decide +kernel) lastWrite.dev () lastWrite_ok
  have hdraws := congrArg Dev.draws (settle_eq_of_after ((exec_workingCopyWrite 0 _).symm.trans hclaim))
  rw [lastDev_workingCopy,
    lastDone.draws_endUpdate_copyWaited lastWrite_forces lastWrite_quiet lastWrite_unset lastWrite_bt lastWrite_free,
    lastWrite.dev.draws_endUpdate lastWrite_quiet lastWrite_unset lastWrite_bt lastWrite_free] at hdraws
  generalize lastWrite.dev.draws = k at hdraws
  exact Nat.succ_ne_self k hdraws

/-- Settles O36: whether the recovery waits, what the log's first line holds, and the entries applied one after another. -/
theorem logRecovered : Obligations.LogRecovered := by
  unfold Obligations.LogRecovered
  intro n s hq d p
  refine ⟨fun hst m b => exec_of_idle hq (exec_battenLogRecovery n m b s) (Dev.logRecovery_of_started hst m b),
    fun hs hr hm hn hst hl hf ho => ?recovery, d.sealedAt_iff n, fun k u h e v hn hk ha => ?entry,
    fun k u m e x hr => ⟨fun hs => Dev.applyEntries_of_unsealed hr hs m u, fun h f v hs ha => Dev.applyEntries_of_sealed hr hs ha m⟩⟩
  case recovery =>
    have may : d.mayRecover n := ⟨hs, hr, hm, hn, hst, hl, hf, ho⟩
    refine ⟨fun hp hw b => ⟨d.logSeen n, ?_, rfl, rfl, rfl⟩, fun hw => ?looks⟩
    · exact exec_of_effect (exec_battenLogRecovery n n b s) (Dev.logRecovery_of_waits may b hp hw)
    case looks =>
      have looks (b : Bool) : exec (.battenLogRecovery n n b) s = .next (s.withDev ((d.lookAtLog p n b).logSeen n).settle) :=
        exec_of_effect (exec_battenLogRecovery n n b s) (Dev.logRecovery_of_looks may b hw)
      refine ⟨fun e bs hr hm => ⟨_, looks true, ?_⟩, fun e bs f u hr hm hw => ?control, ⟨_, looks false, ?_⟩⟩
      · rw [Dev.lookAtLog_of_noControl hr hm]
        exact ⟨by rw [Dev.batten_logSeen, Dev.batten_setBatten, if_pos rfl],
          fun m hm => by rw [Dev.batten_logSeen, Dev.batten_setBatten, if_neg hm], rfl⟩
      case control =>
        intro g ha
        rw [looks, Dev.lookAtLog_of_control hr hm hw ha]
      · rw [Dev.lookAtLog_of_unreadable, Dev.bt_logSeen, Dev.log_logSeen, Dev.stopsDue_logSeen]
        exact d.logLost_rest p n
  case entry => exact Dev.applyEntry_ok hk ha

end Sys2Proof
end

section
/-! SUPPORT. What accesses to device memory leave of Reed and the Shuttles: reads, writes of lines and re-encryption steps send nothing
(12 R353, R369), and the stripe rows that a write takes first only send (08 R225, R233). -/

namespace Sys2Proof.Machine

variable (d : Dev)

/-! ### Accesses that send nothing -/

@[simp] theorem Res.dev_ok {α : Type} (x : α) : (Res.ok d x).dev = d := rfl

@[simp] theorem Res.dev_fail {α : Type} (w : MemFail) : (Res.fail d w : Res α).dev = d := rfl

@[simp] theorem Dev.shuttle_setBytes (a : Nat) (bs : List Byte) : (d.setBytes a bs).shuttle = d.shuttle := by
  induction bs generalizing d a with
  | nil => rfl
  | cons b bs ih => exact ih _ _

@[simp] theorem Dev.shuttle_signal (k f v : Nat) (b : Bool) : (d.signal k f v b).1.shuttle = d.shuttle := by
  unfold Dev.signal Dev.recordCtx Dev.applySignal
  dsimp only
  (repeat' split) <;> simp

@[simp] theorem Dev.shuttle_engineSignal (k f v : Nat) : (d.engineSignal k f v).1.shuttle = d.shuttle := by
  unfold Dev.engineSignal
  dsimp only
  split <;> simp

@[simp] theorem Dev.shuttle_badLine (n l c k : Nat) (e p : Bool) : (d.badLine n l c k e p).shuttle = d.shuttle := by
  unfold Dev.badLine
  dsimp only
  split <;> simp

@[simp] theorem Dev.shuttle_setLatent (l : Nat) (f : LineFound) : (d.setLatent l f).shuttle = d.shuttle := rfl

@[simp] theorem Dev.shuttle_touch (l : Nat) : (d.touch l).shuttle = d.shuttle := rfl

@[simp] theorem Dev.shuttle_meetLine (n l c k : Nat) (f : LineFound) (p : Bool) : (d.meetLine n l c k f p).1.shuttle = d.shuttle := by
  cases f with
  | badMac =>
    unfold Dev.meetLine
    dsimp only
    split <;> simp
  | good => rfl
  | corrected b => simp [Dev.meetLine]
  | retried => simp [Dev.meetLine]
  | badEcc => simp [Dev.meetLine]

@[simp] theorem Dev.shuttle_checkLine (n l c k : Nat) : (d.checkLine n l c k).1.shuttle = d.shuttle := by
  unfold Dev.checkLine
  dsimp only
  split <;> simp

@[simp] theorem Dev.shuttle_readLine (q : Req) (l : Nat) : (d.readLine q l).dev.shuttle = d.shuttle := by
  unfold Dev.readLine
  split
  · rfl
  · next n _ =>
    have h : ((d.touch l).checkLine n l q.ctx q.key).1.shuttle = d.shuttle := by simp
    split <;> next he => rwa [he] at h

@[simp] theorem Dev.shuttle_readLines (q : Req) (ls : List Nat) : (d.readLines q ls).dev.shuttle = d.shuttle := by
  induction ls generalizing d with
  | nil => rfl
  | cons l ls ih =>
    have h := d.shuttle_readLine q l
    unfold Dev.readLines
    split
    · next he => rw [he] at h; exact (ih _).trans h
    · next he => rw [he] at h; exact h

@[simp] theorem Dev.shuttle_refuse (q : Req) (a : Nat) (w f : Bool) : (d.refuse q a w f).shuttle = d.shuttle := by
  unfold Dev.refuse
  dsimp only
  split <;> simp

@[simp] theorem Dev.shuttle_read (q : Req) (a n : Nat) : (d.read q a n).dev.shuttle = d.shuttle := by
  have h := d.shuttle_readLines q (linesOf a n)
  unfold Dev.read
  split
  · rfl
  · simp
  · simp
  · split <;> next he => rwa [he] at h

@[simp] theorem Dev.shuttle_grantWrite (q : Req) (ls : List Nat) : (d.grantWrite q ls).dev.shuttle = d.shuttle := by
  unfold Dev.grantWrite
  split <;> simp

/-! ### Re-encryption steps -/

@[simp] theorem Dev.shuttle_stopLaneTests (x : Region) : (d.stopLaneTests x).shuttle = d.shuttle :=
  foldl_keeps Dev.shuttle (fun _ _ => by split <;> simp) _ d

@[simp] theorem Dev.shuttle_startReencrypt (n : Nat) (sig : Option (Nat × Nat)) : (d.startReencrypt n sig).shuttle = d.shuttle := by
  unfold Dev.startReencrypt Dev.refuseRegion
  dsimp only
  split <;> simp [Dev.takeEpoch]

@[simp] theorem Dev.shuttle_regionSignal (n : Nat) (sig : Option (Nat × Nat)) : (d.regionSignal n sig).shuttle = d.shuttle := by
  unfold Dev.regionSignal
  split <;> simp

@[simp] theorem Dev.shuttle_reencryptDone (n : Nat) : (d.reencryptDone n).shuttle = d.shuttle := by
  unfold Dev.reencryptDone
  dsimp only
  (repeat' split) <;> simp

@[simp] theorem Dev.shuttle_meetStep (n first : Nat) : (d.meetStep n first).shuttle = d.shuttle :=
  foldl_keeps Dev.shuttle (fun _ _ => Dev.shuttle_meetLine ..) _ d

@[simp] theorem Dev.shuttle_drainBuf (k : Nat) (b : StepBuf) : (d.drainBuf k b).shuttle = d.shuttle := by
  unfold Dev.drainBuf
  dsimp only
  split
  · rfl
  · simp [Dev.setBufs]

@[simp] theorem Dev.shuttle_takeStep (n i : Nat) : (d.takeStep n i).shuttle = d.shuttle := by
  unfold Dev.takeStep
  dsimp only
  split
  · rfl
  · exact (Dev.shuttle_drainBuf ..).trans (Dev.shuttle_meetStep ..)

@[simp] theorem Dev.shuttle_forceStep (n l : Nat) : (d.forceStep n l).shuttle = d.shuttle := by
  unfold Dev.forceStep
  dsimp only
  split <;> simp

@[simp] theorem Dev.shuttle_scheduleAt (n c : Nat) : (d.scheduleAt n c).shuttle = d.shuttle := by
  unfold Dev.scheduleAt
  dsimp only
  (repeat' split) <;> simp

/-! ### Lines written -/

@[simp] theorem Dev.shuttle_putLine (n k l off c : Nat) (bs : List Byte) (known : Bool) :
    (d.putLine n k l off c bs known).shuttle = d.shuttle := by
  unfold Dev.putLine
  dsimp only
  cases known <;> simp

@[simp] theorem Dev.shuttle_writeLine (q : Req) (l off : Nat) (bs : List Byte) : (d.writeLine q l off bs).dev.shuttle = d.shuttle := by
  unfold Dev.writeLine
  split
  · rfl
  · next n _ =>
    have h : (if decide (bs.length = 128) then (d.forceStep n l, true)
        else ((d.forceStep n l).touch l).checkLine n l q.ctx q.key).1.shuttle = d.shuttle := by
      split <;> simp
    dsimp only
    split <;> next he =>
      rw [he] at h
      (repeat' split) <;> simpa using h

@[simp] theorem Dev.shuttle_writeLines (q : Req) (fuel a : Nat) (bs : List Byte) : (d.writeLines q fuel a bs).dev.shuttle = d.shuttle := by
  induction fuel generalizing d a bs with
  | zero => rfl
  | succ fuel ih =>
    have h := d.shuttle_writeLine q (a / 128) (a % 128) (bs.take (128 - a % 128))
    unfold Dev.writeLines
    dsimp only
    split
    · rfl
    · split
      · next he => rw [he] at h; exact (ih ..).trans h
      · next he => rw [he] at h; exact h

@[simp] theorem Dev.shuttle_writeHeld (p off : Nat) (bs : List Byte) : (d.writeHeld p off bs).shuttle = d.shuttle := by
  have h := d.shuttle_writeLines (engineReq p (d.holdKey p)) (bs.length / 128 + 2) (d.holdBase p + off) bs
  unfold Dev.writeHeld
  dsimp only
  split
  · rfl
  · split <;> next he => rwa [he] at h

@[simp] theorem Dev.shuttle_readUnits (p : Nat) (us : List Nat) : (d.readUnits p us).dev.shuttle = d.shuttle := by
  induction us generalizing d with
  | nil => rfl
  | cons u us ih =>
    unfold Dev.readUnits
    split
    · have hrest := ih d
      split <;> next he => rwa [he] at hrest
    · next a k _ =>
      have hu := d.shuttle_read (engineReq p k) a 4096
      split
      · next he => rwa [he] at hu
      · next f _ he =>
        rw [he] at hu
        have hrest := (ih f).trans hu
        split <;> next hf => rwa [hf] at hrest

/-! ### Stripe rows -/

/-- `e` is `d` after messages were sent: of each partition's Shuttle only the sender's counters may differ. -/
def Dev.OnlySent (d e : Dev) : Prop :=
  ∀ p, e.sh p = { d.sh p with ctr := (e.sh p).ctr, epoch := (e.sh p).epoch, cseq := (e.sh p).cseq }

theorem Dev.sh_congr {a b : Dev} (h : a.shuttle.parts = b.shuttle.parts) (p : Nat) : a.sh p = b.sh p := by rw [Dev.sh, h, Dev.sh]

@[simp] theorem Dev.parts_onPort (n : Nat) (o : Option Nat) (m : Msg) : (d.onPort n o m).shuttle.parts = d.shuttle.parts := by
  unfold Dev.onPort Dev.putOut
  (repeat' split) <;> simp

@[simp] theorem Dev.parts_emit (o : Option Nat) (m : Msg) : (d.emit o m).shuttle.parts = d.shuttle.parts := by
  unfold Dev.emit
  split <;> simp

/-- Sending counts the message at its sender, and changes nothing else of any partition's Shuttle (07 R191, R215). -/
theorem Dev.parts_send (p : Nat) (w : Draft) : ∃ n cs,
    (d.send p w).shuttle.parts = ((d.rollEpoch p).setSh p { (d.rollEpoch p).sh p with ctr := n, cseq := cs }).shuttle.parts := by
  let x := (d.rollEpoch p).sh p
  let k := w.dest * 16 + w.ch
  refine ⟨x.ctr + 1, Sparse.set (fun _ => 0) x.cseq k ((Sparse.get (fun _ => 0) x.cseq k + 1) % 2 ^ 32), ?_⟩
  unfold Dev.send
  dsimp only
  split
  · rw [Dev.parts_emit, (Dev.noteHeld_rest _ _).2.1]; rfl
  · rw [Dev.parts_onPort]; rfl
  · simp; rfl

namespace Dev.OnlySent

theorem refl (d : Dev) : d.OnlySent d := fun _ => rfl

theorem ite {d a b : Dev} {c : Prop} [Decidable c] (h : d.OnlySent a) (k : d.OnlySent b) : d.OnlySent (if c then a else b) := by
  split <;> assumption

variable {d e : Dev}

theorem of_ok {α : Type} {f : Dev} {r : Res α} {x : α} (h : d.OnlySent r.dev) (hr : r = .ok f x) : d.OnlySent f := by rwa [hr] at h

theorem of_fail {α : Type} {f : Dev} {r : Res α} {w : MemFail} (h : d.OnlySent r.dev) (hr : r = .fail f w) : d.OnlySent f := by
  rwa [hr] at h

variable (h : d.OnlySent e)
include h

theorem groups (p : Nat) : (e.sh p).groups = (d.sh p).groups := by rw [h p]

theorem same {f : Dev} (hs : f.shuttle.parts = e.shuttle.parts) : d.OnlySent f := fun p => by rw [Dev.sh_congr hs]; exact h p

theorem stands {f : Dev} (hs : f.shuttle = e.shuttle) : d.OnlySent f := h.same (congrArg Shuttle.parts hs)

theorem setSh {p : Nat} {x : ShPart} (hx : x = { e.sh p with ctr := x.ctr, epoch := x.epoch, cseq := x.cseq }) :
    d.OnlySent (e.setSh p x) := by
  intro q
  rw [Dev.sh_setSh]
  split
  · next hq => subst hq; rw [hx, h q]
  · exact h q

theorem foldl {α : Type} {f : Dev → α → Dev} (hf : ∀ {c : Dev} x, d.OnlySent c → d.OnlySent (f c x)) (xs : List α) :
    d.OnlySent (xs.foldl f e) := by
  induction xs generalizing e with
  | nil => exact h
  | cons x xs ih => exact ih (hf x h)

theorem rollEpoch {p : Nat} : d.OnlySent (e.rollEpoch p) := by
  unfold Dev.rollEpoch
  dsimp only
  exact .ite h ((h.setSh rfl).stands rfl)

theorem send {p : Nat} {w : Draft} : d.OnlySent (e.send p w) := by
  obtain ⟨n, cs, hs⟩ := e.parts_send p w
  exact (h.rollEpoch.setSh rfl).same hs

theorem setPl {p : Nat} {x : PlPart} : d.OnlySent (e.setPl p x) := h.stands rfl

theorem sendStripe {p g a : Nat} {bs : List Byte} : d.OnlySent (e.sendStripe p g a bs) := h.rollEpoch.setPl.send

theorem sendRecords {p k c : Nat} : d.OnlySent (e.sendRecords p k c) := h.foldl (fun _ hc => hc.sendStripe) _

theorem commitIfReady {p k : Nat} : d.OnlySent (e.commitIfReady p k) :=
  .ite (h.setPl.stands (Dev.shuttle_writeHeld ..)).sendRecords h

theorem countIfCommitted {p k : Nat} : d.OnlySent (e.countIfCommitted p k) := by
  unfold Dev.countIfCommitted
  dsimp only
  exact .ite (h.same (by simp [Dev.writeSlot])) h

theorem readyIfDone {p : Nat} : d.OnlySent (e.readyIfDone p) := by
  unfold Dev.readyIfDone
  dsimp only
  split
  · exact h
  · exact .ite h.setPl.sendRecords.commitIfReady.countIfCommitted h

theorem sendStripes {p k q j : Nat} {us : List (List Byte)} : d.OnlySent (e.sendStripes p k q j us) := by
  induction us generalizing e j with
  | nil => exact h
  | cons u us ih => exact ih h.sendStripe

/-- The accesses of a row stand for themselves: written out, two matches on how one ends would be compared by evaluating it. -/
theorem takeRow {p q : Nat} : d.OnlySent (e.takeRow p q) := by
  unfold Dev.takeRow
  obtain ⟨put, hput⟩ : ∃ put, put = @Dev.writeLines := ⟨_, rfl⟩
  obtain ⟨grant, hgrant⟩ : ∃ grant, grant = @Dev.grantAll := ⟨_, rfl⟩
  obtain ⟨units, hunits⟩ : ∃ units, units = @Dev.readUnits := ⟨_, rfl⟩
  rw [← hput, ← hgrant, ← hunits]
  have hread : d.OnlySent (units e p (rangeFrom (7 * q) 7)).dev := h.stands (hunits ▸ e.shuttle_readUnits ..)
  have hwrite {c : Dev} (hc : d.OnlySent c) (q fuel a bs) : d.OnlySent (put c q fuel a bs).dev :=
    hc.stands (hput ▸ c.shuttle_writeLines ..)
  dsimp only
  split
  · exact h
  · next k _ =>
    refine .ite h ?_
    split
    · next he => exact (hread.of_fail he).setPl
    · next f us he =>
      have hsent : d.OnlySent ((f.sendStripes p k q 0 us).bump (plReg p + 0x80) 7) := (hread.of_ok he).sendStripes.stands rfl
      split
      · exact hsent.setPl
      · split
        · next hw => exact (of_fail (hwrite hsent _ _ _ _) hw).setPl
        · next hw => exact ((of_ok (hwrite hsent _ _ _ _) hw).setPl.stands (Dev.shuttle_writeHeld ..)).readyIfDone

theorem forceRow {a : Nat} : d.OnlySent (e.forceRow a) := by
  unfold Dev.forceRow
  dsimp only
  split
  · exact .ite h (h.takeRow.stands rfl)
  · exact h

/-- A write takes the stripe rows it reaches first, which sends, and then sends nothing (08 R233). -/
theorem write {q : Req} {a : Nat} {bs : List Byte} : d.OnlySent (e.write q a bs).dev := by
  have hg : d.OnlySent (e.grantWrite q (linesOf a bs.length)).dev := h.stands (Dev.shuttle_grantWrite ..)
  unfold Dev.write
  split
  · next f _ he =>
    have hrows : d.OnlySent (f.forceRows (linesOf a bs.length)) := (hg.of_ok he).foldl (fun _ hc => hc.forceRow) _
    exact hrows.stands (Dev.shuttle_writeLines ..)
  · next he => exact hg.of_fail he

theorem writeD {q : Req} {a : Nat} {bs : List Byte} : d.OnlySent (e.writeD q a bs) := by
  have hw : d.OnlySent (e.write q a bs).dev := h.write
  unfold Dev.writeD
  split
  · next he => exact hw.of_ok he
  · next he => exact hw.of_fail he

end Dev.OnlySent
end Sys2Proof.Machine
end

section
/-! SUPPORT. Landing zones (07 R201 to R203): where an ACC's granules lie once it has landed, and when `LANDING` opens a group. -/

namespace Sys2Proof.Machine

/-! ### Granules -/

theorem getElem?_modifyAt {α : Type} (f : α → α) (xs : List α) (i : Nat) : (modifyAt f xs i)[i]? = xs[i]?.map f := by
  induction xs generalizing i with
  | nil => rfl
  | cons x xs ih =>
    cases i with
    | zero => rfl
    | succ i => simpa [modifyAt] using ih i

theorem LzGroup.granule_setGranule (g : LzGroup) (si n : Nat) (x : Granule) (k : Nat) :
    (g.setGranule si n x).granule si k = if k = n then x else g.granule si k := by
  simp [LzGroup.granule, LzGroup.setGranule, Sparse.get_set]

/-- Granules landed from `n` on, one for each string of 64 bytes, are in state `x`; the source's other granules stand. -/
theorem Dev.granule_landGranules {p gi si : Nat} {x : Granule} {bs : List (List Byte)} {e : Dev} {u : Unit} :
    ∀ {d : Dev} {n : Nat} {g : LzGroup}, d.landGranules p gi si x n bs = .ok e u → (d.sh p).groups[gi]? = some g →
      ∃ g', (e.sh p).groups[gi]? = some g' ∧
        ∀ k, g'.granule si k = if n ≤ k ∧ k < n + bs.length then x else g.granule si k := by
  induction bs with
  | nil =>
    intro d n g h hg
    cases h
    exact ⟨g, hg, fun k => (if_neg (by simp)).symm⟩
  | cons b bs ih =>
    intro d n g h hg
    rw [Dev.landGranules, hg] at h
    dsimp only at h
    split at h
    · cases h
    · next f v hw =>
      have hsent : d.OnlySent (f.writeD (engineReq g.ctx g.zkey) (g.stateAddr si n) x.stateBytes) :=
        Dev.OnlySent.writeD (((Dev.OnlySent.refl d).write).of_ok hw)
      obtain ⟨g', hg', hgran⟩ := ih (g := g.setGranule si n x) h (by
        rw [Dev.sh_setSh, if_pos rfl, getElem?_modifyAt, hsent.groups, hg, Option.map_some])
      refine ⟨g', hg', fun k => ?_⟩
      rw [hgran, g.granule_setGranule]
      simp only [List.length_cons]
      grind

/-- What an ACC that has landed was written as: its granules one after another, held for its pick or, with `ENG`, committed (R200). -/
theorem Dev.landGranules_of_landed {d e : Dev} {p gi si : Nat} {m : Msg} {g : LzGroup} (h : d.landAcc p m = .landed e)
    (hf : (d.sh p).groups.findIdx? (fun g => g.target ≤ m.addr && m.addr + m.len * 64 ≤ g.target + 16384 * g.units) = some gi)
    (hg : (d.sh p).groups[gi]? = some g) (hs : g.source m.src = some si) :
    ∃ u, d.landGranules p gi si (if m.eng then .committed else .held m.tile m.serial) ((m.addr - g.target) / 64)
      (chunksOf 64 m.len (m.payload.take (m.len * 64))) = .ok e u := by
  unfold Dev.landAcc at h
  simp only [hf, hg, hs] at h
  split at h
  · cases h
  · split at h
    · cases h
    · split at h
      · next he => cases h; exact ⟨_, he⟩
      · cases h
      · cases h

theorem Dev.granule_landAcc {d e : Dev} {p gi si : Nat} {m : Msg} {g : LzGroup} (h : d.landAcc p m = .landed e)
    (hl : m.payload.length = 64 * m.len)
    (hf : (d.sh p).groups.findIdx? (fun g => g.target ≤ m.addr && m.addr + m.len * 64 ≤ g.target + 16384 * g.units) = some gi)
    (hg : (d.sh p).groups[gi]? = some g) (hs : g.source m.src = some si) {i : Nat} (hi : i < m.len) :
    ∃ g', (e.sh p).groups[gi]? = some g' ∧
      g'.granule si ((m.addr - g.target) / 64 + i) = if m.eng then .committed else .held m.tile m.serial := by
  obtain ⟨u, hland⟩ := Dev.landGranules_of_landed h hf hg hs
  have hn : (chunksOf 64 m.len (m.payload.take (m.len * 64))).length = m.len :=
    (Crypt.chunksOf_even 64 (by decide) m.len _ (by rw [List.length_take]; omega)).1
  obtain ⟨g', hg', hgran⟩ := Dev.granule_landGranules hland hg
  exact ⟨g', hg', (hgran _).trans (if_pos (by omega))⟩

/-! ### `LANDING` -/

theorem exec_landing (r : Nat) (s : State) : exec (.landing r) s = s.after fun d => d.landingRow r := rfl

/-- Fewer than 64 groups are open and none overlaps `g` (R202). -/
def Dev.landingFree (d : Dev) (p : Nat) (g : LzGroup) : Prop :=
  (d.sh p).groups.length < 64 ∧ (d.sh p).groups.any g.overlaps = false

/-- Selvedge grants writes to the whole target and to the zones of `n` sources (R202). -/
def Dev.landingGranted (d : Dev) (k n : Nat) (g : LzGroup) : Prop :=
  d.rangeAccess (engineReq k g.tkey) true g.target (16384 * g.units) = true ∧
    d.rangeAccess (engineReq k g.zkey) true g.zone (n * g.units * 17408) = true

/-- A source list rises strictly, holds source IDs and not the partition's own (R202). -/
def Dev.sourcesSound (d : Dev) (p : Nat) (l : List Nat) : Prop :=
  ascending l = true ∧ (∀ v ∈ l, v < 2 ^ 19) ∧ d.sourceId p ∉ l

/-- The read of the source list that a `LANDING` descriptor names. -/
def Dev.readSources (d : Dev) (k : Nat) (x : RingDesc) : Res (List Byte) :=
  d.read (engineReq k (dbyte x 48 41 12)) (dbyte x 48 0 41) (4 * dbyte x 28 0 7)

/-- The groups of partition `p` with `g` among them, and their count in `SH_LZ_GROUPS`. -/
def Dev.withGroup (d : Dev) (p : Nat) (g : LzGroup) : Dev :=
  let e := d.setSh p { d.sh p with groups := (d.sh p).groups ++ [g] }
  e.setFld (shReg p + 0x50) 0 7 (e.sh p).groups.length

/-- How `LANDING` ends once its source list, `l`, is read. -/
def Dev.landingRead (d : Dev) (k : Nat) (x : RingDesc) (l : List Nat) : Dev × Nat :=
  if !(ascending l) ∨ l.any (fun v => 2 ^ 19 ≤ v) ∨ l.contains (d.sourceId (ctxPart k)) then (d, 0x71)
  else (d.withGroup (ctxPart k) { landingGroup k x with sources := l }, 0)

theorem ctxPart_lt (k : Nat) : ctxPart k < 4 := by
  unfold ctxPart
  split <;> omega

@[simp] theorem Dev.sh_setFld (d : Dev) (o lo w v p : Nat) : (d.setFld o lo w v).sh p = d.sh p := rfl

theorem Dev.groups_withGroup (d : Dev) (p : Nat) (g : LzGroup) : ((d.withGroup p g).sh p).groups = (d.sh p).groups ++ [g] := by
  simp [Dev.withGroup]

/-- A read changes neither the Shuttles nor the partition's source ID. -/
theorem Dev.sourceId_read {d e : Dev} {q : Req} {a n : Nat} {bs : List Byte} (h : d.read q a n = .ok e bs) {p : Nat} (hp : p < 4) :
    e.sourceId p = d.sourceId p := by
  have hun : unread (sliceReg p + 4) := ⟨by unfold sliceReg; omega, by unfold sliceReg; omega⟩
  rw [Dev.sourceId, Dev.logical, Dev.fld, d.reg_read hun h]
  rfl

theorem Dev.groups_read {d e : Dev} {q : Req} {a n : Nat} (h : (d.read q a n).dev = e) (p : Nat) :
    (e.sh p).groups = (d.sh p).groups := by
  rw [← h, Dev.sh_congr (congrArg Shuttle.parts (d.shuttle_read q a n))]

section
variable {d : Dev} {k : Nat} {x : RingDesc}

theorem Dev.openLanding_of_bad (hb : landingBad x (landingGroup k x) = true) : d.openLanding k x = (d, 0x71) := by
  unfold Dev.openLanding
  rw [if_pos hb]

variable (hb : landingBad x (landingGroup k x) = false)
include hb

theorem Dev.openLanding_of_taken (hf : ¬ d.landingFree (ctxPart k) (landingGroup k x)) : d.openLanding k x = (d, 0x72) := by
  unfold Dev.openLanding
  dsimp only
  rw [if_neg (by simp [hb]), if_pos]
  rwa [Dev.landingFree, not_and_or, Nat.not_lt, Bool.not_eq_false] at hf

variable (hf : d.landingFree (ctxPart k) (landingGroup k x))
include hf

theorem Dev.openLanding_of_ungranted (hg : ¬ d.landingGranted k (dbyte x 28 0 7) (landingGroup k x)) :
    d.openLanding k x = (d, 0x73) := by
  unfold Dev.openLanding
  dsimp only
  rw [if_neg (by simp [hb]), if_neg (by simpa [Dev.landingFree] using hf), if_pos]
  simpa [Dev.landingGranted, imp_iff_not_or] using hg

variable (hg : d.landingGranted k (dbyte x 28 0 7) (landingGroup k x))
include hg

/-- With the target and the zones granted the source list decides. -/
theorem Dev.openLanding_of_granted :
    d.openLanding k x = (d.readSources k x).elim (fun e bs => e.landingRead k x (leWords 4 bs)) fun e _ => (e, 0x73) := by
  unfold Dev.openLanding
  dsimp only
  rw [if_neg (by simp [hb]), if_neg (by simpa [Dev.landingFree] using hf), if_neg (by simpa [Dev.landingGranted] using hg)]
  unfold Dev.readSources
  cases d.read (engineReq k (dbyte x 48 41 12)) (dbyte x 48 0 41) (4 * dbyte x 28 0 7) <;> rfl

theorem Dev.openLanding_of_unread {e : Dev} {w : MemFail} (hr : d.readSources k x = .fail e w) : d.openLanding k x = (e, 0x73) := by
  rw [Dev.openLanding_of_granted hb hf hg, hr, Res.elim_fail]

variable {e : Dev} {bs : List Byte} (hr : d.readSources k x = .ok e bs)
include hr

theorem Dev.openLanding_of_unsound (hs : ¬ d.sourcesSound (ctxPart k) (leWords 4 bs)) : d.openLanding k x = (e, 0x71) := by
  rw [Dev.openLanding_of_granted hb hf hg, hr, Res.elim_ok, Dev.landingRead, if_pos]
  simpa [Dev.sourcesSound, Dev.sourceId_read hr (ctxPart_lt k), imp_iff_not_or] using hs

theorem Dev.openLanding_of_sound (hs : d.sourcesSound (ctxPart k) (leWords 4 bs)) :
    d.openLanding k x = (e.withGroup (ctxPart k) { landingGroup k x with sources := leWords 4 bs }, 0) := by
  rw [Dev.openLanding_of_granted hb hf hg, hr, Res.elim_ok, Dev.landingRead, if_neg]
  simpa [Dev.sourcesSound, Dev.sourceId_read hr (ctxPart_lt k)] using hs

end

/-- `LANDING` in the native model finishes its descriptor with the status that opening the group gives. -/
theorem exec_landing_of_open {s : State} {r : Nat} {a : Accepted} (h : s.dev.starts r 0x50 a) (h8 : s.dev.p8 = false) {e : Dev} {st : Nat}
    (ho : s.dev.openLanding (ringCtx r) a.desc = (e, st)) :
    exec (.landing r) s = .next (s.withDev (e.finish r a.seq (Verdict.of st)).settle) := by
  refine exec_of_effect (exec_landing r s) ?_
  rw [Dev.landingRow, s.dev.startNext_of_starts h _ rfl, if_neg (by simp [h8]), ho]

end Sys2Proof.Machine
end

section
/-! SUPPORT. Messages that arrive (07 R192 to R208): which row takes one, what becomes of it before its type's effect, and the effect of
each type. -/

namespace Sys2Proof.Machine

/-! ### Receiving -/

@[simp] theorem Dev.frameOn_rest (d : Dev) (port : Nat) :
    (d.frameOn port).timePs = d.timePs ∧ (d.frameOn port).regs = d.regs ∧ (d.frameOn port).mem = d.mem ∧ (d.frameOn port).sv = d.sv ∧
    (d.frameOn port).log = d.log ∧ (d.frameOn port).rings = d.rings ∧ (d.frameOn port).ctxs = d.ctxs ∧
    (d.frameOn port).fences = d.fences ∧ (d.frameOn port).tiles = d.tiles ∧ (d.frameOn port).used = d.used ∧
    (d.frameOn port).stopsDue = d.stopsDue ∧ (d.frameOn port).sigsDue = d.sigsDue ∧ (d.frameOn port).fatalDue = d.fatalDue := by
  unfold Dev.frameOn
  split <;> simp

/-- A frame that has come in changes no entry written from then on. -/
@[simp] theorem Dev.newEntry_frameOn (d : Dev) (port c k : Nat) (u : UnitType) (i : Nat) (p : Option Nat) (x : Nat) :
    (d.frameOn port).newEntry c k u i p x = d.newEntry c k u i p x := by
  simp [Dev.newEntry, Dev.now]

theorem Dev.quiet_received {d : Dev} (h : d.quiet = true) (port : Nat) (m : Msg) : (d.received port m).quiet = true := by
  unfold Dev.received
  split
  · exact h
  · exact Dev.quiet_of_eq h (by simp) (by simp) (by simp) (by simp)

section
variable (port : Nat) (m : Msg) (s : State)

theorem exec_put : exec (.put port m) s = s.after fun d => d.onPut port m := rfl
theorem exec_acc : exec (.acc port m) s = s.after fun d => d.onAcc port m := rfl
theorem exec_get : exec (.get port m) s = s.after fun d => d.onGet port m := rfl
theorem exec_getr : exec (.getr port m) s = s.after fun d => d.onGetr port m := rfl
theorem exec_signal : exec (.signal port m) s = s.after fun d => d.onSignal port m := rfl
theorem exec_commit : exec (.commit port m) s = s.after fun d => d.onCommit port m := rfl
theorem exec_retract : exec (.retract port m) s = s.after fun d => d.onRetract port m := rfl
theorem exec_reject : exec (.reject port m) s = s.after fun d => d.onReject port m := rfl
theorem exec_reservedMessageType : exec (.reservedMessageType port m) s = s.after fun d => d.onReserved port m := rfl

end

theorem Dev.deliver_of_refused {d e : Dev} {port typ : Nat} {m : Msg} (hc : d.canTake port m = true) (ht : m.typ = typ)
    (ha : (d.received port m).arrive m = .refused e) (f : Dev → Nat → Msg → Dev) : d.deliver port typ m f = e := by
  simp [Dev.deliver, hc, ht, ha]

/-- A message that is not accepted leaves what its refusal does, whatever its type. -/
theorem exec_messageRow_of_refused {port typ : Nat} {m : Msg} {s : State} {e : Dev} (h1 : 1 ≤ typ) (h8 : typ ≤ 8) (ht : m.typ = typ)
    (hc : s.dev.canTake port m = true) (ha : (s.dev.received port m).arrive m = .refused e) :
    exec (messageRow typ port m) s = .next (s.withDev e.settle) := by
  interval_cases typ
  · exact exec_of_effect (exec_put port m s) (Dev.deliver_of_refused hc ht ha _)
  · exact exec_of_effect (exec_acc port m s) (Dev.deliver_of_refused hc ht ha _)
  · exact exec_of_effect (exec_get port m s) (Dev.deliver_of_refused hc ht ha _)
  · exact exec_of_effect (exec_getr port m s) (Dev.deliver_of_refused hc ht ha _)
  · exact exec_of_effect (exec_signal port m s) (Dev.deliver_of_refused hc ht ha _)
  · exact exec_of_effect (exec_commit port m s) (Dev.deliver_of_refused hc ht ha _)
  · exact exec_of_effect (exec_retract port m s) (Dev.deliver_of_refused hc ht ha _)
  · exact exec_of_effect (exec_reject port m s) (Dev.deliver_of_refused hc ht ha _)

/-! ### Acceptance -/

/-- The message is for partition `m.dest % 4` of this device (R208). -/
def Dev.owns (d : Dev) (m : Msg) : Prop :=
  m.dest % 4 < d.parts ∧ d.sliceValid (m.dest % 4) = true ∧ d.sliceId (m.dest % 4) = m.slice ∧ d.sourceId (m.dest % 4) = m.dest

/-- Partition `p`'s context is open and it has an ingress table (R195, R206). -/
def Dev.admitsMessages (d : Dev) (p : Nat) : Prop := d.ctxOpen p = true ∧ d.fld (shReg p) 41 12 ≠ 0

section
variable {d : Dev} {m : Msg}

theorem Dev.arrive_of_foreign (h : ¬ d.owns m) :
    d.arrive m = .refused ((d.bump 0x14010 1).record 1 0x0604 .hub 2 none m.slice) := by
  unfold Dev.arrive
  dsimp only
  rw [if_pos]
  simpa [Dev.owns, imp_iff_not_or] using h

variable (h : d.owns m)
include h

theorem Dev.arrive_of_noContext (ho : ¬ d.admitsMessages (m.dest % 4)) : d.arrive m = .refused (d.reject (m.dest % 4) 6 m) := by
  unfold Dev.arrive
  dsimp only
  rw [if_neg (by simpa [Dev.owns] using h), if_pos]
  simpa [Dev.admitsMessages, imp_iff_not_or] using ho

variable (ho : d.admitsMessages (m.dest % 4))
include ho

theorem Dev.arrive_of_early (hf : m.epoch < (d.sh (m.dest % 4)).floor) :
    d.arrive m = .refused (d.bump (0x4180 + 0x100 * (m.dest % 4)) 1) := by
  unfold Dev.arrive
  dsimp only
  rw [if_neg (by simpa [Dev.owns] using h), if_neg (by simpa [Dev.admitsMessages] using ho), if_pos hf]

variable (hf : (d.sh (m.dest % 4)).floor ≤ m.epoch)
include hf

theorem Dev.arrive_of_lost (hl : (d.sh (m.dest % 4)).inOrder m = false ∨ msgVerifies (d.rtpPart (m.dest % 4)).secret m = false) :
    d.arrive m = .refused ((d.bump (shReg (m.dest % 4) + 0x40) 1).recordC3 0x0702 (m.dest % 4) (m.src + m.ch * 2 ^ 19)) := by
  unfold Dev.arrive
  dsimp only
  rw [if_neg (by simpa [Dev.owns] using h), if_neg (by simpa [Dev.admitsMessages] using ho), if_neg (Nat.not_lt.2 hf),
    if_pos (by simpa using hl)]

theorem Dev.arrive_of_sound (hi : (d.sh (m.dest % 4)).inOrder m = true)
    (hv : msgVerifies (d.rtpPart (m.dest % 4)).secret m = true) :
    d.arrive m = .taken (((d.noteIngress (m.dest % 4) m).bump (shReg (m.dest % 4) + 0x10) 1).bump (shReg (m.dest % 4) + 0x20)
      m.payload.length) (m.dest % 4) { m with payload := msgCrypted (d.rtpPart (m.dest % 4)).secret m } := by
  unfold Dev.arrive
  dsimp only
  rw [if_neg (by simpa [Dev.owns] using h), if_neg (by simpa [Dev.admitsMessages] using ho), if_neg (Nat.not_lt.2 hf),
    if_neg (by simp [hi, hv])]

end

@[simp] theorem Dev.sh_bump (d : Dev) (o n p : Nat) : (d.bump o n).sh p = d.sh p := rfl

/-- The accepted numbers are the channel's last (R195). -/
theorem Dev.last_noteIngress (d : Dev) (p : Nat) (m : Msg) : ((d.noteIngress p m).sh p).last m = some (m.cseq, m.epoch) := by
  simp [Dev.noteIngress, ShPart.last]

/-! ### Effects -/

section
variable {d e : Dev} {port p : Nat} {m c : Msg}

section
variable (h : d.arrives port 1 m e p c)
include h

theorem Dev.onPut_of_open (hr : e.restoreUnit p c = none) (hk : c.key = 0) : d.onPut port m = e.reject p 1 c := by
  rw [Dev.onPut, d.deliver_of_arrives h, hr]
  exact if_pos hk

theorem Dev.onPut_of_written (hr : e.restoreUnit p c = none) (hk : c.key ≠ 0) {f : Dev} {u : Unit}
    (hw : e.write (engineReq p c.key) c.addr (c.payload.take (64 * c.len)) = .ok f u) : d.onPut port m = f := by
  rw [Dev.onPut, d.deliver_of_arrives h, hr]
  dsimp only
  rw [if_neg hk, hw]

theorem Dev.onPut_of_restored {u : Nat} (hr : e.restoreUnit p c = some u) {f : Dev} {x : Unit}
    (hw : e.putUnit p u c.payload = .ok f x) : d.onPut port m = f := by
  rw [Dev.onPut, d.deliver_of_arrives h, hr]
  dsimp only
  rw [hw]

end

section
variable (h : d.arrives port 2 m e p c)
include h

theorem Dev.onAcc_of_open (hk : c.key = 0) : d.onAcc port m = e.reject p 1 c := by
  rw [Dev.onAcc, d.deliver_of_arrives h]
  exact if_pos hk

theorem Dev.onAcc_of_landed (hk : c.key ≠ 0) (hg : e.grantAll (engineReq p c.key) true (linesOf c.addr (64 * c.len)) = none) {f : Dev}
    (hl : e.landAcc p c = .landed f) : d.onAcc port m = f := by
  rw [Dev.onAcc, d.deliver_of_arrives h, if_neg hk, hg]
  dsimp only
  rw [hl]

end

section
variable (h : d.arrives port 3 m e p c)
include h

theorem Dev.onGet_of_open (hk : c.key = 0) : d.onGet port m = e.reject p 1 c := by
  rw [Dev.onGet, d.deliver_of_arrives h]
  exact if_pos hk

theorem Dev.onGet_of_read (hk : c.key ≠ 0) {f : Dev} {bs : List Byte}
    (hr : e.read (engineReq p c.key) c.addr (64 * c.len) = .ok f bs) :
    d.onGet port m = f.send p { Draft.blank with typ := 4, ch := c.ch, dest := c.src, eng := true, len := c.len, reqCtr := c.ctr,
                                                 payload := bs } := by
  rw [Dev.onGet, d.deliver_of_arrives h]
  dsimp only
  rw [if_neg hk, hr]

end

section
variable (h : d.arrives port 4 m e p c)
include h

theorem Dev.onGetr_of_unasked (hg : (e.sh p).rgets.find? (fun g => g.ctr = c.reqCtr) = none) : d.onGetr port m = e := by
  rw [Dev.onGetr, d.deliver_of_arrives h, hg]

theorem Dev.onGetr_of_asked {g : RGet} (hg : (e.sh p).rgets.find? (fun g => g.ctr = c.reqCtr) = some g) :
    d.onGetr port m = (e.takeGet p g.ctr).getrData g c := by
  rw [Dev.onGetr, d.deliver_of_arrives h, hg]

end

/-- The fence that a SIGNAL names in its payload (Table 07-6). -/
def sigFence (m : Msg) : Nat := leNat ((m.payload.drop 8).take 2) % 2 ^ 14

/-- The value that a SIGNAL brings. -/
def sigValue (m : Msg) : Nat := leNat (m.payload.take 8)

theorem Dev.onSignal_of_admitted (h : d.arrives port 5 m e p c) (ha : e.admitsRemote p (sigFence c) = true) : d.onSignal port m =
    if c.eng then e.remoteSignal p (sigFence c) (sigValue c)
    else e.modPick p c fun x => { x with sigs := x.sigs ++ [((sigFence c), (sigValue c))] } := by
  have hn : ¬ (!e.admitsRemote p (sigFence c)) = true := by simp [ha]
  rw [Dev.onSignal, d.deliver_of_arrives h]
  exact if_neg hn

/-- The receiver forgets what it holds of the message's pick. -/
def Dev.dropPick (d : Dev) (p : Nat) (m : Msg) : Dev := d.setSh p { d.sh p with rx := (d.sh p).rx.filter fun y => !y.is m }

theorem Dev.onCommit_of_known (h : d.arrives port 6 m e p c) {f : Dev} {x : PickRx}
    (hf : f = (e.markHeld p c .committed).modPick p c (fun x => { x with chans := insNat c.ch x.chans }))
    (hx : (f.sh p).rx.find? (·.is c) = some x) :
    d.onCommit port m = if x.chans.length = 16 then (f.dropPick p c).remoteSignals p x.sigs else f := by
  rw [Dev.onCommit, d.deliver_of_arrives h]
  dsimp only
  rw [← hf, hx]
  rfl

theorem Dev.onRetract_of_arrives (h : d.arrives port 7 m e p c) :
    d.onRetract port m = ((e.markHeld p c .empty).dropPick p c).bump (shReg p + 0x30) 1 := by
  rw [Dev.onRetract, d.deliver_of_arrives h]
  rfl

theorem Dev.onReject_of_message (h : d.arrives port 8 m e p c) (hs : ((e.pl p).stripes.any fun x => x.2 = c.reqCtr) = false) :
    d.onReject port m = e.recordC3 0x0704 p (c.status + c.reqCtr * 2 ^ 8) := by
  rw [Dev.onReject, d.deliver_of_arrives h, if_neg (by simp [hs])]

end

end Sys2Proof.Machine
end

section
/-! SUPPORT. Messages that only pass (07 R209, R210), the traffic epoch's roll (R215), and the counts of a link (R185). -/

namespace Sys2Proof.Machine

variable (d : Dev)

theorem exec_messageForward (port : Nat) (m : Msg) (s : State) :
    exec (.messageForward port m) s = s.after fun d => d.onForward port m := rfl

theorem exec_trafficEpochRoll (p : Nat) (s : State) : exec (.trafficEpochRoll p) s = s.after fun d => d.rollEpoch p := rfl

theorem exec_linkRetransmit (n k c : Nat) (s : State) :
    exec (.linkRetransmit n ⟨k, c⟩) s = s.after fun d => d.linkRetransmit n k c := rfl

/-! ### Forwarding -/

/-- A frame that has come in sends nothing and holds nothing. -/
@[simp] theorem Dev.shuttle_frameOn (port : Nat) :
    (d.frameOn port).shuttle.tx = d.shuttle.tx ∧ (d.frameOn port).shuttle.held = d.shuttle.held := by
  unfold Dev.frameOn
  split <;> exact ⟨rfl, rfl⟩

/-- The message is held for want of a next hop (R210). -/
def Dev.withHeld (o : Option Nat) (m : Msg) : Dev := { d with shuttle := { d.shuttle with held := d.shuttle.held ++ [(o, m)] } }

section
variable {d : Dev} {port : Nat} {m : Msg} (hl : d.linkOpen port = true) (hd : bits m.route 0 17 ≠ d.here.toNat)
include hl hd

theorem Dev.onForward_of_noHop (hn : d.nextHop (Coord.ofNat (bits m.route 0 17)) = none) :
    d.onForward port m = ((d.withHeld none m).frameOn port).record 2 0x0603 .port port none (bits m.route 0 17) := by
  rw [Dev.onForward, if_neg (by simp [hl, hd]), hn]
  rfl

theorem Dev.onForward_of_hop {n : Nat} (hn : d.nextHop (Coord.ofNat (bits m.route 0 17)) = some n) :
    d.onForward port m = if d.mayGo n none (msgWire m) then (d.putOut n none m).frameOn port else d := by
  rw [Dev.onForward, if_neg (by simp [hl, hd]), hn]

end

/-- What transit on a port leaves: the message behind those sent, its bytes in `RD_TRANSIT` and in the port's use (R209). -/
theorem Dev.putOut_transit {n : Nat} (hn : n ≠ 8) (m : Msg) :
    (d.putOut n none m).shuttle.tx = d.shuttle.tx ++ [(n, d.onLink n m)] ∧
    (d.putOut n none m).reg 0x14018 = d.reg 0x14018 + BitVec.ofNat 64 (msgWire m) ∧
    (d.putOut n none m).usedBytes (transitKey n) = d.usedBytes (transitKey n) + msgWire m := by
  have hreg (e : Dev) (x : Shuttle) : ({ e with shuttle := x } : Dev).reg 0x14018 = e.reg 0x14018 := rfl
  have hused (e : Dev) (x : Shuttle) : ({ e with shuttle := x } : Dev).usedBytes (transitKey n) = e.usedBytes (transitKey n) := rfl
  unfold Dev.putOut
  simp only [hn, if_false]
  refine ⟨by simp, ?_, ?_⟩
  · rw [hreg, Dev.reg_bump, if_pos rfl]
    rfl
  · rw [hused]
    simp [Dev.usedBytes, Dev.use]

theorem exec_messageForward_sent {s : State} (hq : s.dev.quiet = true) {port n : Nat} {m : Msg} (hl : s.dev.linkOpen port = true)
    (hd : bits m.route 0 17 ≠ s.dev.here.toNat) (hn : s.dev.nextHop (Coord.ofNat (bits m.route 0 17)) = some n)
    (hgo : s.dev.mayGo n none (msgWire m) = true) (h8 : n ≠ 8) :
    ∃ t, exec (.messageForward port m) s = .next t ∧ t.dev.shuttle.tx = s.dev.shuttle.tx ++ [(n, s.dev.onLink n m)] ∧
      t.dev.reg 0x14018 = s.dev.reg 0x14018 + BitVec.ofNat 64 (msgWire m) ∧
      t.dev.usedBytes (transitKey n) = s.dev.usedBytes (transitKey n) + msgWire m ∧
      t.dev.mem = s.dev.mem ∧ t.dev.tiles = s.dev.tiles ∧ t.dev.ctxs = s.dev.ctxs ∧ t.dev.log = s.dev.log := by
  obtain ⟨htx, hreg, hused⟩ := s.dev.putOut_transit h8 m
  refine ⟨_, exec_of_quiet (exec_messageForward port m s) ((Dev.onForward_of_hop hl hd hn).trans (if_pos hgo)) hq (by simp) (by simp)
    (by simp) (by simp), by simpa using htx, ?_, ?_, by simp, by simp, by simp, by simp⟩
  · simpa [Dev.reg] using hreg
  · simpa [Dev.usedBytes] using hused

theorem exec_messageForward_held {s : State} (hq : s.dev.quiet = true) {port : Nat} {m : Msg} (hl : s.dev.linkOpen port = true)
    (hd : bits m.route 0 17 ≠ s.dev.here.toNat) (hn : s.dev.nextHop (Coord.ofNat (bits m.route 0 17)) = none) :
    ∃ t, exec (.messageForward port m) s = .next t ∧ t.dev.shuttle.held = s.dev.shuttle.held ++ [(none, m)] ∧
      t.dev.log = s.dev.log.push (s.dev.newEntry 2 0x0603 .port port none (bits m.route 0 17)) ∧ t.dev.mem = s.dev.mem := by
  refine ⟨_, exec_of_quiet (exec_messageForward port m s) (Dev.onForward_of_noHop hl hd hn) hq ?_ ?_ ?_ ?_, ?_, ?_, ?_⟩ <;>
    simp [Dev.withHeld, Dev.newEntry, Dev.now]

/-! ### Traffic epochs -/

theorem Dev.rollEpoch_of_early {p : Nat} (h : (d.sh p).ctr < 2 ^ 36) : d.rollEpoch p = d := if_pos h

theorem Dev.rollEpoch_of_used {p : Nat} (h : 2 ^ 36 ≤ (d.sh p).ctr) : d.rollEpoch p =
    (d.setSh p { d.sh p with ctr := 0, epoch := (d.sh p).epoch + 1 }).setFld (shReg p + 0x48) 0 32 ((d.sh p).epoch + 1) :=
  if_neg (Nat.not_lt.2 h)

theorem exec_trafficEpochRoll_used {s : State} (hq : s.dev.quiet = true) {p : Nat} (h : 2 ^ 36 ≤ (s.dev.sh p).ctr) :
    ∃ t, exec (.trafficEpochRoll p) s = .next t ∧
      t.dev.sh p = { s.dev.sh p with ctr := 0, epoch := (s.dev.sh p).epoch + 1 } ∧
      t.dev.fld (shReg p + 0x48) 0 32 = ((s.dev.sh p).epoch + 1) % 2 ^ 32 ∧ t.dev.mem = s.dev.mem := by
  refine ⟨_, exec_of_quiet (exec_trafficEpochRoll p s) (s.dev.rollEpoch_of_used h) hq rfl rfl rfl rfl, ?_, ?_, rfl⟩
  · exact (Dev.sh_setSh ..).trans (if_pos rfl)
  · exact Dev.fld_setFld _ (by decide : 0 + 32 ≤ 64)

/-! ### Frames sent again -/

theorem exec_linkRetransmit_counted {s : State} (hq : s.dev.quiet = true) {n : Nat} (k c : Nat) (hon : s.dev.on = true) (hn : n < 8)
    (hd : (s.dev.port n).st ≠ .down) (hf : (s.dev.port n).st ≠ .fenced) :
    ∃ t, exec (.linkRetransmit n ⟨k, c⟩) s = .next t ∧
      t.dev.reg (portReg n + 0x18) = s.dev.reg (portReg n + 0x18) + BitVec.ofNat 64 k ∧
      t.dev.reg (portReg n + 0x10) = s.dev.reg (portReg n + 0x10) + BitVec.ofNat 64 c ∧
      (∀ o, o ≠ portReg n + 0x18 → o ≠ portReg n + 0x10 → t.dev.reg o = s.dev.reg o) ∧ t.dev.shuttle = s.dev.shuttle := by
  refine ⟨_, exec_of_quiet (exec_linkRetransmit n k c s) (if_pos ⟨hon, hn, hd, hf⟩) hq rfl rfl rfl rfl, ?_, ?_, ?_, rfl⟩
  · simp [Dev.reg_bump]
  · simp [Dev.reg_bump]
  · intro o ho1 ho2
    simp [Dev.reg_bump, ho1, ho2]

end Sys2Proof.Machine
end

section
/-! SUPPORT. Link ports (07 R185 to R190, R217): enabling and training, management frames, and the cabling check. -/

namespace Sys2Proof.Machine

variable (d : Dev)

section
variable (n c : Nat) (s : State)

theorem exec_portEnable : exec (.portEnable n) s = s.after fun d => d.portSet n 1 := rfl
theorem exec_portDisable : exec (.portDisable n) s = s.after fun d => d.portSet n 0 := rfl
theorem exec_portTrainingPhase (r : PhaseResult) : exec (.portTrainingPhase n r) s = s.after fun d => d.trainPhase n r := rfl
theorem exec_trainingRetry : exec (.trainingRetry n) s = s.after fun d => d.trainRetry n := rfl
theorem exec_mgmtHeartbeat : exec (.mgmtHeartbeat n) s = s.after fun d => d.heartbeat n := rfl
theorem exec_mgmtFrame : exec (.mgmtFrame n c) s = s.after fun d => d.mgmtFrame n c := rfl
theorem exec_neighbourLost : exec (.neighbourLost n) s = s.after fun d => d.neighbourLost n := rfl
theorem exec_mgmtRekey : exec (.mgmtRekey n) s = s.after fun d => d.mgmtRekey n := rfl

end

theorem Dev.port_congr {a b : Dev} (h : a.shuttle = b.shuttle) (n : Nat) : a.port n = b.port n := by rw [Dev.port, h, Dev.port]

@[simp] theorem Dev.port_setFld (o lo w v n : Nat) : (d.setFld o lo w v).port n = d.port n := rfl

@[simp] theorem Dev.port_record (c k : Nat) (u : UnitType) (i : Nat) (p : Option Nat) (x n : Nat) :
    (d.record c k u i p x).port n = d.port n := Dev.port_congr (by simp) n

/-! ### `ENABLE` -/

/-- The device once the write of `RD_PORT_CTRL` has left `ACCEPT` as it was. -/
def Dev.acceptKept (n : Nat) : Dev := d.setFld (portReg n) 1 1 (bits (d.reg (portReg n)).toNat 1 1)

variable {d} {n : Nat}

theorem Dev.portSet_eq (ht : d.takesWrite (portReg n)) (hn : n < 8) {x : Nat} (hx : x < 2) (hne : d.fld (portReg n) 0 1 = 1 - x) :
    d.portSet n x = if x = 0 then (d.acceptKept n).portDisable n else (d.acceptKept n).portEnable n := by
  have h0 : setBits (d.reg (portReg n)).toNat 0 1 x % 2 = x := by
    have h := bits_setBits (d.reg (portReg n)).toNat 0 1 x
    rw [bits] at h
    simpa [Nat.mod_eq_of_lt hx] using h
  have h1 : bits (setBits (d.reg (portReg n)).toNat 0 1 x) 1 1 = bits (d.reg (portReg n)).toNat 1 1 :=
    bits_setBits_ne _ _ _ _ (.inr (by decide))
  rw [Dev.portSet, if_pos hn, Dev.portControl, d.onWrite_of_takesWrite ht]
  dsimp only
  rw [h0, h1, hne]
  interval_cases x <;> rfl

theorem Dev.torus_congr {a b : Dev} (h : a.reg 0x1400C = b.reg 0x1400C) : a.torus = b.torus := by
  simp only [Dev.torus, Dev.fld, h]

theorem Dev.torus_setFld_portReg (d : Dev) (n lo w v : Nat) : (d.setFld (portReg n) lo w v).torus = d.torus :=
  Dev.torus_congr (Dev.reg_setFld_ne _ _ _ _ (by unfold portReg; omega))

/-- Training begins on a port that is `DOWN`: it is `TRAINING` at its first phase, and no other port changes (R186). -/
theorem Dev.startTraining_of_down (hm : d.mayTrain n = true) (hs : (d.port n).st = .down) : d.startTraining n =
    d.movePort n { d.port n with st := .training, phase := 0, cable := 0, seen := none, partner := 0, retryAt := none } :=
  if_pos ⟨hm, hs⟩

/-- Changing the state of a port makes nothing due. -/
theorem exec_of_movePort {s : State} {i : Instr} {f : Dev → Dev} {e : Dev} {x : Port} (hq : s.dev.quiet = true)
    (key : exec i s = s.after f) (he : f s.dev = e.movePort n x) (h1 : e.sigsDue = s.dev.sigsDue) (h2 : e.stopsDue = s.dev.stopsDue)
    (h3 : e.fatalDue = s.dev.fatalDue) (h4 : e.sv = s.dev.sv) : exec i s = .next (s.withDev (e.movePort n x)) :=
  exec_of_quiet key he hq (by simpa using h1) (by simpa using h2) (by simpa using h3) (by simp [h4])

theorem exec_portEnable_trains {s : State} (hq : s.dev.quiet = true) (hn : n < 8) (ht : s.dev.takesWrite (portReg n))
    (hoff : s.dev.fld (portReg n) 0 1 = 0) (hb : s.dev.power.booted = true) (hfat : s.dev.power.fatal = false)
    (hp : portAbsent s.dev.torus n = false) (hfen : s.dev.fenced .port n = false) (hh : s.dev.power.st ≠ .held)
    (hs : (s.dev.port n).st = .down) :
    ∃ t, exec (.portEnable n) s = .next t ∧ t.dev.fld (portReg n) 0 1 = 1 ∧ (t.dev.port n).st = .training ∧
      (t.dev.port n).phase = 0 ∧ (t.dev.port n).cable = 0 ∧ ∀ q, q ≠ n → t.dev.port q = s.dev.port q := by
  have hon : s.dev.on = true := ht.1
  let e := (s.dev.acceptKept n).setFld (portReg n) 0 1 1
  have hen : e.fld (portReg n) 0 1 = 1 := Dev.fld_setFld _ (by decide : 0 + 1 ≤ 64)
  have htor : e.torus = s.dev.torus := (Dev.torus_setFld_portReg ..).trans (Dev.torus_setFld_portReg ..)
  have hmay : e.mayTrain n = true := by
    have hf : e.fenced .port n = false := hfen
    have hpow : e.power = s.dev.power := rfl
    have hon' : e.on = true := hon
    simp [Dev.mayTrain, hen, htor, hf, hpow, hon', hb, hh, hfat, hn, hp]
  have heff : s.dev.portSet n 1 = e.startTraining n := by
    rw [Dev.portSet_eq ht hn (by decide) hoff, if_neg one_ne_zero]
    exact if_pos ⟨hon, hn⟩
  refine ⟨_, exec_of_movePort hq (exec_portEnable n s) (heff.trans (Dev.startTraining_of_down hmay hs)) rfl rfl rfl rfl,
    (Dev.fld_congr (by simp) ..).trans hen, by simp, by simp, by simp, fun q hne => ?_⟩
  simp [hne, e, Dev.acceptKept]

theorem exec_portDisable_down {s : State} (hq : s.dev.quiet = true) (hn : n < 8) (ht : s.dev.takesWrite (portReg n))
    (hon : s.dev.fld (portReg n) 0 1 = 1) (hs : (s.dev.port n).st ≠ .fenced) :
    ∃ t, exec (.portDisable n) s = .next t ∧ t.dev.fld (portReg n) 0 1 = 0 ∧ (t.dev.port n).st = .down ∧
      (t.dev.port n).lanes = 0 ∧ ∀ q, q ≠ n → t.dev.port q = s.dev.port q := by
  let e := (s.dev.acceptKept n).setFld (portReg n) 0 1 0
  have hdis : e.fld (portReg n) 0 1 = 0 := Dev.fld_setFld _ (by decide : 0 + 1 ≤ 64)
  have heff : s.dev.portSet n 0 = e.movePort n { e.port n with st := .down, lanes := 0, retryAt := none, phase := 0 } := by
    rw [Dev.portSet_eq ht hn (by decide) hon, if_pos rfl, Dev.portDisable, if_pos ⟨ht.1, hn⟩]
    exact if_neg hs
  refine ⟨_, exec_of_movePort hq (exec_portDisable n s) heff rfl rfl rfl rfl, (Dev.fld_congr (by simp) ..).trans hdis, by simp, by simp,
    fun q hne => ?_⟩
  simp [hne, e, Dev.acceptKept]

/-! ### Training -/

/-- A change of a port's record makes nothing due. -/
theorem exec_of_setPort {s : State} {i : Instr} {f : Dev → Dev} {x : Port} (hq : s.dev.quiet = true) (key : exec i s = s.after f)
    (he : f s.dev = s.dev.setPort n x) : exec i s = .next (s.withDev (s.dev.setPort n x)) :=
  exec_of_quiet key he hq rfl rfl rfl rfl

section
variable (hm : d.mayTrain n = true) (ht : (d.port n).st = .training)
include hm ht

theorem Dev.trainPhase_of_completed (h : (d.port n).phase < 4) :
    d.trainPhase n .completed = d.setPort n { d.port n with phase := (d.port n).phase + 1 } := by
  rw [Dev.trainPhase, if_neg (by simp [hm, ht])]
  exact if_pos h

theorem Dev.trainPhase_of_verified (h : (d.port n).phase = 4) (c q : Nat) :
    d.trainPhase n (.verified c q) = d.setPort n { (d.port n).rekeyed with phase := 5, seen := some (c, q) } := by
  rw [Dev.trainPhase, if_neg (by simp [hm, ht])]
  exact if_pos h

theorem Dev.trainPhase_of_timedOut : d.trainPhase n .timedOut = d.trainFail n (phaseCode (d.port n).phase) := by
  rw [Dev.trainPhase, if_neg (by simp [hm, ht])]

theorem Dev.trainPhase_of_last (h : (d.port n).phase = 5) {c q : Nat} (hs : (d.port n).seen = some (c, q)) :
    d.trainPhase n .completed = d.cablingCheck n c q := by
  rw [Dev.trainPhase, if_neg (by simp [hm, ht]), if_neg (by omega), h, hs]
  rfl

end

theorem exec_portTrainingPhase_timedOut {s : State} (hq : s.dev.quiet = true) (hm : s.dev.mayTrain n = true)
    (ht : (s.dev.port n).st = .training) :
    ∃ t, exec (.portTrainingPhase n .timedOut) s = .next t ∧
      t.dev.port n = { s.dev.port n with
        st := .down, cable := phaseCode (s.dev.port n).phase, phase := 0, retryAt := some (s.dev.now + 100000000) } ∧
      t.dev.log.seq = s.dev.log.seq + 1 := by
  refine ⟨_, exec_of_quiet (exec_portTrainingPhase n s _) (Dev.trainPhase_of_timedOut hm ht) hq ?_ ?_ ?_ ?_, ?_, ?_⟩ <;>
    simp [Dev.trainFail, Dev.recordCable]

theorem Dev.trainRetry_of_early {t : Nat} (hr : (d.port n).retryAt = some t) (h : d.now < t) : d.trainRetry n = d := by
  rw [Dev.trainRetry, hr]
  exact if_neg (Nat.not_le.2 h)

theorem Dev.trainRetry_of_due {t : Nat} (hr : (d.port n).retryAt = some t) (h : t ≤ d.now) : d.trainRetry n = d.startTraining n := by
  rw [Dev.trainRetry, hr]
  exact if_pos h

theorem exec_trainingRetry_due {s : State} (hq : s.dev.quiet = true) {t : Nat} (hr : (s.dev.port n).retryAt = some t)
    (hm : s.dev.mayTrain n = true) (hs : (s.dev.port n).st = .down) (h : t ≤ s.dev.now) :
    ∃ t, exec (.trainingRetry n) s = .next t ∧
      t.dev.port n = { s.dev.port n with st := .training, phase := 0, cable := 0, seen := none, partner := 0, retryAt := none } :=
  ⟨_, exec_of_movePort hq (exec_trainingRetry n s) ((Dev.trainRetry_of_due hr h).trans (Dev.startTraining_of_down hm hs)) rfl rfl rfl rfl,
    by simp⟩

/-! ### Management frames -/

theorem Dev.mgmt_of_unmanaged (h : d.managed n = false) (c : Nat) :
    d.heartbeat n = d ∧ d.mgmtFrame n c = d ∧ d.neighbourLost n = d ∧ d.mgmtRekey n = d := by
  simp [Dev.heartbeat, Dev.mgmtFrame, Dev.neighbourLost, Dev.mgmtRekey, h]

section
variable (hon : d.on = true) (hm : d.managed n = true)
include hon hm

theorem Dev.heartbeat_of_managed (h : (d.port n).txCtr + 1 < 2 ^ 40) :
    d.heartbeat n = d.setPort n { d.port n with txCtr := (d.port n).txCtr + 1, lastSent := d.now } := if_pos ⟨hon, hm, h⟩

theorem Dev.mgmtFrame_of_new {c : Nat} (h : (d.port n).rxCtr = none ∨ ∃ l, (d.port n).rxCtr = some l ∧ l < c) :
    d.mgmtFrame n c = d.setPort n { d.port n with rxCtr := some c, lastFrame := d.now } := by
  rw [Dev.mgmtFrame, if_neg (by simp [hon, hm])]
  rcases h with h | ⟨l, h, hl⟩
  · rw [h]
  · rw [h]
    exact if_neg (Nat.not_le.2 hl)

theorem Dev.mgmtFrame_of_old {c l : Nat} (h : (d.port n).rxCtr = some l) (hc : c ≤ l) :
    d.mgmtFrame n c = d.record 1 0x0605 .port n none c := by
  rw [Dev.mgmtFrame, if_neg (by simp [hon, hm]), h]
  exact if_pos hc

theorem Dev.neighbourLost_of_silent (h : (d.port n).lastFrame + 2000000 ≤ d.now) : d.neighbourLost n =
    (d.movePort n { d.port n with st := .down, lanes := 0, phase := 0 }).record 2 0x0601 .port n none n := if_pos ⟨hon, hm, h⟩

theorem Dev.mgmtRekey_of_managed : d.mgmtRekey n = d.setPort n (d.port n).rekeyed := if_pos ⟨hon, hm⟩

end

theorem Dev.neighbourLost_of_heard (h : d.now < (d.port n).lastFrame + 2000000) : d.neighbourLost n = d :=
  if_neg fun ⟨_, _, hl⟩ => absurd h (Nat.not_lt.2 hl)

theorem exec_neighbourLost_silent {s : State} (hq : s.dev.quiet = true) (hon : s.dev.on = true) (hm : s.dev.managed n = true)
    (h : (s.dev.port n).lastFrame + 2000000 ≤ s.dev.now) :
    ∃ t, exec (.neighbourLost n) s = .next t ∧ t.dev.port n = { s.dev.port n with st := .down, lanes := 0, phase := 0 } ∧
      t.dev.log.seq = s.dev.log.seq + 1 ∧ t.dev.mem = s.dev.mem :=
  ⟨_, exec_of_quiet (exec_neighbourLost n s) (Dev.neighbourLost_of_silent hon hm h) hq (by simp) (by simp) (by simp) (by simp),
    by simp, by simp, by simp⟩

/-! ### The cabling check -/

/-- `CABLE` for what a port has seen (R189, R190): 1 exactly for the expected neighbour; otherwise the code says what is wrong, and a
swap names the other port. -/
theorem Dev.cableCode_of_expected {x : Nat × Nat} (h : x = d.expects n) : d.cableCode n x = (1, 0) := if_pos h

theorem Dev.swappedWith_some {x : Nat × Nat} {o : Nat} (h : d.swappedWith n x = some o) :
    o ≠ n ∧ x = d.expects o ∧ (d.port o).seen = some (d.expects n) := by
  have hp := List.find?_some h
  simpa [and_assoc] using hp

/-- The code of a neighbour that is not the expected one, with the partner of a swap (R189, R190). -/
structure Dev.Miscabled (d : Dev) (n : Nat) (x : Nat × Nat) (k : Nat × Nat) : Prop where
  code : k.1 = 5 ∨ k.1 = 6 ∨ k.1 = 7
  wrongDevice : k.1 = 5 → x.1 ≠ (d.expects n).1
  wrongPort : k.1 = 6 → x.1 = (d.expects n).1 ∧ x.2 ≠ (d.expects n).2
  swapped : k.1 = 7 → k.2 ≠ n ∧ x = d.expects k.2 ∧ (d.port k.2).seen = some (d.expects n)

theorem Dev.miscabled_of_unexpected {x : Nat × Nat} (h : x ≠ d.expects n) : d.Miscabled n x (d.cableCode n x) := by
  rw [Dev.cableCode, if_neg h]
  split
  · next o ho => exact ⟨.inr (.inr rfl), by simp, by simp, fun _ => Dev.swappedWith_some ho⟩
  · split
    · next hd => exact ⟨.inl rfl, fun _ => hd, by simp, by simp⟩
    · next hd => exact ⟨.inr (.inl rfl), by simp, fun _ => ⟨not_not.1 hd, fun h2 => h (Prod.ext (not_not.1 hd) h2)⟩, by simp⟩

/-- The record of a port whose check gave `k` (R189). -/
def Dev.checkedPort (d : Dev) (n : Nat) (x k : Nat × Nat) : Port :=
  { d.port n with st := if k.1 = 1 ∨ d.fld (portReg n) 1 1 = 1 then .up else .quarantined, cable := k.1, partner := k.2,
                  seen := some x, phase := 6, lanes := d.lanesOf n, lastFrame := d.now }

theorem Dev.cablingCheck_of_match {c q : Nat} (h : (c, q) = d.expects n) :
    d.cablingCheck n c q = (d.movePort n (d.checkedPort n (c, q) (1, 0))).releaseHeld := by
  rw [Dev.cablingCheck, Dev.cableCode_of_expected h]
  simp [Dev.checkedPort]

theorem Dev.cablingCheck_of_mismatch {c q : Nat} (h : (c, q) ≠ d.expects n) {k : Nat × Nat} (hk : d.cableCode n (c, q) = k)
    {e : Dev} (he : (d.movePort n (d.checkedPort n (c, q) k)).recordCable n k.1 c = e) :
    d.cablingCheck n c q =
      (if k.1 = 7 ∧ (e.port k.2).phase = 6 then e.reportSwap k.2 n else e).releaseHeld := by
  have h1 : k.1 ≠ 1 := by
    rcases hk ▸ (Dev.miscabled_of_unexpected h).code with hc | hc | hc <;> omega
  rw [Dev.cablingCheck, hk]
  dsimp only
  rw [if_neg h1]
  rw [Dev.checkedPort] at he
  rw [he]

/-- The partner's report changes its own record, makes nothing due and records one entry at most (R190). -/
theorem Dev.reportSwap_rest (d : Dev) (o n : Nat) :
    (∀ q, q ≠ o → (d.reportSwap o n).port q = d.port q) ∧
    ((d.reportSwap o n).log = d.log ∨ (d.reportSwap o n).log.seq = d.log.seq + 1) ∧
    (d.reportSwap o n).sigsDue = d.sigsDue ∧ (d.reportSwap o n).stopsDue = d.stopsDue ∧
    (d.reportSwap o n).fatalDue = d.fatalDue ∧ (d.reportSwap o n).sv = d.sv := by
  unfold Dev.reportSwap Dev.recordCable
  dsimp only
  split
  · exact ⟨fun q hq => by simp [hq], .inl rfl, rfl, rfl, rfl, rfl⟩
  · exact ⟨fun q hq => by simp [hq], .inr (by simp), by simp, by simp, by simp, by simp⟩

@[simp] theorem Dev.port_releaseHeld (q : Nat) : d.releaseHeld.port q = d.port q := by simp [Dev.port]

theorem exec_portTrainingPhase_match {s : State} (hq : s.dev.quiet = true) (hm : s.dev.mayTrain n = true)
    (ht : (s.dev.port n).st = .training) (hp : (s.dev.port n).phase = 5) {c q : Nat} (hs : (s.dev.port n).seen = some (c, q))
    (h : (c, q) = s.dev.expects n) :
    ∃ t, exec (.portTrainingPhase n .completed) s = .next t ∧ (t.dev.port n).cable = 1 ∧ (t.dev.port n).st = .up ∧
      t.dev.log = s.dev.log := by
  refine ⟨_, exec_of_quiet (exec_portTrainingPhase n s _) ((Dev.trainPhase_of_last hm ht hp hs).trans (Dev.cablingCheck_of_match h)) hq
    ?_ ?_ ?_ ?_, ?_, ?_, ?_⟩ <;> simp [Dev.checkedPort]

/-- What the check of a wrong neighbour leaves: the port's record, its entry, one more where a partner reports too, and nothing due. -/
theorem Dev.cablingCheck_rest_of_mismatch {c q : Nat} (h : (c, q) ≠ d.expects n) {k : Nat × Nat} (hk : d.cableCode n (c, q) = k)
    {g : FaultLog} (hg : d.log.push (d.newEntry 1 0x0602 .port n none (k.1 + c * 2 ^ 4)) = g) :
    (d.cablingCheck n c q).port n = d.checkedPort n (c, q) k ∧
    ((d.cablingCheck n c q).log = g ∨ k.1 = 7 ∧ (d.cablingCheck n c q).log.seq = g.seq + 1) ∧
    (d.cablingCheck n c q).sigsDue = d.sigsDue ∧ (d.cablingCheck n c q).stopsDue = d.stopsDue ∧
    (d.cablingCheck n c q).fatalDue = d.fatalDue ∧ (d.cablingCheck n c q).sv = d.sv := by
  obtain ⟨e, he⟩ : ∃ e, (d.movePort n (d.checkedPort n (c, q) k)).recordCable n k.1 c = e := ⟨_, rfl⟩
  have hport : e.port n = d.checkedPort n (c, q) k := by simp [← he, Dev.recordCable]
  have hlog : e.log = g := by simp [← he, ← hg, Dev.recordCable, Dev.newEntry, Dev.now]
  have hdue : e.sigsDue = d.sigsDue ∧ e.stopsDue = d.stopsDue ∧ e.fatalDue = d.fatalDue ∧ e.sv = d.sv := by
    simp [← he, Dev.recordCable]
  rw [Dev.cablingCheck_of_mismatch h hk he]
  split
  · next hswap =>
    obtain ⟨hne, -⟩ := (hk ▸ Dev.miscabled_of_unexpected h : d.Miscabled n (c, q) k).swapped hswap.1
    obtain ⟨hother, hentry, hsigs, hstops, hfatal, hsv⟩ := e.reportSwap_rest k.2 n
    rw [hlog] at hentry
    simp [hother n hne.symm, hport, hsigs, hstops, hfatal, hsv, hdue, hswap.1, hentry]
  · simp [hport, hlog, hdue]

theorem exec_portTrainingPhase_mismatch {s : State} (hq : s.dev.quiet = true) (hm : s.dev.mayTrain n = true)
    (ht : (s.dev.port n).st = .training) (hp : (s.dev.port n).phase = 5) {c q : Nat} (hs : (s.dev.port n).seen = some (c, q))
    (h : (c, q) ≠ s.dev.expects n) :
    ∃ t, exec (.portTrainingPhase n .completed) s = .next t ∧
      s.dev.Miscabled n (c, q) ((t.dev.port n).cable, (t.dev.port n).partner) ∧
      (t.dev.port n).st = (if s.dev.fld (portReg n) 1 1 = 1 then .up else .quarantined) ∧
      ∃ g, s.dev.log.push (s.dev.newEntry 1 0x0602 .port n none ((t.dev.port n).cable + c * 2 ^ 4)) = g ∧
        (t.dev.log = g ∨ (t.dev.port n).cable = 7 ∧ t.dev.log.seq = g.seq + 1) := by
  have hmis := Dev.miscabled_of_unexpected h
  have hcode : (s.dev.cableCode n (c, q)).1 ≠ 1 := by rcases hmis.code with hc | hc | hc <;> omega
  obtain ⟨hport, hlog, hsigs, hstops, hfatal, hsv⟩ := Dev.cablingCheck_rest_of_mismatch h rfl rfl
  refine ⟨_, exec_of_quiet (exec_portTrainingPhase n s _) (Dev.trainPhase_of_last hm ht hp hs) hq hsigs hstops hfatal (congrArg _ hsv), ?_⟩
  dsimp only
  rw [hport]
  exact ⟨hmis, by simp [Dev.checkedPort, hcode], _, rfl, hlog⟩

end Sys2Proof.Machine
end

section
/-! Messages, landing zones and link ports (07): what becomes of a message, what a port goes through, when a group opens. -/

namespace Sys2Proof

open Sys2Proof.Machine

/-- Settles O14: the checks of `Dev.arrive` in their order, and past them all the message is accepted. -/
theorem messageArrival : Obligations.MessageArrival := by
  unfold Obligations.MessageArrival
  intro typ port m s hq h1 h8 ht hc
  dsimp only
  have hd : (s.dev.received port m).quiet = true := Dev.quiet_received hq port m
  have refused {e : Dev} (ha : (s.dev.received port m).arrive m = .refused e) :
      exec (messageRow typ port m) s = .next (s.withDev e.settle) := exec_messageRow_of_refused h1 h8 ht hc ha
  have counted {e : Dev} (ha : (s.dev.received port m).arrive m = .refused e) (he : e.quiet = true) :
      exec (messageRow typ port m) s = .next (s.withDev e) := by rw [refused ha, e.settle_of_quiet he]
  refine ⟨fun hm => counted (Dev.arrive_of_foreign hm) ?_, fun hm ho => refused (Dev.arrive_of_noContext hm ho),
    fun hm ho hf => counted (Dev.arrive_of_early hm ho hf) ?_, fun hm ho hf hl => refused (Dev.arrive_of_lost hm ho hf hl),
    fun hm ho hf hi hv => ⟨_, _, ⟨ht, hc, Dev.arrive_of_sound hm ho hf hi hv⟩, rfl, ?_, ?_, by simp, by simp, by simp⟩⟩
  · exact Dev.quiet_of_eq hd (by simp) (by simp) (by simp) (by simp)
  · exact Dev.quiet_of_eq hd (by simp) (by simp) (by simp) (by simp)
  · rw [Dev.sh_bump, Dev.sh_bump, Dev.last_noteIngress]
  · simp [Dev.reg_bump]

/-- Settles O15: each clause is the lemma about its message's type. -/
theorem messageEffects : Obligations.MessageEffects := by
  unfold Obligations.MessageEffects
  intro port m s e p c hq
  dsimp only
  refine ⟨?put, ?putWritten, ?putRestored, ?acc, ?accLanded, ?granules, ?get, ?getRead, ?getr, ?getrAsked, ?signal, ?signalHeld,
    ?commit, ?retract, ?reject⟩
  case put => exact fun h hk hr => exec_of_effect (exec_put port m s) (Dev.onPut_of_open h hr hk)
  case putWritten => exact fun f u h hk hr hw => exec_of_effect (exec_put port m s) (Dev.onPut_of_written h hr hk hw)
  case putRestored => exact fun f u x h hr hw => exec_of_effect (exec_put port m s) (Dev.onPut_of_restored h hr hw)
  case acc => exact fun h hk => exec_of_effect (exec_acc port m s) (Dev.onAcc_of_open h hk)
  case accLanded => exact fun f h hk hg hl => exec_of_effect (exec_acc port m s) (Dev.onAcc_of_landed h hk hg hl)
  case granules => exact fun f gi g si hl hn hf hg hs i hi => Dev.granule_landAcc hl hn hf hg hs hi
  case get => exact fun h hk => exec_of_effect (exec_get port m s) (Dev.onGet_of_open h hk)
  case getRead => exact fun f bs h hk hr => exec_of_effect (exec_get port m s) (Dev.onGet_of_read h hk hr)
  case getr => exact fun h hg => exec_of_effect (exec_getr port m s) (Dev.onGetr_of_unasked h hg)
  case getrAsked => exact fun g h hg => exec_of_effect (exec_getr port m s) (Dev.onGetr_of_asked h hg)
  case signal =>
    exact fun h ha he => exec_of_effect (exec_signal port m s) ((Dev.onSignal_of_admitted h ha).trans (if_pos he))
  case signalHeld =>
    exact fun h ha he => exec_of_effect (exec_signal port m s) ((Dev.onSignal_of_admitted h ha).trans (if_neg (Bool.eq_false_iff.1 he)))
  case commit =>
    exact fun f x h hf hx =>
      ⟨fun hn => exec_of_effect (exec_commit port m s) ((Dev.onCommit_of_known h hf hx).trans (if_neg hn)),
        fun hn => exec_of_effect (exec_commit port m s) ((Dev.onCommit_of_known h hf hx).trans (if_pos hn))⟩
  case retract =>
    rintro f h rfl
    exact exec_of_effect (exec_retract port m s) (Dev.onRetract_of_arrives h)
  case reject => exact fun h hs => exec_of_effect (exec_reject port m s) (Dev.onReject_of_message h hs)

/-- Settles O16: the frame is noted and one entry recorded, which makes nothing due. -/
theorem reservedMessage : Obligations.ReservedMessage := by
  unfold Obligations.ReservedMessage
  intro port m s hq ho hh ht
  have e : s.dev.onReserved port m = (s.dev.frameOn port).record 1 0x0701 .port port none m.src := by
    rw [Dev.onReserved, if_neg]
    simp only [ho, hh, Bool.not_true, Bool.false_eq_true, ne_eq, not_true_eq_false, or_false, false_or]
    omega
  exact ⟨_, exec_of_quiet (exec_reservedMessageType port m s) e hq (by simp) (by simp) (by simp) (by simp), by simp, by simp, by simp,
    by simp, by simp, rfl, rfl⟩

/-- Settles O17: each clause is the lemma about how its row ends. -/
theorem forwardAndCount : Obligations.ForwardAndCount := by
  unfold Obligations.ForwardAndCount
  refine ⟨fun port m s hq hl hd => ⟨fun n hn => ⟨fun hgo => ?waits, exec_messageForward_sent hq hl hd hn⟩,
    exec_messageForward_held hq hl hd⟩, fun p s hq => ⟨fun h => ?early, exec_trafficEpochRoll_used hq⟩,
    fun n k c s hq => exec_linkRetransmit_counted hq k c⟩
  case waits =>
    exact exec_of_idle hq (exec_messageForward port m s) ((Dev.onForward_of_hop hl hd hn).trans (if_neg (Bool.eq_false_iff.1 hgo)))
  case early => exact exec_of_idle hq (exec_trafficEpochRoll p s) (s.dev.rollEpoch_of_early h)

/-- Settles O18: each clause is the lemma about its row on a port in that state. -/
theorem portsAndFrames : Obligations.PortsAndFrames := by
  unfold Obligations.PortsAndFrames
  refine ⟨fun n s hq hn => ?ports, fun n c s hq hon => ?frames⟩
  case ports =>
    dsimp only
    refine ⟨fun ht hoff hb hfat hp hfen hh hs => exec_portEnable_trains hq hn ht hoff hb hfat hp hfen hh hs,
      fun ht hon hs => exec_portDisable_down hq hn ht hon hs, fun hm ht => ⟨fun hph => ?completed, fun c q hph => ?verified,
        exec_portTrainingPhase_timedOut hq hm ht⟩,
      fun t hr hm hs => ⟨fun hlt => ?early, exec_trainingRetry_due hq hr hm hs⟩⟩
    case completed => exact exec_of_setPort hq (exec_portTrainingPhase n s _) (Dev.trainPhase_of_completed hm ht hph)
    case verified => exact exec_of_setPort hq (exec_portTrainingPhase n s _) (Dev.trainPhase_of_verified hm ht hph c q)
    case early => exact exec_of_idle hq (exec_trainingRetry n s) (Dev.trainRetry_of_early hr hlt)
  case frames =>
    dsimp only
    refine ⟨fun hm => ?unmanaged, fun hm => ⟨fun htx => ?sent, fun hrx => ?new, fun l hl hc => ?old, fun hlt => ?heard,
      exec_neighbourLost_silent hq hon hm, ?rekeyed⟩⟩
    case unmanaged =>
      obtain ⟨hbeat, hframe, hlost, hkey⟩ := Dev.mgmt_of_unmanaged hm c
      exact ⟨exec_of_idle hq (exec_mgmtHeartbeat n s) hbeat, exec_of_idle hq (exec_mgmtFrame n c s) hframe,
        exec_of_idle hq (exec_neighbourLost n s) hlost, exec_of_idle hq (exec_mgmtRekey n s) hkey⟩
    case sent => exact exec_of_setPort hq (exec_mgmtHeartbeat n s) (Dev.heartbeat_of_managed hon hm htx)
    case new => exact exec_of_setPort hq (exec_mgmtFrame n c s) (Dev.mgmtFrame_of_new hon hm hrx)
    case old =>
      exact exec_of_quiet (exec_mgmtFrame n c s) (Dev.mgmtFrame_of_old hon hm hl hc) hq (by simp) (by simp) (by simp) (by simp)
    case heard => exact exec_of_idle hq (exec_neighbourLost n s) (Dev.neighbourLost_of_heard hlt)
    case rekeyed => exact exec_of_setPort hq (exec_mgmtRekey n s) (Dev.mgmtRekey_of_managed hon hm)

/-- Settles O19: the expected neighbour brings the port up with no entry, any other is told by its code. -/
theorem cablingCheck : Obligations.CablingCheck := by
  unfold Obligations.CablingCheck
  intro n c q s hq hm ht hp hs
  dsimp only
  by_cases h : (c, q) = s.dev.expects n
  · obtain ⟨t, hstep, hmatch⟩ := exec_portTrainingPhase_match hq hm ht hp hs h
    exact ⟨t, hstep, fun _ => hmatch, fun hne => absurd h hne⟩
  · obtain ⟨t, hstep, ⟨hcode, hdev, hport, hswap⟩, hrest⟩ := exec_portTrainingPhase_mismatch hq hm ht hp hs h
    refine ⟨t, hstep, fun he => absurd he h, fun _ => ⟨hcode, hdev, hport, fun h7 => ?_, hrest⟩⟩
    obtain ⟨hne, hexp, hseen⟩ := hswap h7
    exact ⟨_, hne, rfl, hexp, hseen⟩

/-- Settles O21: the checks of R202 one after another, each leaving the groups; past them all the group joins. -/
theorem landingOpened : Obligations.LandingOpened := by
  unfold Obligations.LandingOpened
  intro r s a hq hstart h8
  dsimp only
  have ends {e : Dev} {st : Nat} (ho : s.dev.openLanding (ringCtx r) a.desc = (e, st))
      (hg : (e.sh (ringPart r)).groups = (s.dev.sh (ringPart r)).groups) : ∃ e : Dev,
      exec (.landing r) s = .next (s.withDev (e.finish r a.seq (Verdict.of st)).settle) ∧
        (e.sh (ringPart r)).groups = (s.dev.sh (ringPart r)).groups := ⟨e, exec_landing_of_open hstart h8 ho, hg⟩
  have stands {e : Dev} {bs : Res (List Byte)} (hr : s.dev.readSources (ringCtx r) a.desc = bs) (he : bs.dev = e) :
      (e.sh (ringPart r)).groups = (s.dev.sh (ringPart r)).groups := Dev.groups_read (hr ▸ he) _
  refine ⟨fun hb => ends (Dev.openLanding_of_bad hb) rfl, fun hb hf => ends (Dev.openLanding_of_taken hb hf) rfl,
    fun hb hf hg => ends (Dev.openLanding_of_ungranted hb hf hg) rfl,
    fun e w hb hf hg hr => ends (Dev.openLanding_of_unread hb hf hg hr) (stands hr rfl),
    fun e bs hb hf hg hr => ⟨fun hs => ends (Dev.openLanding_of_unsound hb hf hg hr hs) (stands hr rfl), fun hs => ?opens⟩⟩
  case opens =>
    refine ⟨_, exec_landing_of_open hstart h8 (Dev.openLanding_of_sound hb hf hg hr hs), ?_⟩
    exact (Dev.groups_withGroup ..).trans (congrArg (· ++ _) (stands hr rfl))

end Sys2Proof
end

section
/-! SUPPORT. Stripe parity (08 R223): exclusive or of units forms a group in which every unit is its own inverse. -/

namespace Sys2Proof.Machine

theorem xorBytes_comm (xs ys : List Byte) : xorBytes xs ys = xorBytes ys xs :=
  List.zipWith_comm_of_comm fun x y => BitVec.xor_comm x y

theorem xorBytes_assoc (xs ys zs : List Byte) : xorBytes (xorBytes xs ys) zs = xorBytes xs (xorBytes ys zs) := by
  induction xs generalizing ys zs with
  | nil => rfl
  | cons x xs ih =>
    cases ys with
    | nil => rfl
    | cons y ys =>
      cases zs with
      | nil => rfl
      | cons z zs => exact congrArg₂ List.cons (BitVec.xor_assoc x y z) (ih ys zs)

theorem xorBytes_right_comm (xs ys zs : List Byte) : xorBytes (xorBytes xs ys) zs = xorBytes (xorBytes xs zs) ys := by
  rw [xorBytes_assoc, xorBytes_comm ys, xorBytes_assoc]

theorem xorBytes_self (xs : List Byte) : xorBytes xs xs = List.replicate xs.length 0 := by
  induction xs with
  | nil => rfl
  | cons x xs ih => exact congrArg₂ List.cons BitVec.xor_self ih

theorem replicate_xorBytes (xs : List Byte) : xorBytes (List.replicate xs.length 0) xs = xs := by
  induction xs with
  | nil => rfl
  | cons x xs ih => exact congrArg₂ List.cons BitVec.zero_xor ih

theorem foldl_xorBytes_xorBytes (us : List (List Byte)) (x u : List Byte) :
    us.foldl xorBytes (xorBytes x u) = xorBytes (us.foldl xorBytes x) u := by
  induction us generalizing x with
  | nil => rfl
  | cons v us ih => rw [List.foldl_cons, List.foldl_cons, xorBytes_right_comm, ih]

/-- A unit taken in twice leaves nothing. -/
theorem foldl_foldl_xorBytes {us : List (List Byte)} {x : List Byte} (h : ∀ u ∈ us, u.length = x.length) :
    us.foldl xorBytes (us.foldl xorBytes x) = x := by
  induction us with
  | nil => rfl
  | cons u us ih =>
    obtain ⟨hu, hus⟩ := List.forall_mem_cons.1 h
    calc us.foldl xorBytes (xorBytes (us.foldl xorBytes (xorBytes x u)) u)
        = us.foldl xorBytes (us.foldl xorBytes x) := by
          rw [foldl_xorBytes_xorBytes us x u, xorBytes_assoc, xorBytes_self, hu, ← foldl_xorBytes_xorBytes, xorBytes_comm x,
            replicate_xorBytes]
      _ = x := ih hus

/-- The parity does not depend on where a unit stands. -/
theorem parity_eq_of_getElem? {us : List (List Byte)} {j : Nat} {u : List Byte} (hj : us[j]? = some u) :
    parity us = xorBytes (parity (us.eraseIdx j)) u := by
  obtain ⟨hlt, rfl⟩ := List.getElem?_eq_some_iff.1 hj
  calc parity us = (us[j] :: us.eraseIdx j).foldl xorBytes (List.replicate 4096 0) :=
        ((List.getElem_cons_eraseIdx_perm hlt).foldl_eq' (fun _ _ _ _ z => xorBytes_right_comm z _ _) _).symm
    _ = xorBytes (parity (us.eraseIdx j)) us[j] := foldl_xorBytes_xorBytes ..

end Sys2Proof.Machine
end

section
/-! SUPPORT. What a write of lines leaves of the device: Pleach, the clock, the registers that no access counts in, and every byte
outside the range written; the re-encryption steps that it takes first change no byte (12 R352, R368, R369). -/

namespace Sys2Proof.Machine

/-- A register in which no access to memory counts. -/
def uncounted (x : Nat) : Prop := 0x10048 < x ∧ unread x

/-- `e` is `d` after accesses to memory that write no byte outside `w`. -/
structure Dev.Wrote (w : Nat → Prop) (d e : Dev) : Prop where
  timePs : e.timePs = d.timePs
  pleach : e.pleach = d.pleach
  reg : ∀ x, uncounted x → e.reg x = d.reg x
  byte : ∀ a, ¬ w a → e.byte a = d.byte a

namespace Dev.Wrote

theorem refl (w : Nat → Prop) (d : Dev) : d.Wrote w d := ⟨rfl, rfl, fun _ _ => rfl, fun _ _ => rfl⟩

variable {w : Nat → Prop} {d e : Dev}

theorem ite {a b : Dev} {c : Prop} [Decidable c] (h : d.Wrote w a) (k : d.Wrote w b) : d.Wrote w (if c then a else b) := by
  split <;> assumption

theorem iteRes {α : Type} {a b : Res α} {c : Prop} [Decidable c] (h : d.Wrote w a.dev) (k : d.Wrote w b.dev) :
    d.Wrote w (if c then a else b).dev := by
  split <;> assumption

theorem of_ok {α : Type} {f : Dev} {r : Res α} {x : α} (h : d.Wrote w r.dev) (hr : r = .ok f x) : d.Wrote w f := by rwa [hr] at h

theorem of_fail {α : Type} {f : Dev} {r : Res α} {y : MemFail} (h : d.Wrote w r.dev) (hr : r = .fail f y) : d.Wrote w f := by
  rwa [hr] at h

variable (h : d.Wrote w e)
include h

theorem pl (p : Nat) : e.pl p = d.pl p := by rw [Dev.pl, h.pleach, Dev.pl]

theorem now : e.now = d.now := by rw [Dev.now, h.timePs, Dev.now]

theorem fld {x : Nat} (hx : uncounted x) (lo n : Nat) : e.fld x lo n = d.fld x lo n := by rw [Dev.fld, h.reg x hx, Dev.fld]

theorem trans {f : Dev} (k : e.Wrote w f) : d.Wrote w f :=
  ⟨k.timePs.trans h.timePs, k.pleach.trans h.pleach, fun x hx => (k.reg x hx).trans (h.reg x hx),
    fun a ha => (k.byte a ha).trans (h.byte a ha)⟩

/-- Updates of what is neither Pleach, clock, registers nor memory. -/
theorem same {f : Dev} (ht : f.timePs = e.timePs) (hp : f.pleach = e.pleach) (hr : f.regs = e.regs) (hm : f.mem = e.mem) :
    d.Wrote w f :=
  h.trans ⟨ht, hp, fun x _ => by rw [Dev.reg, hr, Dev.reg], fun a _ => by rw [Dev.byte, hm, Dev.byte]⟩

theorem foldl {α : Type} {f : Dev → α → Dev} (hf : ∀ {c : Dev} x, d.Wrote w c → d.Wrote w (f c x)) (xs : List α) :
    d.Wrote w (xs.foldl f e) := by
  induction xs generalizing e with
  | nil => exact h
  | cons x xs ih => exact ih (hf x h)

/-! ### State updates, entries, signals -/

theorem setRegion {n : Nat} {x : Region} : d.Wrote w (e.setRegion n x) := h.same rfl rfl rfl rfl

theorem setLine {l : Nat} {m : Option LineMeta} : d.Wrote w (e.setLine l m) := h.same rfl rfl rfl rfl

theorem setLatent {l : Nat} {f : LineFound} : d.Wrote w (e.setLatent l f) := h.same rfl rfl rfl rfl

theorem touchRun {l n : Nat} : d.Wrote w (e.touchRun l n) := h.same rfl rfl rfl rfl

theorem touch {l : Nat} : d.Wrote w (e.touch l) := h.touchRun

theorem setBufs {k : Nat} {bs : List StepBuf} : d.Wrote w (e.setBufs k bs) := h.same rfl rfl rfl rfl

theorem setUnit {u : UnitType} {i : Nat} {r : UnitRec} : d.Wrote w (e.setUnit u i r) := h.same rfl rfl rfl rfl

theorem takeEpoch {k : Nat} : d.Wrote w (e.takeEpoch k) := h.same rfl rfl rfl rfl

theorem account {k i n : Nat} : d.Wrote w (e.account k i n) := h.same rfl rfl rfl rfl

theorem bump {o n : Nat} (ho : o ≤ 0x10048) : d.Wrote w (e.bump o n) :=
  h.trans ⟨rfl, rfl, fun x hx => Dev.reg_setReg_ne _ _ (by have := hx.1; omega), fun _ _ => rfl⟩

theorem record {c k i x : Nat} {u : UnitType} {p : Option Nat} : d.Wrote w (e.record c k u i p x) :=
  h.trans ⟨by simp, by simp, fun _ hy => Dev.reg_record _ _ _ _ _ _ _ _ (counters_ne hy.2.2), fun a _ => by simp [Dev.byte]⟩

theorem recordC3 {k c x : Nat} : d.Wrote w (e.recordC3 k c x) :=
  h.trans ⟨by simp, by simp, fun _ hy => Dev.reg_recordC3 _ hy.2 _ _ _, fun a _ => by simp [Dev.byte]⟩

theorem engineSignal {k f v : Nat} : d.Wrote w (e.engineSignal k f v).1 := by
  have hsignal : d.Wrote w (e.signal k f v false).1 := by
    unfold Dev.signal
    dsimp only
    split
    · exact h
    · split
      · exact h
      · exact h.record
      · rw [if_neg Bool.false_ne_true]
        split
        · exact h
        · split
          · exact h.record
          · exact h.same (by simp [Dev.applySignal]) (by simp [Dev.applySignal]) (by simp [Dev.applySignal]) (by simp [Dev.applySignal])
  unfold Dev.engineSignal
  dsimp only
  split
  · exact hsignal.account
  · exact hsignal

/-! ### Checks of lines -/

theorem badLine {n l c k : Nat} {b p : Bool} : d.Wrote w (e.badLine n l c k b p) := by
  have hcount {x : Region} : d.Wrote w ((e.setRegion n x).bump (if b then 0x10020 else 0x10028) 1) :=
    h.setRegion.bump (by split <;> omega)
  exact .ite hcount.record hcount.recordC3

theorem meetLine {n l c k : Nat} {f : LineFound} {p : Bool} : d.Wrote w (e.meetLine n l c k f p).1 := by
  cases f with
  | good => exact h
  | corrected b => exact (h.setLatent.bump (by decide)).record.same rfl rfl rfl rfl
  | retried => exact (h.setLatent.bump (by decide)).record
  | badEcc => exact h.setLatent.setLine.badLine
  | badMac =>
    unfold Dev.meetLine
    dsimp only
    split
    · exact h
    · exact h.setLatent.setLine.badLine

theorem checkLine {n l c k : Nat} : d.Wrote w (e.checkLine n l c k).1 := by
  unfold Dev.checkLine
  dsimp only
  split
  · exact h.badLine
  · exact h.meetLine

/-! ### Re-encryption steps -/

theorem startReencrypt {n : Nat} {sig : Option (Nat × Nat)} : d.Wrote w (e.startReencrypt n sig) := by
  unfold Dev.startReencrypt Dev.refuseRegion
  dsimp only
  split
  · exact h.record
  · have hstop : d.Wrote w ((e.takeEpoch (e.region n).key).stopLaneTests (e.region n)) := by
      unfold Dev.stopLaneTests
      exact h.takeEpoch.foldl (fun _ hc => .ite hc.setUnit hc) _
    exact hstop.setRegion

theorem reencryptDone {n : Nat} : d.Wrote w (e.reencryptDone n) := by
  have hsig {c : Dev} (hc : d.Wrote w c) (sig : Option (Nat × Nat)) : d.Wrote w (c.regionSignal n sig) := by
    cases sig with
    | none => exact hc
    | some fv => exact hc.engineSignal
  unfold Dev.reencryptDone
  dsimp only
  exact .ite (.ite (hsig h.setRegion.record _).startReencrypt (hsig h.setRegion.record _)) h

theorem forceStep {n l : Nat} : d.Wrote w (e.forceStep n l) := by
  have hmeet {n first : Nat} : d.Wrote w ((e.touchRun first 512).meetStep n first) := by
    unfold Dev.meetStep
    exact h.touchRun.foldl (fun _ hc => hc.meetLine) _
  have hdrain {c : Dev} (hc : d.Wrote w c) (k : Nat) (b : StepBuf) : d.Wrote w (c.drainBuf k b) := by
    unfold Dev.drainBuf
    dsimp only
    split
    · exact hc.setBufs
    · refine .reencryptDone (.bump (.setRegion ?_) (by decide))
      exact hc.same rfl rfl rfl rfl
  have htake : d.Wrote w (e.takeStep n ((e.region n).stepOf l)) := .ite h (hdrain hmeet.setBufs _ _)
  exact .ite (htake.bump (by decide)) h

theorem scheduleAt {n c : Nat} : d.Wrote w (e.scheduleAt n c) :=
  .ite h (.ite h.startReencrypt (.ite h.setRegion h))

/-! ### Lines written -/

theorem setBytes {bs : List Byte} {a : Nat} (ha : ∀ b, a ≤ b → b < a + bs.length → w b) : d.Wrote w (e.setBytes a bs) := by
  have hrest : ∀ (bs : List Byte) (a : Nat) (c : Dev),
      (c.setBytes a bs).timePs = c.timePs ∧ (c.setBytes a bs).pleach = c.pleach ∧ (c.setBytes a bs).regs = c.regs := by
    intro bs
    induction bs with
    | nil => exact fun _ _ => ⟨rfl, rfl, rfl⟩
    | cons b bs ih => exact fun a c => ih (a + 1) (c.setByte a b)
  obtain ⟨ht, hp, hr⟩ := hrest bs a e
  refine h.trans ⟨ht, hp, fun x _ => by rw [Dev.reg, hr, Dev.reg], fun x hx => ?_⟩
  rw [Dev.byte_setBytes, if_neg fun hin => hx (ha x hin.1 hin.2)]

theorem putLine {n k l off c : Nat} {bs : List Byte} {known : Bool}
    (ha : ∀ b, 128 * l + off ≤ b → b < 128 * l + off + bs.length → w b) : d.Wrote w (e.putLine n k l off c bs known) := by
  have hburst : d.Wrote w (if known then e else e.bump 0x10048 1) := .ite h (h.bump (by decide))
  exact (hburst.setLine.setLatent.setBytes ha).setRegion.touch.scheduleAt

theorem writeLine {q : Req} {l off : Nat} {bs : List Byte} (ha : ∀ b, 128 * l + off ≤ b → b < 128 * l + off + bs.length → w b) :
    d.Wrote w (e.writeLine q l off bs).dev := by
  unfold Dev.writeLine
  split
  · exact h
  · next n _ =>
    have hread : d.Wrote w (if decide (bs.length = 128) then (e.forceStep n l, true)
        else ((e.forceStep n l).touch l).checkLine n l q.ctx q.key).1 := by
      split
      · exact h.forceStep
      · exact h.forceStep.touch.checkLine
    dsimp only
    split
    · next he => rwa [he] at hread
    · next f he =>
      rw [he] at hread
      exact .iteRes (hread.setLine.setLatent.touch.setBytes ha) (.iteRes hread (hread.putLine ha))

theorem writeLines {q : Req} {fuel a : Nat} {bs : List Byte} (ha : ∀ b, a ≤ b → b < a + bs.length → w b) :
    d.Wrote w (e.writeLines q fuel a bs).dev := by
  induction fuel generalizing e a bs with
  | zero => exact h
  | succ fuel ih =>
    have hl : d.Wrote w (e.writeLine q (a / 128) (a % 128) (bs.take (128 - a % 128))).dev :=
      h.writeLine fun b hlo hhi => ha b (by omega) (by rw [List.length_take] at hhi; omega)
    unfold Dev.writeLines
    dsimp only
    split
    · exact h
    · split
      · next he => exact ih (hl.of_ok he) fun b hlo hhi => ha b (by omega) (by rw [List.length_drop] at hhi; omega)
      · next he => exact hl.of_fail he

/-! ### The holdings area -/

theorem writeHeld {p off : Nat} {bs : List Byte} (ha : ∀ b, e.holdBase p + off ≤ b → b < e.holdBase p + off + bs.length → w b) :
    d.Wrote w (e.writeHeld p off bs) := by
  have hw : d.Wrote w (e.writeLines (engineReq p (e.holdKey p)) (bs.length / 128 + 2) (e.holdBase p + off) bs).dev := h.writeLines ha
  unfold Dev.writeHeld
  dsimp only
  split
  · exact h
  · split
    · next he => exact hw.of_ok he
    · next he => exact hw.of_fail he

end Dev.Wrote
end Sys2Proof.Machine
end

section
/-! SUPPORT. A partition of Pleach read back, and the slot records that its generations keep in the holdings area (08 R230, R235). -/

namespace Sys2Proof.Machine

/-! ### The partition's state -/

@[simp] theorem Dev.pl_setPl (d : Dev) (p : Nat) (x : PlPart) (q : Nat) : (d.setPl p x).pl q = if q = p then x else d.pl q := by
  simp only [Dev.pl, Dev.setPl, Sparse.get_set]

@[simp] theorem Dev.reg_raisePart (d : Dev) (p i x : Nat) : (d.raisePart p i).reg x = d.reg x := by simp [Dev.reg]

theorem Dev.pl_congr {a b : Dev} (h : a.pleach = b.pleach) (p : Nat) : a.pl p = b.pl p := by rw [Dev.pl, h, Dev.pl]

@[simp] theorem PlPart.gen_setGen (x : PlPart) (k : Nat) (g : Gen) : (x.setGen k g).gen k = g := by
  unfold PlPart.setGen PlPart.gen
  split <;> rfl

theorem PlPart.gen_setGen_other {k : Nat} (hk : k < 2) (x : PlPart) (g : Gen) : (x.setGen k g).gen (1 - k) = x.gen (1 - k) := by
  obtain rfl | rfl : k = 0 ∨ k = 1 := by omega
  · rfl
  · rfl

/-- Holding a generation changes nothing of the partition beside it. -/
@[simp] theorem PlPart.setGen_rest (x : PlPart) (k : Nat) (g : Gen) :
    (x.setGen k g).armed = x.armed ∧ (x.setGen k g).srcs = x.srcs ∧ (x.setGen k g).cur = x.cur ∧ (x.setGen k g).taken = x.taken ∧
    (x.setGen k g).stripes = x.stripes ∧ (x.setGen k g).evaluated = x.evaluated ∧ (x.setGen k g).owed = x.owed ∧
    (x.setGen k g).kept = x.kept ∧ (x.setGen k g).msStep = x.msStep ∧ (x.setGen k g).cutAt = x.cutAt ∧
    (x.setGen k g).prevCut = x.prevCut ∧ (x.setGen k g).op = x.op ∧ (x.setGen k g).tookOver = x.tookOver := by
  unfold PlPart.setGen
  split <;> and_intros <;> rfl

/-! ### Where its records lie -/

/-- No access to memory counts in the registers of Pleach, but in those at the places of an entry counter. -/
theorem uncounted_plReg (p : Nat) {o : Nat} (h : o % 0x80 ≠ 0x28 ∧ o % 0x80 ≠ 0x30 ∧ o % 0x80 ≠ 0x38) : uncounted (plReg p + o) := by
  unfold uncounted unread plReg
  omega

/-- Address `a` lies in the record of slot `k` or in the record's copy (Table 08-2). -/
def Dev.inSlot (d : Dev) (p k a : Nat) : Prop := ∃ c ∈ [k, k + 2], d.holdBase p + 128 * c ≤ a ∧ a < d.holdBase p + 128 * c + 128

theorem Dev.not_inSlot_iff (d : Dev) (p k a : Nat) :
    ¬ d.inSlot p k a ↔ ∀ c ∈ [k, k + 2], a < d.holdBase p + 128 * c ∨ d.holdBase p + 128 * c + 128 ≤ a := by
  simp only [Dev.inSlot, not_exists, not_and, not_lt, imp_iff_not_or, not_le]

/-- Address `a` lies in the row bitmap (Table 08-2). -/
def Dev.inBitmap (d : Dev) (p a : Nat) : Prop :=
  d.holdBase p + granuleBytes ≤ a ∧ a < d.holdBase p + granuleBytes + ceilDiv (d.section_ p) 1024 * 128

namespace Dev.Wrote

variable {w : Nat → Prop} {d e : Dev} (h : d.Wrote w e)
include h

theorem holdBase (p : Nat) : e.holdBase p = d.holdBase p := by
  rw [Dev.holdBase, h.fld (uncounted_plReg p (by decide)), Dev.holdBase]

theorem section_ (p : Nat) : e.section_ p = d.section_ p := by
  rw [Dev.section_, h.fld (uncounted_plReg p (by decide)), Dev.section_]

theorem writeSlot {p k : Nat} (ha : ∀ a, d.inSlot p k a → w a) : d.Wrote w (e.writeSlot p k) := by
  have hrecord {c : Dev} (hc : d.Wrote w c) (j : Nat) (hj : j ∈ [k, k + 2]) (f : Nat → Byte) :
      d.Wrote w (c.writeHeld p (128 * j) ((List.range 128).map f)) := by
    refine hc.writeHeld fun a hlo hhi => ha a ⟨j, hj, ?_, ?_⟩
    · rwa [hc.holdBase] at hlo
    · simpa [hc.holdBase] using hhi
  exact hrecord (hrecord h k (by simp) _) (k + 2) (by simp) _

theorem clearBitmap {p : Nat} (ha : ∀ a, d.inBitmap p a → w a) : d.Wrote w (e.clearBitmap p) := by
  refine h.writeHeld fun a hlo hhi => ha a ⟨?_, ?_⟩
  · rwa [h.holdBase] at hlo
  · rwa [h.holdBase, h.section_, List.length_replicate] at hhi

end Dev.Wrote
end Sys2Proof.Machine
end

section
/-! SUPPORT. `READY` and `COMMIT` records (08 R235, R236): which are heard, when a member commits, when the generation counts. -/

namespace Sys2Proof.Machine

theorem exec_readyRecord (p k step h : Nat) (s : State) :
    exec (.readyRecord p k step h) s = s.after fun d => d.readyRecord p k step h := rfl

theorem exec_commitRecord (p k step h : Nat) (s : State) :
    exec (.commitRecord p k step h) s = s.after fun d => d.commitRecord p k step h := rfl

/-! ### What a record goes through -/

/-- Partition `p` hears the records of slot `k` that member `h` sends. -/
structure Dev.hearsPeer (d : Dev) (p k h : Nat) : Prop where
  serving : d.servingIn p = true
  armed : (d.pl p).armed = true
  slot : k < 2
  member : h < 8
  peer : h ≠ d.member p

/-- The slot with the `READY` of member `h`. -/
def Dev.holdReady (d : Dev) (p k h : Nat) : Dev :=
  d.setPl p ((d.pl p).setGen k { (d.pl p).gen k with ready := insNat h ((d.pl p).gen k).ready })

/-- The slot with the `COMMIT` of member `h`. -/
def Dev.holdCommit (d : Dev) (p k h : Nat) : Dev :=
  d.setPl p ((d.pl p).setGen k { (d.pl p).gen k with commit := insNat h ((d.pl p).gen k).commit })

variable {d : Dev} {p k step h : Nat}

theorem Dev.pl_holdReady (d : Dev) (p k h : Nat) : (d.holdReady p k h).pl p =
    (d.pl p).setGen k { (d.pl p).gen k with ready := insNat h ((d.pl p).gen k).ready } := by
  rw [Dev.holdReady, Dev.pl_setPl, if_pos rfl]

theorem Dev.gen_holdReady (d : Dev) (p k h : Nat) : ((d.holdReady p k h).pl p).gen k =
    { (d.pl p).gen k with ready := insNat h ((d.pl p).gen k).ready } := by rw [Dev.pl_holdReady, PlPart.gen_setGen]

theorem Dev.pl_holdCommit (d : Dev) (p k h : Nat) : (d.holdCommit p k h).pl p =
    (d.pl p).setGen k { (d.pl p).gen k with commit := insNat h ((d.pl p).gen k).commit } := by
  rw [Dev.holdCommit, Dev.pl_setPl, if_pos rfl]

theorem Dev.gen_holdCommit (d : Dev) (p k h : Nat) : ((d.holdCommit p k h).pl p).gen k =
    { (d.pl p).gen k with commit := insNat h ((d.pl p).gen k).commit } := by rw [Dev.pl_holdCommit, PlPart.gen_setGen]

theorem Dev.records_of_disarmed (ha : (d.pl p).armed = false) (k step h : Nat) :
    d.readyRecord p k step h = d ∧ d.commitRecord p k step h = d := by
  simp [Dev.readyRecord, Dev.commitRecord, ha]

/-! ### Committing -/

theorem Dev.commitIfReady_of_short (hr : ((d.pl p).gen k).ready.length ≠ 7) : d.commitIfReady p k = d :=
  if_neg fun ⟨_, _, hready, _⟩ => hr hready

/-- The slot with this member's own `COMMIT`, written to the holdings area and sent to every peer. -/
def Dev.ownCommit (d : Dev) (p k : Nat) : Dev :=
  ((d.holdCommit p k (d.member p)).writeHeld p (512 + ((k * 8 + d.member p) * 2 + 1) * 128)
    (recordBytes ((d.pl p).gen k).step k (d.member p) 1)).sendRecords p k 1

theorem Dev.commitIfReady_of_ready (hc : (d.pl p).cur = some k) (hs : ((d.pl p).gen k).sent = true)
    (hr : ((d.pl p).gen k).ready.length = 7) (hm : d.member p ∉ ((d.pl p).gen k).commit) : d.commitIfReady p k = d.ownCommit p k :=
  if_pos ⟨hc, hs, hr, by simpa using hm⟩

/-- The partition but for the stripe messages it has sent. -/
def PlPart.unsent (x : PlPart) : PlPart := { x with stripes := [] }

theorem PlPart.gen_unsent (x : PlPart) (k : Nat) : x.unsent.gen k = x.gen k := rfl

theorem Dev.pl_send (d : Dev) (p : Nat) (m : Draft) (q : Nat) : (d.send p m).pl q = d.pl q := Dev.pl_congr (by simp) q

theorem Dev.unsent_sendStripe (d : Dev) (p g a : Nat) (bs : List Byte) :
    ((d.sendStripe p g a bs).pl p).unsent = (d.pl p).unsent := by
  have hroll : (d.rollEpoch p).pl p = d.pl p := Dev.pl_congr (by simp) p
  unfold Dev.sendStripe
  dsimp only
  rw [Dev.pl_send, Dev.pl_setPl, if_pos rfl]
  change ((d.rollEpoch p).pl p).unsent = _
  rw [hroll]

theorem Dev.unsent_sendRecords (d : Dev) (p k c : Nat) : ((d.sendRecords p k c).pl p).unsent = (d.pl p).unsent :=
  foldl_keeps (fun d : Dev => (d.pl p).unsent) (fun _ _ => Dev.unsent_sendStripe ..) _ d

theorem Dev.unsent_ownCommit (d : Dev) (p k : Nat) :
    ((d.ownCommit p k).pl p).unsent = ((d.holdCommit p k (d.member p)).pl p).unsent := by
  have hheld := (Dev.Wrote.refl (fun _ => True) (d.holdCommit p k (d.member p))).writeHeld (p := p)
    (off := 512 + ((k * 8 + d.member p) * 2 + 1) * 128) (bs := recordBytes ((d.pl p).gen k).step k (d.member p) 1) fun _ _ _ => trivial
  rw [Dev.ownCommit, Dev.unsent_sendRecords, hheld.pl]

theorem Dev.gen_ownCommit (d : Dev) (p k : Nat) :
    ((d.ownCommit p k).pl p).gen k = { (d.pl p).gen k with commit := insNat (d.member p) ((d.pl p).gen k).commit } := by
  rw [← PlPart.gen_unsent, Dev.unsent_ownCommit, PlPart.gen_unsent, Dev.gen_holdCommit]

/-! ### Counting -/

theorem Dev.countIfCommitted_of_short (hc : ((d.pl p).gen k).commit.length ≠ 8) : d.countIfCommitted p k = d :=
  if_neg fun ⟨_, _, hcommit⟩ => hc hcommit

/-- The partition once its generation in slot `k` counts. -/
def PlPart.count (x : PlPart) (k : Nat) : PlPart :=
  { x.setGen k { x.gen k with counted := true } with cur := none, stripes := [], prevCut := some x.cutAt, tookOver := none }

theorem PlPart.gen_count (x : PlPart) (k : Nat) : (x.count k).gen k = { x.gen k with counted := true } := x.gen_setGen k _

theorem Dev.countIfCommitted_of_eight (hc : (d.pl p).cur = some k) (hn : ((d.pl p).gen k).counted = false)
    (h8 : ((d.pl p).gen k).commit.length = 8) :
    (d.countIfCommitted p k).pl p = (d.pl p).count k ∧
    (d.countIfCommitted p k).reg (plReg p + 0x88) = BitVec.ofNat 64 (d.now - (d.pl p).cutAt) ∧
    ∀ a, ¬ d.inSlot p k a → (d.countIfCommitted p k).byte a = d.byte a := by
  have hslot := (Dev.Wrote.refl (d.inSlot p k) (d.setPl p ((d.pl p).count k))).writeSlot (p := p) (k := k) fun _ ha => ha
  obtain ⟨v, hv⟩ : ∃ v, d.countIfCommitted p k = ((((d.setPl p ((d.pl p).count k)).writeSlot p k).setReg (plReg p + 0x88)
      (BitVec.ofNat 64 (((d.setPl p ((d.pl p).count k)).writeSlot p k).now - (d.pl p).cutAt))).setReg (plReg p + 0x90) v).raisePart p 2 :=
    ⟨_, if_pos ⟨hc, by simp [hn], h8⟩⟩
  rw [hv]
  refine ⟨?_, ?_, fun a ha => ?_⟩
  · rw [Dev.pl_congr (b := (d.setPl p ((d.pl p).count k)).writeSlot p k) (by simp), hslot.pl, Dev.pl_setPl, if_pos rfl]
  · rw [Dev.reg_raisePart, Dev.reg_setReg_ne _ _ (by omega), Dev.reg_setReg, if_pos rfl, hslot.now]
    rfl
  · exact Eq.trans (by simp [Dev.byte]) (hslot.byte a ha)

/-! ### Records of the slot's step -/

section
variable (hh : d.hearsPeer p k h)
include hh

theorem Dev.hearsPeer.admitted : ¬ (!d.servingIn p ∨ !(d.pl p).armed ∨ 2 ≤ k ∨ 8 ≤ h ∨ h = d.member p) := by
  obtain ⟨hs, ha, hk, hm, hp⟩ := hh
  simp [hs, ha, hk, hm, hp]

/-- A record of another step (08 R236). -/
theorem Dev.records_of_stale (hg : ((d.pl p).gen k).valid = false ∨ ((d.pl p).gen k).step ≠ step) :
    d.readyRecord p k step h = d.record 1 0x0B04 .context p (some p) step ∧
      d.commitRecord p k step h = d.record 1 0x0B04 .context p (some p) step := by
  have hstale : !((d.pl p).gen k).valid ∨ ((d.pl p).gen k).step ≠ step := by simpa using hg
  exact ⟨(if_neg hh.admitted).trans (if_pos hstale), (if_neg hh.admitted).trans (if_pos hstale)⟩

variable (hv : ((d.pl p).gen k).valid = true) (hs : ((d.pl p).gen k).step = step)
include hv hs

theorem Dev.readyRecord_of_current :
    d.readyRecord p k step h = ((d.holdReady p k h).commitIfReady p k).countIfCommitted p k :=
  (if_neg hh.admitted).trans (if_neg (by simp [hv, hs]))

theorem Dev.commitRecord_of_current : d.commitRecord p k step h = (d.holdCommit p k h).countIfCommitted p k :=
  (if_neg hh.admitted).trans (if_neg (by simp [hv, hs]))

theorem Dev.readyRecord_of_short (hr : (insNat h ((d.pl p).gen k).ready).length ≠ 7) (hc : ((d.pl p).gen k).commit.length ≠ 8) :
    d.readyRecord p k step h = d.holdReady p k h := by
  rw [Dev.readyRecord_of_current hh hv hs, Dev.commitIfReady_of_short (by rwa [Dev.gen_holdReady]),
    Dev.countIfCommitted_of_short (by rwa [Dev.gen_holdReady])]

/-- The seventh `READY`, once this member's own rows are sent. -/
theorem Dev.readyRecord_of_last (hr : (insNat h ((d.pl p).gen k).ready).length = 7) (hc : (d.pl p).cur = some k)
    (ho : ((d.pl p).gen k).sent = true) (hm : d.member p ∉ ((d.pl p).gen k).commit)
    (hn : (insNat (d.member p) ((d.pl p).gen k).commit).length ≠ 8) :
    d.readyRecord p k step h = (d.holdReady p k h).ownCommit p k := by
  have hcur : ((d.holdReady p k h).pl p).cur = some k := by simp [Dev.pl_holdReady, hc]
  have hmember : (d.holdReady p k h).member p = d.member p := rfl
  rw [Dev.readyRecord_of_current hh hv hs, Dev.commitIfReady_of_ready hcur (by rwa [Dev.gen_holdReady]) (by rwa [Dev.gen_holdReady])
    (by rwa [Dev.gen_holdReady, hmember]), Dev.countIfCommitted_of_short (by rwa [Dev.gen_ownCommit, Dev.gen_holdReady, hmember])]

theorem Dev.commitRecord_of_short (hc : (insNat h ((d.pl p).gen k).commit).length ≠ 8) :
    d.commitRecord p k step h = d.holdCommit p k h := by
  rw [Dev.commitRecord_of_current hh hv hs, Dev.countIfCommitted_of_short (by rwa [Dev.gen_holdCommit])]

/-- The eighth `COMMIT`. -/
theorem Dev.commitRecord_of_last (hc : (insNat h ((d.pl p).gen k).commit).length = 8) (hcur : (d.pl p).cur = some k)
    (hn : ((d.pl p).gen k).counted = false) :
    (d.commitRecord p k step h).pl p = ((d.holdCommit p k h).pl p).count k ∧
    (d.commitRecord p k step h).reg (plReg p + 0x88) = BitVec.ofNat 64 (d.now - (d.pl p).cutAt) ∧
    ∀ a, ¬ d.inSlot p k a → (d.commitRecord p k step h).byte a = d.byte a := by
  have hpl := d.pl_holdCommit p k h
  have hcut : ((d.holdCommit p k h).pl p).cutAt = (d.pl p).cutAt := by simp [hpl]
  rw [Dev.commitRecord_of_current hh hv hs, ← hcut]
  exact Dev.countIfCommitted_of_eight (by simpa [hpl] using hcur) (by simpa [hpl] using hn) (by simpa [hpl] using hc)

end

end Sys2Proof.Machine
end

section
/-! SUPPORT. Cuts (08 R226, R229 to R231): when a step cuts, and the generation that the cut begins. -/

namespace Sys2Proof.Machine

/-- The commit of step `n` calls for a cut (08 R226, R229). -/
def Dev.cutDue (d : Dev) (p n : Nat) : Prop :=
  (d.fld (plReg p + 0x28) 0 16 ≠ 0 ∧ n % d.fld (plReg p + 0x28) 0 16 = 0) ∨ (d.fence (d.cutFence p)).value = n ∨ (d.pl p).owed = true

variable {d : Dev} {p n : Nat}

theorem Dev.cutSlot_of_kept {j : Nat} (h : d.keptSlot p = some j) : d.cutSlot p = 1 - j := by rw [Dev.cutSlot, h]

theorem Dev.cutSlot_lt (d : Dev) (p : Nat) : d.cutSlot p < 2 := by
  unfold Dev.cutSlot
  dsimp only
  split
  · omega
  · split
    · decide
    · split
      · decide
      · split <;> decide

/-! ### The evaluation of a step -/

/-- The triggers of step `n` have been looked at. -/
def Dev.evaluated (d : Dev) (p n : Nat) : Dev := d.setPl p { d.pl p with evaluated := some n }

theorem Dev.pl_evaluated (d : Dev) (p n : Nat) : (d.evaluated p n).pl p = { d.pl p with evaluated := some n } := by
  rw [Dev.evaluated, Dev.pl_setPl, if_pos rfl]

/-- The cut that step `n` calls for is owed, and counted as such (08 R229). -/
def Dev.deferred (d : Dev) (p n : Nat) : Dev :=
  ((d.evaluated p n).setPl p { (d.evaluated p n).pl p with owed := true }).bump (plReg p + 0x68) 1

theorem Dev.pl_deferred (d : Dev) (p n : Nat) : (d.deferred p n).pl p = { d.pl p with evaluated := some n, owed := true } := by
  change ((d.evaluated p n).setPl p _).pl p = _
  rw [Dev.pl_setPl, if_pos rfl, Dev.pl_evaluated]

theorem Dev.cutSlot_evaluated (d : Dev) (p n : Nat) : (d.evaluated p n).cutSlot p = d.cutSlot p := by
  unfold Dev.cutSlot Dev.keptSlot Dev.keptStep
  rw [d.pl_evaluated p n]
  rfl

theorem Dev.evaluateCut_of_disarmed (ha : (d.pl p).armed = false) (n : Nat) : d.evaluateCut p n = d := if_pos (by simp [ha])

section
variable (ha : (d.pl p).armed = true)
include ha

theorem Dev.evaluateCut_of_notDue (hd : ¬ d.cutDue p n) : d.evaluateCut p n = d.evaluated p n :=
  (if_neg (by simp [ha])).trans (if_pos (by rw [Bool.not_eq_true', decide_eq_false_iff_not]; exact hd))

variable (hd : d.cutDue p n)
include hd

theorem Dev.evaluateCut_of_busy (hb : (d.pl p).cur ≠ none ∨ (d.pl p).op ≠ none) : d.evaluateCut p n = d.deferred p n :=
  (if_neg (by simp [ha])).trans ((if_neg (by rw [Bool.not_eq_true', decide_eq_false_iff_not]; exact not_not_intro hd)).trans
    (if_pos (by simpa [Option.isSome_iff_ne_none] using hb)))

theorem Dev.evaluateCut_of_free (hc : (d.pl p).cur = none) (ho : (d.pl p).op = none) :
    d.evaluateCut p n = (d.evaluated p n).cut p n :=
  (if_neg (by simp [ha])).trans ((if_neg (by rw [Bool.not_eq_true', decide_eq_false_iff_not]; exact not_not_intro hd)).trans
    (if_neg (by simp [hc, ho])))

end

/-! ### The cut -/

/-- The generation that a cut at step `n` begins (08 R230). -/
def Dev.newGen (d : Dev) (p n : Nat) : Gen :=
  { Gen.reset with step := n, valid := true, cuts := (d.reg (plReg p + 0x60) + 1).toNat }

/-- The partition with the new generation in its slot. -/
def Dev.cutPart (d : Dev) (p n : Nat) : PlPart :=
  { (d.pl p).setGen (d.cutSlot p) (d.newGen p n) with
    cur := some (d.cutSlot p), taken := [], stripes := [], owed := false, msStep := 0, cutAt := d.now }

/-- Counted, and with the new generation: the holdings area is as it was. -/
def Dev.cutBegun (d : Dev) (p n : Nat) : Dev := (d.bump (plReg p + 0x60) 1).setPl p (d.cutPart p n)

theorem Dev.cut_eq (d : Dev) (p n : Nat) :
    d.cut p n = (((d.cutBegun p n).writeSlot p (d.cutSlot p)).clearBitmap p).readyIfDone p := by
  unfold Dev.cut Dev.cutBegun Dev.cutPart Dev.newGen
  dsimp only
  rw [Dev.reg_bump, if_pos rfl]
  rfl

/-- With a row to copy the new generation waits for its rows. -/
theorem Dev.readyIfDone_of_rowsLeft {k : Nat} (hc : (d.pl p).cur = some k) (ht : (d.pl p).taken.length < (d.pl p).rows) :
    d.readyIfDone p = d := by
  unfold Dev.readyIfDone
  dsimp only
  rw [hc]
  exact if_neg fun h => absurd h.1 (by omega)

theorem Dev.pl_cutBegun (d : Dev) (p n : Nat) : (d.cutBegun p n).pl p = d.cutPart p n := by
  rw [Dev.cutBegun, Dev.pl_setPl, if_pos rfl]

theorem Dev.reg_cutBegun (d : Dev) (p n x : Nat) :
    (d.cutBegun p n).reg x = if x = plReg p + 0x60 then d.reg (plReg p + 0x60) + 1 else d.reg x :=
  d.reg_bump (plReg p + 0x60) 1 x

theorem Dev.holdings_cutBegun (d : Dev) (p n : Nat) :
    (d.cutBegun p n).holdBase p = d.holdBase p ∧ (d.cutBegun p n).section_ p = d.section_ p := by
  simp [Dev.holdBase, Dev.section_, Dev.fld, Dev.reg_cutBegun]

/-- What a cut writes: its slot's record with the copy, and the row bitmap (08 R230, Table 08-2). -/
theorem Dev.wrote_cutBegun (d : Dev) (p n : Nat) :
    (d.cutBegun p n).Wrote (fun a => d.inSlot p (d.cutSlot p) a ∨ d.inBitmap p a)
      (((d.cutBegun p n).writeSlot p (d.cutSlot p)).clearBitmap p) := by
  obtain ⟨hbase, hsection⟩ := d.holdings_cutBegun p n
  exact ((Dev.Wrote.refl _ _).writeSlot fun _ ha => .inl (by rwa [Dev.inSlot, hbase] at ha)).clearBitmap
    fun _ ha => .inr (by rwa [Dev.inBitmap, hbase, hsection] at ha)

theorem Dev.cut_of_rows (hr : 0 < (d.pl p).rows) (n : Nat) :
    d.cut p n = ((d.cutBegun p n).writeSlot p (d.cutSlot p)).clearBitmap p := by
  have hpl := ((d.wrote_cutBegun p n).pl p).trans (d.pl_cutBegun p n)
  have hrows : (d.cutPart p n).rows = (d.pl p).rows := by simp [PlPart.rows, PlPart.units, Dev.cutPart]
  rw [Dev.cut_eq, Dev.readyIfDone_of_rowsLeft (by rw [hpl]; rfl) (by rw [hpl, hrows]; exact hr)]

/-! ### What no cut changes -/

/-- The last step evaluated, and the generation kept after a restore. -/
def PlPart.marks (x : PlPart) : Option Nat × Option Nat := (x.evaluated, x.kept)

theorem PlPart.marks_setGen (x : PlPart) (k : Nat) (g : Gen) : (x.setGen k g).marks = x.marks := by simp [PlPart.marks]

theorem PlPart.marks_unsent (x : PlPart) : x.unsent.marks = x.marks := rfl

theorem Dev.marks_commitIfReady (d : Dev) (p k : Nat) : ((d.commitIfReady p k).pl p).marks = (d.pl p).marks := by
  by_cases hr : (d.pl p).cur = some k ∧ ((d.pl p).gen k).sent = true ∧ ((d.pl p).gen k).ready.length = 7 ∧
      d.member p ∉ ((d.pl p).gen k).commit
  · obtain ⟨hc, hs, hl, hm⟩ := hr
    rw [Dev.commitIfReady_of_ready hc hs hl hm, ← PlPart.marks_unsent, Dev.unsent_ownCommit, PlPart.marks_unsent, Dev.pl_holdCommit,
      PlPart.marks_setGen]
  · exact congrArg (fun e : Dev => (e.pl p).marks) (if_neg (by simpa using hr))

theorem Dev.marks_countIfCommitted (d : Dev) (p k : Nat) : ((d.countIfCommitted p k).pl p).marks = (d.pl p).marks := by
  by_cases hr : (d.pl p).cur = some k ∧ ((d.pl p).gen k).counted = false ∧ ((d.pl p).gen k).commit.length = 8
  · obtain ⟨hc, hn, h8⟩ := hr
    rw [(Dev.countIfCommitted_of_eight hc hn h8).1]
    exact PlPart.marks_setGen ..
  · exact congrArg (fun e : Dev => (e.pl p).marks) (if_neg (by simpa using hr))

theorem Dev.marks_readyIfDone (d : Dev) (p : Nat) : ((d.readyIfDone p).pl p).marks = (d.pl p).marks := by
  unfold Dev.readyIfDone
  dsimp only
  split
  · rfl
  · split
    · rw [Dev.marks_countIfCommitted, Dev.marks_commitIfReady, ← PlPart.marks_unsent, Dev.unsent_sendRecords, PlPart.marks_unsent,
        Dev.pl_setPl, if_pos rfl, PlPart.marks_setGen]
    · rfl

theorem Dev.marks_cut (d : Dev) (p n : Nat) : ((d.cut p n).pl p).marks = (d.pl p).marks := by
  rw [Dev.cut_eq, Dev.marks_readyIfDone, (d.wrote_cutBegun p n).pl, Dev.pl_cutBegun]
  exact PlPart.marks_setGen ..

theorem Dev.marks_evaluateCut (ha : (d.pl p).armed = true) (n : Nat) :
    ((d.evaluateCut p n).pl p).marks = (some n, (d.pl p).kept) := by
  have hmarks : ((d.evaluated p n).pl p).marks = (some n, (d.pl p).kept) := by
    rw [Dev.pl_evaluated]
    rfl
  by_cases hd : d.cutDue p n
  · by_cases hb : (d.pl p).cur ≠ none ∨ (d.pl p).op ≠ none
    · rw [Dev.evaluateCut_of_busy ha hd hb, Dev.pl_deferred]
      rfl
    · obtain ⟨hc, ho⟩ := not_or.1 hb
      rw [Dev.evaluateCut_of_free ha hd (not_not.1 hc) (not_not.1 ho), Dev.marks_cut, hmarks]
  · rw [Dev.evaluateCut_of_notDue ha hd, hmarks]

end Sys2Proof.Machine
end

section
/-! SUPPORT. Arming, disarming and the stepping time (08 R221, R222, R227, R253). -/

namespace Sys2Proof.Machine

theorem exec_arm (p : Nat) (s : State) : exec (.arm p) s = s.after fun d => d.plArm p 1 := rfl

theorem exec_disarm (p : Nat) (s : State) : exec (.disarm p) s = s.after fun d => d.plArm p 0 := rfl

theorem exec_pleachDue (p : Nat) (s : State) : exec (.pleachDue p) s = s.after fun d => d.pleachDue p := rfl

variable {d : Dev} {p : Nat}

/-! ### Arming -/

/-- The partition may arm: not armed, Pleach enabled, in a group and with a slice (08 R221). -/
structure Dev.mayArm (d : Dev) (p : Nat) : Prop where
  write : d.takesWrite (plReg p)
  disarmed : (d.pl p).armed = false
  enabled : d.fld 0x2C000 0 1 = 1
  group : d.groupOk p = true
  slice : d.sliceValid p = true

/-- Entries of the source list. -/
def Dev.listCount (d : Dev) (p : Nat) : Nat := d.fld (plReg p + 0x20) 0 13

/-- The source list as Pleach reads it. -/
def Dev.readList (d : Dev) (p : Nat) : Res (List Byte) :=
  d.read (engineReq p (d.fld (plReg p + 0x18) 41 12)) (d.fld (plReg p + 0x18) 0 41) (32 * d.listCount p)

/-- The partition armed with the ranges of its source list. -/
def Dev.armedWith (d : Dev) (p : Nat) (rs : List SrcRange) : Dev :=
  ((d.setPl p { d.pl p with armed := true, srcs := rs, prevCut := none, msStep := 0, owed := false }).setFld (plReg p) 0 1 1).setReg
    (plReg p + 0x90) 0

theorem Dev.armedWith_reads (d : Dev) (p : Nat) (rs : List SrcRange) :
    ((d.armedWith p rs).pl p).armed = true ∧ ((d.armedWith p rs).pl p).srcs = rs ∧ (d.armedWith p rs).fld (plReg p) 0 1 = 1 ∧
      (d.armedWith p rs).reg (plReg p + 0x90) = 0 ∧ (d.armedWith p rs).mem = d.mem := by
  have hpl : (d.armedWith p rs).pl p = { d.pl p with armed := true, srcs := rs, prevCut := none, msStep := 0, owed := false } := by
    change (d.setPl p { d.pl p with armed := true, srcs := rs, prevCut := none, msStep := 0, owed := false }).pl p = _
    rw [Dev.pl_setPl, if_pos rfl]
  refine ⟨by rw [hpl], by rw [hpl], ?_, (Dev.reg_setReg ..).trans (if_pos rfl), rfl⟩
  rw [Dev.fld, Dev.armedWith, Dev.reg_setReg_ne _ _ (by omega)]
  exact Dev.fld_setFld _ (by decide)

/-- What the entries of a list that was read come to. -/
def Dev.armFrom (d : Dev) (p : Nat) : List SrcRange ⊕ Nat → Dev
  | .inr i => d.record 0 0x0B01 .context p (some p) i
  | .inl rs => if 7 * d.section_ p < (rs.map SrcRange.units).foldl (· + ·) 0 then d else d.armedWith p rs

theorem Dev.armFrom_of_fits {rs : List SrcRange} (h : (rs.map SrcRange.units).foldl (· + ·) 0 ≤ 7 * d.section_ p) :
    d.armFrom p (.inl rs) = d.armedWith p rs := if_neg (Nat.not_lt.2 h)

theorem Dev.plArm_of_mayArm (h : d.mayArm p) : d.plArm p 1 = (d.readList p).elim
    (fun e bs => e.armFrom p (srcRanges 0 (chunksOf 32 (d.listCount p) bs))) fun e _ => e.record 0 0x0B01 .context p (some p) 0 := by
  have hadmit : ¬ ((d.pl p).armed ∨ d.fld 0x2C000 0 1 = 0 ∨ !d.groupOk p ∨ !d.sliceValid p) := by
    simp [h.disarmed, h.enabled, h.group, h.slice]
  have harm : d.plArm p 1 = d.arm p := (d.onWrite_of_takesWrite h.write ..).trans (if_pos rfl)
  rw [harm, Dev.arm, if_neg hadmit]
  unfold Dev.readList Dev.listCount
  cases d.read (engineReq p (d.fld (plReg p + 0x18) 41 12)) (d.fld (plReg p + 0x18) 0 41) (32 * d.fld (plReg p + 0x20) 0 13) with
  | fail e w => rfl
  | ok e bs =>
    dsimp only [Res.elim]
    cases srcRanges 0 (chunksOf 32 (d.fld (plReg p + 0x20) 0 13) bs) with
    | inr i => rfl
    | inl rs => rfl

/-! ### Disarming -/

theorem Dev.plArm_of_armed (ht : d.takesWrite (plReg p)) (ha : (d.pl p).armed = true) : d.plArm p 0 = d.disarm p :=
  (d.onWrite_of_takesWrite ht ..).trans ((if_neg (by decide)).trans (if_pos ha))

theorem Dev.pl_disarm (d : Dev) (p : Nat) :
    (d.disarm p).pl p = { d.pl p with cur := none, stripes := [], armed := false, owed := false } := by
  change ((d.abandonGen p).setPl p _).pl p = _
  rw [Dev.pl_setPl, if_pos rfl, Dev.abandonGen, Dev.pl_setPl, if_pos rfl]

/-! ### The stepping time -/

/-- `DUE` falls due (08 R227). -/
def Dev.stepsDue (d : Dev) (p : Nat) : Prop :=
  d.on = true ∧ (d.pl p).armed = true ∧ d.fld (plReg p + 0x28) 16 16 ≠ 0 ∧ d.fld (plReg p + 0x28) 16 16 ≤ (d.pl p).msStep ∧
    d.fld (plReg p + 0x40) 3 1 = 0

theorem Dev.pleachDue_of_notDue (h : ¬ d.stepsDue p) : d.pleachDue p = d := if_neg h

theorem Dev.pleachDue_of_due (h : d.stepsDue p) : d.pleachDue p = (d.setFld (plReg p + 0x40) 3 1 1).raisePart p 2 := if_pos h

end Sys2Proof.Machine
end

section
/-! SUPPORT. A restore whose units have all arrived, on a device whose table of Pleach partitions lists one partition twice. -/

namespace Sys2Proof.Machine

theorem exec_restore (r : Nat) (l : List Nat) (n : Nat) (b : Bool) (s : State) :
    exec (.restore r l n b) s = s.after fun d => d.restoreRow r l n b := rfl

/-- A restore of step 3 of partition 0 from ring 0, every unit arrived. -/
def arrivedOp : PlOp :=
  { ring := 0, seq := 0, slot := 0, step := 3, left := [], fence := 0, fval := 0, lost := none, rebuild := false }

/-- Partition 0, as after reset but for that restore, is listed a second time behind its entry: not the canonical form of a table, but
nothing that the statement excludes. -/
def twiceListed : Dev :=
  { Dev.reset with
    power := { Power.reset with st := .full, resetNote := none }
    ctxs := [(0, { Ctx.reset with st := .stopped })]
    pleach := [(0, { PlPart.reset with op := some arrivedOp }), (0, PlPart.reset)] }

theorem twiceListed_restoring : twiceListed.quiet = true ∧ (twiceListed.pl 0).op = some arrivedOp ∧ twiceListed.servingIn 0 = true ∧
    twiceListed.ctxOpen 0 = true ∧ (twiceListed.ctx 0).st = .stopped := by decide +kernel

/-- The end of the restore replaces the first entry; the second stays. -/
theorem twiceListed_restoreRow : (twiceListed.restoreRow 0 [] 0 false).settle.pleach.length = 2 := by decide +kernel

/-- Partition `p` after restore `o`, set first to its state without the restore and then to the state in which its generation is
kept: what the statement gives. -/
def Dev.setTwice (d : Dev) (p : Nat) (o : PlOp) : Dev :=
  let x := { d.pl p with op := none }
  (((d.setPl p x).setPl p { x with kept := some o.step }).zeroRetained p).battenRestored p o.step

/-- The state without the restore is the one after reset, so setting it takes both entries out. -/
theorem twiceListed_setTwice :
    ((twiceListed.setTwice (ringPart 0) arrivedOp).pleachOk (ringPart 0) 0 arrivedOp.seq arrivedOp.fence arrivedOp.fval
      ).settle.pleach.length = 1 := by decide +kernel

end Sys2Proof.Machine
end

section
/-! PROOFS of the statements about Pleach's checkpoints and recovery (08). -/

namespace Sys2Proof

open Sys2Proof.Machine

/-- Settles O39: the parity holds the lost unit once and every other unit, which the restore takes in a second time. -/
theorem parityRebuilds : Obligations.ParityRebuilds := by
  unfold Obligations.ParityRebuilds
  intro us j u hlen hj
  have hrest : ∀ x ∈ us.eraseIdx j, x.length = (List.replicate 4096 (0 : Byte)).length := fun x hx => by
    rw [hlen x (List.mem_of_mem_eraseIdx hx), List.length_replicate]
  have hu : u.length = 4096 := hlen u (List.mem_of_getElem? hj)
  calc (us.eraseIdx j).foldl xorBytes (parity us)
      = xorBytes ((us.eraseIdx j).foldl xorBytes (parity (us.eraseIdx j))) u := by
        rw [parity_eq_of_getElem? hj, foldl_xorBytes_xorBytes]
    _ = xorBytes (List.replicate 4096 0) u := by rw [parity, foldl_foldl_xorBytes hrest]
    _ = u := by rw [← hu, replicate_xorBytes]

/-- Settles O37: how the source list reads decides what ARM does; DISARM and the stepping time are one update each. -/
theorem pleachArms : Obligations.PleachArms := by
  unfold Obligations.PleachArms
  intro p s hq hp d n list
  refine ⟨fun ht ha he hg hs => ?arm, fun ht ha => ?disarm, ?due⟩
  case arm =>
    have may : d.mayArm p := ⟨ht, ha, he, hg, hs⟩
    have harm (r : Res (List Byte)) (hr : d.readList p = r) : d.plArm p 1 = r.elim
        (fun e bs => e.armFrom p (srcRanges 0 (chunksOf 32 n bs))) fun e _ => e.record 0 0x0B01 .context p (some p) 0 :=
      hr ▸ Dev.plArm_of_mayArm may
    refine ⟨fun e bs i hr hi => exec_of_effect (exec_arm p s) ?_, fun e w hr => exec_of_effect (exec_arm p s) (harm _ hr),
      fun e bs rs hr hs hfit => ⟨e.armedWith p rs, exec_of_effect (exec_arm p s) ?_, e.armedWith_reads p rs⟩⟩
    · exact (harm _ hr).trans (congrArg (e.armFrom p) hi)
    · exact (harm _ hr).trans ((congrArg (e.armFrom p) hs).trans (Dev.armFrom_of_fits hfit))
  case disarm =>
    refine ⟨_, exec_of_quiet (exec_disarm p s) (Dev.plArm_of_armed ht ha) hq rfl rfl rfl rfl, ?_⟩
    rw [show (d.disarm p).pl p = _ from d.pl_disarm p]
    exact ⟨rfl, rfl, rfl, rfl, rfl, Dev.fld_setFld _ (by decide), rfl⟩
  case due =>
    refine ⟨fun hd => exec_of_idle hq (exec_pleachDue p s) (Dev.pleachDue_of_notDue hd), fun hd => ⟨_, exec_of_quiet
      (exec_pleachDue p s) (Dev.pleachDue_of_due hd) hq (by simp) (by simp) (by simp) (by simp), ?_, fun o ho => ?_⟩⟩
    · rw [Dev.fld, Dev.reg_raisePart]
      exact Dev.fld_setFld _ (by decide)
    · rw [Dev.reg_raisePart, Dev.reg_setFld_ne _ _ _ _ ho]

/-- Settles O40: what a record of the slot's step adds, whether it completes READY or COMMIT, and what a step's triggers call for. -/
theorem generationCounts : Obligations.GenerationCounts := by
  unfold Obligations.GenerationCounts
  intro p k step h s hq hp hk hh hpeer d x g outside
  have quiet {f : Dev → Dev} {i : Instr} {y : PlPart} (key : exec i s = s.after f) (e : f d = d.setPl p y) :
      exec i s = .next (s.withDev (d.setPl p y)) := exec_of_quiet key e hq rfl rfl rfl rfl
  refine ⟨fun ha => ?disarmed, fun hserve ha => ⟨fun hg => ?stale, fun hv hs => ⟨fun hr hc => ?ready, fun hc => ?commit,
    fun hr hcur hsent hm hc => ?commits, fun hc hcur hn => ?counts⟩⟩, fun n => ?cut, fun j hj => Dev.cutSlot_of_kept hj⟩
  case disarmed =>
    obtain ⟨hready, hcommit⟩ := Dev.records_of_disarmed ha k step h
    exact ⟨exec_of_idle hq (exec_readyRecord p k step h s) hready, exec_of_idle hq (exec_commitRecord p k step h s) hcommit⟩
  case stale =>
    have recorded {f : Dev → Dev} {i : Instr} (key : exec i s = s.after f) (e : f d = d.record 1 0x0B04 .context p (some p) step) :
        exec i s = .next (s.withDev (d.record 1 0x0B04 .context p (some p) step)) :=
      exec_of_quiet key e hq (by simp [d]) (by simp [d]) (by simp [d]) (by simp [d])
    obtain ⟨hready, hcommit⟩ := Dev.records_of_stale ⟨hserve, ha, hk, hh, hpeer⟩ hg
    exact ⟨recorded (exec_readyRecord p k step h s) hready, recorded (exec_commitRecord p k step h s) hcommit⟩
  case ready =>
    exact quiet (exec_readyRecord p k step h s)
      (Dev.readyRecord_of_short ⟨hserve, ha, hk, hh, hpeer⟩ hv hs (Nat.ne_of_lt hr) (Nat.ne_of_lt hc))
  case commit =>
    exact quiet (exec_commitRecord p k step h s)
      (Dev.commitRecord_of_short ⟨hserve, ha, hk, hh, hpeer⟩ hv hs (Nat.ne_of_lt hc))
  case commits =>
    intro e f
    have hown : e.ownCommit p k = (f.writeHeld p (512 + ((k * 8 + d.member p) * 2 + 1) * 128)
        (recordBytes step k (d.member p) 1)).sendRecords p k 1 := by
      rw [Dev.ownCommit, Dev.holdCommit, show (e.pl p).gen k = _ from d.gen_holdReady p k h, ← hs]
      rfl
    have hlast := Dev.readyRecord_of_last ⟨hserve, ha, hk, hh, hpeer⟩ hv hs hr hcur hsent hm (Nat.ne_of_lt hc)
    exact exec_of_effect (exec_readyRecord p k step h s) (hlast.trans hown)
  case counts =>
    obtain ⟨hpl, htime, hbyte⟩ := Dev.commitRecord_of_last ⟨hserve, ha, hk, hh, hpeer⟩ hv hs hc hcur hn
    refine ⟨_, exec_of_effect (exec_commitRecord p k step h s) rfl, ?_, ?_, ?_, htime,
      fun a hout => hbyte a ((d.not_inSlot_iff p k a).2 hout)⟩
    · rw [hpl, PlPart.gen_count, Dev.gen_holdCommit]
    · rw [hpl]
      rfl
    · rw [hpl, PlPart.count, Dev.pl_holdCommit]
      simp [x]
  case cut =>
    intro due e
    refine ⟨fun ha => Dev.evaluateCut_of_disarmed ha n, fun ha => ?_⟩
    obtain ⟨heval, hkept⟩ := Prod.ext_iff.1 (Dev.marks_evaluateCut ha n)
    refine ⟨heval, hkept, fun hd => Dev.evaluateCut_of_notDue ha hd, fun hd hb => ?busy, fun hd hc ho hr => ?free⟩
    case busy =>
      have he : e = d.deferred p n := Dev.evaluateCut_of_busy ha hd hb
      rw [he, Dev.pl_deferred]
      refine ⟨rfl, rfl, rfl, rfl, ?_, rfl⟩
      exact (Dev.reg_bump ..).trans (if_pos rfl)
    case free =>
      have hrows : 0 < ((d.evaluated p n).pl p).rows := by rwa [Dev.pl_evaluated]
      have he : e = _ := (Dev.evaluateCut_of_free ha hd hc ho).trans (Dev.cut_of_rows hrows n)
      have hwrote := (d.evaluated p n).wrote_cutBegun p n
      rw [← he, Dev.cutSlot_evaluated] at hwrote
      have hpl : e.pl p = (d.evaluated p n).cutPart p n := (hwrote.pl p).trans (Dev.pl_cutBegun ..)
      rw [hpl, Dev.cutPart, Dev.cutSlot_evaluated, Dev.pl_evaluated]
      refine ⟨rfl, PlPart.gen_setGen .., PlPart.gen_setGen_other (Dev.cutSlot_lt d p) .., rfl, rfl, rfl, ?_, fun a hslot hmap => ?_⟩
      · rw [hwrote.reg _ (uncounted_plReg p (by decide)), Dev.reg_cutBegun, if_pos rfl]
        rfl
      · have hin : ¬ d.inBitmap p a := fun hin => hmap.elim (Nat.not_lt.2 hin.1) (Nat.not_le.2 hin.2)
        exact hwrote.byte a (not_or.2 ⟨(d.not_inSlot_iff p _ a).2 hslot, hin⟩)

/-- Refutes O41: a restore that ends well sets its partition once, the last clause sets it twice, first to the state without the
restore. Where that state is the one after reset, the partition leaves the table in between, and with it the second entry of a table
that lists the partition twice, which the machine leaves. -/
theorem not_pleachDescriptors : ¬ Obligations.PleachDescriptors := by
  intro h
  obtain ⟨hq, hop, hserve, hopen, hstop⟩ := twiceListed_restoring
  obtain ⟨-, hunderWay⟩ := h 0 [] { State.reset with dev := twiceListed } hq
  have hclaim : exec (.restore 0 [] 0 false) { State.reset with dev := twiceListed } = .next (State.withDev _
      ((twiceListed.setTwice (ringPart 0) arrivedOp).pleachOk (ringPart 0) 0 arrivedOp.seq arrivedOp.fence arrivedOp.fval).settle) :=
    (hunderWay arrivedOp hop rfl hserve hopen).1 hstop rfl rfl
  have hdev := congrArg (fun d : Dev => d.pleach.length) (settle_eq_of_after ((exec_restore 0 [] 0 false _).symm.trans hclaim))
  exact absurd ((twiceListed_restoreRow.symm.trans hdev).trans twiceListed_setTwice) (by decide)

end Sys2Proof
end

section
/-! SUPPORT. Replay runs (09 R263 to R266): what becomes of a replay whose run ends, and what a run that holds its outputs leaves of
the device. -/

namespace Sys2Proof.Machine

theorem exec_pickReplayEnd (l : Nat) (w : RunFault) (s : State) :
    exec (.pickReplayEnd l w) s = s.after fun d => d.replayEnd l w := rfl

/-! ### The runs ended so far -/

theorem agree_passed (v : BitVec 64) : agree (.passed v) (.passed v) = true := decide_eq_true rfl

theorem agree_refusedAt (o st : Nat) : agree (.refusedAt o st) (.refusedAt o st) = true := by simp [agree]

theorem majority_one (x : Run) : majority [x] = none := rfl

theorem majority_two_of_agree {b x : Run} (h : agree b.fin x.fin = true) : majority [b, x] = some b := by
  simp [majority, h]

theorem majority_two_of_differ {b x : Run} (h : agree b.fin x.fin = false) : majority [b, x] = none := by
  simp [majority, h]

theorem majority_three_of_differ {b c x : Run} (hbc : agree b.fin c.fin = false) (hbx : agree b.fin x.fin = false)
    (hcx : agree c.fin x.fin = false) : majority [b, c, x] = none := by
  simp [majority, hbc, hbx, hcx]

/-! ### A run begins -/

@[simp] theorem Dev.tiles_sendGet (d : Dev) (k l n op : Nat) (x : OpDesc) (a b c : Nat) :
    (d.sendGet k l n op x a b c).tiles = d.tiles := by
  simp [Dev.sendGet]

@[simp] theorem Dev.tiles_sendGets (d : Dev) (k l n op : Nat) (x : OpDesc) (u : Nat) : (d.sendGets k l n op x u).tiles = d.tiles :=
  foldl_keeps Dev.tiles (fun _ _ => Dev.tiles_sendGet ..) _ d

@[simp] theorem Dev.tiles_runGets (d : Dev) (k l n : Nat) (ps : List Piece) : (d.runGets k l n ps).tiles = d.tiles :=
  foldl_keeps Dev.tiles (fun _ _ => foldl_keeps Dev.tiles (fun _ _ => by split <;> simp) _ _) _ d

theorem Dev.lt_congr {a b : Dev} (h : a.tiles = b.tiles) (l : Nat) : a.lt l = b.lt l := by rw [Dev.lt, h, Dev.lt]

/-- A run that begins joins those under way. -/
theorem Dev.replay_startRun (d : Dev) (k l : Nat) (r : Replay) (t : Nat) :
    ((d.startRun k l r t).lt l).replay = some { r with on := r.on ++ [(t, ((d.lt l).serial + 1) % 2 ^ 16)] } := by
  rw [Dev.startRun, Dev.lt_congr (Dev.tiles_runGets ..), Dev.lt_setLt, if_pos rfl]

/-! ### After a run -/

/-- Tile `l` holds replay `r`. -/
def Dev.withReplay (d : Dev) (l : Nat) (r : Replay) : Dev := d.setLt l { d.lt l with replay := some r }

/-- The replay once the run under way the longest has ended as `x`; `on` are the others under way. -/
def Replay.ended (r : Replay) (x : Run) (on : List (Nat × Nat)) : Replay := { r with runs := r.runs ++ [x], on := on }

section
variable (d : Dev) (k l : Nat) {r : Replay} (y : Slot) (t : Nat)

theorem Dev.afterRun_of_passed {b : Run} {v : BitVec 64} (hm : majority r.runs = some b) (hb : b.fin = .passed v) :
    d.afterRun k l r y t = d.replayCommit k l r y b := by
  simp only [Dev.afterRun, hm, hb]

theorem Dev.afterRun_of_refused {b : Run} {op st : Nat} (hm : majority r.runs = some b) (hb : b.fin = .refusedAt op st) :
    d.afterRun k l r y t = some (d.replayFailed l r st op) := by
  simp only [Dev.afterRun, hm, hb]

variable (hm : majority r.runs = none)
include hm

theorem Dev.afterRun_of_underWay (ho : r.on ≠ []) : d.afterRun k l r y t = some d := by
  simp [Dev.afterRun, hm, ho]

/-- With fewer than three runs ended and none under way a further run begins. -/
theorem Dev.afterRun_of_open (ho : r.on = []) (hn : r.runs.length < 3) :
    ∃ f q v m, d.afterRun k l r y t = some f ∧ (f.lt l).replay = some q ∧ q.runs = r.runs ∧ q.on = [(v, m)] := by
  refine ⟨_, _, _, _, ?_, Dev.replay_startRun (d.nextRunTile r.first t).1 k l r (d.nextRunTile r.first t).2, rfl, by rw [ho]; rfl⟩
  simp [Dev.afterRun, hm, ho, hn]

theorem Dev.afterRun_of_three (ho : r.on = []) (hn : 3 ≤ r.runs.length) : d.afterRun k l r y t = some (d.unresolved k l r) := by
  simp [Dev.afterRun, hm, ho, Nat.not_lt.2 hn]

end

/-! ### The row -/

theorem Dev.undoAside_of_none {d : Dev} {l : Nat} (h : (d.lt l).undo = none) : d.undoAside l = d := by
  simp only [Dev.undoAside, h]

theorem Dev.replayEnd_of_none {d : Dev} {l : Nat} (h : (d.lt l).replay = none) (w : RunFault) : d.replayEnd l w = d := by
  simp only [Dev.replayEnd, h]

/-- Tile `l` replays the pick of slot `y`, whose context is open and served and whose dispatch is in progress; no in-place line is
still to be restored, and the run under way the longest is run `n` on tile `t`, before those of `ts`. -/
structure Dev.Replaying (d : Dev) (l : Nat) (r : Replay) (y : Slot) (t n : Nat) (ts : List (Nat × Nat)) : Prop where
  replay : (d.lt l).replay = some r
  slot : (d.lt l).slots[r.pick.slot]? = some y
  on : r.on = (t, n) :: ts
  undo : (d.lt l).undo = none
  serving : d.servingIn (ctxPart y.ctx) = true
  opened : (d.ctx y.ctx).st = .opened
  inDispatch : d.inDispatch y = true

namespace Dev.Replaying

variable {d : Dev} {l : Nat} {r : Replay} {y : Slot} {t n : Nat} {ts : List (Nat × Nat)} (h : d.Replaying l r y t n ts)
include h

theorem replayEnd_eq (w : RunFault) : d.replayEnd l w = (d.endRun l r y w).getD d := by
  simp [Dev.replayEnd, h.replay, h.slot, h.serving, h.opened, h.inDispatch, Dev.undoAside_of_none h.undo, h.undo]

theorem endRun_of_awaits (ha : d.awaitsGet y.ctx l n = true) (w : RunFault) : d.endRun l r y w = none := by
  simp only [Dev.endRun, h.on, ha, if_true]

theorem endRun_of_ran {w : RunFault} {e : Dev} {x : Run} (ha : d.awaitsGet y.ctx l n = false)
    (hx : d.replayRun y.ctx l r t n w = some (e, x)) :
    d.endRun l r y w = (e.withReplay l (r.ended x ts)).afterRun y.ctx l (r.ended x ts) y t := by
  simp only [Dev.endRun, h.on, ha, hx, Option.bind_some, Bool.false_eq_true, if_false]
  rfl

end Dev.Replaying

/-! ### Outputs held -/

theorem URes.bind_eq_ok {α β : Type} {r : URes α} {f : Dev → α → URes β} {e : Dev} {y : β} (h : r.bind f = .ok e y) :
    ∃ d x, r = .ok d x ∧ f d x = .ok e y := by
  cases r with
  | ok d x => exact ⟨d, x, rfl, h⟩
  | fail => cases h
  | hold => cases h

theorem Res.unit_eq_ok {α : Type} {r : Res α} {e : Dev} {x : α} (h : r.unit = .ok e x) : r = .ok e x := by
  cases r with
  | ok => cases h; rfl
  | fail d w => cases w <;> cases h

theorem Dev.grantWrite_eq_ok {d e : Dev} {q : Req} {ls : List Nat} {u : Unit} (h : d.grantWrite q ls = .ok e u) : e = d := by
  unfold Dev.grantWrite at h
  split at h <;> cases h
  rfl

/-! Reads touch no tile. -/

theorem Dev.tiles_meetLine (d : Dev) (n l c k : Nat) (f : LineFound) (p : Bool) : (d.meetLine n l c k f p).1.tiles = d.tiles := by
  have hbad (m : Option LineMeta) (e : Bool) : (((d.setLatent l .good).setLine l m).badLine n l c k e p).tiles = d.tiles := by
    unfold Dev.badLine
    dsimp only
    split <;> simp [Dev.setLatent]
  cases f with
  | good => rfl
  | corrected b => simp [Dev.meetLine, Dev.setLatent]
  | retried => simp [Dev.meetLine, Dev.setLatent]
  | badEcc => exact hbad _ true
  | badMac =>
    unfold Dev.meetLine
    dsimp only
    split
    · rfl
    · exact hbad _ false

theorem Dev.tiles_checkLine (d : Dev) (n l c k : Nat) : (d.checkLine n l c k).1.tiles = d.tiles := by
  unfold Dev.checkLine Dev.badLine
  dsimp only
  split
  · split <;> simp
  · exact Dev.tiles_meetLine ..

theorem Dev.tiles_readLine (d : Dev) (q : Req) (l : Nat) : (d.readLine q l).dev.tiles = d.tiles := by
  unfold Dev.readLine
  split
  · rfl
  · next n _ =>
    have h : ((d.touch l).checkLine n l q.ctx q.key).1.tiles = d.tiles := Dev.tiles_checkLine ..
    split <;> next he => rwa [he] at h

theorem Dev.tiles_readLines (q : Req) (ls : List Nat) : ∀ d : Dev, (d.readLines q ls).dev.tiles = d.tiles := by
  induction ls with
  | nil => exact fun _ => rfl
  | cons l ls ih =>
    intro d
    have h := d.tiles_readLine q l
    unfold Dev.readLines
    split
    · next he => rw [he] at h; exact (ih _).trans h
    · next he => rw [he] at h; exact h

/-- `e` is `d` as far as a run on tile `l` that holds its outputs may change it: memory and every other tile stand, and its own
store. -/
structure Dev.HeldBack (d e : Dev) (l : Nat) : Prop where
  mem : e.mem = d.mem
  store : (e.lt l).store = (d.lt l).store
  others : ∀ m, m ≠ l → e.lt m = d.lt m

theorem Dev.heldBack_hold (d : Dev) (l : Nat) (o : Held) : d.HeldBack (d.hold l o) l where
  mem := (d.modPickOf_rest l _).1
  store := d.modPickOf_store l _ l
  others m hm := by rw [Dev.hold, Dev.modPickOf, Dev.lt_setLt, if_neg hm]

theorem Dev.heldBack_holdLine {d e : Dev} {l : Nat} {q : Req} {a : Nat} {bs : List Byte} {u : Unit}
    (h : d.holdLine l q a bs = .ok e u) : d.HeldBack e l := by
  unfold Dev.holdLine at h
  obtain ⟨c, _, hgrant, hrest⟩ := URes.bind_eq_ok h
  obtain ⟨f, _, hread, hheld⟩ := URes.bind_eq_ok hrest
  obtain rfl := Dev.grantWrite_eq_ok (Res.unit_eq_ok hgrant)
  have hread := Res.unit_eq_ok hread
  have htiles : f.tiles = c.tiles := 
    (congrArg (fun r => r.dev.tiles) hread).symm.trans (Dev.tiles_readLines q (partLines a bs.length) c)
  obtain ⟨hmem, hstore, hothers⟩ := f.heldBack_hold l (.line q.key a bs)
  cases hheld
  exact ⟨hmem.trans ((c.mem_readLines q _).1 _ _ hread), by rw [hstore, Dev.lt_congr htiles],
    fun m hm => by rw [hothers m hm, Dev.lt_congr htiles]⟩

/-- A write of a replay run outside its own store is held (R263 item 6). -/
theorem Dev.heldBack_writeAt {d e : Dev} {k l t a : Nat} {o : Opnd} {bs : List Byte} {u : Unit} (hh : d.holds l = true)
    (ho : o.loc ≠ 1) (ht : t ≠ l) (h : d.writeAt k l t o a bs = .ok e u) : d.HeldBack e l := by
  rw [Dev.writeAt, if_neg ho, if_pos hh] at h
  split at h
  · split at h
    · rw [Dev.otherWrite, if_pos ⟨hh, ht⟩] at h
      split at h <;> cases h
      exact d.heldBack_hold l _
    · cases h
  · exact Dev.heldBack_holdLine h

/-- A message of a replay run is held. -/
theorem Dev.tileSend_of_holds {d : Dev} {l : Nat} (hh : d.holds l = true) (k : Nat) (x : OpDesc) (w : Draft) :
    (d.tileSend k l x w).shuttle = d.shuttle ∧ (d.tileSend k l x w).used = d.used := by
  rw [Dev.tileSend, if_pos hh]
  exact ⟨rfl, rfl⟩

end Sys2Proof.Machine
end

section
/-! SUPPORT. The replacement of a tile at a pick boundary (03 R78 to R80, 09 R266, R273). -/

namespace Sys2Proof.Machine

theorem exec_tileReplace (t : Nat) (b : Bool) (s : State) : exec (.tileReplace t b) s = s.after fun d => d.replaceTile t b := rfl

variable (d : Dev)

@[simp] theorem Dev.physOf_setMap (l : Nat) (t : Option Nat) (m : Nat) :
    (d.setMap l t).physOf m = if m = l then t else d.physOf m := by
  simp [Dev.physOf, Dev.setMap, Sparse.get_set]

@[simp] theorem Dev.lt_setMap (l : Nat) (t : Option Nat) (m : Nat) : (d.setMap l t).lt m = d.lt m := rfl

@[simp] theorem Dev.physOf_setLt (l : Nat) (x : LTile) (m : Nat) : (d.setLt l x).physOf m = d.physOf m := rfl

theorem Dev.lt_restState_ne {l m : Nat} (h : m ≠ l) : (d.restState l).lt m = d.lt m := by
  unfold Dev.restState
  dsimp only
  rw [Dev.lt_showState]
  split
  · split
    · rfl
    · exact (Dev.lt_setLt ..).trans (if_neg h)
  · split
    · exact (Dev.lt_setLt ..).trans (if_neg h)
    · rfl

/-- A tile that is freed leaves the logical tiles and where they run. -/
theorem Dev.freed_logical (t : Nat) :
    (d.freed t).tiles.logical = d.tiles.logical ∧ (d.freed t).tiles.map = d.tiles.map := by
  unfold Dev.freed Dev.beginTest
  (repeat' split) <;> exact ⟨rfl, rfl⟩

@[simp] theorem Dev.lt_freed (t m : Nat) : (d.freed t).lt m = d.lt m := by rw [Dev.lt, (d.freed_logical t).1, Dev.lt]

@[simp] theorem Dev.physOf_freed (t m : Nat) : (d.freed t).physOf m = d.physOf m := by
  rw [Dev.physOf, (d.freed_logical t).2, Dev.physOf]

/-- Logical tile `l` has gone from tile `t` to spare `n`, and the replacement is counted. -/
def Dev.takenOver (l t n : Nat) : Dev :=
  (((d.setMap l (some n)).bump (0x20128 + 0x40 * tilePart d.parts l) 1).restState l).freed t

variable {d} {t l : Nat} (hl : d.logicalOf t = some l)
include hl

/-- Within a pick or a replay, or when it is not leaving, a tile stays. -/
theorem Dev.replaceTile_of_staying (h : d.leavingFor t = 0 ∨ (d.lt l).pick ≠ none ∨ (d.lt l).replay ≠ none) (b : Bool) :
    d.replaceTile t b = d := by
  rw [← Option.isSome_iff_ne_none, ← Option.isSome_iff_ne_none] at h
  unfold Dev.replaceTile
  rw [hl]
  exact if_pos h

/-- So it does when the spare goes to another need first. -/
theorem Dev.replaceTile_of_taken {n : Nat} (hn : d.spareFor t = some n) (hs : d.takesSpare t n = false) (b : Bool) :
    d.replaceTile t b = d := by
  unfold Dev.replaceTile
  rw [hl, hn]
  dsimp only
  rw [hs]
  exact ite_self d

variable (hv : d.leavingFor t ≠ 0) (hp : (d.lt l).pick = none) (hr : (d.lt l).replay = none)
include hv hp hr

theorem Dev.replaceTile_of_spare {n : Nat} (hn : d.spareFor t = some n) (hs : d.takesSpare t n = true) :
    d.replaceTile t true = d.takenOver l t n := by
  unfold Dev.replaceTile
  rw [hl]
  dsimp only
  rw [if_neg (by simp [hv, hp, hr]), hn]
  dsimp only
  rw [hs]
  rfl

omit hv in
/-- The parts of an unbacked tile fail, and its store is zero. -/
theorem Dev.replaceTile_of_unbacked (h2 : d.leavingFor t = 2) (hn : d.spareFor t = none) (b : Bool) :
    d.replaceTile t b =
      (fun e : Dev => (e.setLt l (e.lt l).zeroed).freed t) (((d.setMap l none).failSlots l 0x55).failQueue l 0x55) := by
  unfold Dev.replaceTile
  rw [hl]
  dsimp only
  rw [if_neg (by simp [h2, hp, hr]), hn]
  exact if_pos h2

end Sys2Proof.Machine
end

section
/-! SUPPORT. What a replaced tile's device reads as: its logical tile on the spare, or unbacked (03 R79, R80). -/

namespace Sys2Proof.Machine

variable (d : Dev)

/-- A tile taken over or freed makes nothing due. -/
theorem exec_of_rehomed {s : State} {i : Instr} {f : Dev → Dev} {e : Dev} (hq : s.dev.quiet = true) (key : exec i s = s.after f)
    (he : f s.dev = e) (hr : s.dev.Rehomed e) : exec i s = .next (s.withDev e) := by
  unfold Dev.Rehomed at hr
  exact exec_of_quiet key he hq (by rw [hr]) (by rw [hr]) (by rw [hr]) (by rw [hr])

theorem Dev.Rehomed.mem {d e : Dev} (h : d.Rehomed e) : e.mem = d.mem := by
  unfold Dev.Rehomed at h
  rw [h]

theorem Dev.rehomed_takenOver (l t n : Nat) : d.Rehomed (d.takenOver l t n) :=
  .trans (.trans (d.rehomed_setMap l _) (Dev.rehomed_bump _ _ _)) (.trans (Dev.rehomed_restState _ l) (Dev.rehomed_freed _ t))

theorem Dev.physOf_takenOver (l t n m : Nat) : (d.takenOver l t n).physOf m = if m = l then some n else d.physOf m := by
  rw [Dev.takenOver, Dev.physOf_freed, Dev.physOf_restState]
  exact d.physOf_setMap l (some n) m

/-- Of the logical tile itself only the start of a wait may change. -/
theorem Dev.lt_takenOver (l t n : Nat) :
    (d.takenOver l t n).lt l = { d.lt l with waitFrom := ((d.takenOver l t n).lt l).waitFrom } := by
  have hback : ((d.setMap l (some n)).bump (0x20128 + 0x40 * tilePart d.parts l) 1).lt l = d.lt l := rfl
  have hrest := ((d.setMap l (some n)).bump (0x20128 + 0x40 * tilePart d.parts l) 1).lt_restState l l
  rw [hback] at hrest
  rw [Dev.takenOver, Dev.lt_freed]
  exact hrest

theorem Dev.lt_takenOver_ne {l m : Nat} (h : m ≠ l) (t n : Nat) : (d.takenOver l t n).lt m = d.lt m := by
  rw [Dev.takenOver, Dev.lt_freed, Dev.lt_restState_ne _ h]
  rfl

theorem Dev.reg_congr {a b : Dev} (h : a.regs = b.regs) (o : Nat) : a.reg o = b.reg o := by rw [Dev.reg, h, Dev.reg]

/-- The replacement is counted for the partition of the logical tile. -/
theorem Dev.reg_takenOver (l t n : Nat) : (d.takenOver l t n).reg (0x20128 + 0x40 * tilePart d.parts l) =
    d.reg (0x20128 + 0x40 * tilePart d.parts l) + 1 := by
  rw [Dev.takenOver, Dev.reg_congr (Dev.regs_freed _ t), Dev.reg_restState _ _ _ (by omega), Dev.reg_bump, if_pos rfl]
  rfl

/-- With no part in a slot nothing fails, and no dispatch completes. -/
theorem Dev.failSlots_of_idle {d : Dev} {l : Nat} (hs : (d.lt l).slots = [])
    (ho : ∀ y ∈ d.dispatches, ∃ p ∈ y.parts, p.out.isOver = false) (st : Nat) :
    d.failSlots l st = d.setLt l { d.lt l with slots := [], pick := none } := by
  rw [Dev.failSlots, hs]
  exact Dev.settleDispatches_of_open _ ho

/-- Nor with none that waits for a slot. -/
theorem Dev.failParts_of_idle {d : Dev} {l : Nat} (hs : (d.lt l).slots = []) (hq : (d.lt l).queue = [])
    (ho : ∀ y ∈ d.dispatches, ∃ p ∈ y.parts, p.out.isOver = false) (st : Nat) :
    (d.failSlots l st).failQueue l st = (d.setLt l { d.lt l with slots := [], pick := none }).setLt l
      { d.lt l with slots := [], pick := none, queue := [] } := by
  rw [Dev.failSlots_of_idle hs ho, Dev.failQueue, Dev.lt_setLt, if_pos rfl]
  dsimp only
  rw [hq]
  exact Dev.settleDispatches_of_open _ ho

/-- Logical tile `l`, which has no part, without the tile `t` that carried it. -/
def Dev.unbacked (l t : Nat) : Dev :=
  let x := { d.lt l with slots := [], pick := none, queue := [] }
  ((((d.setMap l none).setLt l { d.lt l with slots := [], pick := none }).setLt l x).setLt l x.zeroed).freed t

theorem Dev.rehomed_setLt (l : Nat) (x : LTile) : d.Rehomed (d.setLt l x) := rfl

theorem Dev.rehomed_unbacked (l t : Nat) : d.Rehomed (d.unbacked l t) :=
  .trans (d.rehomed_setMap l none) (.trans (Dev.rehomed_setLt _ l _) (.trans (Dev.rehomed_setLt _ l _)
    (.trans (Dev.rehomed_setLt _ l _) (Dev.rehomed_freed _ t))))

theorem Dev.physOf_unbacked (l t : Nat) : (d.unbacked l t).physOf l = none := by
  simp only [Dev.unbacked, Dev.physOf_freed, Dev.physOf_setLt, Dev.physOf_setMap, if_true]

theorem Dev.lt_unbacked (l t : Nat) :
    (d.unbacked l t).lt l = { d.lt l with slots := [], pick := none, queue := [] }.zeroed := by
  rw [Dev.unbacked, Dev.lt_freed]
  exact (Dev.lt_setLt ..).trans (if_pos rfl)

theorem Dev.replaceTile_of_idle {d : Dev} {t l : Nat} (hl : d.logicalOf t = some l) (hp : (d.lt l).pick = none)
    (hr : (d.lt l).replay = none) (h2 : d.leavingFor t = 2) (hn : d.spareFor t = none) (hs : (d.lt l).slots = [])
    (hq : (d.lt l).queue = []) (ho : ∀ y ∈ d.dispatches, ∃ p ∈ y.parts, p.out.isOver = false) (b : Bool) :
    d.replaceTile t b = d.unbacked l t := by
  have hparts := Dev.failParts_of_idle (d := d.setMap l none) hs hq ho 0x55
  rw [Dev.replaceTile_of_unbacked hl hp hr h2 hn, hparts]
  dsimp only
  rw [Dev.lt_setLt, if_pos rfl]
  rfl

end Sys2Proof.Machine
end

section
/-! Replay of a suspect pick and the replacement of its tile (09 R263 to R266, 03 R79, R80). -/

namespace Sys2Proof

open Sys2Proof.Machine

/-- Settles O29: what follows a run's end is what the majority of the runs says, and a tile is taken over by its spare or unbacked. -/
theorem replayAndReplacement : Obligations.ReplayAndReplacement := by
  unfold Obligations.ReplayAndReplacement
  refine ⟨fun l s w hq => ?runs, fun d e k l t a o bs u hh ho ht hw => ?held, fun d k l x w hh => Dev.tileSend_of_holds hh k x w,
    fun t l readable s hq hl => ?tiles⟩
  case held =>
    obtain ⟨hmem, hstore, hothers⟩ := Dev.heldBack_writeAt hh ho ht hw
    exact ⟨hmem, hstore, hothers⟩
  case runs =>
    have hexec := exec_pickReplayEnd l w s
    refine ⟨fun hr => exec_of_idle hq hexec (Dev.replayEnd_of_none hr w), fun r y t n ts hr hy hon hu hserve hopen hdisp => ?_⟩
    have hrun : s.dev.Replaying l r y t n ts := ⟨hr, hy, hon, hu, hserve, hopen, hdisp⟩
    refine ⟨fun ha => exec_of_idle hq hexec (by rw [hrun.replayEnd_eq, hrun.endRun_of_awaits ha]; rfl), fun e x ha hx => ?_⟩
    have hafter := (hrun.replayEnd_eq w).trans (congrArg (·.getD s.dev) (hrun.endRun_of_ran ha hx))
    have settles {f : Dev} (hf : (e.withReplay l (r.ended x ts)).afterRun y.ctx l (r.ended x ts) y t = some f) :
        exec (.pickReplayEnd l w) s = .next (s.withDev f.settle) :=
      exec_of_effect hexec (hafter.trans (congrArg (·.getD s.dev) hf))
    have hruns {bs : List Run} (hb : r.runs = bs) : (r.ended x ts).runs = bs ++ [x] := congrArg (· ++ [x]) hb
    refine ⟨fun hfirst hmore => ?underWay, fun b v hb hbv hxv => ?agreed, fun b o st hb hbs hxs => ?refused,
      fun hlast hfew => ?further, fun b c hbc hlast hdiff hbx hcx => ?unresolved⟩
    case underWay =>
      exact settles (Dev.afterRun_of_underWay _ _ _ _ _ ((hruns hfirst).symm ▸ majority_one x) hmore)
    case agreed =>
      have hm : majority (r.ended x ts).runs = some b := by
        rw [hruns hb]
        exact majority_two_of_agree (by rw [hbv, hxv, agree_passed])
      have hcommit := Dev.afterRun_of_passed (e.withReplay l (r.ended x ts)) y.ctx l y t hm hbv
      exact ⟨fun h hh => settles (hcommit.trans hh),
        fun hnone => exec_of_idle hq hexec (hafter.trans (congrArg (·.getD s.dev) (hcommit.trans hnone)))⟩
    case refused =>
      have hm : majority (r.ended x ts).runs = some b := by
        rw [hruns hb]
        exact majority_two_of_agree (by rw [hbs, hxs, agree_refusedAt])
      exact settles (Dev.afterRun_of_refused _ _ _ _ _ hm hbs)
    case further =>
      have hm : majority (r.ended x ts).runs = none ∧ (r.ended x ts).runs.length < 3 := by
        rcases hfew with h | ⟨b, h, hbx⟩
        · rw [hruns h]
          exact ⟨majority_one x, Nat.lt_of_sub_eq_succ rfl⟩
        · rw [hruns h]
          exact ⟨majority_two_of_differ hbx, Nat.lt_of_sub_eq_succ rfl⟩
      obtain ⟨f, q, v, m, hf, hreplay, hq, hon⟩ :=
        Dev.afterRun_of_open (e.withReplay l (r.ended x ts)) y.ctx l y t hm.1 hlast hm.2
      exact ⟨f, q, v, m, settles hf, hreplay, hq, hon⟩
    case unresolved =>
      have hthree := hruns hbc
      exact settles (Dev.afterRun_of_three _ _ _ _ _ (hthree ▸ majority_three_of_differ hdiff hbx hcx) hlast
        (hthree ▸ Nat.le_refl 3))
  case tiles =>
    have hexec := exec_tileReplace t readable s
    refine ⟨fun hstay => exec_of_idle hq hexec (Dev.replaceTile_of_staying hl hstay readable),
      fun n hn hs => exec_of_idle hq hexec (Dev.replaceTile_of_taken hl hn hs readable), fun n hv hp hr hn hs => ?spare,
      fun h2 hp hr hn hslots hqueue ho => ?unbacked⟩
    case spare =>
      have hrest := s.dev.rehomed_takenOver l t n
      have hlt := s.dev.lt_takenOver l t n
      refine ⟨s.withDev (s.dev.takenOver l t n), exec_of_rehomed hq (exec_tileReplace t true s) (Dev.replaceTile_of_spare hl hv hp hr hn hs) hrest,
        ?_, ?_, ?_, ?_, ?_, ?_, hrest.mem, s.dev.reg_takenOver l t n, fun m hm => ⟨?_, s.dev.lt_takenOver_ne hm t n⟩⟩
      · exact (s.dev.physOf_takenOver l t n l).trans (if_pos rfl)
      · exact (congrArg LTile.store hlt :)
      · exact (congrArg LTile.sets hlt :)
      · exact (congrArg LTile.base hlt :)
      · exact (congrArg LTile.step hlt :)
      · exact (congrArg LTile.slots hlt :)
      · exact (s.dev.physOf_takenOver l t n m).trans (if_neg hm)
    case unbacked =>
      have hrest := s.dev.rehomed_unbacked l t
      have hlt := s.dev.lt_unbacked l t
      refine ⟨s.withDev (s.dev.unbacked l t), exec_of_rehomed hq hexec (Dev.replaceTile_of_idle hl hp hr h2 hn hslots hqueue ho readable) hrest,
        s.dev.physOf_unbacked l t, ?_, ?_, hrest.mem⟩
      · exact (congrArg LTile.store hlt :)
      · exact (congrArg LTile.sets hlt :)

end Sys2Proof
end

section
/-! SUPPORT. Units of Coppice: their records read back, what a fencing changes of the device, and what it leaves (09 R275 to R277). -/

namespace Sys2Proof.Machine

variable (d : Dev)

@[simp] theorem Dev.unit_setUnit (u : UnitType) (i : Nat) (r : UnitRec) : (d.setUnit u i r).unit u i = r := by
  simp [Dev.unit, Dev.setUnit]

theorem Dev.unit_congr {a b : Dev} (h : a.units = b.units) (u : UnitType) (i : Nat) : a.unit u i = b.unit u i := by
  rw [Dev.unit, h, Dev.unit]

theorem Dev.fenced_congr {a b : Dev} (h : a.units = b.units) (u : UnitType) (i : Nat) : a.fenced u i = b.fenced u i := by
  simp only [Dev.fenced, Dev.wholeFenced, Dev.stackFenced, Dev.portFenced, Dev.unit_congr h]

/-- What an entry of the log leaves of the device, for the units. -/
theorem Dev.Noted.rest {d e : Dev} (h : d.Noted e) :
    e.units = d.units ∧ e.tiles = d.tiles ∧ e.mem = d.mem ∧ e.fences = d.fences ∧ e.rings = d.rings := by
  unfold Dev.Noted at h
  rw [h]
  exact ⟨rfl, rfl, rfl, rfl, rfl⟩

/-! ### The record of a fencing -/

/-- The record of a unit fenced for `reason` at time `now` (R275, R277). -/
def UnitRec.fencedFor (r : UnitRec) (reason now : Nat) : UnitRec :=
  { r with fenced := true, reason := reason, fencings := r.fencings + 1, passes := 0, lastTest := now, testing := false,
           permanent := decide (3 ≤ r.fencings + 1) }

theorem Dev.noted_checkMinimum (up : Bool) (u : UnitType) (i : Nat) : d.Noted (d.checkMinimum up u i) :=
  .ite (d.noted_record ..) rfl

theorem Dev.noted_lifeWrite (t : Nat) (bs : List Byte) : d.Noted (d.lifeWrite t bs) := rfl

theorem Dev.reg_checkMinimum (up : Bool) (u : UnitType) (i x : Nat) : (d.checkMinimum up u i).reg x = d.reg x := by
  unfold Dev.checkMinimum
  split
  · exact Dev.reg_record_none ..
  · rfl

section
variable {u : UnitType} {i : Nat} (h : (d.unit u i).fenced = false) (reason : Nat)
include h

/-- Beyond the unit's record a fencing is noted in the logs alone. -/
theorem Dev.noted_markFenced : (d.setUnit u i ((d.unit u i).fencedFor reason d.now)).Noted (d.markFenced u i reason) := by
  unfold Dev.markFenced
  dsimp only
  rw [if_neg (by simp [h])]
  exact .trans (Dev.noted_record ..) (.trans (.ite (Dev.noted_lifeWrite ..) (.refl _)) (Dev.noted_checkMinimum ..))

theorem Dev.reg_markFenced {x : Nat} (hx : x % 0x80 ≠ 0x28 ∧ x % 0x80 ≠ 0x30 ∧ x % 0x80 ≠ 0x38) :
    (d.markFenced u i reason).reg x = d.reg x := by
  have hrecord := Dev.reg_record (d.setUnit u i ((d.unit u i).fencedFor reason d.now)) 2 0x0310 u i
    ((d.setUnit u i ((d.unit u i).fencedFor reason d.now)).unitPart u i) reason x (counters_ne hx)
  unfold Dev.markFenced
  dsimp only
  rw [if_neg (by simp [h]), Dev.reg_checkMinimum]
  split <;> exact hrecord

end

/-! ### Samples that lose their audio -/

theorem Dev.reg_notePacker (p : Nat) {x : Nat} (hx : x < 0x18000) : (d.notePacker p).reg x = d.reg x := by
  unfold Dev.notePacker
  split
  · rfl
  · next t _ _ =>
    exact (d.reg_bump (wfReg p + 0x48) (d.now - t) x).trans (if_neg (by unfold wfReg; omega))
  · rfl

theorem Dev.reg_endSample (p n : Nat) (y : Sample) (c : Nat) {x : Nat} (hx : x < 0x18000) :
    (d.endSample p n y c).reg x = d.reg x := by
  unfold Dev.endSample
  split
  · rfl
  · unfold Dev.weftAdvance
    split
    · rfl
    · exact Dev.reg_notePacker _ p hx

/-- What no sample's end changes, the loss of a partition's last audio engine does not. -/
theorem Dev.keeps_audioLost {β : Type} (g : Dev → β) (hg : ∀ (d : Dev) p n x c, g (d.endSample p n x c) = g d) (p : Nat) :
    g (d.audioLost p) = g d := by
  unfold Dev.audioLost
  split
  · rfl
  · split
    · rfl
    · refine foldl_keeps g (fun d x => ?_) _ d
      dsimp only
      split
      · rfl
      · split
        · rfl
        · exact hg ..

/-! ### Decode engines -/

/-- `e` is `d` after decode engine `u` `i` was fenced for `reason`. -/
structure Dev.EngineFenced (d e : Dev) (u : UnitType) (i reason : Nat) : Prop where
  unit : e.unit u i = (d.unit u i).fencedFor reason d.now
  tiles : e.tiles = d.tiles
  reg : ∀ x, x < 0x18000 → x % 0x80 ≠ 0x28 ∧ x % 0x80 ≠ 0x30 ∧ x % 0x80 ≠ 0x38 → e.reg x = d.reg x
  video : u = .videoEngine → e.tiles = d.tiles ∧ e.mem = d.mem ∧ e.fences = d.fences ∧ e.rings = d.rings

theorem Dev.fenced_engine {u : UnitType} (hu : u = .videoEngine ∨ u = .audioEngine) (i : Nat) : d.fenced u i = (d.unit u i).fenced := by
  rcases hu with rfl | rfl <;> exact Bool.or_false _

theorem Dev.engineFenced_markFenced {u : UnitType} {i : Nat} (h : (d.unit u i).fenced = false) (reason : Nat) :
    d.EngineFenced (d.markFenced u i reason) u i reason := by
  obtain ⟨hunits, hrest⟩ := (d.noted_markFenced h reason).rest
  exact ⟨(Dev.unit_congr hunits u i).trans (d.unit_setUnit u i _), hrest.1, fun x _ hx => d.reg_markFenced h reason hx, fun _ => hrest⟩

theorem Dev.engineFenced_fenceUnit {u : UnitType} (hu : u = .videoEngine ∨ u = .audioEngine) {i : Nat} (h : d.fenced u i = false)
    (reason : Nat) : d.EngineFenced (d.fenceUnit u i reason) u i reason := by
  have hmark := d.engineFenced_markFenced ((d.fenced_engine hu i).symm.trans h) reason
  rcases hu with rfl | rfl
  · rwa [show d.fenceUnit .videoEngine i reason = d.markFenced .videoEngine i reason from if_neg (by simp [h])]
  · obtain ⟨hunit, htiles, hreg, -⟩ := hmark
    rw [show d.fenceUnit .audioEngine i reason = (d.markFenced .audioEngine i reason).audioLost (i / (4 / d.parts)) from
      if_neg (by simp [h])]
    refine ⟨?_, ?_, fun x hlt hx => ?_, fun hv => nomatch hv⟩
    · rw [Dev.unit_congr (Dev.keeps_audioLost _ Dev.units (by simp) _), hunit]
    · rw [Dev.keeps_audioLost _ Dev.tiles (by simp), htiles]
    · rw [Dev.keeps_audioLost _ (fun d => d.reg x) (fun _ _ _ _ _ => Dev.reg_endSample _ _ _ _ _ hlt), hreg x hlt hx]

end Sys2Proof.Machine
end

section
/-! SUPPORT. Error signals (09 R275, R279): which are ignored, and what an error and a broken pair set off. -/

namespace Sys2Proof.Machine

theorem exec_errorSignal (u : UnitType) (i : Nat) (e : PairReading) (s : State) :
    exec (.errorSignal u i e) s = s.after fun d => d.errorSignal u i e := rfl

variable {d : Dev} {u : UnitType} {i : Nat} {e : PairReading}

theorem Dev.errorSignal_of_ignored (h : d.hearsSource u i = false ∨ pairState e.first ≠ pairState e.second ∨
    (pairState e.first = .quiet ∧ pairState e.second = .quiet)) : d.errorSignal u i e = d := by
  unfold Dev.errorSignal
  split
  · rfl
  · next hn =>
    have hquiet := (h.resolve_left fun hf => hn (.inl (by simp [hf]))).resolve_left fun hd => hn (.inr hd)
    rw [hquiet.1]

section
variable (hh : d.hearsSource u i = true)
include hh

theorem Dev.fenced_of_hearsSource : d.fenced u i = false := by
  simp only [Dev.hearsSource, Bool.and_eq_true, Bool.not_eq_true'] at hh
  exact hh.2

theorem Dev.errorSignal_of_error (h : pairState e.first = .error ∧ pairState e.second = .error) :
    d.errorSignal u i e = d.classify u i e.cause := by
  simp [Dev.errorSignal, hh, h]

theorem Dev.errorSignal_of_broken (h : pairState e.first = .broken ∧ pairState e.second = .broken) :
    d.errorSignal u i e = (d.bump 0x8088 1).fenceUnit u i 3 := by
  simp [Dev.errorSignal, hh, h, Dev.pairBroken]

end

/-- Corrected errors of the hour with one more. -/
def Dev.correctedNow (d : Dev) (u : UnitType) (i : Nat) : Nat := if (d.unit u i).hour = d.hour then (d.unit u i).corrected + 1 else 1

/-- Up to the 16th of an hour a corrected error is recorded and counted. -/
theorem Dev.classify_corrected (line : Nat) (hn : d.correctedNow u i ≤ 16) :
    d.classify u i (.corrected line) = (d.record 1 0x0304 u i (d.unitPart u i) line).setUnit u i
      { d.unit u i with hour := d.hour, corrected := d.correctedNow u i } := by
  have hunit : (d.record 1 0x0304 u i (d.unitPart u i) line).unit u i = d.unit u i := Dev.unit_congr (by simp) u i
  have hhour : (d.record 1 0x0304 u i (d.unitPart u i) line).hour = d.hour := by simp [Dev.hour, Dev.now]
  unfold Dev.classify Dev.countCorrected
  dsimp only
  rw [hunit, hhour]
  exact if_neg (Nat.not_lt.2 hn)

end Sys2Proof.Machine
end

section
/-! SUPPORT. In-field tests (09 R272 to R274): starting, passing and failing, and what follows when one is overdue. -/

namespace Sys2Proof.Machine

theorem exec_inFieldTestStart (u : UnitType) (i : Nat) (s : State) :
    exec (.inFieldTestStart u i) s = s.after fun d => d.testStart u i := rfl
theorem exec_inFieldTestEnd (u : UnitType) (i : Nat) (ok : Bool) (s : State) :
    exec (.inFieldTestEnd u i ok) s = s.after fun d => d.testEnd u i ok := rfl
theorem exec_iftOverdue (u : UnitType) (i : Nat) (s : State) : exec (.iftOverdue u i) s = s.after fun d => d.testOverdue u i := rfl

@[simp] theorem Dev.tileState_setTileState (d : Dev) (t c : Nat) : (d.setTileState t c).tileState t = c := by
  simp [Dev.tileState]

theorem Dev.logicalOf_congr {a b : Dev} (h : a.tiles = b.tiles) (t : Nat) : a.logicalOf t = b.logicalOf t := by
  have hphys : a.physOf = b.physOf := funext fun l => by rw [Dev.physOf, h, Dev.physOf]
  rw [Dev.logicalOf, hphys, Dev.logicalOf]

/-! ### Start -/

section
variable {d : Dev} {u : UnitType} {i : Nat}

theorem Dev.testStart_of_idle (h : d.testsOn = false ∨ d.fenced u i = true ∨ (d.unit u i).testing = true ∨
    d.testDue u i = false ∨ d.mayTest u i = false) : d.testStart u i = d :=
  if_pos (by simpa using h)

/-- The unit marked as under test. -/
def Dev.inTest (d : Dev) (u : UnitType) (i : Nat) : Dev := d.setUnit u i { d.unit u i with testing := true }

theorem Dev.testStart_of_due (h1 : d.testsOn = true) (h2 : d.fenced u i = false) (h3 : (d.unit u i).testing = false)
    (h4 : d.testDue u i = true) (h5 : d.mayTest u i = true) :
    d.testStart u i = if u = .tile then (d.inTest u i).setTileState i 5 else d.inTest u i :=
  if_neg (by simp [h1, h2, h3, h4, h5])

end

/-! ### End -/

/-- With no fault armed a test ends as it does. -/
theorem Dev.testVerdict_of_disarmed {d : Dev} (h : d.fld 0x8060 63 1 = 0) (u : UnitType) (i : Nat) (ok : Bool) :
    d.testVerdict u i ok = (d, ok) := by
  simp [Dev.testVerdict, Dev.armedFor, h]

section
variable {d : Dev} {u : UnitType} {i : Nat}

theorem Dev.testEnd_of_idle (h : d.on = false ∨ (d.unit u i).testing = false) (ok : Bool) : d.testEnd u i ok = d :=
  if_pos (by simpa using h)

/-- The record of a unit whose test ended at `now`. -/
def UnitRec.tested (r : UnitRec) (now : Nat) : UnitRec := { r with testing := false, lastTest := now, overdue := false }

/-- The unit stamped, and its test counted. -/
def Dev.stamped (d : Dev) (u : UnitType) (i : Nat) : Dev := (d.setUnit u i ((d.unit u i).tested d.now)).bump 0x8068 1

theorem Dev.unit_stamped : (d.stamped u i).unit u i = (d.unit u i).tested d.now := d.unit_setUnit u i _

theorem Dev.reg_stamped : (d.stamped u i).reg 0x8068 = d.reg 0x8068 + 1 := by
  rw [Dev.stamped, Dev.reg_bump, if_pos rfl]
  rfl

section
variable (hon : d.on = true) (ht : (d.unit u i).testing = true) (hd : d.fld 0x8060 63 1 = 0)
include hon ht hd

theorem Dev.testEnd_of_passed :
    d.testEnd u i true = if u = .tile then (d.stamped u i).testPassed i else d.stamped u i := by
  unfold Dev.testEnd
  dsimp only
  rw [if_neg (by simp [hon, ht]), Dev.testVerdict_of_disarmed hd]
  rfl

theorem Dev.testEnd_of_failed (hu : u ≠ .tile) :
    d.testEnd u i false = ((d.stamped u i).bump 0x8078 1).fenceUnit u i 1 := by
  unfold Dev.testEnd
  dsimp only
  rw [if_neg (by simp [hon, ht]), Dev.testVerdict_of_disarmed hd]
  exact if_neg hu

end

theorem Dev.unit_failed : ((d.stamped u i).bump 0x8078 1).unit u i = (d.unit u i).tested d.now :=
  (Dev.unit_congr (b := d.stamped u i) rfl u i).trans Dev.unit_stamped

/-- An engine that fails a test is fenced for reason 1, its test and its failure counted. -/
theorem Dev.engineFenced_failed (hu : u = .videoEngine ∨ u = .audioEngine) (hf : d.fenced u i = false) :
    ((d.stamped u i).bump 0x8078 1).EngineFenced (((d.stamped u i).bump 0x8078 1).fenceUnit u i 1) u i 1 := by
  refine Dev.engineFenced_fenceUnit _ hu ?_ 1
  rw [Dev.fenced_engine _ hu] at hf ⊢
  rw [Dev.unit_failed]
  exact hf

theorem Dev.reg_failed : ((d.stamped u i).bump 0x8078 1).reg 0x8068 = d.reg 0x8068 + 1 ∧
    ((d.stamped u i).bump 0x8078 1).reg 0x8078 = d.reg 0x8078 + 1 := by
  constructor
  · rw [Dev.reg_bump, if_neg (by decide), Dev.reg_stamped]
  · rw [Dev.reg_bump, if_pos rfl, Dev.stamped, Dev.reg_bump, if_neg (by decide)]
    rfl

/-- A tile that has passed goes on, its record, memory and the count of tests standing; without a logical tile it is a spare. -/
theorem Dev.testPassed_rest (d : Dev) (t : Nat) :
    (d.testPassed t).units = d.units ∧ (d.testPassed t).mem = d.mem ∧ (d.testPassed t).reg 0x8068 = d.reg 0x8068 := by
  unfold Dev.testPassed
  split
  · refine ⟨?_, ?_, ?_⟩
    · split <;> simp
    · split <;> simp
    · rw [Dev.reg_restState _ _ _ (by omega)]
      split <;> rfl
  · split
    · exact ⟨rfl, rfl, (d.reg_bump 0x8070 1 0x8068).trans (if_neg (by decide))⟩
    · exact ⟨rfl, rfl, rfl⟩

theorem Dev.tileState_testPassed {t : Nat} (h : d.logicalOf t = none) : (d.testPassed t).tileState t = 6 := by
  unfold Dev.testPassed
  rw [h]
  exact Dev.tileState_setTileState ..

end

/-! ### Overdue -/

section
variable {d : Dev} {u : UnitType} {i : Nat}

/-- A unit in service whose test has been due for 10 minutes. -/
structure Dev.Overdue (d : Dev) (u : UnitType) (i : Nat) : Prop where
  testsOn : d.testsOn = true
  unfenced : d.fenced u i = false
  idle : (d.unit u i).testing = false
  late : (d.unit u i).lastTest + testPeriod + testGrace ≤ d.now

theorem Dev.Overdue.begins (h : d.Overdue u i) : ¬ (!d.testsOn ∨ d.fenced u i ∨ (d.unit u i).testing ∨
    d.now < (d.unit u i).lastTest + testPeriod + testGrace) := by
  simp [h.testsOn, h.unfenced, h.idle, Nat.not_lt.2 h.late]

theorem Dev.testOverdue_of_waiting (h : d.Overdue u i) (hu : u = .batten ∨ u = .selvedge) : d.testOverdue u i = d := by
  rcases hu with rfl | rfl <;> exact if_neg h.begins

theorem Dev.testOverdue_of_engine (h : d.Overdue u i) (hu : u = .videoEngine ∧ i < 32 ∨ u = .audioEngine ∧ i < 4) :
    d.testOverdue u i = d.inTest u i := by
  rcases hu with ⟨rfl, hi⟩ | ⟨rfl, hi⟩ <;> exact (if_neg h.begins).trans (if_pos hi)

section
variable (h : d.Overdue .tile i) (hi : i < 1088) {l : Nat} (hl : d.logicalOf i = some l) (hv : d.leavingFor i = 0)
include h hi hl hv

theorem Dev.testOverdue_of_tile : d.testOverdue .tile i =
    if (d.spareFor i).isSome then (d.setLeaving i 3).replaceTile i true
    else if (d.unit .tile i).overdue then d
    else (d.setUnit .tile i { d.unit .tile i with overdue := true }).record 1 0x0307 .tile i
      ((d.setUnit .tile i { d.unit .tile i with overdue := true }).unitPart .tile i)
      ((d.now - ((d.unit .tile i).lastTest + testPeriod)) / 60000000000) :=
  (if_neg h.begins).trans (if_neg (by simp [hl, hv, hi]))

end

/-! A forced swap (R273): tile `i` is due to leave, and a spare takes its logical tile over unless it goes to a fenced tile first. -/

/-- What no entry of a key meets is met as before when that key is set. -/
theorem Sparse.any_insert {α : Type} {p : Nat × α → Bool} {k : Nat} (hp : ∀ v, p (k, v) = false) (v : α) (m : Sparse α) :
    (Sparse.insert m k v).any p = m.any p := by
  induction m with
  | nil => simp [Sparse.insert, hp]
  | cons e m ih =>
    obtain ⟨j, w⟩ := e
    unfold Sparse.insert
    split
    · simp [hp]
    · split
      · next h => subst h; simp [hp]
      · simp [ih]

theorem Dev.fencedFirst_setLeaving (d : Dev) (t q : Nat) : (d.setLeaving t 3).fencedFirst t q = d.fencedFirst t q :=
  Sparse.any_insert (p := fun e : Nat × Nat => e.2 = 2 && e.1 ≠ t && (d.logicalOf e.1).isSome && d.permitted e.1 q)
    (fun v => by simp) 3 d.tiles.leaving

@[simp] theorem Dev.leavingFor_setLeaving (d : Dev) (t c : Nat) : (d.setLeaving t c).leavingFor t = c := by
  simp [Dev.leavingFor, Dev.setLeaving]

theorem Dev.leaving_restState (d : Dev) (l : Nat) : (d.restState l).tiles.leaving = d.tiles.leaving := by
  unfold Dev.restState
  dsimp only
  rw [Dev.showState_tiles]
  split
  · split <;> rfl
  · split <;> rfl

/-- A tile that a forced swap freed goes to test while tests run. -/
theorem Dev.testing_freed {d : Dev} {t : Nat} (hf : d.fenced .tile t = false) (hv : d.leavingFor t = 3) (hn : d.testsOn = true) :
    ((d.freed t).unit .tile t).testing = true := by
  unfold Dev.freed
  rw [if_neg (by simp [hf]), hv]
  show ((d.beginTest t).unit .tile t).testing = true
  unfold Dev.beginTest
  rw [if_neg (by simp [hf]), if_pos hn, Dev.unit_setUnit]

theorem Dev.testsOn_congr {a b : Dev} (hp : a.power = b.power) (hr : a.reg 0x8000 = b.reg 0x8000) : a.testsOn = b.testsOn := by
  rw [Dev.testsOn, Dev.serving, Dev.fld, hp, hr]
  rfl

theorem Dev.testing_takenOver {d : Dev} {l t n : Nat} (hf : d.fenced .tile t = false) (hv : d.leavingFor t = 3)
    (hn : d.testsOn = true) : ((d.takenOver l t n).unit .tile t).testing = true := by
  refine Dev.testing_freed ?_ ?_ ?_
  · rw [Dev.fenced_congr (by simp : _ = d.units), hf]
  · rw [Dev.leavingFor, Dev.leaving_restState]
    exact hv
  · refine (Dev.testsOn_congr (by simp) ?_).trans hn
    rw [Dev.reg_restState _ _ _ (by omega), Dev.reg_bump, if_neg (by omega), Dev.reg_setMap]

/-- The swap is due, and the tile keeps its logical tile while that runs or another tile needs the spare more. -/
theorem Dev.replaceTile_forced_of_busy {d : Dev} {t l q : Nat} (hl : d.logicalOf t = some l) (hq : d.spareFor t = some q)
    (h : (d.lt l).pick ≠ none ∨ d.fencedFirst t q = true) : (d.setLeaving t 3).replaceTile t true = d.setLeaving t 3 := by
  have hl' : (d.setLeaving t 3).logicalOf t = some l := hl
  rcases h with hp | hw
  · exact Dev.replaceTile_of_staying hl' (.inr (.inl hp)) true
  · exact Dev.replaceTile_of_taken hl' (n := q) hq (by simp [Dev.takesSpare, Dev.fencedFirst_setLeaving, hw]) true

theorem Dev.replaceTile_forced {d : Dev} {t l q : Nat} (hn : d.testsOn = true) (hl : d.logicalOf t = some l)
    (hq : d.spareFor t = some q) (hw : d.fencedFirst t q = false) (hp : (d.lt l).pick = none) (hr : (d.lt l).replay = none) :
    (d.setLeaving t 3).replaceTile t true = (d.setLeaving t 3).takenOver l t q := by
  have hl' : (d.setLeaving t 3).logicalOf t = some l := hl
  have hn' : (d.setLeaving t 3).testsOn = true := hn
  exact Dev.replaceTile_of_spare hl' (by simp) hp hr hq (by simp [Dev.takesSpare, Dev.fencedFirst_setLeaving, hw, hn'])

end

end Sys2Proof.Machine
end

section
/-! SUPPORT. A fenced unit is tested again (09 R277): passes count, a failure starts them anew, the third re-admits it. -/

namespace Sys2Proof.Machine

theorem exec_fencedUnitRetest (u : UnitType) (i : Nat) (ok : Bool) (s : State) :
    exec (.fencedUnitRetest u i ok) s = s.after fun d => d.retest u i ok := rfl

/-- The unit is of a kind that is tested again, fenced by itself and not for good, and 60 minutes have passed. -/
structure Dev.Retests (d : Dev) (u : UnitType) (i : Nat) : Prop where
  testsOn : d.testsOn = true
  kind : u = .tile ∨ u = .batten ∨ u = .videoEngine ∨ u = .audioEngine
  fenced : (d.unit u i).fenced = true
  permanent : (d.unit u i).permanent = false
  whole : d.wholeFenced u i = false
  due : (d.unit u i).lastTest + testPeriod ≤ d.now

variable {d : Dev} {u : UnitType} {i : Nat}

theorem Dev.retests_iff : d.Retests u i ↔
    ¬ (!d.testsOn ∨ !(u = .tile || u = .batten || u = .videoEngine || u = .audioEngine : Bool) ∨ !(d.unit u i).fenced ∨
      d.wholeFenced u i ∨ (d.unit u i).permanent ∨ d.now < (d.unit u i).lastTest + testPeriod) := by
  constructor
  · rintro ⟨hon, hkind, hfenced, hperm, hwhole, hdue⟩
    have hkind' : (u = .tile || u = .batten || u = .videoEngine || u = .audioEngine : Bool) = true := by
      simpa [or_assoc] using hkind
    simp only [hkind']
    simp [hon, hfenced, hperm, hwhole, hdue]
  · intro h
    simp only [not_or, Bool.not_eq_true', Bool.not_eq_false, Bool.or_eq_true, decide_eq_true_eq, Bool.not_eq_true, Nat.not_lt,
      or_assoc] at h
    obtain ⟨hon, hkind, hfenced, hwhole, hperm, hdue⟩ := h
    exact ⟨hon, hkind, hfenced, hperm, hwhole, hdue⟩

theorem Dev.retest_of_idle (h : ¬ d.Retests u i) (ok : Bool) : d.retest u i ok = d :=
  if_pos (not_not.1 (mt Dev.retests_iff.2 h))

/-- The unit's record after a test of the fenced unit, which counts. -/
def Dev.retested (d : Dev) (u : UnitType) (i : Nat) (r : UnitRec) : Dev := (d.bump 0x8068 1).setUnit u i r

theorem Dev.reg_retested (r : UnitRec) : (d.retested u i r).reg 0x8068 = d.reg 0x8068 + 1 :=
  (d.reg_bump 0x8068 1 0x8068).trans (if_pos rfl)

theorem Dev.reg_retested_failed (r : UnitRec) : ((d.retested u i r).bump 0x8078 1).reg 0x8078 = d.reg 0x8078 + 1 ∧
    ((d.retested u i r).bump 0x8078 1).reg 0x8068 = d.reg 0x8068 + 1 := by
  constructor
  · rw [Dev.reg_bump, if_pos rfl]
    exact congrArg (· + 1) ((d.reg_bump 0x8068 1 0x8078).trans (if_neg (by decide)))
  · rw [Dev.reg_bump, if_neg (by decide), Dev.reg_retested]

/-- The record of a unit that is re-admitted at time `now`. -/
def UnitRec.readmitted (r : UnitRec) (now : Nat) : UnitRec :=
  { r with fenced := false, reason := 0, passes := 0, lastTest := now, corrected := 0 }

/-- The unit re-admitted, with the entry that says so. -/
def Dev.readmitted (d : Dev) (u : UnitType) (i : Nat) : Dev :=
  let e := d.retested u i ((d.unit u i).readmitted d.now)
  e.record 0 0x0311 u i (e.unitPart u i) (d.unit u i).fencings

section
variable (h : d.Retests u i) (hd : d.fld 0x8060 63 1 = 0)
include h hd

theorem Dev.retest_of_failed :
    d.retest u i false = (d.retested u i { d.unit u i with passes := 0, lastTest := d.now }).bump 0x8078 1 := by
  unfold Dev.retest
  dsimp only
  rw [if_neg (Dev.retests_iff.1 h), Dev.testVerdict_of_disarmed hd]
  rfl

theorem Dev.retest_of_passed (hn : (d.unit u i).passes + 1 < 3) :
    d.retest u i true = d.retested u i { d.unit u i with passes := (d.unit u i).passes + 1, lastTest := d.now } := by
  unfold Dev.retest
  dsimp only
  rw [if_neg (Dev.retests_iff.1 h), Dev.testVerdict_of_disarmed hd]
  exact if_pos hn

theorem Dev.retest_of_third (hn : 3 ≤ (d.unit u i).passes + 1) : d.retest u i true =
    if u = .tile ∧ !(d.readmitted u i).fenced .tile i then (d.readmitted u i).setTileState i 6 else d.readmitted u i := by
  unfold Dev.retest
  dsimp only
  rw [if_neg (Dev.retests_iff.1 h), Dev.testVerdict_of_disarmed hd]
  exact if_neg (Nat.not_lt.2 hn)

end

theorem Dev.unit_readmitted : (d.readmitted u i).unit u i = (d.unit u i).readmitted d.now :=
  (Dev.unit_congr (b := d.retested u i ((d.unit u i).readmitted d.now)) (by simp [Dev.readmitted]) u i).trans
    ((d.bump 0x8068 1).unit_setUnit u i _)

theorem Dev.seq_readmitted : (d.readmitted u i).log.seq = d.log.seq + 1 := by
  simp [Dev.readmitted, Dev.retested, Dev.setUnit]

/-- A re-admission sets nothing off. -/
theorem Dev.due_readmitted : (d.readmitted u i).sigsDue = d.sigsDue ∧ (d.readmitted u i).stopsDue = d.stopsDue ∧
    (d.readmitted u i).fatalDue = d.fatalDue ∧ (d.readmitted u i).sv.errs = d.sv.errs := by
  simp [Dev.readmitted, Dev.retested, Dev.setUnit]

/-- A tile of a die in service is in service once it is re-admitted. -/
theorem Dev.fenced_readmitted (h : d.wholeFenced .tile i = false) : (d.readmitted .tile i).fenced .tile i = false := by
  have hdie : (d.readmitted .tile i).wholeFenced .tile i = false := by
    have hunits : (d.readmitted .tile i).units = (d.setUnit .tile i ((d.unit .tile i).readmitted d.now)).units := by
      simp [Dev.readmitted, Dev.retested, Dev.setUnit]
    simp only [Dev.wholeFenced] at h ⊢
    rw [Dev.unit_congr hunits]
    simp only [Dev.unit, Dev.setUnit, Sparse.get_set]
    split
    · rfl
    · exact h
  rw [Dev.fenced, Dev.unit_readmitted, hdie]
  rfl

end Sys2Proof.Machine
end

section
/-! SUPPORT. Three copies of a register (09 R269, R270): the majority that a read takes, an upset of one copy, and the comparison of a
field. -/

namespace Sys2Proof.Machine

theorem Copies.getLsbD_read (x : Copies) (i : Nat) : x.read.getLsbD i =
    (x.a.getLsbD i && x.b.getLsbD i || x.a.getLsbD i && x.c.getLsbD i || x.b.getLsbD i && x.c.getLsbD i) := by
  simp [Copies.read]

/-- Whatever one copy holds, two equal ones decide. -/
theorem Copies.read_of_two (v w : Word64) :
    (⟨w, v, v⟩ : Copies).read = v ∧ (⟨v, w, v⟩ : Copies).read = v ∧ (⟨v, v, w⟩ : Copies).read = v := by
  have hbit : ∀ p q : Bool, (q && p || q && p || p && p) = p ∧ (p && q || p && p || q && p) = p ∧ (p && p || p && q || p && q) = p := by
    decide
  exact ⟨BitVec.eq_of_getLsbD_eq fun i _ => (Copies.getLsbD_read _ i).trans (hbit _ _).1,
    BitVec.eq_of_getLsbD_eq fun i _ => (Copies.getLsbD_read _ i).trans (hbit _ _).2.1,
    BitVec.eq_of_getLsbD_eq fun i _ => (Copies.getLsbD_read _ i).trans (hbit _ _).2.2⟩

theorem Copies.read_flip {x : Copies} (hab : x.a = x.b) (hbc : x.b = x.c) (i : Nat) (m : Word64) : (x.flip i m).read = x.read := by
  obtain ⟨a, b, c⟩ := x
  dsimp only at hab hbc
  subst hab hbc
  rw [(Copies.read_of_two a a).1]
  match i with
  | 0 => exact (Copies.read_of_two a _).1
  | 1 => exact (Copies.read_of_two a _).2.1
  | n + 2 => exact (Copies.read_of_two a _).2.2

variable (d : Dev)

theorem Dev.copies_setCopies (o : Nat) (x : Copies) (p : Nat) : (d.setCopies o x).copies p = if p = o then x else d.copies p := by
  simp [Dev.copies, Dev.setCopies, Sparse.get_set]

theorem Dev.reg_eq_read (o : Nat) : d.reg o = (d.copies o).read := rfl

/-- An upset of one of three equal copies changes no read. -/
theorem Dev.reg_flipCopy {f : CopyFlip} (hab : (d.copies f.off).a = (d.copies f.off).b) (hbc : (d.copies f.off).b = (d.copies f.off).c)
    (o : Nat) : (d.flipCopy f).reg o = d.reg o := by
  unfold Dev.flipCopy
  split
  · rw [Dev.reg_eq_read, Dev.copies_setCopies]
    split
    · next h => rw [h, Copies.read_flip hab hbc, Dev.reg_eq_read]
    · rfl
  · rfl

/-! ### Comparison of a field -/

section
variable {o lo w n : Nat}

/-- A copy whose field is set to `n`. -/
def putField (lo w n : Nat) (v : Word64) : Word64 := BitVec.ofNat 64 (setBits v.toNat lo w n)

theorem bits_putField (h : lo + w ≤ 64) (v : Word64) : bits (putField lo w n v).toNat lo w = n % 2 ^ w := by
  rw [putField, BitVec.toNat_ofNat, bits_mod _ _ _ _ h, bits_setBits]

/-- Every copy's field at `n`, with the entry that says so. -/
def Dev.mendField (d : Dev) (o lo w n : Nat) : Dev :=
  (d.setCopies o { a := putField lo w n (d.copies o).a, b := putField lo w n (d.copies o).b, c := putField lo w n (d.copies o).c }).record
    1 0x0305 .register (o / 4) none o

theorem Dev.compareField_eq : d.compareField o (lo, w) =
    (let v (x : Word64) := bits x.toNat lo w
     let x := d.copies o
     if v x.a = v x.b ∧ v x.b = v x.c then d
     else if v x.a = v x.b ∨ v x.a = v x.c then d.mendField o lo w (v x.a)
     else if v x.b = v x.c then d.mendField o lo w (v x.b)
     else d.record 4 0x0306 .register (o / 4) none o) := rfl

theorem Dev.copies_mendField (n : Nat) : (d.mendField o lo w n).copies o =
    { a := putField lo w n (d.copies o).a, b := putField lo w n (d.copies o).b, c := putField lo w n (d.copies o).c } := by
  rw [Dev.copies, Dev.mendField, Dev.regs_record_none]
  exact (d.copies_setCopies ..).trans (if_pos rfl)

/-- A mended field reads `n` in every copy, when `n` is what a field can hold. -/
theorem Dev.fields_mendField (h : lo + w ≤ 64) (hn : n < 2 ^ w) :
    bits ((d.mendField o lo w n).copies o).a.toNat lo w = n ∧ bits ((d.mendField o lo w n).copies o).b.toNat lo w = n ∧
      bits ((d.mendField o lo w n).copies o).c.toNat lo w = n := by
  simp only [Dev.copies_mendField, bits_putField h, Nat.mod_eq_of_lt hn, and_self]

theorem Dev.seq_mendField : (d.mendField o lo w n).log.seq = d.log.seq + 1 := by
  simp [Dev.mendField, Dev.record_log, Dev.setCopies]

theorem Dev.compareField_of_same (hab : bits (d.copies o).a.toNat lo w = bits (d.copies o).b.toNat lo w)
    (hbc : bits (d.copies o).b.toNat lo w = bits (d.copies o).c.toNat lo w) : d.compareField o (lo, w) = d :=
  if_pos ⟨hab, hbc⟩

/-- Two copies that hold `n` against the third decide the field. -/
theorem Dev.compareField_of_two
    (h : bits (d.copies o).a.toNat lo w = n ∧ bits (d.copies o).b.toNat lo w = n ∧ bits (d.copies o).c.toNat lo w ≠ n ∨
      bits (d.copies o).a.toNat lo w = n ∧ bits (d.copies o).c.toNat lo w = n ∧ bits (d.copies o).b.toNat lo w ≠ n ∨
      bits (d.copies o).b.toNat lo w = n ∧ bits (d.copies o).c.toNat lo w = n ∧ bits (d.copies o).a.toNat lo w ≠ n) :
    d.compareField o (lo, w) = d.mendField o lo w n ∧ n < 2 ^ w := by
  rw [Dev.compareField_eq]
  dsimp only
  obtain ⟨ha, hb, hc⟩ | ⟨ha, hc, hb⟩ | ⟨hb, hc, ha⟩ := h
  · rw [if_neg (fun hs => hc (hs.2.symm.trans hb)), if_pos (.inl (ha.trans hb.symm)), ha]
    exact ⟨rfl, ha ▸ bits_lt ..⟩
  · rw [if_neg (fun hs => hb (hs.2.trans hc)), if_pos (.inr (ha.trans hc.symm)), ha]
    exact ⟨rfl, ha ▸ bits_lt ..⟩
  · rw [if_neg (fun hs => ha (hs.1.trans hb)), if_neg (not_or.2 ⟨fun hs => ha (hs.trans hb), fun hs => ha (hs.trans hc)⟩),
      if_pos (hb.trans hc.symm), hb]
    exact ⟨rfl, hb ▸ bits_lt ..⟩

/-- Three copies that differ stay, and a stop of the device is due. -/
theorem Dev.compareField_of_three (hab : bits (d.copies o).a.toNat lo w ≠ bits (d.copies o).b.toNat lo w)
    (hac : bits (d.copies o).a.toNat lo w ≠ bits (d.copies o).c.toNat lo w)
    (hbc : bits (d.copies o).b.toNat lo w ≠ bits (d.copies o).c.toNat lo w) :
    (d.compareField o (lo, w)).fatalDue = true ∧ (d.compareField o (lo, w)).copies o = d.copies o := by
  rw [Dev.compareField_eq]
  dsimp only
  rw [if_neg (fun hs => hab hs.1), if_neg (not_or.2 ⟨hab, hac⟩), if_neg hbc]
  exact ⟨by simp [Dev.record_due], by rw [Dev.copies, Dev.regs_record_none]; rfl⟩

end

end Sys2Proof.Machine
end

section
namespace Sys2Proof
open Sys2Proof.Machine

/-- Settles O49: which signals are heard and which tests begin is one condition each; what they then do is said by the unit's record after
it (`fencedFor`, `tested`, `readmitted`), and what is read of three copies by the majority of two equal ones. -/
theorem coppiceUnits : Obligations.CoppiceUnits := by
  unfold Obligations.CoppiceUnits
  intro u id s hq
  dsimp only
  refine ⟨fun e h => exec_of_idle hq (exec_errorSignal u id e s) (Dev.errorSignal_of_ignored h),
    fun e hh => ⟨fun line he hcause hn => ?corrected, fun hu he hcause => ?uncorrectable, fun hu he => ?broken⟩,
    fun h => exec_of_idle hq (exec_inFieldTestStart u id s) (Dev.testStart_of_idle h),
    fun hon hf hidle hdue hmay => ?start,
    fun h ok => exec_of_idle hq (exec_inFieldTestEnd u id ok s) (Dev.testEnd_of_idle h ok),
    fun hon ht hd => ⟨?passed, fun hu hf => ?failed⟩,
    fun hon hf hidle hlate => ?overdue,
    ⟨fun h ok => exec_of_idle hq (exec_fencedUnitRetest u id ok s) (Dev.retest_of_idle (fun hr => h ?may) ok), fun h hd => ?retest⟩,
    fun e off i => Copies.getLsbD_read (e.copies off) i, fun e f hab hbc off => e.reg_flipCopy hab hbc off,
    fun e off lo w hw => ⟨e.compareField_of_same, fun n h => ?mended, e.compareField_of_three⟩⟩
  case corrected =>
    have hexec := exec_of_effect (exec_errorSignal u id e s)
      ((Dev.errorSignal_of_error hh he).trans ((congrArg (s.dev.classify u id) hcause).trans (Dev.classify_corrected line hn)))
    refine ⟨_, hexec, Dev.unit_setUnit .., ?_, ?_, ?_, ?_, ?_⟩ <;> simp [Dev.setUnit]
  case uncorrectable =>
    have hlane : u ≠ .lane := by rintro rfl; simp at hu
    have hcode : s.dev.classify u id .uncorrectable = s.dev.fenceUnit u id 2 := by rw [Dev.classify, if_neg hlane]
    have hfenced := s.dev.engineFenced_fenceUnit hu (Dev.fenced_of_hearsSource hh) 2
    exact ⟨_, exec_of_effect (exec_errorSignal u id e s)
      ((Dev.errorSignal_of_error hh he).trans ((congrArg (s.dev.classify u id) hcause).trans hcode)),
      hfenced.unit, hfenced.tiles, hfenced.video⟩
  case broken =>
    have hf : (s.dev.bump 0x8088 1).fenced u id = false := Dev.fenced_of_hearsSource hh
    have hfenced := (s.dev.bump 0x8088 1).engineFenced_fenceUnit hu hf 3
    exact ⟨_, exec_of_effect (exec_errorSignal u id e s) (Dev.errorSignal_of_broken hh he), hfenced.unit,
      (hfenced.reg 0x8088 (by decide) (by decide)).trans ((s.dev.reg_bump ..).trans (if_pos rfl)), hfenced.tiles, hfenced.video⟩
  case start =>
    have hstart := Dev.testStart_of_due hon hf hidle hdue hmay
    by_cases hu : u = .tile
    · rw [if_pos hu] at hstart
      exact ⟨_, exec_of_quiet (exec_inFieldTestStart u id s) hstart hq rfl rfl rfl rfl, Dev.unit_setUnit ..,
        fun _ => Dev.tileState_setTileState .., rfl⟩
    · rw [if_neg hu] at hstart
      exact ⟨_, exec_of_quiet (exec_inFieldTestStart u id s) hstart hq rfl rfl rfl rfl, Dev.unit_setUnit ..,
        fun h => absurd h hu, rfl⟩
  case passed =>
    have hend := Dev.testEnd_of_passed hon ht hd
    by_cases hu : u = .tile
    · rw [if_pos hu] at hend
      obtain ⟨hunits, hmem, hcount⟩ := (s.dev.stamped u id).testPassed_rest id
      exact ⟨_, exec_of_effect (exec_inFieldTestEnd u id true s) hend, (Dev.unit_congr hunits u id).trans Dev.unit_stamped,
        hcount.trans Dev.reg_stamped, fun _ hl => Dev.tileState_testPassed ((Dev.logicalOf_congr rfl id).trans hl), hmem⟩
    · rw [if_neg hu] at hend
      exact ⟨_, exec_of_effect (exec_inFieldTestEnd u id true s) hend, Dev.unit_stamped, Dev.reg_stamped, fun h => absurd h hu, rfl⟩
  case failed =>
    have hu' : u ≠ .tile := by rintro rfl; simp at hu
    have hfenced := Dev.engineFenced_failed hu hf
    refine ⟨_, exec_of_effect (exec_inFieldTestEnd u id false s) (Dev.testEnd_of_failed hon ht hd hu'), ?_,
      (hfenced.reg 0x8068 (by decide) (by decide)).trans Dev.reg_failed.1,
      (hfenced.reg 0x8078 (by decide) (by decide)).trans Dev.reg_failed.2, hfenced.tiles, hfenced.video⟩
    rw [hfenced.unit, Dev.unit_failed]
    rfl
  case overdue =>
    have h : s.dev.Overdue u id := ⟨hon, hf, hidle, hlate⟩
    have hexec := exec_iftOverdue u id s
    refine ⟨fun hu => exec_of_idle hq hexec (Dev.testOverdue_of_waiting h hu), fun hu => ?engine, fun l hu hi hl hv => ?tile⟩
    case engine =>
      exact ⟨_, exec_of_quiet hexec (Dev.testOverdue_of_engine h hu) hq rfl rfl rfl rfl, Dev.unit_setUnit .., rfl, rfl, rfl, rfl⟩
    case tile =>
      subst hu
      have htile := Dev.testOverdue_of_tile h hi hl hv
      refine ⟨fun hn ho => exec_of_idle hq hexec ?_, fun hn ho => ?_, fun q hn hw hp hr => ?_, fun q hn hbusy => ?_⟩
      · rw [htile, hn, ho]
        rfl
      · rw [hn, ho] at htile
        exact ⟨_, exec_of_quiet hexec htile hq (by simp [Dev.setUnit]) (by simp [Dev.setUnit]) (by simp [Dev.setUnit])
          (by simp [Dev.setUnit]), (Dev.unit_congr (by simp) .tile id).trans (s.dev.unit_setUnit .tile id _), by simp [Dev.setUnit]⟩
      · rw [hn, if_pos Option.isSome_some, Dev.replaceTile_forced hon hl hn hw hp hr] at htile
        exact ⟨_, exec_of_effect hexec htile, ((s.dev.setLeaving id 3).physOf_takenOver l id q l).trans (if_pos rfl),
          Dev.testing_takenOver hf (s.dev.leavingFor_setLeaving id 3) hon⟩
      · rw [hn, if_pos Option.isSome_some, Dev.replaceTile_forced_of_busy hl hn hbusy] at htile
        exact ⟨_, exec_of_quiet hexec htile hq rfl rfl rfl rfl, s.dev.leavingFor_setLeaving id 3, rfl⟩
  case may =>
    obtain ⟨hon, hkind, hfenced, hperm, hwhole, hdue⟩ := hr
    exact ⟨hon, hkind, hfenced, hperm, hwhole, hdue⟩
  case retest =>
    obtain ⟨hon, hkind, hfenced, hperm, hwhole, hdue⟩ := h
    have hr : s.dev.Retests u id := ⟨hon, hkind, hfenced, hperm, hwhole, hdue⟩
    refine ⟨?_, fun hn => ?_, fun hn => ?_⟩
    · exact ⟨_, exec_of_quiet (exec_fencedUnitRetest u id false s) (Dev.retest_of_failed hr hd) hq rfl rfl rfl rfl,
        Dev.unit_setUnit .., Dev.reg_retested_failed _⟩
    · exact ⟨_, exec_of_quiet (exec_fencedUnitRetest u id true s) (Dev.retest_of_passed hr hd hn) hq rfl rfl rfl rfl,
        Dev.unit_setUnit .., Dev.reg_retested _⟩
    · have hthird := Dev.retest_of_third hr hd hn
      obtain ⟨hsigs, hstops, hfatal, herrs⟩ := Dev.due_readmitted (d := s.dev) (u := u) (i := id)
      by_cases hu : u = .tile
      · subst hu
        rw [if_pos ⟨rfl, by rw [Dev.fenced_readmitted hwhole]; rfl⟩] at hthird
        exact ⟨_, exec_of_quiet (exec_fencedUnitRetest .tile id true s) hthird hq hsigs hstops hfatal herrs, Dev.unit_readmitted,
          Dev.seq_readmitted, fun _ => Dev.tileState_setTileState ..⟩
      · rw [if_neg (fun h => hu h.1)] at hthird
        exact ⟨_, exec_of_quiet (exec_fencedUnitRetest u id true s) hthird hq hsigs hstops hfatal herrs, Dev.unit_readmitted,
          Dev.seq_readmitted, fun h => absurd h hu⟩
  case mended =>
    obtain ⟨hmend, hlt⟩ := e.compareField_of_two h
    rw [hmend]
    obtain ⟨ha, hb, hc⟩ := e.fields_mendField hw hlt
    exact ⟨ha, hb, hc, e.seq_mendField⟩

end Sys2Proof
end

section
/-! SUPPORT. Doorbells (10 R290, R291): what the device makes of the line it reads. -/

namespace Sys2Proof.Machine

theorem exec_doorbellWrite (r tail : Nat) (host : Cells) (s : State) :
    exec (.doorbellWrite r tail host) s = s.after fun d => d.doorbell r tail host := rfl

/-! ### What is due -/

/-- What a command leaves to be settled. -/
def Dev.dues (d : Dev) : List (Nat × Nat) × List Nat × Bool × List Nat := (d.sigsDue, d.stopsDue, d.fatalDue, d.sv.errs)

theorem Dev.quiet_of_dues {a b : Dev} (ha : a.quiet = true) (h : b.dues = a.dues) : b.quiet = true := by
  simp only [Dev.dues, Prod.mk.injEq] at h
  obtain ⟨hsigs, hstops, hfatal, herrs⟩ := h
  exact Dev.quiet_of_eq ha hsigs hstops hfatal herrs

/-- A command whose effect makes nothing due answers with just that effect. -/
theorem exec_of_dues {s : State} {i : Instr} {f : Dev → Dev} {d : Dev} (hq : s.dev.quiet = true) (key : exec i s = s.after f)
    (e : f s.dev = d) (h : d.dues = s.dev.dues) : exec i s = .next (s.withDev d) := by
  rw [key, State.after, e, Dev.settle_of_quiet _ (Dev.quiet_of_dues hq h)]

/-- An entry of a context in a class below C4 makes nothing due. -/
@[simp] theorem Dev.dues_recordCtx (d : Dev) (c : Nat) (hc : c ≠ 4) (k x y : Nat) : (d.recordCtx c k x y).dues = d.dues := by
  simp [Dev.dues, Dev.recordCtx, hc]

/-! ### What hearing and budget depend on -/

theorem Dev.ctx_congr {a b : Dev} (h : a.ctxs = b.ctxs) (k : Nat) : a.ctx k = b.ctx k := by rw [Dev.ctx, h, Dev.ctx]

theorem Dev.hostUp_congr {a b : Dev} (hp : a.power = b.power) (hu : a.cxl.up = b.cxl.up) : a.hostUp = b.hostUp := by
  simp only [Dev.hostUp, Dev.on, hp, hu]

theorem Dev.hostMay_congr {a b : Dev} (hr : a.regs = b.regs) (hp : a.power = b.power) (hu : a.cxl.up = b.cxl.up)
    (hb : a.used = b.used) (w : Bool) (p n : Nat) : a.hostMay w p n = b.hostMay w p n := by
  have hlends : a.lends = b.lends := by rw [Dev.lends, Dev.fld_congr hr, Dev.lends]
  have hshare : a.hostShare = b.hostShare := funext fun _ => Dev.fld_congr hr _ _ _
  have hparts := Dev.parts_congr hr
  unfold Dev.hostMay Dev.hostFits Dev.hostTurn Dev.hostLeft Dev.hostPool Dev.hostOwn Dev.partsUsed Dev.usedBytes
  rw [Dev.hostUp_congr hp hu, hlends, hshare, hparts, hb]

theorem Dev.hears_congr {a b : Dev} (hr : a.regs = b.regs) (hp : a.power = b.power) (hu : a.cxl.up = b.cxl.up)
    (hc : a.ctxs = b.ctxs) (hq : a.rings = b.rings) (r : Nat) : a.hears r = b.hears r := by
  simp only [Dev.hears, Dev.serving, Dev.recovered, hp, Dev.hostUp_congr hp hu, Dev.ctxOpen, Dev.ringServed, Dev.p8,
    Dev.fld_congr hr, Dev.parts_congr hr, Dev.ctx_congr hc, Dev.ring_congr hq]

/-! ### Reading a line -/

/-- The bytes of the doorbell line are counted, and the line is held where one is free (11 R328). -/
def Dev.lineRead (d : Dev) (r : Nat) : Dev := (d.hostCount false (ringCtx r) 64).shareLine (d.ringDoorbell r)

/-- `TAIL` as the doorbell line holds it. -/
def Dev.tailRead (d : Dev) (r : Nat) : Nat := leNat (d.hostBytes (physBase + d.ringDoorbell r) 8)

theorem Dev.rings_lineRead (d : Dev) (r : Nat) : (d.lineRead r).rings = d.rings := by
  unfold Dev.lineRead Dev.shareLine; split <;> simp

@[simp] theorem Dev.dues_lineRead (d : Dev) (r : Nat) : (d.lineRead r).dues = d.dues := by
  unfold Dev.lineRead Dev.shareLine; split <;> simp [Dev.dues]

@[simp] theorem Dev.dues_setRing (d : Dev) (r : Nat) (x : Ring) : (d.setRing r x).dues = d.dues := rfl

@[simp] theorem Dev.dues_writeStatus (d : Dev) (r : Nat) : (d.writeStatus r).dues = d.dues := by simp [Dev.dues]

section
variable {d : Dev} {r : Nat}

theorem Dev.readDoorbell_of_unread (h : d.hears r = false ∨ d.hostMay false (ringPart r) 64 = false) : d.readDoorbell r = d := by
  rcases h with h | h <;> simp [Dev.readDoorbell, h]

/-- A line that is heard: `TAIL` behind the last one read, out of the ring's reach, or taken. -/
theorem Dev.readDoorbell_of_read (hh : d.hears r = true) (hm : d.hostMay false (ringPart r) 64 = true) :
    d.readDoorbell r =
      if d.tailRead r < (d.ring r).tail then (d.lineRead r).recordCtx 1 0x0201 (ringCtx r) (ringNo r + d.tailRead r * 64)
      else if (d.ring r).completed + d.ringSize r < d.tailRead r then (d.lineRead r).ringError r
      else (d.lineRead r).setRing r { d.ring r with tail := d.tailRead r } := by
  have hsize : (d.lineRead r).ringSize r = d.ringSize r := by
    unfold Dev.lineRead Dev.shareLine; split <;> exact (Dev.ringSettings_congr (by simp) r).1
  unfold Dev.readDoorbell
  dsimp only
  rw [if_neg (by simp [hh, hm]), ← hsize]
  rfl

end

/-! ### A host write of the line -/

/-- Host memory holds the host's writes and `TAIL` in the doorbell line. -/
def Dev.doorbellTold (d : Dev) (r tail : Nat) (host : Cells) : Dev :=
  (d.hostCells host).hostWrite (physBase + d.ringDoorbell r) (leBytes 8 tail)

theorem Dev.dues_doorbellTold (d : Dev) (r tail : Nat) (host : Cells) : (d.doorbellTold r tail host).dues = d.dues := by
  simp [Dev.doorbellTold, Dev.dues]

section
variable (d : Dev) (r tail : Nat) (host : Cells)

theorem Dev.doorbell_of_unheld (h : d.cxl.lines.contains (d.ringDoorbell r) = false) :
    d.doorbell r tail host = d.doorbellTold r tail host := by
  unfold Dev.doorbell Dev.doorbellTold
  dsimp only
  rw [if_neg]
  simpa using h

theorem Dev.doorbell_of_held (h : d.cxl.lines.contains (d.ringDoorbell r) = true) :
    d.doorbell r tail host = ((d.doorbellTold r tail host).dropLine (d.ringDoorbell r)).readDoorbell r := by
  unfold Dev.doorbell Dev.doorbellTold
  dsimp only
  rw [if_pos]
  simpa using h

/-- The line that the host wrote and the device gave up: the ring, its settings and what it may do are as before, and the line holds
the host's `TAIL`. -/
theorem Dev.doorbellTold_reads (hlt : tail < 2 ^ 64) {e : Dev} (he : e = (d.doorbellTold r tail host).dropLine (d.ringDoorbell r)) :
    e.ring r = d.ring r ∧ e.ringDoorbell r = d.ringDoorbell r ∧ e.ringSize r = d.ringSize r ∧ e.hears r = d.hears r ∧
      e.hostMay false (ringPart r) 64 = d.hostMay false (ringPart r) 64 ∧ e.tailRead r = tail := by
  have hregs : e.regs = d.regs := by subst he; simp [Dev.dropLine, Dev.doorbellTold]
  have hpower : e.power = d.power := by subst he; simp [Dev.dropLine, Dev.doorbellTold]
  have hup : e.cxl.up = d.cxl.up := by subst he; simp [Dev.dropLine, Dev.doorbellTold]
  have hctxs : e.ctxs = d.ctxs := by subst he; simp [Dev.dropLine, Dev.doorbellTold]
  have hrings : e.rings = d.rings := by subst he; simp [Dev.dropLine, Dev.doorbellTold]
  have hused : e.used = d.used := by subst he; simp [Dev.dropLine, Dev.doorbellTold]
  obtain ⟨hsize, -, hbell, -⟩ := Dev.ringSettings_congr hregs r
  refine ⟨Dev.ring_congr hrings r, hbell, hsize, Dev.hears_congr hregs hpower hup hctxs hrings r,
    Dev.hostMay_congr hregs hpower hup hused _ _ _, ?_⟩
  have hbytes := Dev.hostBytes_hostWrite (d.hostCells host) (leBytes 8 tail) (physBase + d.ringDoorbell r)
  rw [leBytes_length] at hbytes
  rw [Dev.tailRead, hbell, ← leNat_leBytes 8 tail hlt, ← hbytes]
  subst he
  rfl

end

end Sys2Proof.Machine
end

section
namespace Sys2Proof
open Sys2Proof.Machine

/-- Settles O2: the line as the host wrote it is read like any doorbell line, and the `TAIL` it holds is the host's. -/
theorem doorbellRead : Obligations.DoorbellRead := by
  intro r tail host s hq hlt a told x d
  obtain ⟨hring, hbell, hsize, hhears, hmay, htail⟩ :
    let e := told.dropLine a
    e.ring r = x ∧ e.ringDoorbell r = a ∧ e.ringSize r = s.dev.ringSize r ∧ e.hears r = s.dev.hears r ∧
      e.hostMay false (ringPart r) 64 = s.dev.hostMay false (ringPart r) 64 ∧ e.tailRead r = tail :=
    s.dev.doorbellTold_reads r tail host hlt rfl
  have hd : (told.dropLine a).lineRead r = d := by rw [Dev.lineRead, hbell]
  have htold : told.dues = s.dev.dues := s.dev.dues_doorbellTold r tail host
  have hdues : d.dues = s.dev.dues := hd ▸ (Dev.dues_lineRead _ r).trans htold
  have key := exec_doorbellWrite r tail host s
  refine ⟨fun hno => exec_of_dues hq key (s.dev.doorbell_of_unheld r tail host hno) htold, fun hheld hun => ?_,
    fun hheld hh hm => ?_⟩
  · have hun := Dev.readDoorbell_of_unread (hun.imp hhears.trans hmay.trans)
    exact exec_of_dues hq key ((s.dev.doorbell_of_held r tail host hheld).trans hun) htold
  · have hread := (s.dev.doorbell_of_held r tail host hheld).trans (Dev.readDoorbell_of_read (hhears.trans hh) (hmay.trans hm))
    rw [show (s.dev.doorbellTold r tail host).dropLine (s.dev.ringDoorbell r) = told.dropLine a from rfl, htail, hring, hsize, hd] at hread
    refine ⟨fun hlow hhigh => ?_, fun hlow => ?_, fun hlow hhigh => ?_⟩
    · rw [if_neg (Nat.not_lt.2 hlow), if_neg (Nat.not_lt.2 hhigh)] at hread
      exact exec_of_dues hq key hread hdues
    · rw [if_pos hlow] at hread
      exact exec_of_dues hq key hread ((Dev.dues_recordCtx _ _ (by decide) ..).trans hdues)
    · rw [if_neg (Nat.not_lt.2 hlow), if_pos hhigh] at hread
      have hx : d.ring r = x := hd ▸ (Dev.ring_congr (Dev.rings_lineRead ..) r).trans hring
      rw [Dev.ringError, hx] at hread
      exact exec_of_dues hq key hread (by simpa using hdues)

end Sys2Proof
end

section
/-! SUPPORT. What goes to host memory on behalf of a ring (10 R291, 11 Table 11-8): status lines, records, and the bytes counted for
them. -/

namespace Sys2Proof.Machine

/-- `e` is `d` but for the rings, what the contexts count and when they were used last, the budget taken, and host memory. -/
structure Dev.Reported (d e : Dev) : Prop where
  rest : e = { d with rings := e.rings, ctxs := e.ctxs, used := e.used, hostMem := e.hostMem }
  ctx : ∀ k, e.ctx k = { d.ctx k with acc := (e.ctx k).acc, lastUse := (e.ctx k).lastUse }

namespace Dev.Reported

theorem refl (d : Dev) : d.Reported d := ⟨rfl, fun _ => rfl⟩

theorem trans {a b c : Dev} (h : a.Reported b) (k : b.Reported c) : a.Reported c :=
  ⟨by rw [k.rest, h.rest], fun j => by rw [k.ctx, h.ctx]⟩

theorem foldl {α : Type} {f : Dev → α → Dev} (hf : ∀ (d : Dev) x, d.Reported (f d x)) (xs : List α) : ∀ d : Dev, d.Reported (xs.foldl f d) := by
  induction xs with
  | nil => exact refl
  | cons x xs ih => exact fun d => (hf d x).trans (ih _)

theorem setRing (d : Dev) (r : Nat) (x : Ring) : d.Reported (d.setRing r x) := ⟨rfl, fun _ => rfl⟩

theorem setHost (d : Dev) (a : Nat) (b : Byte) : d.Reported (d.setHost a b) := ⟨rfl, fun _ => rfl⟩

theorem account (d : Dev) (k i n : Nat) : d.Reported (d.account k i n) :=
  ⟨rfl, fun j => by rw [Dev.account, Dev.ctx_setCtx]; split <;> simp_all⟩

theorem use (d : Dev) (k n : Nat) : d.Reported (d.use k n) := ⟨rfl, fun _ => rfl⟩

theorem hostCount (d : Dev) (w : Bool) (k n : Nat) : d.Reported (d.hostCount w k n) := (account d k _ n).trans (use _ _ _)

theorem hostWrite (bs : List Byte) : ∀ (d : Dev) (a : Nat), d.Reported (d.hostWrite a bs) := by
  induction bs with
  | nil => exact fun d _ => refl d
  | cons b bs ih => exact fun d a => (setHost d a b).trans (ih _ _)

theorem hostPut (d : Dev) (c a : Nat) (bs : List Byte) : d.Reported (d.hostPut c a bs) :=
  (hostWrite bs d a).trans (hostCount _ _ _ _)

theorem putStatus (d : Dev) (r : Nat) : d.Reported (d.putStatus r) := (setRing d r _).trans (hostPut _ _ _ _)

theorem writeStatus (d : Dev) (r : Nat) : d.Reported (d.writeStatus r) := by
  unfold Dev.writeStatus
  split
  · exact putStatus d r
  · exact setRing d r _

theorem ringUsed (d : Dev) (r : Nat) : d.Reported (d.ringUsed r) := by
  unfold Dev.ringUsed
  split
  · exact refl d
  · exact ⟨rfl, fun j => by rw [Dev.ctx_setCtx]; split <;> simp_all⟩

variable {d e : Dev} (h : d.Reported e)
include h

theorem regs : e.regs = d.regs := by rw [h.rest]
theorem mem : e.mem = d.mem := by rw [h.rest]
theorem fences : e.fences = d.fences := by rw [h.rest]
theorem dispatches : e.dispatches = d.dispatches := by rw [h.rest]
theorem tiles : e.tiles = d.tiles := by rw [h.rest]
theorem weft : e.weft = d.weft := by rw [h.rest]
theorem irqs : e.irqs = d.irqs := by rw [h.rest]
theorem msix : e.msix = d.msix := by rw [h.rest]
theorem msixPend : e.msixPend = d.msixPend := by rw [h.rest]
theorem dues : e.dues = d.dues := by rw [h.rest]; rfl
theorem ntiles (k : Nat) : (e.ctx k).ntiles = (d.ctx k).ntiles := by rw [h.ctx]

end Dev.Reported

/-! ### Host memory and rings afterwards -/

@[simp] theorem Dev.rings_ringUsed (d : Dev) (r : Nat) : (d.ringUsed r).rings = d.rings := by
  unfold Dev.ringUsed; split <;> simp

@[simp] theorem Dev.ring_ringUsed (d : Dev) (r q : Nat) : (d.ringUsed r).ring q = d.ring q := Dev.ring_congr (by simp) q

@[simp] theorem Dev.ring_account (d : Dev) (k i n q : Nat) : (d.account k i n).ring q = d.ring q := rfl

@[simp] theorem Dev.ring_hostCount (d : Dev) (w : Bool) (k n q : Nat) : (d.hostCount w k n).ring q = d.ring q := rfl

@[simp] theorem Dev.ring_hostPut (d : Dev) (c a : Nat) (bs : List Byte) (q : Nat) : (d.hostPut c a bs).ring q = d.ring q :=
  Dev.ring_congr (by simp) q

@[simp] theorem Dev.host_setRing (d : Dev) (r : Nat) (x : Ring) (b : Nat) : (d.setRing r x).host b = d.host b := rfl

@[simp] theorem Dev.host_account (d : Dev) (k i n b : Nat) : (d.account k i n).host b = d.host b := rfl

@[simp] theorem Dev.host_hostCount (d : Dev) (w : Bool) (k n b : Nat) : (d.hostCount w k n).host b = d.host b := rfl

@[simp] theorem Dev.host_ringUsed (d : Dev) (r b : Nat) : (d.ringUsed r).host b = d.host b := by
  unfold Dev.ringUsed; split <;> rfl

@[simp] theorem Dev.host_hostPut (d : Dev) (c a : Nat) (bs : List Byte) (b : Nat) : (d.hostPut c a bs).host b = (d.hostWrite a bs).host b :=
  rfl

theorem Dev.hostBytes_congr {a b : Dev} {n k : Nat} (h : ∀ i, n ≤ i → i < n + k → a.host i = b.host i) : a.hostBytes n k = b.hostBytes n k :=
  List.map_congr_left fun i hi => h _ (by omega) (by have := List.mem_range.1 hi; omega)

theorem Dev.host_hostWrite_of_outside (d : Dev) (bs : List Byte) {a b : Nat} (h : b < a ∨ a + bs.length ≤ b) :
    (d.hostWrite a bs).host b = d.host b := by
  rw [Dev.host_hostWrite, if_neg (by omega)]

/-- The 64 bytes of a status line (R291). -/
def Ring.statusBytes (x : Ring) : List Byte :=
  leBytes 8 x.accepted ++ leBytes 8 x.completed ++ leBytes 1 (ringStateCode x.st) ++ List.replicate 47 0

theorem Ring.length_statusBytes (x : Ring) : x.statusBytes.length = 64 := by simp [Ring.statusBytes]

theorem Dev.host_putStatus (d : Dev) (r b : Nat) :
    (d.putStatus r).host b = (d.hostWrite (d.ringRecords r) (d.ring r).statusBytes).host b := by
  rw [Dev.putStatus, Dev.host_hostPut, Dev.host_hostWrite, Dev.host_hostWrite]
  rfl

/-- The status line holds what the ring shows (R291). -/
theorem Dev.hostBytes_putStatus (d : Dev) (r : Nat) : (d.putStatus r).hostBytes (d.ringRecords r) 64 = (d.ring r).statusBytes := by
  have h := d.hostBytes_hostWrite (d.ring r).statusBytes (d.ringRecords r)
  rw [Ring.length_statusBytes] at h
  rw [← h]
  exact Dev.hostBytes_congr fun _ _ _ => d.host_putStatus r _

theorem Dev.host_putStatus_of_outside (d : Dev) (r : Nat) {b : Nat} (h : b < d.ringRecords r ∨ d.ringRecords r + 64 ≤ b) :
    (d.putStatus r).host b = d.host b := by
  rw [Dev.host_putStatus, Dev.host_hostWrite_of_outside _ _ (by rwa [Ring.length_statusBytes])]

end Sys2Proof.Machine
end

section
/-! SUPPORT. Acceptance (10 R292, R296, R300): the entry that joins its ring, the tests that a dispatch stops, and a stream descriptor
judged by the epoch before it. -/

namespace Sys2Proof.Machine

theorem exec_descriptorAccept (r : Nat) (s : State) : exec (.descriptorAccept r) s = s.after fun d => d.accept r := rfl

/-- Entry `e` of ring `r` has joined the accepted descriptors in phase `ph`, counted and shown in the status line. -/
def Dev.withEntry (d : Dev) (r : Nat) (e : RingDesc) (ph : Phase) : Dev :=
  let x := d.ring r
  (((d.setRing r { x with accepted := x.accepted + 1, pend := x.pend ++ [{ seq := x.accepted, desc := e, phase := ph }] }
    ).hostCount false (ringCtx r) 128).putStatus r).ringUsed r

section
variable (d : Dev) (r : Nat) (e : RingDesc) (ph : Phase)

theorem Dev.reported_withEntry : d.Reported (d.withEntry r e ph) :=
  (Dev.Reported.setRing d r _).trans ((Dev.Reported.hostCount _ _ _ _).trans ((Dev.Reported.putStatus _ r).trans (.ringUsed _ r)))

theorem Dev.ring_withEntry (q : Nat) : (d.withEntry r e ph).ring q =
    if q = r then { d.ring r with accepted := (d.ring r).accepted + 1, owed := false,
                                  pend := (d.ring r).pend ++ [{ seq := (d.ring r).accepted, desc := e, phase := ph }] }
    else d.ring q := by
  simp only [Dev.withEntry, Dev.ring_ringUsed, Dev.ring_putStatus, Dev.ring_hostCount, Dev.ring_setRing]
  split <;> simp_all

theorem Dev.hostBytes_withEntry : (d.withEntry r e ph).hostBytes (d.ringRecords r) 64 =
    Ring.statusBytes { d.ring r with accepted := (d.ring r).accepted + 1 } := by
  let x : Ring := { d.ring r with accepted := (d.ring r).accepted + 1,
                                  pend := (d.ring r).pend ++ [{ seq := (d.ring r).accepted, desc := e, phase := ph }] }
  have h := Dev.hostBytes_putStatus ((d.setRing r x).hostCount false (ringCtx r) 128) r
  rw [Dev.ring_hostCount, Dev.ring_setRing, if_pos rfl] at h
  exact (Dev.hostBytes_congr fun _ _ _ => Dev.host_ringUsed ..).trans h

theorem Dev.host_withEntry {b : Nat} (h : b < d.ringRecords r ∨ d.ringRecords r + 64 ≤ b) : (d.withEntry r e ph).host b = d.host b := by
  rw [Dev.withEntry, Dev.host_ringUsed]
  exact Dev.host_putStatus_of_outside _ r h

theorem Dev.tilesNamed_withEntry (x : RingDesc) : (d.withEntry r e ph).tilesNamed r x = d.tilesNamed r x := by
  unfold Dev.tilesNamed Dev.ownsTile
  rw [Dev.parts_congr (d.reported_withEntry r e ph).regs, (d.reported_withEntry r e ph).ntiles]

end

/-! ### Tests stopped -/

theorem Dev.physOf_congr {a b : Dev} (h : a.tiles = b.tiles) (l : Nat) : a.physOf l = b.physOf l := by rw [Dev.physOf, h, Dev.physOf]

theorem Dev.tileState_congr {a b : Dev} (h : a.tiles = b.tiles) (t : Nat) : a.tileState t = b.tileState t := by
  rw [Dev.tileState, h, Dev.tileState]

theorem Dev.stopTest_of_untested {d : Dev} {l : Nat} (h : ∀ u, d.physOf l = some u → d.tileState u ≠ 5) : d.stopTest l = d := by
  unfold Dev.stopTest
  split
  · rfl
  · next u hu => rw [if_neg (h u hu)]

theorem Dev.testing_stopTest {d : Dev} {l u : Nat} (hu : d.physOf l = some u) (h : d.tileState u = 5) :
    ((d.stopTest l).unit .tile u).testing = false := by
  unfold Dev.stopTest
  simp only [hu, h, if_true]
  rw [Dev.unit_congr (b := d.setUnit .tile u { d.unit .tile u with testing := false }) (by simp)]
  simp

theorem Dev.stopTests_of_untested {d : Dev} {r : Nat} {x : RingDesc}
    (h : ∀ l ∈ d.tilesNamed r x, ∀ u, d.physOf l = some u → d.tileState u ≠ 5) (ph : Phase) : d.stopTests r x ph = d := by
  unfold Dev.stopTests
  split
  · generalize d.tilesNamed r x = ls at h
    induction ls with
    | nil => rfl
    | cons l ls ih =>
      rw [List.foldl_cons, Dev.stopTest_of_untested (h l List.mem_cons_self), ih fun m hm => h m (List.mem_cons_of_mem _ hm)]
  · rfl

/-! ### The row -/

/-- Ring `r` is fetched, and the entry and the status line fit the host budget. -/
def Dev.mayFetch (d : Dev) (r : Nat) : Prop :=
  d.fetches r = true ∧ d.hostMay false (ringPart r) 128 = true ∧ d.hostMay true (ringPart r) 64 = true

section
variable {d : Dev} {r : Nat}

theorem Dev.accept_of_full (h : 256 ≤ (d.ring r).pend.length) : d.accept r = d := by
  unfold Dev.accept
  exact if_pos (.inr (.inr h))

variable (hm : d.mayFetch r) (ht : (d.ring r).accepted < (d.ring r).tail) (hl : (d.ring r).pend.length < 256)
  {e : RingDesc} (he : d.ringEntry r (d.ring r).accepted = e)
include hm ht hl he

theorem Dev.accept_of_next : d.accept r =
    let f := (d.withEntry r e (d.acceptPhase r e)).stopTests r e (d.acceptPhase r e)
    if judgedStream e then f.judgeOne r (d.ring r).accepted else f := by
  obtain ⟨hf, hin, hout⟩ := hm
  subst he
  unfold Dev.accept
  dsimp only
  rw [if_neg (by simp [hf, hin, hout]; omega)]
  rfl

/-- A descriptor that its header or its context decides joins its ring, and that is all. -/
theorem Dev.accept_of_decided (hj : judgedStream e = false) {v : Verdict} (hv : d.acceptPhase r e = .done v) :
    d.accept r = d.withEntry r e (.done v) := by
  rw [Dev.accept_of_next hm ht hl he, hv]
  dsimp only
  rw [hj, Dev.stopTests, if_neg (by simp)]
  rfl

/-- A `DISPATCH` that waits to start stops the tests of its tiles (09 R272). -/
theorem Dev.accept_of_dispatch (ho : descOpcode e = 1) (hw : d.acceptPhase r e = .waiting) :
    d.accept r = (d.tilesNamed r e).foldl Dev.stopTest (d.withEntry r e .waiting) := by
  rw [Dev.accept_of_next hm ht hl he, hw]
  dsimp only
  rw [if_neg (by simp [judgedStream, ho]), Dev.stopTests, if_pos rfl, Dev.tilesNamed_withEntry]

/-- A descriptor that no epoch judges and whose tiles are not under test joins its ring, and that is all. -/
theorem Dev.accept_of_plain (hj : judgedStream e = false)
    (hu : ∀ l ∈ d.tilesNamed r e, ∀ u, d.physOf l = some u → d.tileState u ≠ 5) : d.accept r = d.withEntry r e (d.acceptPhase r e) := by
  have htiles := (d.reported_withEntry r e (d.acceptPhase r e)).tiles
  rw [Dev.accept_of_next hm ht hl he]
  dsimp only
  rw [hj, Dev.stopTests_of_untested]
  · rfl
  · intro l hl u hp
    rw [Dev.tilesNamed_withEntry] at hl
    rw [Dev.physOf_congr htiles] at hp
    rw [Dev.tileState_congr htiles]
    exact hu l hl u hp

end

/-! ### A stream judged by the epoch before it -/

/-- What the epoch before it makes of stream descriptor `seq` of ring `r`, whose entry is `e`, where it ties as `t` (02 R31, R62). -/
def Dev.tied (d : Dev) (r seq : Nat) (e : RingDesc) (t : Option Nat × Option (Nat × Nat)) : Dev :=
  match t with
  | (some c, _) =>
    let f := d.finish r seq (Verdict.of c)
    if c = 0x46 then f.noteEnded r seq e else f
  | (none, y) => d.tie r seq y

theorem find?_seq_append {as : List Accepted} {a : Accepted} (h : ∀ b ∈ as, b.seq < a.seq) :
    (as ++ [a]).find? (fun b => b.seq = a.seq) = some a := by
  rw [List.find?_append, List.find?_eq_none.2 fun b hb => by simpa using (h b hb).ne]
  simp

section
variable {d : Dev} {r : Nat} {e : RingDesc} (hj : judgedStream e = true)
include hj

theorem opcode_of_judged : descOpcode e = 0x40 ∧ headerBad e = false := by
  simp only [judgedStream, Bool.and_eq_true, decide_eq_true_eq, Bool.not_eq_true'] at hj
  exact hj.1

theorem Dev.acceptPhase_of_judged (h8 : d.p8 = false) : d.acceptPhase r e = .waiting := by
  obtain ⟨hop, hhead⟩ := opcode_of_judged hj
  simp [Dev.acceptPhase, hop, hhead, h8]

variable (hp : d.epochPends r (d.ring r).accepted = false) (hs : ∀ a ∈ (d.ring r).pend, a.seq < (d.ring r).accepted)
include hp hs

theorem Dev.judgeOne_withEntry : (d.withEntry r e .waiting).judgeOne r (d.ring r).accepted =
    (d.withEntry r e .waiting).tied r (d.ring r).accepted e (d.streamTie r e) := by
  have hpend : ((d.withEntry r e .waiting).ring r).pend =
      (d.ring r).pend ++ [{ seq := (d.ring r).accepted, desc := e, phase := .waiting }] := by rw [Dev.ring_withEntry, if_pos rfl]
  have hnone : (d.withEntry r e .waiting).epochPends r (d.ring r).accepted = false := by
    rw [Dev.epochPends, hpend, List.any_append]
    simpa [Dev.epochPends] using hp
  have htie : (d.withEntry r e .waiting).streamTie r e = d.streamTie r e := by
    unfold Dev.streamTie
    rw [Dev.wf_congr (d.reported_withEntry r e .waiting).weft]
  unfold Dev.judgeOne Dev.tied
  rw [hpend, find?_seq_append (a := { seq := (d.ring r).accepted, desc := e, phase := .waiting }) hs]
  dsimp only
  rw [hnone, hj, htie]
  exact if_neg (by simp)

variable (hm : d.mayFetch r) (ht : (d.ring r).accepted < (d.ring r).tail) (hl : (d.ring r).pend.length < 256)
  (he : d.ringEntry r (d.ring r).accepted = e) (h8 : d.p8 = false)
include hm ht hl he h8

theorem Dev.accept_of_judged :
    d.accept r = (d.withEntry r e .waiting).tied r (d.ring r).accepted e (d.streamTie r e) := by
  have htests : (d.withEntry r e .waiting).stopTests r e .waiting = d.withEntry r e .waiting := by
    simp [Dev.stopTests, Dev.tilesNamed, (opcode_of_judged hj).1]
  rw [Dev.accept_of_next hm ht hl he, Dev.acceptPhase_of_judged hj h8]
  dsimp only
  rw [if_pos hj, htests, Dev.judgeOne_withEntry hj hp hs]

end

/-! ### Phases at acceptance, and the record that waits -/

theorem exec_completionRecord (r : Nat) (s : State) : exec (.completionRecord r) s = s.after fun d => d.completion r := rfl

/-- No record is written while the oldest descriptor has no verdict (R294). -/
theorem Dev.completion_of_undone {d : Dev} {r : Nat} {a : Accepted} {as : List Accepted} (hp : (d.ring r).pend = a :: as)
    (h : a.undone = true) : d.completion r = d := by
  unfold Dev.completion
  rw [hp]
  unfold Accepted.undone at h
  dsimp only
  split at h <;> simp_all


theorem Dev.acceptPhase_of_bad {d : Dev} {r : Nat} {e : RingDesc} (h : headerBad e = true) : d.acceptPhase r e = .done (Verdict.of 1) :=
  if_pos h

theorem Dev.acceptPhase_of_sound {d : Dev} {r : Nat} {e : RingDesc} (h : headerBad e = false) (h8 : d.p8 = false)
    (ho : descOpcode e ≠ 1) : d.acceptPhase r e = .waiting := by
  simp [Dev.acceptPhase, h, h8, ho]

/-- A `DISPATCH` of more than 4,194,304 tokens is decided at once (R300). -/
theorem Dev.acceptPhase_of_tooLong {d : Dev} {r : Nat} {e : RingDesc} (h : headerBad e = false) (ho : descOpcode e = 1)
    (hc : (d.ctx (ringCtx r)).st = .opened) (hn : 4194304 < dbyte e 28 0 23) : d.acceptPhase r e = .done (Verdict.of 0x46) := by
  simp [Dev.acceptPhase, h, ho, hc, hn]

end Sys2Proof.Machine
end

section
namespace Sys2Proof
open Sys2Proof.Machine

/-- Settles O3: a full ring takes nothing; any other takes the next entry, and what follows is the stop of its tiles' tests or the
judgement of its stream. -/
theorem entryAccepted : Obligations.EntryAccepted := by
  intro r s hq hf hin hout x e line
  have hm : s.dev.mayFetch r := ⟨hf, hin, hout⟩
  have key := exec_descriptorAccept r s
  refine ⟨fun hfull => exec_of_idle hq key (Dev.accept_of_full hfull), fun ht hl hop hu => ?_, fun ht hl hph hop => ?_,
    fun d l u hp hst => Dev.testing_stopTest hp hst, fun ht hl hj h8 hp hs => ?_⟩
  · have hj : judgedStream e = false := by simp [judgedStream, hop]
    have hrep := s.dev.reported_withEntry r e (s.dev.acceptPhase r e)
    refine ⟨_, s.dev.acceptPhase r e, exec_of_dues hq key (Dev.accept_of_plain hm ht hl rfl hj hu) hrep.dues, ?_, fun q hne => ?_,
      s.dev.hostBytes_withEntry r e _, fun b hb => s.dev.host_withEntry r e _ hb, Dev.acceptPhase_of_bad,
      Dev.acceptPhase_of_sound, hrep.regs, hrep.mem, hrep.fences, rfl, rfl⟩
    · exact (s.dev.ring_withEntry r e _ r).trans (if_pos rfl)
    · exact (s.dev.ring_withEntry r e _ q).trans (if_neg hne)
  · exact exec_of_effect key (Dev.accept_of_dispatch hm ht hl rfl hop hph)
  · have haccept := Dev.accept_of_judged hj hp hs hm ht hl rfl h8
    refine ⟨fun c y htie hc => exec_of_effect key ?_, fun y htie => exec_of_effect key ?_, fun y htie => exec_of_effect key ?_⟩
    all_goals rw [haccept, htie]
    · exact if_neg hc
    · rfl
    · rfl

/-- Settles O4: the verdict stands when the descriptor joins its ring, and its record waits for those before it. -/
theorem sequenceTooLong : Obligations.SequenceTooLong := by
  intro r s hq hf hin hout x e ht hl hhead hop hc hn
  have hphase := Dev.acceptPhase_of_tooLong hhead hop hc hn
  have hrep := s.dev.reported_withEntry r e (.done (Verdict.of 0x46))
  have hj : judgedStream e = false := by simp [judgedStream, hop]
  have haccept := Dev.accept_of_decided ⟨hf, hin, hout⟩ ht hl rfl hj hphase
  have hpend : ((s.dev.withEntry r e (.done (Verdict.of 0x46))).ring r).pend =
      x.pend ++ [{ seq := x.accepted, desc := e, phase := .done (Verdict.of 0x46) }] := by rw [Dev.ring_withEntry, if_pos rfl]
  refine ⟨_, exec_of_dues hq (exec_descriptorAccept r s) haccept hrep.dues, hpend, hrep.dispatches, hrep.tiles, fun a as has hun => ?_⟩
  exact exec_of_idle (Dev.quiet_of_dues hq hrep.dues) (exec_completionRecord r _)
    (Dev.completion_of_undone (as := as ++ [_]) (by rw [hpend, has]; rfl) hun)

end Sys2Proof
end

section
/-! SUPPORT. Completion records (10 R294, R297, R343), and the rows `NOP` and `QUERY` (10 Table 10-2, R323). -/

namespace Sys2Proof.Machine

/-! ### The record and the status line -/

theorem Dev.ringRecords_congr {a b : Dev} (h : a.regs = b.regs) (r : Nat) : a.ringRecords r = b.ringRecords r := by
  obtain ⟨-, -, -, hrecords, -⟩ := Dev.ringSettings_congr h r
  exact hrecords

theorem Dev.ringVector_congr {a b : Dev} (h : a.regs = b.regs) (r : Nat) : a.ringVector r = b.ringVector r := by
  obtain ⟨-, -, -, -, hvector⟩ := Dev.ringSettings_congr h r
  exact hvector

/-- What becomes of a ring whose oldest descriptor, numbered `q`, has its record; `as` are the descriptors left (R295). -/
def Ring.recorded (x : Ring) (q : Nat) (as : List Accepted) : Ring :=
  { x with completed := q + 1, pend := as, st := if x.st = .draining ∧ as = [] then .disabled else x.st }

/-- The record of `a`, the oldest descriptor of ring `r`, and then the status line are in host memory; counted. -/
def Dev.recordWritten (d : Dev) (r : Nat) (a : Accepted) (as : List Accepted) (v : Verdict) : Dev :=
  (((((d.hostPut (ringCtx r) (d.ringRecords r + 4096 + a.seq % d.ringSize r * 32) (completionBytes a v)).setRing r
    ((d.ring r).recorded a.seq as)).putStatus r).account (ringCtx r) 6 1).ringUsed r)

section
variable (d : Dev) (r : Nat) (a : Accepted) (as : List Accepted) (v : Verdict)

theorem Dev.reported_recordWritten : d.Reported (d.recordWritten r a as v) :=
  (Dev.Reported.hostPut d _ _ _).trans ((Dev.Reported.setRing _ r _).trans ((Dev.Reported.putStatus _ r).trans
    ((Dev.Reported.account _ _ _ _).trans (.ringUsed _ r))))

theorem Dev.ring_recordWritten (q : Nat) :
    (d.recordWritten r a as v).ring q = if q = r then { (d.ring r).recorded a.seq as with owed := false } else d.ring q := by
  simp only [Dev.recordWritten, Dev.ring_ringUsed, Dev.ring_account, Dev.ring_putStatus, Dev.ring_setRing, Dev.ring_hostPut]
  split <;> simp_all

theorem length_completionBytes : (completionBytes a v).length = 32 := by simp [completionBytes]

/-- The status line holds the ring as it is then (R291). -/
theorem Dev.hostBytes_recordWritten_status :
    (d.recordWritten r a as v).hostBytes (d.ringRecords r) 64 = ((d.ring r).recorded a.seq as).statusBytes := by
  rw [Dev.recordWritten]
  generalize he : (d.hostPut (ringCtx r) (d.ringRecords r + 4096 + a.seq % d.ringSize r * 32) (completionBytes a v)).setRing r
    ((d.ring r).recorded a.seq as) = e
  have hring : e.ring r = (d.ring r).recorded a.seq as := by rw [← he, Dev.ring_setRing, if_pos rfl]
  have hline : e.ringRecords r = d.ringRecords r := by
    rw [← he]
    exact Dev.ringRecords_congr (by simp) r
  rw [← hring, ← hline, ← Dev.hostBytes_putStatus e r]
  exact Dev.hostBytes_congr fun _ _ _ => (Dev.host_ringUsed ..).trans (Dev.host_account ..)

/-- The record lies behind the status line, which does not meet it (R294). -/
theorem Dev.hostBytes_recordWritten_record :
    (d.recordWritten r a as v).hostBytes (d.ringRecords r + 4096 + a.seq % d.ringSize r * 32) 32 = completionBytes a v := by
  have h := d.hostBytes_hostWrite (completionBytes a v) (d.ringRecords r + 4096 + a.seq % d.ringSize r * 32)
  rw [length_completionBytes] at h
  rw [← h]
  refine Dev.hostBytes_congr fun b hb _ => ?_
  rw [Dev.recordWritten, Dev.host_ringUsed, Dev.host_account, Dev.host_putStatus_of_outside, Dev.host_setRing, Dev.host_hostPut]
  rw [Dev.ringRecords_congr (b := d) (by simp) r]
  omega

end

/-! ### The interrupt -/

/-- The counter of samples that ended with a code other than 0 (02 R41). -/
def Dev.sampleCounted (d : Dev) (r : Nat) (a : Accepted) (v : Verdict) : Dev :=
  if (descOpcode a.desc = 0x40 ∨ descOpcode a.desc = 0x41) ∧ v.code ≠ 0 then d.bump (wfReg (ringPart r) + 0x30) 1 else d

theorem Dev.sampleCounted_eq (d : Dev) (r : Nat) (a : Accepted) (v : Verdict) :
    d.sampleCounted r a v = { d with regs := (d.sampleCounted r a v).regs } := by
  unfold Dev.sampleCounted; split <;> rfl

/-- It is none of the registers that give a ring its vector. -/
theorem Dev.ringVector_sampleCounted (d : Dev) (r : Nat) (a : Accepted) (v : Verdict) :
    (d.sampleCounted r a v).ringVector r = d.ringVector r ∧
      ∀ p n, (d.sampleCounted r a v).ringVectorOk p n = d.ringVectorOk p n := by
  have h (o : Nat) (ho : o ≠ wfReg (ringPart r) + 0x30) : (d.sampleCounted r a v).reg o = d.reg o := by
    unfold Dev.sampleCounted
    split
    · rw [Dev.reg_bump, if_neg ho]
    · rfl
  have hp := ctxPart_lt (ringCtx r)
  have hring : ringReg r + 24 ≠ wfReg (ringPart r) + 0x30 := by
    unfold ringReg wfReg ringPart
    split <;> omega
  have hparts : (d.sampleCounted r a v).parts = d.parts := Dev.parts_of_reg (h 0x1C (by unfold wfReg; omega))
  exact ⟨by unfold Dev.ringVector Dev.fld; rw [h _ hring], fun p n => by unfold Dev.ringVectorOk Dev.partVector; rw [hparts]⟩

/-- The ring's interrupt, sent where `c` holds. -/
def Dev.interrupted (d : Dev) (r : Nat) (c : Prop) [Decidable c] : Dev := if c then d.raise (d.ringVector r) else d

theorem Dev.interrupted_rest (d : Dev) (r : Nat) (c : Prop) [Decidable c] :
    (d.interrupted r c).rings = d.rings ∧ (d.interrupted r c).hostMem = d.hostMem ∧ (d.interrupted r c).mem = d.mem ∧
      (d.interrupted r c).fences = d.fences ∧ (d.interrupted r c).dues = d.dues := by
  unfold Dev.interrupted; split <;> simp [Dev.dues]

/-- A vector that is neither pending nor masked is sent at once. -/
theorem Dev.irqs_raise {d : Dev} {v : Nat} (hp : d.msixPend.contains v = false) (hm : (d.msixEntry v).mask = false) :
    (d.raise v).irqs = v :: d.irqs := by
  unfold Dev.raise
  rw [hp, hm]
  rfl

theorem Dev.hostBytes_of_hostMem {a b : Dev} (h : a.hostMem = b.hostMem) (p n : Nat) : a.hostBytes p n = b.hostBytes p n :=
  Dev.hostBytes_congr fun x _ _ => by rw [Dev.host, Dev.host, h]

section
variable {d : Dev} {r : Nat} {a : Accepted} {as : List Accepted} {v : Verdict}

theorem Dev.completion_of_done (hp : (d.ring r).pend = a :: as) (hv : a.phase = .done v) (hm : d.hostMay true (ringPart r) 96 = true) :
    d.completion r =
      let e := (d.recordWritten r a as v).sampleCounted r a v
      e.interrupted r (dfield a.desc 8 1 = 1 ∧ e.ringVectorOk (ringPart r) (e.ringVector r)) := by
  have hrest : (if (d.ring r).st = .draining ∧ as.isEmpty then RingState.disabled else (d.ring r).st) =
      ((d.ring r).recorded a.seq as).st := by simp [Ring.recorded]
  unfold Dev.completion
  rw [hp]
  dsimp only
  rw [hv]
  dsimp only
  rw [if_pos hm]
  unfold Dev.writeRecord
  dsimp only
  rw [hp, List.drop_one, List.tail_cons, hrest]
  rfl

end

end Sys2Proof.Machine
end

section
namespace Sys2Proof
open Sys2Proof.Machine

/-- Settles O5: the record, the status line and the interrupt are each read off the one state of `Dev.recordWritten`. -/
theorem completionWritten : Obligations.CompletionWritten := by
  intro r s a as hq hp
  refine ⟨fun hun => exec_of_idle hq (exec_completionRecord r s) (Dev.completion_of_undone hp hun), fun v hv hm => ?_⟩
  have hrep := s.dev.reported_recordWritten r a as v
  have hring (q : Nat) := s.dev.ring_recordWritten r a as v q
  have hrecord := s.dev.hostBytes_recordWritten_record r a as v
  have hstatus := s.dev.hostBytes_recordWritten_status r a as v
  have hdone := Dev.completion_of_done hp hv hm
  generalize s.dev.recordWritten r a as v = w at hrep hring hrecord hstatus hdone
  obtain ⟨hcnt, hok⟩ := w.ringVector_sampleCounted r a v
  have hsame := w.sampleCounted_eq r a v
  dsimp only at hdone
  generalize w.sampleCounted r a v = e at hdone hcnt hok hsame
  have hvec : e.ringVector r = s.dev.ringVector r := hcnt.trans (Dev.ringVector_congr hrep.regs r)
  have hpart (p n : Nat) : e.ringVectorOk p n = s.dev.ringVectorOk p n := by
    rw [hok, Dev.ringVectorOk, Dev.ringVectorOk, Dev.partVector, Dev.partVector, Dev.parts_congr hrep.regs]
    rfl
  obtain ⟨hrings, hhost, hmem, hfences, hdues⟩ :=
    e.interrupted_rest r (dfield a.desc 8 1 = 1 ∧ e.ringVectorOk (ringPart r) (e.ringVector r))
  have hrest : e.rings = w.rings ∧ e.hostMem = w.hostMem ∧ e.mem = w.mem ∧ e.fences = w.fences ∧ e.dues = w.dues ∧ e.irqs = w.irqs ∧
      e.msixPend = w.msixPend ∧ e.msix = w.msix := by
    rw [hsame]
    exact ⟨rfl, rfl, rfl, rfl, rfl, rfl, rfl, rfl⟩
  obtain ⟨hrings', hhost', hmem', hfences', hdues', hirqs, hpending, hmsix⟩ := hrest
  have hbytes (p n : Nat) := Dev.hostBytes_of_hostMem (hhost.trans hhost') p n
  have hrings (q : Nat) := (Dev.ring_congr (hrings.trans hrings') q).trans (hring q)
  refine ⟨_, exec_of_dues hq (exec_completionRecord r s) hdone ((hdues.trans hdues').trans hrep.dues), (hbytes _ _).trans hrecord,
    (hbytes _ _).trans hstatus, (hrings r).trans (if_pos rfl), fun q hne => (hrings q).trans (if_neg hne), fun hno => ?_,
    fun hirq hown hpend hmask => ?_, (hmem.trans hmem').trans hrep.mem, (hfences.trans hfences').trans hrep.fences, rfl, rfl⟩
  · show (e.interrupted r _).irqs = _
    rw [Dev.interrupted, if_neg fun h => absurd (hno.symm.trans h.1) (by decide), hirqs, hrep.irqs]
  · show (e.interrupted r _).irqs = _
    rw [Dev.interrupted, if_pos ⟨hirq, by rw [hpart, hvec]; exact hown⟩, hvec, Dev.irqs_raise, hirqs, hrep.irqs]
    · rw [hpending, hrep.msixPend]
      exact hpend
    · rw [Dev.msixEntry, hmsix, hrep.msix]
      exact hmask

end Sys2Proof
end

section
/-! SUPPORT. The rows `NOP` and `QUERY` (10 Table 10-2, R323). -/

namespace Sys2Proof.Machine

theorem exec_ringNop (r : Nat) (s : State) : exec (.ringNop r) s = s.after fun d => d.nopRow r := rfl

theorem exec_query (r : Nat) (s : State) : exec (.query r) s = s.after fun d => d.queryRow r := rfl

theorem Dev.Reported.finish (d : Dev) (r q : Nat) (v : Verdict) : d.Reported (d.finish r q v) := setRing d r _

/-- The accounting record: eight bytes for each counter of the context (R323). -/
def Ctx.accounting (x : Ctx) : List Byte := x.acc.flatMap (leBytes 8)

theorem Ctx.length_accounting (x : Ctx) : x.accounting.length = 8 * x.acc.length := by
  simp [Ctx.accounting, List.length_flatMap, Nat.mul_comm]

section
variable {d : Dev} {r : Nat} {a : Accepted}

theorem Dev.nopRow_of_starts (h : d.starts r 0 a) :
    d.nopRow r = d.finish r a.seq (Verdict.of (if a.desc.toNat >>> 128 = 0 then 0 else 1)) :=
  d.startNext_of_starts h _ rfl _

theorem Dev.queryRow_of_bad (h : d.starts r 3 a) (hb : a.desc.toNat >>> 192 ≠ 0 ∨ dbyte a.desc 16 0 64 % 64 ≠ 0) :
    d.queryRow r = d.finish r a.seq (Verdict.of 1) :=
  (d.startNext_of_starts h _ rfl _).trans (if_pos hb)

theorem Dev.queryRow_of_sound (h : d.starts r 3 a) (h0 : a.desc.toNat >>> 192 = 0) (h64 : dbyte a.desc 16 0 64 % 64 = 0)
    (hm : d.hostMay true (ringPart r) 64 = true) :
    d.queryRow r = (d.hostPut (ringCtx r) (dbyte a.desc 16 0 64) (d.ctx (ringCtx r)).accounting).finish r a.seq (Verdict.of 0) := by
  refine (d.startNext_of_starts h _ rfl _).trans ?_
  dsimp only
  rw [if_neg (by simp [h0, h64]), if_neg (by simp [hm])]
  rfl

end

end Sys2Proof.Machine
end

section
namespace Sys2Proof
open Sys2Proof.Machine

/-- Settles O6: the record of `QUERY` is written before the descriptor finishes, which touches its ring alone. -/
theorem nopAndQuery : Obligations.NopAndQuery := by
  intro r s a hq
  refine ⟨fun hs => ⟨fun h0 => exec_of_finish hq (exec_ringNop r s) ?_, fun h0 => exec_of_finish hq (exec_ringNop r s) ?_⟩,
    fun hs => ⟨fun hb => exec_of_finish hq (exec_query r s) (Dev.queryRow_of_bad hs hb), fun h0 h64 hm => ?_⟩⟩
  · rw [Dev.nopRow_of_starts hs, if_pos h0]
  · rw [Dev.nopRow_of_starts hs, if_neg h0]
  · have hrow := Dev.queryRow_of_sound hs h0 h64 hm
    generalize dbyte a.desc 16 0 64 = addr at hrow ⊢
    have hlen := (s.dev.ctx (ringCtx r)).length_accounting
    have hbytes := s.dev.hostBytes_hostWrite (s.dev.ctx (ringCtx r)).accounting addr
    have hput := (Dev.Reported.hostPut s.dev (ringCtx r) addr (s.dev.ctx (ringCtx r)).accounting)
    have hrep := hput.trans (.finish _ r a.seq (Verdict.of 0))
    have hhost (b : Nat) : ((s.dev.hostPut (ringCtx r) addr (s.dev.ctx (ringCtx r)).accounting).finish r a.seq (Verdict.of 0)).host b =
      (s.dev.hostWrite addr (s.dev.ctx (ringCtx r)).accounting).host b := (Dev.host_setRing ..).trans (Dev.host_hostPut ..)
    refine ⟨_, exec_of_dues hq (exec_query r s) hrow hrep.dues, ?_, fun b hb => (hhost b).trans ?_, ?_, hrep.regs, hrep.mem, hrep.fences⟩
    · rw [hlen] at hbytes
      exact (Dev.hostBytes_congr fun b _ _ => hhost b).trans hbytes
    · exact s.dev.host_hostWrite_of_outside _ (by rwa [hlen])
    · show Dev.ring _ r = _
      rw [Dev.finish_ring, Dev.finish_ring, Dev.ring_hostPut]

end Sys2Proof
end

section
/-! SUPPORT. The `FENCE` rows (10 R313 to R315): what each operation makes of a sound descriptor, and how a signal ends. -/

namespace Sys2Proof.Machine

/-! ### The row -/

@[simp] theorem Dev.dues_finish (d : Dev) (r q : Nat) (v : Verdict) : (d.finish r q v).dues = d.dues := by simp [Dev.dues, Dev.finish]

@[simp] theorem Dev.dues_setFence (d : Dev) (f : Nat) (x : Fence) : (d.setFence f x).dues = d.dues := by simp [Dev.dues]

/-- A `FENCE` descriptor that may start, with a body of the layout and a fence of the context's own range. -/
structure Dev.TakesFence (d : Dev) (r : Nat) (a : Accepted) : Prop where
  starts : d.starts r 0x02 a
  fields : onlyFields (a.desc.toNat >>> 128) fenceFields = true
  range : d.fenceIn (ringCtx r) (fId a.desc) = true

section
variable {d : Dev} {r n : Nat} {a : Accepted} (h : d.TakesFence r a) (hn : fOp a.desc = n)
include h hn

/-- The operation's own part decides what becomes of the device and of the descriptor. -/
theorem Dev.fenceRow_of_takes {ops : List Nat} {run : Dev → Nat → RingDesc → Dev × Verdict} (hops : ops.contains n = true) (h5 : n ≤ 5)
    {e : Dev} {v : Verdict} (hrun : run d (ringCtx r) a.desc = (e, v)) : d.fenceRow r ops run = e.finish r a.seq v := by
  refine (d.startNext_of_starts h.starts _ (hn ▸ hops) _).trans ?_
  dsimp only
  rw [if_neg (by simp [h.fields, hn, h5]), if_neg (by simp [h.range]), hrun]

/-- The command of an operation that sets nothing off. -/
theorem exec_of_fenceRow {s : State} (hd : s.dev = d) (hq : s.dev.quiet = true) {i : Instr} {ops : List Nat}
    {run : Dev → Nat → RingDesc → Dev × Verdict} (key : exec i s = s.after fun d => d.fenceRow r ops run)
    (hops : ops.contains n = true) (h5 : n ≤ 5) {e : Dev} {v : Verdict} (hrun : run d (ringCtx r) a.desc = (e, v))
    (he : e.dues = d.dues) : exec i s = .next (s.withDev (e.finish r a.seq v)) := by
  subst hd
  exact exec_of_dues hq key (Dev.fenceRow_of_takes h hn hops h5 hrun) ((Dev.dues_finish ..).trans he)

end

/-! ### Signals (R311, R312, R314) -/

section
variable {d : Dev} {k f v : Nat}

theorem Dev.signal_of_denied
    (h : d.fenceIn k f = false ∨ (d.fence f).st = .free ∨ ((d.fence f).st = .live ∧ (d.fence f).maySignal k = false)) :
    d.signal k f v false = (d, 7) := by
  unfold Dev.signal
  rcases h with h | h | ⟨h, hk⟩
  · simp [h]
  · simp [h]
  · simp [h, hk]

variable (hin : d.fenceIn k f = true)
include hin

theorem Dev.signal_of_broken (h : (d.fence f).st = .broken) :
    d.signal k f v false = (d.recordCtx 1 0x0A03 k (fenceDetail f k false), 2) := by
  simp [Dev.signal, hin, h]

variable (h : (d.fence f).st = .live) (hk : (d.fence f).maySignal k = true)
include h hk

theorem Dev.signal_of_regressive (hv : v ≤ (d.fence f).value) :
    d.signal k f v false = (d.recordCtx 1 0x0A02 k (fenceDetail f k false), 6) := by
  simp [Dev.signal, hin, h, hk, hv]

theorem Dev.signal_of_above (hv : (d.fence f).value < v) : d.signal k f v false = (d.applySignal f v, 0) := by
  simp [Dev.signal, hin, h, hk, Nat.not_le.2 hv]

end

theorem Dev.fences_recordCtx (d : Dev) (c x k i : Nat) : (d.recordCtx c x k i).fences = d.fences := by simp [Dev.recordCtx]

theorem Dev.seq_recordCtx (d : Dev) (c x k i : Nat) : (d.recordCtx c x k i).log.seq = d.log.seq + 1 := by simp [Dev.recordCtx]

theorem Dev.fence_applySignal (d : Dev) (f v g : Nat) :
    (d.applySignal f v).fence g = if g = f then { d.fence f with value := v } else d.fence g := by
  have h : (d.applySignal f v).fences = (d.setFence f { d.fence f with value := v }).fences := by simp [Dev.applySignal]
  exact (congrArg (Sparse.get (fun _ => Fence.reset) · g) h).trans (d.fence_setFence ..)

end Sys2Proof.Machine
end

section
namespace Sys2Proof
open Sys2Proof.Machine

/-- Settles O8: a signal ends in one of four ways, by the fence's range, state, share list and value. -/
theorem signalsToFences : Obligations.SignalsToFences := by
  refine ⟨fun d k f v => ⟨Dev.signal_of_denied, fun hin h => ?_, fun hin h hk hv => ?_, fun hin h hk hv => ?_⟩,
    fun r s a h hop hf hin => ?_⟩
  · rw [Dev.signal_of_broken hin h]
    exact ⟨rfl, d.fences_recordCtx .., d.seq_recordCtx ..⟩
  · rw [Dev.signal_of_regressive hin h hk hv]
    exact ⟨rfl, d.fences_recordCtx .., d.seq_recordCtx ..⟩
  · rw [Dev.signal_of_above hin h hk hv]
    exact ⟨rfl, (d.fence_applySignal f v f).trans (if_pos rfl), fun g hg => (d.fence_applySignal f v g).trans (if_neg hg)⟩
  · exact exec_of_effect (s := s) (f := fun d => d.fenceSignal r) rfl (Dev.fenceRow_of_takes ⟨h, hf, hin⟩ hop rfl (by decide) rfl)

/-- Settles O7, operation by operation: which branch of the operation's own part is met, and that all but `DESTROY` and `SIGNAL` set
nothing off. -/
theorem fenceOperations : Obligations.FenceOperations := by
  intro r s a hq hs hf hin
  have h : s.dev.TakesFence r a := ⟨hs, hf, hin⟩
  refine ⟨fun hop hy => ?_, fun hop hy => ?_, fun hop hy hown hk hck hopen hlen => ?_, fun hop hy hno => ?_, fun hop hy hmay => ?_,
    fun hop hy hown hno => ?_, fun hop hy hown => ?_, fun hop hy hown => ?_, fun hop hy hmay => ?_, fun hop hy hmay hv => ?_⟩
  · exact exec_of_fenceRow h hop rfl hq rfl rfl (by decide) (if_neg (by simp [hy])) (Dev.dues_setFence ..)
  · exact exec_of_fenceRow h hop rfl hq rfl rfl (by decide) (if_pos hy) rfl
  · exact exec_of_fenceRow h hop rfl hq rfl rfl (by decide)
      ((if_neg (by simp [hy])).trans (if_neg (by simpa [hy, hown, hk, hck, hopen, Dev.peerCtx] using hlen))) (Dev.dues_setFence ..)
  · refine exec_of_fenceRow h hop rfl hq rfl rfl (by decide) ((if_neg (by simp [hy])).trans (if_pos ?_)) rfl
    rcases hno with hno | hno | hno | hno | hno
    · exact .inr (.inl hno)
    · exact .inr (.inr (.inr (.inr hno)))
    · exact .inr (.inr (.inl hno))
    · exact .inr (.inr (.inr (.inl (by simp [Dev.peerCtx, hno]))))
    · by_cases hc : ctxNamed (ringCtx r) (fCtx a.desc) = ringCtx r
      · exact .inr (.inr (.inl hc))
      · rw [ctxNamed, if_pos hno] at hc
        exact .inr (.inr (.inr (.inl (by simp [Dev.peerCtx, hc, Nat.not_le.2 hno]))))
  · refine exec_of_fenceRow h hop rfl hq rfl rfl (by decide) (if_neg ?_) (Dev.dues_setFence ..)
    rcases hmay with hown | ⟨hc, e, he, hek⟩
    · simp [hy, hown]
    · simp only [hy, hc]
      have : (s.dev.fence (fId a.desc)).shares.any (fun s => s.ctx = ringCtx r) = true := List.any_eq_true.2 ⟨e, he, by simp [hek]⟩
      simp [this]
  · refine (exec_of_fenceRow h hop rfl hq rfl rfl (by decide) (if_pos ?_) rfl).trans (by simp [hy])
    rcases hno with hc | hno
    · exact .inr (by simp [hown, hc])
    · exact .inr (by simpa [hown] using .inr hno)
  · exact exec_of_fenceRow h hop rfl hq rfl rfl (by decide) ((if_neg (by simp [hy])).trans (if_pos (.inr hown))) rfl
  · exact exec_of_effect (s := s) (f := fun d => d.fenceDestroy r) rfl
      (Dev.fenceRow_of_takes h hop rfl (by decide) ((if_neg (by simp [hy])).trans (if_neg (by simp [hy, hown]))))
  · exact exec_of_fenceRow h hop rfl hq rfl rfl (by decide) (if_pos (.inr ⟨hy, hmay⟩)) rfl
  · exact exec_of_effect (s := s) (f := fun d => d.fenceSignal r) rfl
      (Dev.fenceRow_of_takes h hop rfl (by decide) (congrArg (fun e => (e.1, Verdict.of e.2)) (Dev.signal_of_above hin hy hmay hv)))

end Sys2Proof
end

section
/-! SUPPORT. How a dispatch begins (10 R299, R301): its parts join the slots and queues of their tiles. -/

namespace Sys2Proof.Machine

theorem exec_dispatch (r : Nat) (s : State) : exec (.dispatch r) s = s.after fun d => d.dispatchRow r := rfl

/-! ### The tile table -/

/-- What a table's entries give: each result is an entry's. -/
theorem exists_of_mem_mapM {α β : Type} {g : α → Option β} {xs : List α} {ys : List β} (h : xs.mapM g = some ys) {y : β} (hy : y ∈ ys) :
    ∃ x ∈ xs, g x = some y := by
  induction xs generalizing ys with
  | nil => simp_all
  | cons x xs ih =>
    simp only [List.mapM_cons, Option.bind_eq_bind, Option.bind_eq_some_iff] at h
    obtain ⟨z, hz, zs, hzs, hys⟩ := h
    obtain rfl : z :: zs = ys := by simpa using hys
    rcases List.mem_cons.1 hy with rfl | hy
    · exact ⟨x, List.mem_cons_self, hz⟩
    · obtain ⟨w, hw, hg⟩ := ih hzs hy
      exact ⟨w, List.mem_cons_of_mem _ hw, hg⟩

theorem queued_of_dispatchEntry {t : Nat} {bs : List Byte} {ps : List DPart} (h : dispatchEntry t bs = some ps) {p : DPart} (hp : p ∈ ps) :
    p.out = .queued := by
  unfold dispatchEntry at h
  dsimp only at h
  split at h
  · cases h; simp at hp
  · split at h
    · cases h
      rw [List.mem_singleton.1 hp]
    · cases h

/-- Every part of a table waits for its tile. -/
theorem queued_of_table {xs : List (Nat × List Byte)} {es : List (List DPart)}
    (h : xs.mapM (fun e => dispatchEntry e.1 e.2) = some es) {p : DPart} (hp : p ∈ es.flatten) : p.out = .queued := by
  obtain ⟨ps, hps, hp⟩ := List.mem_flatten.1 hp
  obtain ⟨x, -, hx⟩ := exists_of_mem_mapM h hps
  exact queued_of_dispatchEntry hx hp

/-! ### Parts in slots and queues -/

/-- The parts that a tile holds: those in its slots, then those that wait for one (R301). -/
def LTile.held (x : LTile) : List Slot := x.slots ++ x.queue

theorem LTile.held_fillSlots (x : LTile) : x.fillSlots.held = x.held := by
  simp [LTile.fillSlots, LTile.held]

/-- `e` has the dispatches, the device memory and the tile map of `d`, and holds every part that `d` holds. -/
structure Dev.Queues (d e : Dev) : Prop where
  dispatches : e.dispatches = d.dispatches
  mem : e.mem = d.mem
  physOf : ∀ l, e.physOf l = d.physOf l
  held : ∀ l, ∀ q ∈ (d.lt l).held, q ∈ (e.lt l).held

namespace Dev.Queues

theorem refl (d : Dev) : d.Queues d := ⟨rfl, rfl, fun _ => rfl, fun _ _ => id⟩

theorem trans {a b c : Dev} (h : a.Queues b) (k : b.Queues c) : a.Queues c :=
  ⟨k.dispatches.trans h.dispatches, k.mem.trans h.mem, fun l => (k.physOf l).trans (h.physOf l), fun l q hq => k.held l q (h.held l q hq)⟩

theorem restState (d : Dev) (l : Nat) : d.Queues (d.restState l) :=
  ⟨by simp, by simp, d.physOf_restState l, fun m q hq => by rw [Dev.lt_restState]; exact hq⟩

theorem setUnit (d : Dev) (u : UnitType) (i : Nat) (x : UnitRec) : d.Queues (d.setUnit u i x) := ⟨rfl, rfl, fun _ => rfl, fun _ _ => id⟩

theorem stopTest (d : Dev) (l : Nat) : d.Queues (d.stopTest l) := by
  unfold Dev.stopTest
  split
  · exact refl d
  · split
    · exact (setUnit ..).trans (restState ..)
    · exact refl d

theorem setLt {d : Dev} {l : Nat} {x : LTile} (h : ∀ q ∈ (d.lt l).held, q ∈ x.held) : d.Queues (d.setLt l x) :=
  ⟨rfl, rfl, fun _ => rfl, fun m q hq => by
    rw [Dev.lt_setLt]
    split
    · next hm => exact h q (hm ▸ hq)
    · exact hq⟩

end Dev.Queues

/-- The slot in which a part begins: at its first op, with nothing carried. -/
def DPart.slot (p : DPart) (r seq ctx : Nat) : Slot :=
  { ring := r, seq := seq, ctx := ctx, list := p.list, key := p.key, op := 0, unit := 0, wait := none, carry := Carry.blank }

/-- A part on a backed tile joins what the tile holds. -/
theorem Dev.queues_queuePart {d : Dev} {p : DPart} (r seq ctx : Nat) (h : d.physOf p.tile ≠ none) :
    d.Queues (d.queuePart r seq ctx p) ∧ p.slot r seq ctx ∈ ((d.queuePart r seq ctx p).lt p.tile).held := by
  let x := d.lt p.tile
  let y : LTile := ({ x with queue := x.queue ++ [p.slot r seq ctx] } : LTile).fillSlots
  have hy : y.held = x.held ++ [p.slot r seq ctx] := (LTile.held_fillSlots _).trans (List.append_assoc ..).symm
  have hjoin : d.Queues (d.setLt p.tile y) := .setLt fun q hq => hy ▸ List.mem_append_left _ hq
  have hmem : p.slot r seq ctx ∈ ((d.setLt p.tile y).lt p.tile).held := by
    rw [Dev.lt_setLt, if_pos rfl, hy]
    exact List.mem_append_right _ (List.mem_singleton.2 rfl)
  have hrest : (d.setLt p.tile y).Queues (d.queuePart r seq ctx p) := by
    unfold Dev.queuePart
    split
    · next hn => exact absurd hn h
    · dsimp only
      split
      · exact (Dev.Queues.stopTest ..).trans (.restState ..)
      · exact .stopTest ..
  exact ⟨hjoin.trans hrest, hrest.held _ _ hmem⟩

/-- So do the parts of a dispatch, one after the other. -/
theorem Dev.queues_foldl_queuePart (r seq ctx : Nat) (ps : List DPart) : ∀ d : Dev, (∀ p ∈ ps, d.physOf p.tile ≠ none) →
    d.Queues (ps.foldl (fun d p => d.queuePart r seq ctx p) d) ∧
      ∀ p ∈ ps, p.slot r seq ctx ∈ ((ps.foldl (fun d p => d.queuePart r seq ctx p) d).lt p.tile).held := by
  induction ps with
  | nil => exact fun d _ => ⟨.refl d, fun _ h => absurd h List.not_mem_nil⟩
  | cons p ps ih =>
    intro d h
    obtain ⟨hq, hp⟩ := Dev.queues_queuePart r seq ctx (h p List.mem_cons_self)
    obtain ⟨hqs, hps⟩ := ih (d.queuePart r seq ctx p) fun q hm => hq.physOf q.tile ▸ h q (List.mem_cons_of_mem _ hm)
    refine ⟨hq.trans hqs, fun q hm => ?_⟩
    rcases List.mem_cons.1 hm with rfl | hm
    · exact hqs.held _ _ hp
    · exact hps q hm

/-- A dispatch whose named tiles are all backed is in progress, as those before it are, and its tiles hold its parts. -/
theorem Dev.beginDispatch_of_backed {d : Dev} {r seq ctx : Nat} {ps : List DPart} (hne : ps ≠ []) (hq : ∀ p ∈ ps, p.out = .queued)
    (hb : ∀ p ∈ ps, d.physOf p.tile ≠ none) (ho : ∀ y ∈ d.dispatches, ∃ p ∈ y.parts, p.out.isOver = false) :
    (d.beginDispatch r seq ctx ps).dispatches = d.dispatches ++ [{ ring := r, seq := seq, ctx := ctx, parts := ps }] ∧
      (d.beginDispatch r seq ctx ps).mem = d.mem ∧
      ∀ p ∈ ps, p.slot r seq ctx ∈ ((d.beginDispatch r seq ctx ps).lt p.tile).held := by
  let x : Dispatch := { ring := r, seq := seq, ctx := ctx, parts := ps }
  let e := Dev.setPhase { d with dispatches := d.dispatches ++ [x] } r seq .started
  obtain ⟨hqs, hps⟩ := Dev.queues_foldl_queuePart r seq ctx ps e hb
  have hopen : ∀ y ∈ d.dispatches ++ [x], ∃ p ∈ y.parts, p.out.isOver = false := by
    intro y hy
    rcases List.mem_append.1 hy with hy | hy
    · exact ho y hy
    · obtain ⟨p, hp⟩ := List.exists_mem_of_ne_nil ps hne
      rw [List.mem_singleton.1 hy]
      exact ⟨p, hp, by rw [hq p hp]; rfl⟩
  have hall : d.beginDispatch r seq ctx ps = ps.foldl (fun d p => d.queuePart r seq ctx p) e :=
    Dev.settleDispatches_of_open _ (hqs.dispatches.symm ▸ hopen)
  rw [hall]
  exact ⟨hqs.dispatches, hqs.mem, hps⟩

/-! ### The row -/

section
variable {d e : Dev} {r : Nat} {a : Accepted} (h : d.starts r 1 a) (hon : d.fld 0x20000 0 1 = 1)
include h hon

theorem Dev.dispatchRow_of_bad (hb : d.dispatchBad (ringCtx r) a.desc = true) : d.dispatchRow r = d.finish r a.seq (Verdict.of 1) := by
  refine (d.startNext_of_starts h _ rfl _).trans ?_
  dsimp only
  rw [hon, if_neg (by decide), if_pos hb]

variable (hb : d.dispatchBad (ringCtx r) a.desc = false)
include hb

theorem Dev.dispatchRow_of_unread {w : MemFail}
    (ht : d.read (tileReq (ringCtx r) (dbyte a.desc 16 41 12)) (dbyte a.desc 16 0 41) (16 * (rectangle a.desc).length) = .fail e w) :
    d.dispatchRow r = e.finish r a.seq (tableFailure a.desc w) := by
  refine (d.startNext_of_starts h _ rfl _).trans ?_
  dsimp only
  rw [hon, if_neg (by decide), if_neg (by simp [hb]), ht]

variable {bs : List Byte}
  (ht : d.read (tileReq (ringCtx r) (dbyte a.desc 16 41 12)) (dbyte a.desc 16 0 41) (16 * (rectangle a.desc).length) = .ok e bs)
include ht

theorem Dev.dispatchRow_of_badTable (hp : ((rectangle a.desc).zip (chunksOf 16 1024 bs)).mapM (fun e => dispatchEntry e.1 e.2) = none) :
    d.dispatchRow r = e.finish r a.seq (Verdict.of 1) := by
  refine (d.startNext_of_starts h _ rfl _).trans ?_
  dsimp only
  rw [hon, if_neg (by decide), if_neg (by simp [hb]), ht]
  dsimp only
  rw [hp]

theorem Dev.dispatchRow_of_table {es : List (List DPart)}
    (hp : ((rectangle a.desc).zip (chunksOf 16 1024 bs)).mapM (fun e => dispatchEntry e.1 e.2) = some es) :
    d.dispatchRow r = e.beginDispatch r a.seq (ringCtx r) es.flatten := by
  refine (d.startNext_of_starts h _ rfl _).trans ?_
  dsimp only
  rw [hon, if_neg (by decide), if_neg (by simp [hb]), ht]
  dsimp only
  rw [hp]

end

end Sys2Proof.Machine
end

section
namespace Sys2Proof
open Sys2Proof.Machine

/-- Settles O23: the row goes by the table's bytes, and `Dev.beginDispatch_of_backed` says what a sound table leads to. -/
theorem dispatchBegins : Obligations.DispatchBegins := by
  intro r s a hq hs hon
  refine ⟨fun hb => exec_of_finish hq (exec_dispatch r s) (Dev.dispatchRow_of_bad hs hon hb), fun e w hb ht => ?_, fun e bs hb ht hp => ?_,
    fun e bs es hb ht hp hne hbacked hopen => ?_⟩
  · exact exec_of_effect (exec_dispatch r s) (Dev.dispatchRow_of_unread hs hon hb ht)
  · exact exec_of_effect (exec_dispatch r s) (Dev.dispatchRow_of_badTable hs hon hb ht hp)
  · obtain ⟨hdisp, hmem, hheld⟩ := Dev.beginDispatch_of_backed (r := r) (seq := a.seq) (ctx := ringCtx r) hne (fun p => queued_of_table hp)
      hbacked hopen
    exact ⟨_, exec_of_effect (exec_dispatch r s) (Dev.dispatchRow_of_table hs hon hb ht hp), hdisp,
      fun p hm => ⟨_, hheld p hm, rfl, rfl, rfl, rfl, rfl, rfl⟩, hmem⟩

end Sys2Proof
end

section
/-! SUPPORT. How a pick starts (03 R96, R98, 10 R301): from which slot, when not, its write-aside space (R305), and the fence waits
between picks. -/

namespace Sys2Proof.Machine

theorem exec_pickStart (l : Nat) (s : State) : exec (.pickStart l) s = s.after fun d => d.pickStart l := rfl

theorem exec_writeAsideReserve (l : Nat) (s : State) : exec (.writeAsideReserve l) s = s.after fun d => d.asideReserve l := rfl

theorem exec_fwait (l : Nat) (s : State) : exec (.fwait l) s = s.after fun d => d.fwaitRow l := rfl

/-! ### Which slot -/

section
variable {d : Dev} {l : Nat}

theorem Dev.undo_of_tileReady (h : d.tileReady l = true) : (d.lt l).undo = none := by
  simp only [Dev.tileReady, Bool.and_eq_true, Option.isNone_iff_eq_none] at h
  obtain ⟨⟨⟨-, hundo⟩, -⟩, -⟩ := h
  exact hundo

/-- A tile that owes its context a restore is not ready. -/
theorem Dev.tileReady_of_undo {u : Undo} (h : (d.lt l).undo = some u) : d.tileReady l = false := by
  by_contra hr
  rw [Dev.undo_of_tileReady (by simpa using hr)] at h
  cases h

theorem Dev.pickStart_of_unready (hu : (d.lt l).undo = none) (h : d.tileReady l = false) : d.pickStart l = d := by
  simp [Dev.pickStart, Dev.undoAside_of_none hu, h]

theorem Dev.pickStart_of_noSlot (hu : (d.lt l).undo = none) (h8 : d.p8 = false) (h : d.nextSlot l 0 = none) : d.pickStart l = d := by
  unfold Dev.pickStart
  simp only [Dev.undoAside_of_none hu, h8, Bool.false_eq_true, if_false, h, ite_self]

theorem Dev.pickStart_of_slot (h8 : d.p8 = false) (hr : d.tileReady l = true) {i : Nat} (h : d.nextSlot l 0 = some i) :
    d.pickStart l = d.startSlot l i := by
  unfold Dev.pickStart
  simp only [Dev.undoAside_of_none (Dev.undo_of_tileReady hr), hr, h8, Bool.not_true, Bool.false_eq_true, if_false, h]

/-- Lines left to restore are tried again, and no pick starts (R304). -/
theorem Dev.pickStart_of_undone {u : Undo} {e : Dev} {r : List (Nat × Nat × List Byte)} (hu : (d.lt l).undo = some u)
    (he : d.unaside u.ctx l u.lines = (e, r)) (hr : r ≠ []) :
    d.pickStart l = e.setLt l { e.lt l with undo := some { u with lines := r } } := by
  have h : d.undoAside l = e.setLt l { e.lt l with undo := some { u with lines := r } } := by
    unfold Dev.undoAside
    rw [hu]
    dsimp only
    rw [he]
    cases r with
    | nil => exact absurd rfl hr
    | cons => rfl
  rw [Dev.pickStart, h]
  refine if_pos ?_
  rw [Dev.tileReady_of_undo (u := { u with lines := r })]
  · rfl
  · rw [Dev.lt_setLt, if_pos rfl]

end

/-! ### What starts -/

section
variable {d e : Dev} {l i : Nat} {y : Slot} {cp : CutPick} (hy : (d.lt l).slots[i]? = some y)
  (hc : d.cutOps y.ctx y.list y.key 65537 y.op y.unit Cut.empty = (e, cp))
include hy hc

theorem Dev.startSlot_of_pieces (h : cp.cut.pieces ≠ []) : d.startSlot l i = (e.partOutcome y.ring y.seq l .begun).beginPick l i y cp := by
  unfold Dev.startSlot
  rw [hy]
  dsimp only
  rw [hc]
  exact if_neg (by simpa using h)

/-- A list that stands at an `FWAIT` gives no pick: the slot waits (R96). -/
theorem Dev.startSlot_of_fwait {n v : Nat} (h : cp.cut.pieces = []) (hn : cp.close = .fwait n v) :
    d.startSlot l i = ((e.partOutcome y.ring y.seq l .begun).setLt l
      { e.lt l with slots := modifyAt (fun s => { s with op := cp.op, unit := 0, wait := some (n, v) }) (e.lt l).slots i }).restState l := by
  unfold Dev.startSlot
  rw [hy]
  dsimp only
  rw [hc]
  dsimp only
  rw [if_pos (by simp [h]), hn]
  rfl

end

theorem Dev.lt_beginPick (d : Dev) (l i : Nat) (s : Slot) (cp : CutPick) : ∃ k : Pick,
    (d.beginPick l i s cp).lt l = { d.lt l with pick := some k, serial := ((d.lt l).serial + 1) % 2 ^ 16 } ∧ k.slot = i ∧
      k.pieces = cp.cut.pieces ∧ k.serial = ((d.lt l).serial + 1) % 2 ^ 16 ∧ k.nextOp = cp.op ∧ k.nextUnit = cp.unit ∧
      k.sets0 = (d.lt l).sets ∧ k.segs0 = (d.lt l).segs ∧ k.base0 = (d.lt l).base ∧ k.step0 = (d.lt l).step ∧ k.shadow = [] ∧ k.sigs = [] ∧
      (k.reserved = true ↔ d.inPlaceLines cp.cut = []) := by
  refine ⟨?pick, ?tile, ?fields⟩
  case tile => rw [Dev.beginPick, Dev.lt_showState, Dev.lt_setLt, if_pos rfl]
  case fields => exact ⟨rfl, rfl, rfl, rfl, rfl, rfl, rfl, rfl, rfl, rfl, rfl, List.isEmpty_iff⟩

theorem Dev.mem_beginPick (d : Dev) (l i : Nat) (s : Slot) (cp : CutPick) : (d.beginPick l i s cp).mem = d.mem := by
  simp [Dev.beginPick]

/-! ### Write-aside space (R305) -/

@[simp] theorem Dev.asideUsed_setAside (d : Dev) (k n j : Nat) : (d.setAside k n).asideUsed j = if j = k then n else d.asideUsed j := by
  simp [Dev.asideUsed, Dev.setAside, Sparse.get_set]

/-- The pick `p` of tile `l` has its space in the area of context `k`; the time it asked for it is counted. -/
def Dev.asideTaken (d : Dev) (l k : Nat) (p : Pick) : Dev :=
  ((d.setAside k (d.asideUsed k + p.asideBytes)).endAsk k p).modPickOf l fun p => { p with reserved := true }

section
variable {d : Dev} {l k : Nat} {p : Pick} (hp : (d.lt l).pick = some p) (hk : d.runCtx l = some k) (hr : p.reserved = false)
include hp hk

theorem Dev.asideReserve_of_full (h : d.asideArea k < d.asideUsed k + p.asideBytes) : d.asideReserve l = d := by
  unfold Dev.asideReserve
  rw [hp, hk]
  exact if_pos (.inr h)

include hr

theorem Dev.asideReserve_of_room (h : d.asideUsed k + p.asideBytes ≤ d.asideArea k) : d.asideReserve l = d.asideTaken l k p := by
  unfold Dev.asideReserve
  rw [hp, hk]
  exact if_neg (by simp [hr, h])

omit hk in
theorem Dev.asideTaken_of_asking : (d.asideTaken l k p).dues = d.dues ∧ ((d.asideTaken l k p).lt l).pick = some { p with reserved := true } ∧
    (d.asideTaken l k p).asideUsed k = d.asideUsed k + p.asideBytes ∧
    (d.asideTaken l k p).reg (0x4188 + 0x100 * ctxPart k) =
      d.reg (0x4188 + 0x100 * ctxPart k) + BitVec.ofNat 64 (d.now - p.askedAt) := by
  have hask : (d.setAside k (d.asideUsed k + p.asideBytes)).endAsk k p =
      (d.setAside k (d.asideUsed k + p.asideBytes)).bump (0x4188 + 0x100 * ctxPart k) (d.now - p.askedAt) := if_neg (by simp [hr])
  rw [Dev.asideTaken, hask]
  refine ⟨by simp [Dev.dues, Dev.modPickOf, Dev.setAside], ?_, ?_, ?_⟩
  · rw [Dev.modPickOf_pick]
    exact congrArg (Option.map _) hp
  · have haside (e : Dev) (o n : Nat) (f : Pick → Pick) : ((e.bump o n).modPickOf l f).asideUsed k = e.asideUsed k := rfl
    rw [haside, Dev.asideUsed_setAside, if_pos rfl]
  · have hreg (e : Dev) (o : Nat) (f : Pick → Pick) : (e.modPickOf l f).reg o = e.reg o := rfl
    rw [hreg, Dev.reg_bump, if_pos rfl]
    rfl

end

/-! ### Fence waits -/

section
variable {d : Dev} {l n v : Nat} {y : Slot}

theorem Dev.fwaitRow_of_slot (hs : d.servingIn (tilePart d.parts l) = true) (hp : (d.lt l).pick = none) (hr : (d.lt l).replay = none)
    (hy : (d.lt l).slots = [y]) : d.fwaitRow l = (d.waitSlot l 0).restState l := by
  unfold Dev.fwaitRow
  rw [if_neg (by simp [hs, hp, hr]), hy]
  rfl

variable (hy : (d.lt l).slots = [y]) (hw : y.wait = some (n, v))
include hy hw

theorem Dev.waitSlot_of_ready (h : d.waitFence y.ctx n v = .ready) :
    d.waitSlot l 0 = d.setLt l { d.lt l with slots := [{ y with op := y.op + 1, unit := 0, wait := none }] } := by
  have h0 : (d.lt l).slots[0]? = some y := by rw [hy]; rfl
  unfold Dev.waitSlot
  rw [h0]
  dsimp only
  rw [hw]
  dsimp only
  rw [h, hy]
  rfl

theorem Dev.waitSlot_of_notYet (h : d.waitFence y.ctx n v = .notYet) : d.waitSlot l 0 = d := by
  have h0 : (d.lt l).slots[0]? = some y := by rw [hy]; rfl
  unfold Dev.waitSlot
  rw [h0]
  dsimp only
  rw [hw]
  dsimp only
  rw [h]

end

@[simp] theorem Dev.dues_restState (d : Dev) (l : Nat) : (d.restState l).dues = d.dues := by simp [Dev.dues]

theorem Dev.slots_restState (d : Dev) (l m : Nat) : ((d.restState l).lt m).slots = (d.lt m).slots := by rw [Dev.lt_restState]

end Sys2Proof.Machine
end

section
namespace Sys2Proof
open Sys2Proof.Machine

/-- Settles O24: what the tile's debts, its readiness and the cut of its best slot make of `PICK_START`, and the two rows beside it. -/
theorem pickStarts : Obligations.PickStarts := by
  intro l s hq
  refine ⟨fun hu h => exec_of_idle hq (exec_pickStart l s) (Dev.pickStart_of_unready hu h),
    fun hu h8 h => exec_of_idle hq (exec_pickStart l s) (Dev.pickStart_of_noSlot hu h8 h),
    fun u e r hu he hr => exec_of_effect (exec_pickStart l s) (Dev.pickStart_of_undone hu he hr),
    fun i y e cp h8 hr hi hy hc => ⟨fun h => ?_, fun n v h hn hslots => ?_⟩, fun p k hp hk hres => ⟨fun h => ?_, fun h => ?_⟩,
    fun y n v hs hp hrep hy hw => ?_⟩
  · have hstart := (Dev.pickStart_of_slot h8 hr hi).trans (Dev.startSlot_of_pieces hy hc h)
    let b := e.partOutcome y.ring y.seq l .begun
    obtain ⟨k, hk, hslot, hpieces, hserial, hop, hunit, hsets, hsegs, hbase, hstep, hshadow, hsigs, hres⟩ := b.lt_beginPick l i y cp
    exact ⟨_, k, exec_of_effect (exec_pickStart l s) hstart, congrArg LTile.pick hk, hslot, hpieces, hserial, hop, hunit, hsets, hsegs, hbase,
      hstep, hshadow, hsigs, hres, (congrArg LTile.store hk).trans rfl, b.mem_beginPick l i y cp⟩
  · have hstart := (Dev.pickStart_of_slot h8 hr hi).trans (Dev.startSlot_of_fwait hy hc h hn)
    refine ⟨_, exec_of_effect (exec_pickStart l s) hstart, ?_, ?_⟩
    · rw [Dev.lt_restState, Dev.lt_setLt, if_pos rfl]
    · rw [Dev.slots_restState, Dev.lt_setLt, if_pos rfl, hslots]
  · exact exec_of_idle hq (exec_writeAsideReserve l s) (Dev.asideReserve_of_full hp hk h)
  · obtain ⟨hdues, hpick, hused, hreg⟩ := Dev.asideTaken_of_asking (k := k) hp hres
    exact ⟨_, exec_of_dues hq (exec_writeAsideReserve l s) (Dev.asideReserve_of_room hp hk hres h) hdues, hpick, hused, hreg⟩
  · have hrow := Dev.fwaitRow_of_slot hs hp hrep hy
    refine ⟨fun h => ?_, fun h => ?_⟩
    · rw [Dev.waitSlot_of_ready hy hw h] at hrow
      refine ⟨_, exec_of_dues hq (exec_fwait l s) hrow (by simp [Dev.dues]), ?_, by simp⟩
      exact (Dev.slots_restState ..).trans (by rw [Dev.lt_setLt, if_pos rfl])
    · rw [Dev.waitSlot_of_notYet hy hw h] at hrow
      exact ⟨_, exec_of_dues hq (exec_fwait l s) hrow (Dev.dues_restState ..), (Dev.slots_restState ..).trans hy, by simp⟩

end Sys2Proof
end

section
/-! SUPPORT. Accesses to device memory leave every tile as it is: reads, writes, and the re-encryption steps and stripe rows that a
write takes first (12 R353, R368, R369, 08 R232, R233). -/

namespace Sys2Proof.Machine

variable (d : Dev)

/-! ### Reads and signals -/

@[simp] theorem Dev.tiles_refuse (q : Req) (a : Nat) (w f : Bool) : (d.refuse q a w f).tiles = d.tiles := by
  unfold Dev.refuse
  dsimp only
  split <;> simp

@[simp] theorem Dev.tiles_read (q : Req) (a n : Nat) : (d.read q a n).dev.tiles = d.tiles := by
  have h := Dev.tiles_readLines q (linesOf a n) d
  unfold Dev.read
  split
  · rfl
  · simp
  · simp
  · split <;> next he => rwa [he] at h

@[simp] theorem Dev.tiles_grantWrite (q : Req) (ls : List Nat) : (d.grantWrite q ls).dev.tiles = d.tiles := by
  unfold Dev.grantWrite
  split <;> simp

@[simp] theorem Dev.tiles_signal (k f v : Nat) (b : Bool) : (d.signal k f v b).1.tiles = d.tiles := by
  unfold Dev.signal Dev.recordCtx Dev.applySignal
  dsimp only
  (repeat' split) <;> simp

@[simp] theorem Dev.tiles_engineSignal (k f v : Nat) : (d.engineSignal k f v).1.tiles = d.tiles := by
  unfold Dev.engineSignal
  dsimp only
  split <;> simp

/-! ### Re-encryption steps -/

@[simp] theorem Dev.tiles_stopLaneTests (x : Region) : (d.stopLaneTests x).tiles = d.tiles :=
  foldl_keeps Dev.tiles (fun _ _ => by split <;> simp) _ d

@[simp] theorem Dev.tiles_startReencrypt (n : Nat) (sig : Option (Nat × Nat)) : (d.startReencrypt n sig).tiles = d.tiles := by
  unfold Dev.startReencrypt Dev.refuseRegion
  dsimp only
  split <;> simp [Dev.takeEpoch]

@[simp] theorem Dev.tiles_regionSignal (n : Nat) (sig : Option (Nat × Nat)) : (d.regionSignal n sig).tiles = d.tiles := by
  unfold Dev.regionSignal
  split <;> simp

@[simp] theorem Dev.tiles_reencryptDone (n : Nat) : (d.reencryptDone n).tiles = d.tiles := by
  unfold Dev.reencryptDone
  dsimp only
  (repeat' split) <;> simp

@[simp] theorem Dev.tiles_meetStep (n first : Nat) : (d.meetStep n first).tiles = d.tiles :=
  foldl_keeps Dev.tiles (fun _ _ => Dev.tiles_meetLine ..) _ d

@[simp] theorem Dev.tiles_drainBuf (k : Nat) (b : StepBuf) : (d.drainBuf k b).tiles = d.tiles := by
  unfold Dev.drainBuf
  dsimp only
  split
  · rfl
  · simp [Dev.setBufs]

@[simp] theorem Dev.tiles_takeStep (n i : Nat) : (d.takeStep n i).tiles = d.tiles := by
  unfold Dev.takeStep
  dsimp only
  split
  · rfl
  · exact (Dev.tiles_drainBuf ..).trans (Dev.tiles_meetStep ..)

@[simp] theorem Dev.tiles_forceStep (n l : Nat) : (d.forceStep n l).tiles = d.tiles := by
  unfold Dev.forceStep
  dsimp only
  split <;> simp

@[simp] theorem Dev.tiles_scheduleAt (n c : Nat) : (d.scheduleAt n c).tiles = d.tiles := by
  unfold Dev.scheduleAt
  dsimp only
  (repeat' split) <;> simp

/-! ### Lines written -/

@[simp] theorem Dev.tiles_setBytes (a : Nat) (bs : List Byte) : (d.setBytes a bs).tiles = d.tiles := by
  induction bs generalizing d a with
  | nil => rfl
  | cons b bs ih => exact ih _ _

@[simp] theorem Dev.tiles_setLatent (l : Nat) (f : LineFound) : (d.setLatent l f).tiles = d.tiles := rfl

@[simp] theorem Dev.tiles_touch (l : Nat) : (d.touch l).tiles = d.tiles := rfl

@[simp] theorem Dev.tiles_putLine (n k l off c : Nat) (bs : List Byte) (known : Bool) : (d.putLine n k l off c bs known).tiles = d.tiles := by
  unfold Dev.putLine
  dsimp only
  cases known <;> simp

@[simp] theorem Dev.tiles_writeLine (q : Req) (l off : Nat) (bs : List Byte) : (d.writeLine q l off bs).dev.tiles = d.tiles := by
  unfold Dev.writeLine
  split
  · rfl
  · next n _ =>
    have h : (if decide (bs.length = 128) then (d.forceStep n l, true)
        else ((d.forceStep n l).touch l).checkLine n l q.ctx q.key).1.tiles = d.tiles := by
      split
      · exact d.tiles_forceStep n l
      · exact (Dev.tiles_checkLine ..).trans (d.tiles_forceStep n l)
    dsimp only
    split <;> next he =>
      rw [he] at h
      (repeat' split) <;> simpa using h

@[simp] theorem Dev.tiles_writeLines (q : Req) (fuel a : Nat) (bs : List Byte) : (d.writeLines q fuel a bs).dev.tiles = d.tiles := by
  induction fuel generalizing d a bs with
  | zero => rfl
  | succ fuel ih =>
    have h := d.tiles_writeLine q (a / 128) (a % 128) (bs.take (128 - a % 128))
    unfold Dev.writeLines
    dsimp only
    split
    · rfl
    · split
      · next he => rw [he] at h; exact (ih ..).trans h
      · next he => rw [he] at h; exact h

/-! ### Stripe rows -/

@[simp] theorem Dev.tiles_writeHeld (p off : Nat) (bs : List Byte) : (d.writeHeld p off bs).tiles = d.tiles := by
  have h := d.tiles_writeLines (engineReq p (d.holdKey p)) (bs.length / 128 + 2) (d.holdBase p + off) bs
  unfold Dev.writeHeld
  dsimp only
  split
  · rfl
  · split <;> next he => rwa [he] at h

@[simp] theorem Dev.tiles_readUnits (p : Nat) (us : List Nat) : (d.readUnits p us).dev.tiles = d.tiles := by
  induction us generalizing d with
  | nil => rfl
  | cons u us ih =>
    unfold Dev.readUnits
    split
    · have hrest := ih d
      split <;> next he => rwa [he] at hrest
    · next a k _ =>
      have hu := d.tiles_read (engineReq p k) a 4096
      split
      · next he => rwa [he] at hu
      · next f _ he =>
        rw [he] at hu
        have hrest := (ih f).trans hu
        split <;> next hf => rwa [hf] at hrest

@[simp] theorem Dev.tiles_sendStripe (p g a : Nat) (bs : List Byte) : (d.sendStripe p g a bs).tiles = d.tiles := by
  simp [Dev.sendStripe, Dev.setPl]

@[simp] theorem Dev.tiles_sendRecords (p k c : Nat) : (d.sendRecords p k c).tiles = d.tiles :=
  foldl_keeps Dev.tiles (fun _ _ => Dev.tiles_sendStripe ..) _ d

@[simp] theorem Dev.tiles_sendStripes (p k q j : Nat) (us : List (List Byte)) : (d.sendStripes p k q j us).tiles = d.tiles := by
  induction us generalizing d j with
  | nil => rfl
  | cons u us ih => exact (ih ..).trans (Dev.tiles_sendStripe ..)

@[simp] theorem Dev.tiles_commitIfReady (p k : Nat) : (d.commitIfReady p k).tiles = d.tiles := by
  unfold Dev.commitIfReady
  dsimp only
  split
  · exact (Dev.tiles_sendRecords ..).trans (Dev.tiles_writeHeld ..)
  · rfl

@[simp] theorem Dev.tiles_countIfCommitted (p k : Nat) : (d.countIfCommitted p k).tiles = d.tiles := by
  unfold Dev.countIfCommitted
  dsimp only
  split
  · simp [Dev.writeSlot, Dev.setPl]
  · rfl

@[simp] theorem Dev.tiles_readyIfDone (p : Nat) : (d.readyIfDone p).tiles = d.tiles := by
  unfold Dev.readyIfDone
  dsimp only
  split
  · rfl
  · split
    · simp [Dev.setPl]
    · rfl

/-- The accesses of a row stand for themselves: written out, two matches on how one ends would be compared by evaluating it. -/
theorem Dev.tiles_takeRow (p q : Nat) : (d.takeRow p q).tiles = d.tiles := by
  unfold Dev.takeRow
  obtain ⟨put, hput⟩ : ∃ put, put = @Dev.writeLines := ⟨_, rfl⟩
  obtain ⟨grant, hgrant⟩ : ∃ grant, grant = @Dev.grantAll := ⟨_, rfl⟩
  obtain ⟨units, hunits⟩ : ∃ units, units = @Dev.readUnits := ⟨_, rfl⟩
  rw [← hput, ← hgrant, ← hunits]
  have hread : (units d p (rangeFrom (7 * q) 7)).dev.tiles = d.tiles := hunits ▸ d.tiles_readUnits ..
  have hwrite (c : Dev) (q fuel a bs) : (put c q fuel a bs).dev.tiles = c.tiles := hput ▸ c.tiles_writeLines ..
  dsimp only
  split
  · rfl
  · next k _ =>
    split
    · rfl
    · split
      · next he => rw [he] at hread; exact hread
      · next f us he =>
        rw [he] at hread
        have hsent : ((f.sendStripes p k q 0 us).bump (plReg p + 0x80) 7).tiles = d.tiles := (f.tiles_sendStripes ..).trans hread
        split
        · exact hsent
        · split
          · next hw => exact ((congrArg (fun r => r.dev.tiles) hw).symm.trans (hwrite ..)).trans hsent
          · next hw =>
            exact ((Dev.tiles_readyIfDone ..).trans (Dev.tiles_writeHeld ..)).trans
              (((congrArg (fun r => r.dev.tiles) hw).symm.trans (hwrite ..)).trans hsent)

@[simp] theorem Dev.tiles_forceRow (a : Nat) : (d.forceRow a).tiles = d.tiles := by
  unfold Dev.forceRow
  dsimp only
  split
  · split
    · rfl
    · exact Dev.tiles_takeRow ..
  · rfl

@[simp] theorem Dev.tiles_forceRows (ls : List Nat) : (d.forceRows ls).tiles = d.tiles :=
  foldl_keeps Dev.tiles (fun _ _ => Dev.tiles_forceRow ..) _ d

/-! ### Writes -/

@[simp] theorem Dev.tiles_write (q : Req) (a : Nat) (bs : List Byte) : (d.write q a bs).dev.tiles = d.tiles := by
  have hg := d.tiles_grantWrite q (linesOf a bs.length)
  unfold Dev.write
  split
  · next f _ he =>
    rw [he] at hg
    exact (Dev.tiles_writeLines ..).trans ((Dev.tiles_forceRows ..).trans hg)
  · next he => rwa [he] at hg

end Sys2Proof.Machine
end

section
/-! SUPPORT. How a pick ends: abandoned, with its replay (03 R101, 10 R304, 09 R263), or committed (03 R100, 10 R303). -/

namespace Sys2Proof.Machine

theorem exec_pickCommit (l : Nat) (e : Option PickError) (s : State) : exec (.pickCommit l e) s = s.after fun d => d.pickCommit l e := rfl

/-! ### In-place lines restored (R304) -/

theorem Dev.tiles_restoreLine (d : Dev) (k l line n : Nat) (bs : List Byte) : (d.restoreLine k l line n bs).dev.tiles = d.tiles := by
  have hkeep (e : Dev) : (e.keepLine k line n).tiles = e.tiles := by simp [Dev.keepLine]
  have hr := d.tiles_read (engineReq k (bits (d.asideWord k) 41 12)) (d.asideAddr k l line) 128
  unfold Dev.restoreLine
  generalize d.read (engineReq k (bits (d.asideWord k) 41 12)) (d.asideAddr k l line) 128 = r at hr ⊢
  cases r with
  | fail e w => exact (hkeep e).trans hr
  | ok e cs =>
    have hw := e.tiles_write (engineReq k n) (128 * line) bs
    rw [Res.elim]
    generalize e.write (engineReq k n) (128 * line) bs = x at hw ⊢
    cases x with
    | ok g u => exact hw.trans hr
    | fail g w =>
      rw [Res.orNote, Res.elim]
      split
      · exact hw.trans hr
      · exact (hkeep g).trans (hw.trans hr)

theorem Dev.tiles_unaside (k l : Nat) (ls : List (Nat × Nat × List Byte)) : ∀ d : Dev, (d.unaside k l ls).1.tiles = d.tiles := by
  induction ls with
  | nil => exact fun _ => rfl
  | cons e ls ih =>
    intro d
    have h := d.tiles_restoreLine k l e.1 e.2.1 e.2.2
    unfold Dev.unaside
    generalize d.restoreLine k l e.1 e.2.1 e.2.2 = r at h ⊢
    cases r with
    | ok f u => exact (ih f).trans h
    | fail f w => exact h

/-- Going on with a restore leaves every pick. -/
theorem Dev.pick_undoAside (d : Dev) (l m : Nat) : ((d.undoAside l).lt m).pick = (d.lt m).pick := by
  unfold Dev.undoAside
  split
  · rfl
  · next u _ =>
    have h := Dev.tiles_unaside u.ctx l u.lines d
    have hset (e : Dev) (he : e.tiles.logical = d.tiles.logical) (w : Option Undo) :
        ((e.setLt l { e.lt l with undo := w }).lt m).pick = (d.lt m).pick := by
      have hlt (j : Nat) : e.lt j = d.lt j := congrArg (Sparse.get (fun _ => LTile.reset) · j) he
      rw [Dev.lt_setLt, ← hlt m]
      split
      · next hm => rw [hm]
      · rfl
    split
    · next e he =>
      have hlogical : e.tiles.logical = d.tiles.logical := by rw [he] at h; exact congrArg Tiles.logical h
      exact hset (e.setAside _ _) hlogical none
    · next e r _ he =>
      rw [he] at h
      exact hset e (congrArg Tiles.logical h) _

theorem Dev.pick_unshadow (ls : List (Nat × Nat × List Byte)) (m : Nat) : ∀ d : Dev, ((d.unshadow ls).lt m).pick = (d.lt m).pick := by
  induction ls with
  | nil => exact fun _ => rfl
  | cons e ls ih =>
    intro d
    refine (ih _).trans ?_
    rw [Dev.lt_setLt]
    split
    · next hm => rw [LTile.setBytes_pick, hm]
    · rfl

theorem Dev.tiles_closeMessages (d : Dev) (k l t : Nat) (p : Pick) : (d.closeMessages k l t p).tiles = d.tiles :=
  foldl_keeps Dev.tiles (fun _ _ => by simp) _ d

/-! ### Abandoned -/

/-- An abandoned pick leaves its tile. -/
theorem Dev.pick_abandonPick {d : Dev} {l : Nat} {p : Pick} {y : Slot} (hp : (d.lt l).pick = some p)
    (hy : (d.lt l).slots[p.slot]? = some y) : ((d.abandonPick l).lt l).pick = none := by
  unfold Dev.abandonPick
  rw [hp]
  dsimp only
  rw [hy]
  dsimp only
  rw [Dev.lt_restState]
  have htiles (e : Dev) : ((if p.sent.isEmpty = true then (e.dropGets y.ctx l p.serial).closeMessages y.ctx l 7 p else
      ((e.dropGets y.ctx l p.serial).closeMessages y.ctx l 7 p).bump (shReg (ctxPart y.ctx) + 0x28) 1)).tiles = e.tiles := by
    split
    · exact Dev.tiles_closeMessages ..
    · exact Dev.tiles_closeMessages (e.dropGets y.ctx l p.serial) y.ctx l 7 p
  have hask (e : Dev) : (e.endAsk y.ctx p).tiles = e.tiles := by
    unfold Dev.endAsk
    split <;> rfl
  refine (congrArg LTile.pick (Dev.lt_congr ((htiles _).trans (hask _)) l)).trans ?_
  rw [Dev.pick_undoAside, Dev.pick_unshadow, Dev.lt_setLt, if_pos rfl]

/-! ### Replayed -/

theorem Dev.logical_claim (d : Dev) (a : Nat) : (d.claim a).1.tiles.logical = d.tiles.logical ∧ (d.claim a).2 ≠ [] := by
  unfold Dev.claim
  split
  · exact ⟨rfl, List.cons_ne_nil _ _⟩
  · dsimp only
    split <;> exact ⟨rfl, List.cons_ne_nil _ _⟩

theorem Dev.pick_startRun (d : Dev) (k l : Nat) (r : Replay) (t : Nat) : ((d.startRun k l r t).lt l).pick = (d.lt l).pick := by
  rw [Dev.startRun, Dev.lt_congr (Dev.tiles_runGets ..), Dev.lt_setLt, if_pos rfl]

/-- Each tile takes one more run of the same replay. -/
theorem Dev.replay_startRuns (k l : Nat) (ts : List Nat) : ∀ (d : Dev) (r : Replay), (d.lt l).replay = some r →
    ∃ ns : List (Nat × Nat), ns.length = ts.length ∧ ((d.startRuns k l ts).lt l).replay = some { r with on := r.on ++ ns } ∧
      ((d.startRuns k l ts).lt l).pick = (d.lt l).pick := by
  induction ts with
  | nil => exact fun d r h => ⟨[], rfl, by rw [List.append_nil]; exact h, rfl⟩
  | cons t ts ih =>
    intro d r h
    obtain ⟨ns, hlen, hreplay, hpick⟩ := ih (d.startRun k l r t) _ (d.replay_startRun k l r t)
    have hstart : d.startRuns k l (t :: ts) = (d.startRun k l r t).startRuns k l ts := by
      simp only [Dev.startRuns, List.foldl_cons, h]
    rw [hstart]
    exact ⟨_ :: ns, congrArg (· + 1) hlen, by rw [hreplay, List.append_assoc]; rfl, hpick.trans (Dev.pick_startRun ..)⟩

/-- A suspect pick leaves its tile; its replay, of the pick as it was cut, waits for its runs (09 R263). -/
theorem Dev.suspect_of_pick {d : Dev} {l a k c : Nat} {p : Pick} (hp : (d.lt l).pick = some p) (ha : d.physOf l = some a)
    (hk : d.runCtx l = some k) : ((d.suspect l c).lt l).pick = none ∧
      ∃ ns : List (Nat × Nat), ns ≠ [] ∧ ((d.suspect l c).lt l).replay = some { pick := p.again c, first := a, on := ns, runs := [], got := [] } := by
  obtain ⟨y, hy⟩ : ∃ y, (d.lt l).slots[p.slot]? = some y := by
    simp only [Dev.runCtx, hp, Option.map_eq_some_iff] at hk
    obtain ⟨y, hy, -⟩ := hk
    exact ⟨y, hy⟩
  let b := (d.bump (0x8108 + 0x80 * ctxPart k) 1).abandonPick l
  have hb : (b.lt l).pick = none := Dev.pick_abandonPick (d := d.bump _ 1) hp hy
  obtain ⟨hlogical, hne⟩ := b.logical_claim a
  let r : Replay := { pick := p.again c, first := a, on := [], runs := [], got := [] }
  let e := (b.claim a).1.setLt l { (b.claim a).1.lt l with replay := some r }
  have he : e.lt l = { (b.claim a).1.lt l with replay := some r } := (Dev.lt_setLt ..).trans (if_pos rfl)
  have hbe : (b.claim a).1.lt l = b.lt l := congrArg (Sparse.get (fun _ => LTile.reset) · l) hlogical
  obtain ⟨ns, hlen, hreplay, hpick⟩ := Dev.replay_startRuns k l (b.claim a).2 e r (by rw [he])
  have hsuspect : d.suspect l c = (e.startRuns k l (b.claim a).2).showState l 4 := by
    unfold Dev.suspect
    rw [hp, ha, hk]
  rw [hsuspect, Dev.lt_showState]
  refine ⟨by rw [hpick, he, ← hb, hbe], ns, fun h => hne (List.length_eq_zero_iff.1 (hlen ▸ by rw [h]; rfl)), hreplay⟩

/-! ### Committed -/

/-- The pick `p` of slot `s` has left tile `l`, its slot goes on, and it is counted; its signals are still to be applied. -/
def Dev.committed (d : Dev) (l : Nat) (p : Pick) (s : Slot) : Dev :=
  let q := ctxPart s.ctx
  let x := d.lt l
  let e := d.setLt l { (x.addOvf p.sat p.nanint) with
                       pick := none, slots := rotateSlot p.slot (modifyAt (fun s => s.after p) x.slots p.slot) }
  ((((e.bump (0x20108 + 0x40 * q) 1).bump (0x20118 + 0x40 * q) p.steps).bump (0x8120 + 0x80 * q) p.unchecked).account s.ctx 1 1 |>.account
    s.ctx 0 (d.now - p.start)).traceEvent 1 l

section
variable {d : Dev} {l : Nat} {p : Pick} {y : Slot}

/-- A pick that sent no message and is followed by an op commits with its signals and its write-aside space. -/
theorem Dev.commitPick_of_unsent (hs : p.sent = []) (ha : p.all16 = []) (hc : p.close = .bound) (hr : p.reserved = true) :
    d.commitPick l p y =
      (((d.committed l p y).applySigs y.ctx p.sigs).setAside y.ctx
        (((d.committed l p y).applySigs y.ctx p.sigs).asideUsed y.ctx - p.asideBytes)).restState l := by
  have hclose (e : Dev) : e.closeMessages y.ctx l 6 p = e := by
    unfold Dev.closeMessages
    rw [hs, ha]
    rfl
  unfold Dev.commitPick
  dsimp only
  rw [hclose, hc, Dev.releaseAside, if_pos hr]
  rfl

theorem Dev.committed_rest : (d.committed l p y).mem = d.mem ∧ (d.committed l p y).shuttle = d.shuttle ∧
    (d.committed l p y).fences = d.fences ∧ (d.committed l p y).asideUsed = d.asideUsed := by
  refine ⟨by simp [Dev.committed], by simp [Dev.committed], by simp [Dev.committed], ?_⟩
  have h : (d.committed l p y).tiles.aside = d.tiles.aside := by simp [Dev.committed, Dev.setLt]
  funext j
  rw [Dev.asideUsed, h, Dev.asideUsed]

theorem Dev.lt_committed (hslot : p.slot = 0) (hy : (d.lt l).slots = [y]) :
    (d.committed l p y).lt l = { ((d.lt l).addOvf p.sat p.nanint) with pick := none, slots := [y.after p] } := by
  have h : (d.committed l p y).tiles = (d.setLt l { ((d.lt l).addOvf p.sat p.nanint) with
      pick := none, slots := rotateSlot p.slot (modifyAt (fun s => s.after p) (d.lt l).slots p.slot) }).tiles := by
    simp [Dev.committed]
  rw [Dev.lt_congr h, Dev.lt_setLt, if_pos rfl, hslot, hy]
  rfl

/-- The counters of commits, of steps and of unchecked steps are those that change. -/
theorem Dev.reg_committed (o : Nat) (hsteps : o ≠ 0x20118 + 0x40 * ctxPart y.ctx) (hun : o ≠ 0x8120 + 0x80 * ctxPart y.ctx) :
    (d.committed l p y).reg o = if o = 0x20108 + 0x40 * ctxPart y.ctx then d.reg o + 1 else d.reg o := by
  let e := d.setLt l { ((d.lt l).addOvf p.sat p.nanint) with
    pick := none, slots := rotateSlot p.slot (modifyAt (fun s => s.after p) (d.lt l).slots p.slot) }
  have h : (d.committed l p y).regs = (((e.bump (0x20108 + 0x40 * ctxPart y.ctx) 1).bump (0x20118 + 0x40 * ctxPart y.ctx) p.steps).bump
      (0x8120 + 0x80 * ctxPart y.ctx) p.unchecked).regs := by simp [Dev.committed, e]
  rw [Dev.reg_congr h, Dev.reg_bump, if_neg hun, Dev.reg_bump, if_neg hsteps, Dev.reg_bump]
  split
  · next ho => rw [ho]; rfl
  · rfl

end

theorem Dev.mem_engineSignal (d : Dev) (k f v : Nat) : (d.engineSignal k f v).1.mem = d.mem := by
  unfold Dev.engineSignal
  dsimp only
  split
  · exact d.mem_signal k f v false
  · exact d.mem_signal k f v false

/-- A pick's signals leave tiles, device memory and the Shuttles. -/
theorem Dev.applySigs_rest (k : Nat) (sigs : List (Nat × Nat)) : ∀ d : Dev,
    (d.applySigs k sigs).tiles = d.tiles ∧ (d.applySigs k sigs).mem = d.mem ∧ (d.applySigs k sigs).shuttle = d.shuttle := by
  induction sigs with
  | nil => exact fun _ => ⟨rfl, rfl, rfl⟩
  | cons e sigs ih =>
    intro d
    obtain ⟨htiles, hmem, hshuttle⟩ := ih (d.engineSignal k e.1 e.2).1
    exact ⟨htiles.trans (d.tiles_engineSignal ..), hmem.trans (d.mem_engineSignal ..), hshuttle.trans (d.shuttle_engineSignal ..)⟩

theorem Dev.engineSignal_of_above {d : Dev} {k f v : Nat} (hin : d.fenceIn k f = true) (h : (d.fence f).st = .live)
    (hk : (d.fence f).maySignal k = true) (hv : (d.fence f).value < v) : (d.engineSignal k f v).1 = d.applySignal f v := by
  unfold Dev.engineSignal
  rw [Dev.signal_of_above hin h hk hv]
  rfl

theorem Dev.asideUsed_restState (d : Dev) (l k : Nat) : (d.restState l).asideUsed k = d.asideUsed k := by
  unfold Dev.restState
  dsimp only
  rw [Dev.asideUsed, Dev.showState_tiles]
  (repeat' split) <;> rfl

/-- The tile at rest after its pick gave up space in write-aside. -/
theorem Dev.rest_of_released (d : Dev) (l k n : Nat) :
    ((d.setAside k n).restState l).mem = d.mem ∧ ((d.setAside k n).restState l).shuttle = d.shuttle ∧
      ((d.setAside k n).restState l).fences = d.fences ∧ ((d.setAside k n).restState l).asideUsed k = n ∧
      ∃ w, ((d.setAside k n).restState l).lt l = { d.lt l with waitFrom := w } := by
  refine ⟨by simp [Dev.setAside], by simp [Dev.setAside], by simp [Dev.setAside], ?_, _, Dev.lt_restState ..⟩
  rw [Dev.asideUsed_restState, Dev.asideUsed_setAside, if_pos rfl]

/-! ### The row -/

section
variable {d : Dev} {l k : Nat} {p : Pick} {y : Slot} {e : Option PickError} (hp : (d.lt l).pick = some p) (hk : d.runCtx l = some k)
include hp hk

theorem Dev.pickCommit_of_unfinished (h : p.pieces ≠ [] ∨ d.mayRun k l p = false) : d.pickCommit l e = d := by
  unfold Dev.pickCommit
  rw [hp, hk]
  exact if_pos (by simpa using h)

variable (h0 : p.pieces = []) (hm : d.mayRun k l p = true)
include h0 hm

theorem Dev.pickCommit_of_suspect {c : Nat} (hc : d.causeOf (ctxPart k) p e = some c) : d.pickCommit l e = d.suspect l c := by
  unfold Dev.pickCommit
  rw [hp, hk]
  refine (if_neg (by simp [h0, hm])).trans ?_
  rw [hc]

theorem Dev.pickCommit_of_passed (hc : d.causeOf (ctxPart k) p e = none) (hy : (d.lt l).slots[p.slot]? = some y) :
    d.pickCommit l e = d.commitPick l p y := by
  unfold Dev.pickCommit
  rw [hp, hk]
  refine (if_neg (by simp [h0, hm])).trans ?_
  rw [hc]
  dsimp only
  rw [hy]

end

/-! ### Errors that a check meets (09 R259, R262) -/

theorem Dev.causeOf_iff (d : Dev) (q : Nat) {p : Pick} (e : PickError) (h : p.suspect = none) :
    (∃ c, d.causeOf q p (some e) = some c) ↔ d.sees q p e = true := by
  simp only [Dev.causeOf, h, Option.bind_some]
  by_cases hs : d.sees q p e = true <;> simp [hs]

theorem Dev.spotCount_eq (d : Dev) {q n : Nat} (h : d.fld (0x8100 + 0x80 * q) 0 2 = n) (hn : n < 3) : d.spotCount q = 2 ^ n := by
  unfold Dev.spotCount
  rw [h]
  interval_cases n <;> rfl

end Sys2Proof.Machine
end

section
namespace Sys2Proof
open Sys2Proof.Machine

/-- Settles O28: a passed pick commits through `Dev.committed` and its signals, a suspect one is abandoned and replayed. -/
theorem pickCommits : Obligations.PickCommits := by
  intro l s p k y hq hp hk hslots hslot
  have hy : (s.dev.lt l).slots[p.slot]? = some y := by rw [hslots, hslot]; rfl
  obtain rfl : y.ctx = k := by simpa [Dev.runCtx, hp, hy] using hk
  have hpart := ctxPart_lt y.ctx
  refine ⟨fun e h => exec_of_idle hq (exec_pickCommit l e s) (Dev.pickCommit_of_unfinished hp hk h),
    fun e h0 hm hc hsent hall hclose => ?commits, fun e c a h0 hm hc ha => ?_, fun e h => s.dev.causeOf_iff _ e h, fun r n hr hn h3 => ?_⟩
  case commits =>
    have hres : p.reserved = true := by
      simp only [Dev.mayRun, Bool.and_eq_true] at hm
      obtain ⟨⟨⟨-, hres⟩, -⟩, -⟩ := hm
      exact hres
    have hrow := (Dev.pickCommit_of_passed hp hk h0 hm hc hy).trans (Dev.commitPick_of_unsent hsent hall hclose hres)
    obtain ⟨hmem, hshuttle, hfences, haside⟩ := Dev.committed_rest (d := s.dev) (l := l) (p := p) (y := y)
    have hlt := Dev.lt_committed hslot hslots
    have hreg (o : Nat) := Dev.reg_committed (d := s.dev) (l := l) (p := p) (y := y) o
    generalize s.dev.committed l p y = c at hrow hmem hshuttle hfences haside hlt hreg
    obtain ⟨htiles, hsmem, hsshuttle⟩ := Dev.applySigs_rest y.ctx p.sigs c
    have hused : (c.applySigs y.ctx p.sigs).asideUsed y.ctx = s.dev.asideUsed y.ctx := by
      rw [← haside, Dev.asideUsed, htiles, Dev.asideUsed]
    rw [hused] at hrow
    obtain ⟨hfmem, hfshuttle, hffences, hfaside, w, hflt⟩ :=
      (c.applySigs y.ctx p.sigs).rest_of_released l y.ctx (s.dev.asideUsed y.ctx - p.asideBytes)
    rw [Dev.lt_congr htiles, hlt] at hflt
    refine ⟨_, exec_of_effect (exec_pickCommit l e s) hrow, by rw [hflt], by rw [hflt]; rfl, by rw [hflt]; rfl, by rw [hflt]; rfl,
      by rw [hflt], hfmem.trans (hsmem.trans hmem), hfshuttle.trans (hsshuttle.trans hshuttle), hfaside, fun hsigs => ⟨?_, ?_⟩,
      fun n v hsigs hlive hmay hin hv => ?_⟩
    · exact hffences.trans ((by rw [hsigs]; rfl : _ = c.fences).trans hfences)
    · rw [hsigs, Dev.reg_restState _ _ _ (by omega)]
      exact (hreg _ (by omega) (by omega)).trans (if_pos rfl)
    · have hfence (m : Nat) : c.fence m = s.dev.fence m := congrArg (Sparse.get (fun _ => Fence.reset) · m) hfences
      have hparts : c.parts = s.dev.parts := Dev.parts_of_reg ((hreg 0x1C (by omega) (by omega)).trans (if_neg (by omega)))
      have hrange : c.fenceIn y.ctx n = true := by rw [Dev.fenceIn, hparts]; exact hin
      have happly : c.applySigs y.ctx p.sigs = c.applySignal n v := by
        rw [hsigs]
        exact Dev.engineSignal_of_above hrange (by rw [hfence]; exact hlive) (by rw [hfence]; exact hmay) (by rw [hfence]; exact hv)
      rw [happly] at hffences
      have hf (m : Nat) : ((((c.applySigs y.ctx p.sigs).setAside y.ctx (s.dev.asideUsed y.ctx - p.asideBytes)).restState l).fence m) =
          if m = n then { s.dev.fence n with value := v } else s.dev.fence m := by
        rw [← hfence, ← hfence, ← Dev.fence_applySignal, happly]
        exact congrArg (Sparse.get (fun _ => Fence.reset) · m) hffences
      exact ⟨(congrArg Fence.value (hf n)).trans (by rw [if_pos rfl]), fun m hm => (hf m).trans (if_neg hm)⟩
  · obtain ⟨hpick, ns, hns, hreplay⟩ := Dev.suspect_of_pick (c := c) hp ha hk
    exact ⟨_, _, exec_of_effect (exec_pickCommit l e s) (Dev.pickCommit_of_suspect hp hk h0 hm hc), hpick, hreplay, rfl, rfl, hns, rfl, rfl⟩
  · simp [Dev.sees, Dev.spotRow, s.dev.spotCount_eq hn h3, hr]

end Sys2Proof
end

section
/-! SUPPORT. How a context opens (10 R309, R315) and how P8 contexts open and come in (R310, Table 10-16). -/

namespace Sys2Proof.Machine

theorem exec_ctxOpen {p : Nat} (hp : p < 4) (s : State) : exec (.ctxOpen p) s = s.after fun d => d.openCtx s.fuses.lc p := by
  show (s.after fun d => if p < 4 then d.openCtx s.fuses.lc p else d) = _
  simp only [if_pos hp]

theorem exec_p8Open (c image : Nat) (s : State) : exec (.p8Open c image) s = s.after fun d => d.p8Open s.fuses.lc c image := rfl

theorem exec_makeResident (c : Nat) (s : State) : exec (.makeResident c) s = s.after fun d => d.makeResident c := rfl

/-! ### What is dropped from a table -/

theorem Sparse.get_filter_key {α : Type} (d : Nat → α) (f : Nat → Bool) (m : Sparse α) (k : Nat) :
    Sparse.get d (m.filter fun e => f e.1) k = if f k then Sparse.get d m k else d k := by
  induction m with
  | nil => simp
  | cons e m ih =>
    obtain ⟨i, v⟩ := e
    by_cases hi : f i = true
    · rw [List.filter_cons_of_pos (by simpa using hi), Sparse.get, Sparse.get, ih]
      by_cases hk : k = i
      · rw [if_pos hk, if_pos hk, hk, if_pos hi]
      · rw [if_neg hk, if_neg hk]
    · rw [List.filter_cons_of_neg (by simpa using hi), ih, Sparse.get]
      by_cases hk : k = i
      · rw [hk, if_neg hi, if_neg hi]
      · rw [if_neg hk]

/-- A cleared range reads as nothing; the rest as before. -/
theorem Sparse.get_clear {α : Type} (d : Nat → α) (m : Sparse α) (lo hi k : Nat) :
    Sparse.get d (Sparse.clear m lo hi) k = if lo ≤ k ∧ k < hi then d k else Sparse.get d m k := by
  rw [Sparse.clear, Sparse.get_filter_key d (fun i => !(decide (lo ≤ i) && decide (i < hi)))]
  by_cases h : lo ≤ k ∧ k < hi <;> simp [h]

/-! ### A context that holds (R309, R315) -/

theorem Dev.dues_recordReg (d : Dev) (c o v : Nat) : (d.recordReg c o v).dues = d.dues := by simp [Dev.dues, Dev.recordReg]

theorem Dev.dues_setCtx (d : Dev) (k : Nat) (x : Ctx) : (d.setCtx k x).dues = d.dues := rfl

theorem Dev.ctx_moveCtx (d : Dev) (k : Nat) (st : CtxState) (j : Nat) :
    (d.moveCtx k st).ctx j = if j = k then { d.ctx k with st := st } else d.ctx j := by
  unfold Dev.moveCtx
  split
  · next h =>
    split
    · next hj => rw [hj, ← h]
    · rfl
  · rw [Dev.ctx_congr (b := d.setCtx k { d.ctx k with st := st }) (by simp), Dev.ctx_setCtx]

theorem Dev.mem_moveCtx (d : Dev) (k : Nat) (st : CtxState) : (d.moveCtx k st).mem = d.mem := by
  unfold Dev.moveCtx
  split <;> simp

/-- The accounting starts from zero. -/
def Ctx.begun (x : Ctx) (now : Nat) : Ctx := { x with phase := 0, acc := [0, 0, 0, 0, 0, 0, 0, 0], lastUse := now, st := .opened }

theorem Dev.ctx_holdCtx (d : Dev) (k : Nat) (x : Ctx) : (d.holdCtx k x).ctx k = x.begun d.now := by
  let y : Ctx := { x with phase := 0, acc := [0, 0, 0, 0, 0, 0, 0, 0], lastUse := d.now }
  have h : (d.holdCtx k x).ctxs = ((d.setCtx k y).moveCtx k .opened).ctxs := by
    simp [Dev.holdCtx, Dev.recordCtx, Dev.freeBroken, y]
  rw [Dev.ctx_congr h, Dev.ctx_moveCtx, if_pos rfl, Dev.ctx_setCtx, if_pos rfl]
  rfl

theorem Dev.mem_holdCtx (d : Dev) (k : Nat) (x : Ctx) : (d.holdCtx k x).mem = d.mem := by
  simp [Dev.holdCtx, Dev.recordCtx, Dev.freeBroken, Dev.mem_moveCtx]

/-! ### `OPEN` -/

/-- The journal granule that `HX_JRNL` of partition `p` names. -/
def Dev.journalAt (d : Dev) (p : Nat) : Nat := d.fld (ctxReg p + 0x20) 21 20 * granuleBytes

/-- Its bytes are 0. -/
def Dev.journalZeroed (d : Dev) (p : Nat) : Dev :=
  { d with mem := Sparse.clear d.mem (d.journalAt p) (d.journalAt p + granuleBytes) }

/-- The opened context `p`, its rings not yet looked at. -/
def Dev.openedCtx (d : Dev) (p : Nat) : Dev :=
  let e := (((d.journalZeroed p).holdCtx p (d.ctx p)).setReg (ctxReg p + 0xD8) 0).setReg (ctxReg p + 0xF8) 0
  (e.setWf p { e.wf p with nextHalf := 0 }).setSh p { e.sh p with ingress := [] }

section
variable {d : Dev} {lc : LifeCycle} {p : Nat}

theorem Dev.openCtx_of_refused (ht : d.takesWrite (ctxReg p)) (h : d.canOpen lc p = false) :
    d.openCtx lc p = d.recordReg 0x0003 (ctxReg p) 1 := by
  rw [Dev.openCtx, Dev.onWrite_of_takesWrite d ht]
  exact if_pos (by simp [h])

theorem Dev.openCtx_of_admitted (ht : d.takesWrite (ctxReg p)) (h : d.canOpen lc p = true) :
    d.openCtx lc p = (rangeFrom (64 * p) 64).foldl Dev.firstLook (d.openedCtx p) := by
  rw [Dev.openCtx, Dev.onWrite_of_takesWrite d ht]
  exact if_neg (by simp [h])

theorem Dev.ctx_openedCtx (d : Dev) (p : Nat) : (d.openedCtx p).ctx p = (d.ctx p).begun d.now := by
  have h : (d.openedCtx p).ctxs = ((d.journalZeroed p).holdCtx p (d.ctx p)).ctxs := by simp [Dev.openedCtx]
  exact (Dev.ctx_congr h p).trans ((d.journalZeroed p).ctx_holdCtx p (d.ctx p))

theorem Dev.mem_openedCtx (d : Dev) (p : Nat) :
    (d.openedCtx p).mem = Sparse.clear d.mem (d.journalAt p) (d.journalAt p + granuleBytes) := by
  have h : (d.openedCtx p).mem = ((d.journalZeroed p).holdCtx p (d.ctx p)).mem := by simp [Dev.openedCtx]
  exact h.trans (Dev.mem_holdCtx ..)

/-- What `OPEN` asks for (R309). -/
theorem Dev.conditions_of_canOpen (h : d.canOpen lc p = true) : (d.ctx p).st = .closed ∧ (d.ctx p).seedSet = true ∧
    d.fld (ctxReg p + 0x10) 0 12 ≠ 0 ∧ d.fld (ctxReg p + 0x20) 41 12 ≠ 0 ∧ d.fld (ctxReg p + 0x28) 41 12 ≠ 0 ∧
    d.fld (ctxReg p + 0x28) 53 7 ≠ 0 ∧ d.p8 = false := by
  simp only [Dev.canOpen, Dev.areaOk, Bool.and_eq_true, decide_eq_true_eq, Bool.not_eq_true', ne_eq] at h
  obtain ⟨⟨⟨⟨⟨⟨⟨⟨⟨-, h8⟩, -⟩, -⟩, hst⟩, hseed⟩, hjob⟩, hjournal, -⟩, hsize⟩, haside, -⟩ := h
  exact ⟨hst, hseed, hjob, hjournal, haside, hsize, h8⟩

end

/-! ### P8 contexts (R310) -/

theorem Dev.p8Rings_rest (d : Dev) (k : Nat) (img : List Byte) : (d.p8Rings k img).ctxs = d.ctxs ∧ (d.p8Rings k img).mem = d.mem := by
  have hset (r i : Nat) (e : Dev) (js : List Nat) :
      (js.foldl (fun d j => d.setReg (ringReg r + 8 * j) (BitVec.ofNat 64 (imgField img (32 * i + 8 * j) 8))) e).ctxs = e.ctxs ∧
        (js.foldl (fun d j => d.setReg (ringReg r + 8 * j) (BitVec.ofNat 64 (imgField img (32 * i + 8 * j) 8))) e).mem = e.mem := by
    constructor
    · refine foldl_keeps Dev.ctxs (fun _ _ => ?_) _ _
      rfl
    · refine foldl_keeps Dev.mem (fun _ _ => ?_) _ _
      rfl
  unfold Dev.p8Rings
  constructor
  · refine foldl_keeps Dev.ctxs (fun e i => ?_) _ _
    exact (hset (256 + 4 * (k - 4) + i) i e _).1
  · refine foldl_keeps Dev.mem (fun e i => ?_) _ _
    exact (hset (256 + 4 * (k - 4) + i) i e _).2

/-- The context that an image describes. -/
def p8Image (img : List Byte) : Ctx :=
  { Ctx.reset with seedSet := true, ntiles := imgField img 136 2, seed := imgField img 128 8,
                   save := imgField img 144 8, journal := imgField img 152 8, waside := imgField img 160 8 }

section
variable {d : Dev} {k v : Nat} {img : List Byte}

theorem Dev.p8Take_of_sound (hi : p8ImageOk img = true) (ha : d.p8AreasOk k img = true) :
    d.p8Take k v img = (d.holdCtx k (p8Image img)).p8Rings k img :=
  (if_neg (by simp [hi])).trans (if_neg (by simp [ha]))

/-- The areas of an image depend on no count of host bytes. -/
theorem Dev.p8AreasOk_hostCount (w : Bool) (c n : Nat) : (d.hostCount w c n).p8AreasOk k img = d.p8AreasOk k img := rfl

end

section
variable {d : Dev} {lc : LifeCycle} {c image : Nat} (ht : d.takesWrite p8Cmd)
include ht

theorem Dev.p8Open_of_native (h8 : d.p8 = false) :
    d.p8Open lc c image = d.recordReg 0x0003 p8Cmd (c + image / 2 ^ 15 * 2 ^ 15) := by
  rw [Dev.p8Open]
  dsimp only
  rw [Dev.onWrite_of_takesWrite d ht]
  exact if_pos (by simp [h8])

theorem Dev.p8Open_of_met (h8 : d.p8 = true) (hc : c < 4096) (hs : d.servingIn 0 = true) (hlc : lc.opens = true)
    (hst : (d.ctx (4 + c)).st = .closed) (hkey : d.fld 0x4010 41 12 ≠ 0) (hjob : d.fld 0x4110 0 12 ≠ 0) :
    d.p8Open lc c image =
      if !d.hostMay false 0 512 then d.setCtx (4 + c) { d.ctx (4 + c) with asked := some (image / 2 ^ 15 * 2 ^ 15) }
      else (d.hostCount false (4 + c) 512).p8Take (4 + c) (c + image / 2 ^ 15 * 2 ^ 15) (d.hostBytes (image / 2 ^ 15 * 2 ^ 15) 512) := by
  rw [Dev.p8Open]
  dsimp only
  rw [Dev.onWrite_of_takesWrite d ht]
  exact if_neg (by simp [h8, hc, hs, hlc, hst, hkey, hjob])

theorem Dev.makeResident_of_refused (h : d.p8 = false ∨ d.ctxOpen (4 + c) = false) :
    d.makeResident c = d.recordReg 0x0003 p8Cmd (c + 2 ^ 12) := by
  rw [Dev.makeResident]
  dsimp only
  rw [Dev.onWrite_of_takesWrite d ht]
  exact if_pos (by rcases h with h | h <;> simp [h])

theorem Dev.makeResident_of_open (h8 : d.p8 = true) (hc : c < 4096) (ho : d.ctxOpen (4 + c) = true)
    (hr : (d.ctx (4 + c)).resident = false) :
    d.makeResident c = (d.setCtx (4 + c) { d.ctx (4 + c) with asked := some 0 }).seatCtx (4 + c) := by
  rw [Dev.makeResident]
  dsimp only
  rw [Dev.onWrite_of_takesWrite d ht]
  exact (if_neg (by simp [h8, hc, ho])).trans (if_neg (by simp [hr]))

end

/-- Looking at a ring leaves the contexts where they are. -/
theorem Dev.resident_firstLook (d : Dev) (r k : Nat) : ((d.firstLook r).ctx k).resident = (d.ctx k).resident := by
  have hline : ((d.lineRead r).ctx k).resident = (d.ctx k).resident := by
    have hshare : (d.lineRead r).ctxs = (d.hostCount false (ringCtx r) 64).ctxs := by
      unfold Dev.lineRead Dev.shareLine
      split <;> rfl
    rw [Dev.ctx_congr hshare, (Dev.Reported.hostCount d false (ringCtx r) 64).ctx]
  unfold Dev.firstLook
  split
  · cases hh : d.hears r with
    | false => rw [Dev.readDoorbell_of_unread (.inl hh)]
    | true =>
      cases hm : d.hostMay false (ringPart r) 64 with
      | false => rw [Dev.readDoorbell_of_unread (.inr hm)]
      | true =>
        rw [Dev.readDoorbell_of_read hh hm, ← hline]
        split
        · rw [Dev.ctx_congr (b := d.lineRead r) (by simp [Dev.recordCtx])]
        · split
          · have herr : ((d.lineRead r).ringError r).ctxs =
                (((d.lineRead r).setRing r { (d.lineRead r).ring r with st := .error }).writeStatus r).ctxs := by
              simp [Dev.ringError, Dev.recordCtx]
            rw [Dev.ctx_congr herr, ((Dev.Reported.setRing (d.lineRead r) r _).trans (.writeStatus _ r)).ctx]
          · rfl
  · rfl

theorem Dev.resident_enterResident (d : Dev) (k : Nat) : ((d.enterResident k).ctx k).resident = true := by
  refine (foldl_keeps (fun e : Dev => (e.ctx k).resident) (fun e r => e.resident_firstLook r k) _ _).trans ?_
  rw [Dev.ctx_setCtx, if_pos rfl]

section
variable {d : Dev} {k j : Nat} (hn : 48 ≤ d.residents.length) (hj : d.p8Victim = some j)
include hn hj

theorem Dev.seatCtx_of_working (h : d.holdsPart j = true) : d.seatCtx k = d := by
  unfold Dev.seatCtx
  rw [if_neg (Nat.not_lt.2 hn), hj]
  exact if_pos h

theorem Dev.seatCtx_of_idle (h : d.holdsPart j = false) :
    d.seatCtx k = (d.setCtx j { d.ctx j with resident := false }).enterResident k := by
  unfold Dev.seatCtx
  rw [if_neg (Nat.not_lt.2 hn), hj]
  exact if_neg (by simp [h])

end

end Sys2Proof.Machine
end

section
namespace Sys2Proof
open Sys2Proof.Machine

/-- Settles O42: what a refused, an admitted and a waiting command each leave. -/
theorem contextOpens : Obligations.ContextOpens := by
  intro s hq
  refine ⟨fun p hp ht => ⟨fun h => ?_, fun h => ?_⟩, fun p => Dev.conditions_of_canOpen, fun c image ht h8 => ?_,
    fun c image ht h8 hc hs hlc hst hkey hjob => ⟨fun hm => ?_, fun hm hi ha => ?_⟩,
    fun c ht => ⟨fun h => ?_, fun h8 hc ho hr => ⟨fun hn => ?_, fun j hn hj => ⟨fun h => ?_, fun h => ?_⟩⟩⟩⟩
  · exact exec_of_dues hq (exec_ctxOpen hp s) (Dev.openCtx_of_refused ht h) (Dev.dues_recordReg ..)
  · refine ⟨_, exec_of_effect (exec_ctxOpen hp s) (Dev.openCtx_of_admitted ht h), ?_, ?_, fun a hlo hhi => ?_, fun a ha => ?_⟩
    · rw [Dev.ctx_openedCtx]; rfl
    · rw [Dev.ctx_openedCtx]; rfl
    · rw [Dev.mem_openedCtx, Sparse.get_clear]
      exact if_pos ⟨hlo, hhi⟩
    · rw [Dev.mem_openedCtx, Sparse.get_clear]
      exact if_neg fun hin => ha.elim (Nat.not_lt.2 hin.1) (Nat.not_le.2 hin.2)
  · exact exec_of_dues hq (exec_p8Open c image s) (Dev.p8Open_of_native ht h8) (Dev.dues_recordReg ..)
  · exact exec_of_dues hq (exec_p8Open c image s)
      ((Dev.p8Open_of_met ht h8 hc hs hlc hst hkey hjob).trans (if_pos (by simp [hm]))) (Dev.dues_setCtx ..)
  · have hmet := (Dev.p8Open_of_met (image := image) ht h8 hc hs hlc hst hkey hjob).trans (if_neg (by simp [hm]))
    generalize s.dev.hostBytes (image / 2 ^ 15 * 2 ^ 15) 512 = img at hi ha hmet ⊢
    have hopen := hmet.trans (Dev.p8Take_of_sound hi ((Dev.p8AreasOk_hostCount ..).trans ha))
    obtain ⟨hctxs, hmem⟩ := ((s.dev.hostCount false (4 + c) 512).holdCtx (4 + c) (p8Image img)).p8Rings_rest (4 + c) img
    have hctx := (Dev.ctx_congr hctxs (4 + c)).trans (Dev.ctx_holdCtx ..)
    exact ⟨_, exec_of_effect (exec_p8Open c image s) hopen, congrArg Ctx.st hctx, congrArg Ctx.ntiles hctx, congrArg Ctx.seed hctx,
      hmem.trans (Dev.mem_holdCtx ..)⟩
  · exact exec_of_dues hq (exec_makeResident c s) (Dev.makeResident_of_refused ht h) (Dev.dues_recordReg ..)
  · exact ⟨_, exec_of_effect (exec_makeResident c s) ((Dev.makeResident_of_open ht h8 hc ho hr).trans (if_pos hn)),
      Dev.resident_enterResident ..⟩
  · exact exec_of_dues hq (exec_makeResident c s) ((Dev.makeResident_of_open ht h8 hc ho hr).trans (Dev.seatCtx_of_working hn hj h))
      (Dev.dues_setCtx ..)
  · exact exec_of_effect (exec_makeResident c s) ((Dev.makeResident_of_open ht h8 hc ho hr).trans (Dev.seatCtx_of_idle hn hj h))

end Sys2Proof
end

section
/-! SUPPORT. How a teardown ends (10 R315, R319): the owned fences break, and the context closes. -/

namespace Sys2Proof.Machine

theorem exec_teardownBreakFences (k : Nat) (s : State) : exec (.teardownBreakFences k) s = s.after fun d => d.breakRow k := rfl

theorem exec_teardownClose (k : Nat) (s : State) : exec (.teardownClose k) s = s.after fun d => d.closeRow k := rfl

/-! ### Fences broken (R315) -/

/-- A table whose values all change by `f`, which leaves what an unlisted key reads as. -/
theorem Sparse.get_map {α : Type} (d : Nat → α) (f : α → α) (m : Sparse α) (k : Nat) (h : f (d k) = d k) :
    Sparse.get d (m.map fun e => (e.1, f e.2)) k = f (Sparse.get d m k) := by
  induction m with
  | nil => exact h.symm
  | cons e m ih =>
    simp only [List.map_cons, Sparse.get, ih]
    split <;> rfl

/-- A fence once context `k` is torn down: broken if it was the context's, else without it on its share list. -/
def Fence.without (x : Fence) (k : Nat) : Fence :=
  if x.st = .live ∧ x.owner = k then { x with st := .broken } else { x with shares := x.shares.filter fun y => y.ctx ≠ k }

theorem Dev.fence_breakFences (d : Dev) (k n : Nat) : (d.breakFences k).fence n = (d.fence n).without k := by
  have h : (d.breakFences k).fences = d.fences.map fun e => (e.1, e.2.without k) := by
    refine List.map_congr_left fun e _ => ?_
    unfold Fence.without
    split <;> rfl
  have hreset : Fence.reset.without k = Fence.reset := by simp [Fence.without, Fence.reset]
  rw [Dev.fence, h]
  exact Sparse.get_map (fun _ => Fence.reset) (fun x => x.without k) d.fences n hreset

theorem Dev.fence_breakOwned (d : Dev) (k n : Nat) :
    (d.breakOwned k).fence n = ((d.loseWaits fun f => (d.fence f).st = .live && (d.fence f).owner = k).fence n).without k := by
  rw [← Dev.fence_breakFences]
  unfold Dev.breakOwned
  dsimp only
  generalize d.loseWaits _ = e
  rfl

theorem Dev.phase_breakOwned (d : Dev) (k : Nat) : ((d.breakOwned k).ctx k).phase = 2 := by
  unfold Dev.breakOwned
  dsimp only
  rw [Dev.ctx_setCtx, if_pos rfl]

section
variable {d : Dev} {k : Nat}

theorem Dev.breakRow_of_early (h : (d.ctx k).st ≠ .tearing ∨ (d.ctx k).phase ≠ 1 ∨ d.replaying k = true) : d.breakRow k = d := by
  refine if_pos ?_
  rcases h with h | h | h <;> simp [h]

variable (hst : (d.ctx k).st = .tearing) (hph : (d.ctx k).phase = 1) (hr : d.replaying k = false) (hs : d.serving = true)
  (hrec : d.recovered (ctxPart k) = true)
include hst hph hr hs hrec

theorem Dev.breakRow_of_stopped : d.breakRow k =
    if (((d.undoing k).foldl Dev.undoAside d).undoing k).isEmpty then ((d.undoing k).foldl Dev.undoAside d).breakOwned k
    else (d.undoing k).foldl Dev.undoAside d :=
  if_neg (by simp [hst, hph, hr, hs, hrec])

theorem Dev.breakRow_of_undoing (h : ((d.undoing k).foldl Dev.undoAside d).undoing k ≠ []) :
    d.breakRow k = (d.undoing k).foldl Dev.undoAside d :=
  (Dev.breakRow_of_stopped hst hph hr hs hrec).trans (if_neg (by simpa using h))

theorem Dev.breakRow_of_restored (h : d.undoing k = []) : d.breakRow k = d.breakOwned k := by
  have hrow := Dev.breakRow_of_stopped hst hph hr hs hrec
  rw [h, List.foldl_nil, h] at hrow
  exact hrow

end

/-! ### Regions returned, key slots freed (12 R361, 13 R391) -/

theorem Dev.region_setRegion (d : Dev) (n : Nat) (x : Region) (m : Nat) : (d.setRegion n x).region m = if m = n then x else d.region m := by
  simp [Dev.region, Dev.setRegion, Sparse.get_set]

theorem Dev.key_setKey (d : Dev) (n : Nat) (x : KeySlot) (m : Nat) : (d.setKey n x).key m = if m = n then x else d.key m := by
  simp [Dev.key, Dev.setKey, Sparse.get_set]

/-- Zeroing granules touches memory, its lines and the counter cache. -/
theorem Dev.zeroGranules_rest (d : Dev) (b n : Nat) : (d.zeroGranules b n).regions = d.regions ∧ (d.zeroGranules b n).keys = d.keys ∧
    (d.zeroGranules b n).fences = d.fences ∧ (d.zeroGranules b n).regs = d.regs ∧ (d.zeroGranules b n).shuttle = d.shuttle := by
  refine ⟨(foldl_keeps Dev.regions (fun _ _ => ?_) _ _).trans rfl, (foldl_keeps Dev.keys (fun _ _ => ?_) _ _).trans rfl,
    (foldl_keeps Dev.fences (fun _ _ => ?_) _ _).trans rfl, (foldl_keeps Dev.regs (fun _ _ => ?_) _ _).trans rfl,
    (foldl_keeps Dev.shuttle (fun _ _ => ?_) _ _).trans rfl⟩
  all_goals split <;> rfl

/-- Region `n` returns its granules. -/
def Dev.returnRegion (d : Dev) (n : Nat) : Dev :=
  (d.zeroGranules (d.region n).base (d.region n).granules).setRegion n
    { d.region n with st := .closed, taken := [], due := false, sig := none }

@[simp] theorem Dev.returnRegion_rest (d : Dev) (n : Nat) : (d.returnRegion n).keys = d.keys ∧ (d.returnRegion n).fences = d.fences ∧
    (d.returnRegion n).regs = d.regs ∧ (d.returnRegion n).shuttle = d.shuttle := by
  obtain ⟨-, hkeys, hfences, hregs, hshuttle⟩ := d.zeroGranules_rest (d.region n).base (d.region n).granules
  exact ⟨hkeys, hfences, hregs, hshuttle⟩

theorem Dev.st_returnRegion (d : Dev) (n m : Nat) :
    ((d.returnRegion n).region m).st = if m = n then .closed else (d.region m).st := by
  have h := congrArg (Sparse.get (fun _ => Region.reset) · m) (d.zeroGranules_rest (d.region n).base (d.region n).granules).1
  rw [Dev.returnRegion, Dev.region_setRegion]
  split
  · rfl
  · exact congrArg Region.st h

/-- The regions of a partition that are to be returned. -/
def Dev.regionsOf (d : Dev) (p : Nat) : List Nat :=
  (d.regions.map Prod.fst).filter fun n => d.regionPart n = p && (d.region n).st ≠ .closed

theorem Dev.returnRegions_eq (d : Dev) (p : Nat) : d.returnRegions p = (d.regionsOf p).foldl Dev.returnRegion d := rfl

@[simp] theorem Dev.returnRegions_rest (d : Dev) (p : Nat) : (d.returnRegions p).keys = d.keys ∧ (d.returnRegions p).fences = d.fences ∧
    (d.returnRegions p).regs = d.regs ∧ (d.returnRegions p).shuttle = d.shuttle := by
  rw [Dev.returnRegions_eq]
  exact ⟨foldl_keeps Dev.keys (fun _ _ => by simp) _ d, foldl_keeps Dev.fences (fun _ _ => by simp) _ d,
    foldl_keeps Dev.regs (fun _ _ => by simp) _ d, foldl_keeps Dev.shuttle (fun _ _ => by simp) _ d⟩

/-- A region is closed once it was, or is among those returned. -/
theorem Dev.closed_foldl_returnRegion (m : Nat) (ns : List Nat) : ∀ d : Dev, m ∈ ns ∨ (d.region m).st = .closed →
    ((ns.foldl Dev.returnRegion d).region m).st = .closed := by
  induction ns with
  | nil => exact fun _ h => h.resolve_left List.not_mem_nil
  | cons n ns ih =>
    refine fun d h => ih (d.returnRegion n) ?_
    rw [Dev.st_returnRegion]
    by_cases hm : m = n
    · exact .inr (if_pos hm)
    · rw [if_neg hm]
      exact h.imp_left fun hmem => (List.mem_cons.1 hmem).resolve_left hm

theorem Dev.closed_returnRegions {d : Dev} {p n : Nat} (h : d.regionPart n = p) : ((d.returnRegions p).region n).st = .closed := by
  rw [Dev.returnRegions_eq]
  refine Dev.closed_foldl_returnRegion n _ d ?_
  by_cases hst : (d.region n).st = .closed
  · exact .inr hst
  · have hne : d.region n ≠ Region.reset := fun heq => hst (by rw [heq]; rfl)
    have hmem := Sparse.mem_of_get_ne (fun _ => Region.reset) d.regions n hne
    exact .inl (List.mem_filter.2 ⟨List.mem_map.2 ⟨_, hmem, rfl⟩, by simp [h, hst]⟩)

theorem Dev.dropKey_rest (d : Dev) (k c : Nat) : (d.dropKey k c).fences = d.fences ∧ (d.dropKey k c).regions = d.regions ∧
    (d.dropKey k c).shuttle = d.shuttle := by
  unfold Dev.dropKey
  split <;> simp

theorem Dev.key_dropKey_ne (d : Dev) {k j : Nat} (hj : j ≠ k) (c : Nat) : (d.dropKey k c).key j = d.key j := by
  unfold Dev.dropKey
  split
  · have h : ((d.setKey k { d.key k with valid := false }).record 0 0x0405 .hub 5 (some (rangePart d.parts 4096 k)) (k + c * 2 ^ 12)).keys =
        (d.setKey k { d.key k with valid := false }).keys := by simp
    exact (congrArg (Sparse.get KeySlot.reset · j) h).trans ((Dev.key_setKey ..).trans (if_neg hj))
  · rfl

/-- Slot `k` is invalid, and then free. -/
def Dev.releaseKey (d : Dev) (k : Nat) : Dev := (d.dropKey k 3).freeKey k

@[simp] theorem Dev.releaseKey_rest (d : Dev) (k : Nat) : (d.releaseKey k).fences = d.fences ∧ (d.releaseKey k).regions = d.regions ∧
    (d.releaseKey k).shuttle = d.shuttle := by
  obtain ⟨hfences, hregions, hshuttle⟩ := d.dropKey_rest k 3
  unfold Dev.releaseKey Dev.freeKey
  split
  · exact ⟨hfences, hregions, hshuttle⟩
  · exact ⟨hfences, hregions, hshuttle⟩

theorem Dev.key_releaseKey (d : Dev) {k : Nat} (hk : k ≠ 0) (j : Nat) :
    (d.releaseKey k).key j = if j = k then KeySlot.reset j else d.key j := by
  rw [Dev.releaseKey, Dev.freeKey, if_neg hk, Dev.key_setKey]
  split
  · next hj => rw [hj]
  · next hj => exact d.key_dropKey_ne hj 3

/-- The slots of a partition that its teardown releases. -/
def Dev.keysOf (d : Dev) (p : Nat) : List Nat := (d.keys.map Prod.fst).filter fun k => k ≠ 0 && rangePart d.parts 4096 k = p

theorem Dev.freeKeys_eq (d : Dev) (p : Nat) : d.freeKeys p = (d.keysOf p).foldl Dev.releaseKey d := rfl

theorem Dev.freeKeys_rest (d : Dev) (p : Nat) : (d.freeKeys p).fences = d.fences ∧ (d.freeKeys p).regions = d.regions ∧
    (d.freeKeys p).shuttle = d.shuttle := by
  rw [Dev.freeKeys_eq]
  exact ⟨foldl_keeps Dev.fences (fun _ _ => by simp) _ d, foldl_keeps Dev.regions (fun _ _ => by simp) _ d,
    foldl_keeps Dev.shuttle (fun _ _ => by simp) _ d⟩

/-- A slot is free once it was, or is among those released. -/
theorem Dev.free_foldl_releaseKey (j : Nat) (ks : List Nat) : ∀ d : Dev, (∀ k ∈ ks, k ≠ 0) → j ∈ ks ∨ d.key j = KeySlot.reset j →
    (ks.foldl Dev.releaseKey d).key j = KeySlot.reset j := by
  induction ks with
  | nil => exact fun _ _ h => h.resolve_left List.not_mem_nil
  | cons k ks ih =>
    refine fun d h0 h => ih (d.releaseKey k) (fun i hi => h0 i (List.mem_cons_of_mem _ hi)) ?_
    rw [Dev.key_releaseKey d (h0 k List.mem_cons_self)]
    by_cases hj : j = k
    · exact .inr (if_pos hj)
    · rw [if_neg hj]
      exact h.imp_left fun hmem => (List.mem_cons.1 hmem).resolve_left hj

theorem Dev.free_freeKeys {d : Dev} {p j : Nat} (h0 : j ≠ 0) (h : rangePart d.parts 4096 j = p) :
    (d.freeKeys p).key j = KeySlot.reset j := by
  rw [Dev.freeKeys_eq]
  have hne : ∀ k ∈ d.keysOf p, k ≠ 0 := fun k hk => by
    obtain ⟨-, hk⟩ := List.mem_filter.1 hk
    simp only [Bool.and_eq_true, decide_eq_true_eq] at hk
    exact hk.1
  refine Dev.free_foldl_releaseKey j _ d hne ?_
  by_cases hkey : d.key j = KeySlot.reset j
  · exact .inr hkey
  · exact .inl (List.mem_filter.2 ⟨List.mem_map.2 ⟨_, Sparse.mem_of_get_ne KeySlot.reset d.keys j hkey, rfl⟩, by simp [h0, h]⟩)

/-! ### Closed (R319) -/

theorem Dev.zeroTiles_rest (d : Dev) (k : Nat) : (d.zeroTiles k).fences = d.fences ∧ (d.zeroTiles k).regions = d.regions ∧
    (d.zeroTiles k).keys = d.keys ∧ (d.zeroTiles k).regs = d.regs ∧ (d.zeroTiles k).shuttle = d.shuttle := by
  refine ⟨(foldl_keeps Dev.fences (fun _ _ => ?_) _ _).trans rfl, (foldl_keeps Dev.regions (fun _ _ => ?_) _ _).trans rfl,
    (foldl_keeps Dev.keys (fun _ _ => ?_) _ _).trans rfl, (foldl_keeps Dev.regs (fun _ _ => ?_) _ _).trans rfl,
    (foldl_keeps Dev.shuttle (fun _ _ => ?_) _ _).trans rfl⟩
  all_goals rfl

/-- What partition `p` held for its native context goes: regions, key slots, landing groups and what Reed keeps of it. -/
def Dev.partitionReturned (d : Dev) (p : Nat) : Dev :=
  (((d.returnRegions p).freeKeys p).setSh p { d.sh p with rx := [], rgets := [], groups := [], ingress := [] }).setRtpPart p
    { d.rtpPart p with held := false }

/-- The context reads as after a reset, but for the seed of a native one. -/
def Dev.closedCtx (d : Dev) (k : Nat) (seed : Bool) : Dev := (d.moveCtx k .closed).setCtx k { Ctx.reset with seedSet := seed && decide (k < 4) }

theorem Dev.closedCtx_rest (d : Dev) (k : Nat) (seed : Bool) : (d.closedCtx k seed).fences = d.fences ∧
    (d.closedCtx k seed).regions = d.regions ∧ (d.closedCtx k seed).keys = d.keys ∧ (d.closedCtx k seed).shuttle = d.shuttle := by
  unfold Dev.closedCtx Dev.moveCtx
  split <;> simp

theorem Dev.ctx_closedCtx (d : Dev) (k : Nat) (seed : Bool) : ((d.closedCtx k seed).ctx k).st = .closed ∧
    ((d.closedCtx k seed).ctx k).acc = Ctx.reset.acc ∧ ((d.closedCtx k seed).ctx k).phase = Ctx.reset.phase := by
  rw [Dev.closedCtx, Dev.ctx_setCtx, if_pos rfl]
  exact ⟨rfl, rfl, rfl⟩

section
variable {d : Dev} {k : Nat}

theorem Dev.closeRow_of_early (h : (d.ctx k).st ≠ .tearing ∨ (d.ctx k).phase ≠ 2 ∨ d.ringsDone k = false) : d.closeRow k = d := by
  refine if_pos ?_
  rcases h with h | h | h <;> simp [h]

variable (hst : (d.ctx k).st = .tearing) (hph : (d.ctx k).phase = 2) (hs : d.servingIn (ctxPart k) = true) (hr : d.ringsDone k = true)
include hst hph hs hr

theorem Dev.closeRow_of_native (hk : k < 4) :
    d.closeRow k = ((d.zeroTiles k).partitionReturned (ctxPart k)).closedCtx k (d.ctx k).seedSet := by
  refine (if_neg (by simp [hst, hph, hs, hr])).trans ?_
  unfold Dev.finishTeardown
  dsimp only
  rw [if_pos hk]
  rfl

theorem Dev.closeRow_of_p8 (hk : ¬ k < 4) : d.closeRow k = (d.zeroTiles k).closedCtx k (d.ctx k).seedSet := by
  refine (if_neg (by simp [hst, hph, hs, hr])).trans ?_
  unfold Dev.finishTeardown
  dsimp only
  rw [if_neg hk]
  rfl

end

theorem Dev.fences_partitionReturned (d : Dev) (p : Nat) : (d.partitionReturned p).fences = d.fences := by
  simp only [Dev.partitionReturned, Dev.setRtpPart_rest, Dev.setSh_rest]
  obtain ⟨hfences, -, -⟩ := (d.returnRegions p).freeKeys_rest p
  exact hfences.trans (by simp)

/-- After it the partition has no region, no key slot and no landing group. -/
theorem Dev.nothing_of_partitionReturned (d : Dev) (p : Nat) :
    ((d.partitionReturned p).sh p).groups = [] ∧ ((d.partitionReturned p).sh p).rx = [] ∧
      (∀ n, d.regionPart n = p → ((d.partitionReturned p).region n).st = .closed) ∧
      ∀ j, j ≠ 0 → rangePart d.parts 4096 j = p → (d.partitionReturned p).key j = KeySlot.reset j := by
  obtain ⟨-, hregions, -⟩ := (d.returnRegions p).freeKeys_rest p
  have hparts : (d.returnRegions p).parts = d.parts := Dev.parts_congr (by simp)
  have hsh : (d.partitionReturned p).sh p = { d.sh p with rx := [], rgets := [], groups := [], ingress := [] } :=
    (Dev.sh_setSh ..).trans (if_pos rfl)
  refine ⟨congrArg ShPart.groups hsh, congrArg ShPart.rx hsh, fun n hn => ?_, fun j h0 hj => ?_⟩
  · have h : (d.partitionReturned p).region n = (d.returnRegions p).region n :=
      congrArg (Sparse.get (fun _ => Region.reset) · n) hregions
    rw [h, Dev.closed_returnRegions hn]
  · exact Dev.free_freeKeys h0 (hparts ▸ hj)

end Sys2Proof.Machine
end

section
namespace Sys2Proof
open Sys2Proof.Machine

/-- Settles O44: the two rows before their time, and what each does when its time has come. -/
theorem teardownSteps : Obligations.TeardownSteps := by
  intro k s hq
  refine ⟨fun h => exec_of_idle hq (exec_teardownBreakFences k s) (Dev.breakRow_of_early h), fun e hst hph hr hs hrec he h => ?_,
    fun hst hph hr hs hrec h => ?_, fun h => exec_of_idle hq (exec_teardownClose k s) (Dev.closeRow_of_early h), fun hst hph hs hr => ?_⟩
  · subst he
    exact exec_of_effect (exec_teardownBreakFences k s) (Dev.breakRow_of_undoing hst hph hr hs hrec h)
  · exact ⟨_, exec_of_effect (exec_teardownBreakFences k s) (Dev.breakRow_of_restored hst hph hr hs hrec h), s.dev.phase_breakOwned k,
      fun n => s.dev.fence_breakOwned k n⟩
  · obtain ⟨hzfences, -, -, hzregs, -⟩ := s.dev.zeroTiles_rest k
    by_cases hk : k < 4
    · have hpart : ctxPart k = k := if_pos hk
      have hclose := Dev.closeRow_of_native hst hph hs hr hk
      rw [hpart] at hclose
      have hparts : (s.dev.zeroTiles k).parts = s.dev.parts := Dev.parts_congr hzregs
      have hfences := (s.dev.zeroTiles k).fences_partitionReturned k
      obtain ⟨hgroups, hrx, hregion, hkey⟩ := (s.dev.zeroTiles k).nothing_of_partitionReturned k
      generalize (s.dev.zeroTiles k).partitionReturned k = e at hclose hfences hgroups hrx hregion hkey
      obtain ⟨hcfences, hcregions, hckeys, hcshuttle⟩ := e.closedCtx_rest k (s.dev.ctx k).seedSet
      obtain ⟨hcst, hcacc, hcphase⟩ := e.ctx_closedCtx k (s.dev.ctx k).seedSet
      have hsh := Dev.sh_congr (congrArg Shuttle.parts hcshuttle) k
      refine ⟨_, exec_of_effect (exec_teardownClose k s) hclose, hcst, hcacc, hcphase,
        fun _ => ⟨(congrArg ShPart.groups hsh).trans hgroups, (congrArg ShPart.rx hsh).trans hrx, fun n hn => ?_, fun j h0 hj => ?_⟩,
        hcfences.trans (hfences.trans hzfences)⟩
      · rw [Dev.region, hcregions]
        exact hregion n (by rw [Dev.regionPart, hparts]; exact hn)
      · rw [Dev.key, hckeys]
        exact hkey j h0 (by rw [hparts]; exact hj)
    · have hclose := Dev.closeRow_of_p8 hst hph hs hr hk
      have hcfences := ((s.dev.zeroTiles k).closedCtx_rest k (s.dev.ctx k).seedSet).1
      obtain ⟨hcst, hcacc, hcphase⟩ := (s.dev.zeroTiles k).ctx_closedCtx k (s.dev.ctx k).seedSet
      exact ⟨_, exec_of_effect (exec_teardownClose k s) hclose, hcst, hcacc, hcphase,
        fun h => absurd h hk, hcfences.trans hzfences⟩

end Sys2Proof
end

section
/-! SUPPORT. What leaves the power state as it is: entries, messages, accesses to memory, the rings, keys and staging copies that a
tick looks at, and the fencing of a unit. No window of the tick is taken again by what the tick does (15 R462). -/

namespace Sys2Proof.Machine

/-- `e` has the power state of `d`. -/
def Dev.SamePower (d e : Dev) : Prop := e.power = d.power

namespace Dev.SamePower

theorem refl (d : Dev) : d.SamePower d := rfl

theorem ite {d a b : Dev} {c : Prop} [Decidable c] (h : d.SamePower a) (k : d.SamePower b) : d.SamePower (if c then a else b) := by
  split <;> assumption

variable {d e : Dev}

theorem fail {α : Type} {w : MemFail} (h : d.SamePower e) : d.SamePower (Res.fail e w : Res α).dev := h

theorem iteRes {α : Type} {a b : Res α} {c : Prop} [Decidable c] (h : d.SamePower a.dev) (k : d.SamePower b.dev) :
    d.SamePower (if c then a else b).dev := by
  split <;> assumption

theorem of_ok {α : Type} {f : Dev} {r : Res α} {x : α} (h : d.SamePower r.dev) (hr : r = .ok f x) : d.SamePower f := by
  rwa [hr] at h

theorem of_fail {α : Type} {f : Dev} {r : Res α} {w : MemFail} (h : d.SamePower r.dev) (hr : r = .fail f w) : d.SamePower f := by
  rwa [hr] at h

variable (h : d.SamePower e)
include h

theorem same {f : Dev} (hf : f.power = e.power) : d.SamePower f := hf.trans h

theorem foldl {α : Type} {f : Dev → α → Dev} (hf : ∀ {c : Dev} x, d.SamePower c → d.SamePower (f c x)) (xs : List α) :
    d.SamePower (xs.foldl f e) := by
  induction xs generalizing e with
  | nil => exact h
  | cons x xs ih => exact ih (hf x h)

/-! ### State updates, entries, signals, messages -/

theorem setReg {o : Nat} {v : Word64} : d.SamePower (e.setReg o v) := h

theorem setFld {o lo w x : Nat} : d.SamePower (e.setFld o lo w x) := h

theorem bump {o n : Nat} : d.SamePower (e.bump o n) := h

theorem setRegion {n : Nat} {x : Region} : d.SamePower (e.setRegion n x) := h

theorem setLine {l : Nat} {m : Option LineMeta} : d.SamePower (e.setLine l m) := h

theorem setLatent {l : Nat} {f : LineFound} : d.SamePower (e.setLatent l f) := h

theorem touchRun {l n : Nat} : d.SamePower (e.touchRun l n) := h

theorem touch {l : Nat} : d.SamePower (e.touch l) := h.touchRun

theorem setBufs {k : Nat} {bs : List StepBuf} : d.SamePower (e.setBufs k bs) := h

theorem setUnit {u : UnitType} {i : Nat} {r : UnitRec} : d.SamePower (e.setUnit u i r) := h

theorem takeEpoch {k : Nat} : d.SamePower (e.takeEpoch k) := h

theorem account {k i n : Nat} : d.SamePower (e.account k i n) := h

theorem setPl {p : Nat} {x : PlPart} : d.SamePower (e.setPl p x) := h

theorem setLt {l : Nat} {x : LTile} : d.SamePower (e.setLt l x) := h

theorem setTileState {t c : Nat} : d.SamePower (e.setTileState t c) := h

theorem setRing {r : Nat} {x : Ring} : d.SamePower (e.setRing r x) := h

theorem setCtx {k : Nat} {x : Ctx} : d.SamePower (e.setCtx k x) := h

theorem raise {v : Nat} : d.SamePower (e.raise v) := h.same (by simp)

theorem raisePart {p i : Nat} : d.SamePower (e.raisePart p i) := h.raise

theorem record {c k i x : Nat} {u : UnitType} {p : Option Nat} : d.SamePower (e.record c k u i p x) := h.same (by simp)

theorem recordC3 {k c x : Nat} : d.SamePower (e.recordC3 k c x) := h.same (by simp)

theorem lifeWrite {k : Nat} {bs : List Byte} : d.SamePower (e.lifeWrite k bs) := h.same (by simp)

theorem rollEpoch {p : Nat} : d.SamePower (e.rollEpoch p) := h.same (by simp)

theorem send {p : Nat} {w : Draft} : d.SamePower (e.send p w) := h.same (by simp)

theorem emit {o : Option Nat} {m : Msg} : d.SamePower (e.emit o m) := h.same (by simp)

theorem onPort {n : Nat} {o : Option Nat} {m : Msg} : d.SamePower (e.onPort n o m) := h.same (by simp)

theorem movePort {n : Nat} {x : Port} : d.SamePower (e.movePort n x) := h.same (by simp)

theorem writeStatus {r : Nat} : d.SamePower (e.writeStatus r) := h.same (by simp)

theorem showState {l c : Nat} : d.SamePower (e.showState l c) := h.same (by simp)

theorem restState {l : Nat} : d.SamePower (e.restState l) := h.same (by simp)

theorem signal {k f v : Nat} {b : Bool} : d.SamePower (e.signal k f v b).1 := by
  unfold Dev.signal
  dsimp only
  split
  · exact h
  · split
    · exact h
    · exact h.record
    · generalize (if b = true then (e.fence f).remote else (e.fence f).maySignal k) = may
      split
      · exact h
      · split
        · exact h.record
        · exact h.same (by simp [Dev.applySignal])

theorem engineSignal {k f v : Nat} : d.SamePower (e.engineSignal k f v).1 := by
  unfold Dev.engineSignal
  dsimp only
  split
  · exact h.signal.account
  · exact h.signal

/-! ### Lines checked and read (12 R353, R374, R375) -/

theorem badLine {n l c k : Nat} {b p : Bool} : d.SamePower (e.badLine n l c k b p) :=
  .ite h.setRegion.bump.record h.setRegion.bump.recordC3

theorem meetLine {n l c k : Nat} {f : LineFound} {p : Bool} : d.SamePower (e.meetLine n l c k f p).1 := by
  cases f with
  | good => exact h
  | corrected b => exact h.setLatent.bump.record
  | retried => exact h.setLatent.bump.record
  | badEcc => exact h.setLatent.setLine.badLine
  | badMac =>
    unfold Dev.meetLine
    dsimp only
    split
    · exact h
    · exact h.setLatent.setLine.badLine

theorem checkLine {n l c k : Nat} : d.SamePower (e.checkLine n l c k).1 := by
  unfold Dev.checkLine
  dsimp only
  split
  · exact h.badLine
  · exact h.meetLine

theorem readLine {q : Req} {l : Nat} : d.SamePower (e.readLine q l).dev := by
  unfold Dev.readLine
  split
  · exact h
  · next n _ =>
    have hc : d.SamePower ((e.touch l).checkLine n l q.ctx q.key).1 := h.touch.checkLine
    split <;> next he => rwa [he] at hc

theorem readLines {q : Req} {ls : List Nat} : d.SamePower (e.readLines q ls).dev := by
  induction ls generalizing e with
  | nil => exact h
  | cons l ls ih =>
    have hl : d.SamePower (e.readLine q l).dev := h.readLine
    unfold Dev.readLines
    split
    · next he => exact ih (hl.of_ok he)
    · next he => exact hl.of_fail he

theorem refuse {q : Req} {a : Nat} {w f : Bool} : d.SamePower (e.refuse q a w f) := .ite h.bump.record h.bump.record

theorem read {q : Req} {a n : Nat} : d.SamePower (e.read q a n).dev := by
  have hl : d.SamePower (e.readLines q (linesOf a n)).dev := h.readLines
  unfold Dev.read
  split
  · exact h
  · exact .fail h.refuse
  · exact .fail h.refuse
  · split
    · next he => exact hl.of_ok he
    · next he => exact hl.of_fail he

/-! ### Re-encryption steps (12 R368, R369, R372) -/

theorem startReencrypt {n : Nat} {sig : Option (Nat × Nat)} : d.SamePower (e.startReencrypt n sig) := by
  have hstop : d.SamePower ((e.takeEpoch (e.region n).key).stopLaneTests (e.region n)) := by
    unfold Dev.stopLaneTests
    exact h.takeEpoch.foldl (fun _ hc => .ite hc.setUnit hc) _
  exact .ite h.record hstop.setRegion

theorem regionSignal {n : Nat} {sig : Option (Nat × Nat)} : d.SamePower (e.regionSignal n sig) := by
  cases sig with
  | none => exact h
  | some fv => exact h.engineSignal

theorem reencryptDone {n : Nat} : d.SamePower (e.reencryptDone n) :=
  .ite (.ite h.setRegion.record.regionSignal.startReencrypt h.setRegion.record.regionSignal) h

theorem drainBuf {k : Nat} {b : StepBuf} : d.SamePower (e.drainBuf k b) := by
  unfold Dev.drainBuf
  dsimp only
  split
  · exact h.setBufs
  · refine .reencryptDone (.bump (.setRegion ?_))
    exact h.same rfl

theorem meetStep {n first : Nat} : d.SamePower (e.meetStep n first) := by
  unfold Dev.meetStep
  exact h.foldl (fun _ hc => hc.meetLine) _

theorem fillBuf {n i k : Nat} : d.SamePower (e.fillBuf n i k).1 := h.touchRun.meetStep.setBufs

theorem takeStep {n i : Nat} : d.SamePower (e.takeStep n i) := .ite h h.fillBuf.drainBuf

theorem forceStep {n l : Nat} : d.SamePower (e.forceStep n l) := .ite h.takeStep.bump h

theorem scheduleAt {n c : Nat} : d.SamePower (e.scheduleAt n c) :=
  .ite h (.ite h.startReencrypt (.ite h.setRegion h))

/-! ### Lines written (12 R352, R376) -/

theorem setBytes {bs : List Byte} {a : Nat} : d.SamePower (e.setBytes a bs) := by
  induction bs generalizing e a with
  | nil => exact h
  | cons b bs ih => exact ih (e := e.setByte a b) h

theorem putLine {n k l off c : Nat} {bs : List Byte} {known : Bool} : d.SamePower (e.putLine n k l off c bs known) := by
  have hburst : d.SamePower (if known then e else e.bump 0x10048 1) := .ite h h.bump
  exact hburst.setLine.setLatent.setBytes.setRegion.touch.scheduleAt

theorem writeLine {q : Req} {l off : Nat} {bs : List Byte} : d.SamePower (e.writeLine q l off bs).dev := by
  unfold Dev.writeLine
  split
  · exact h
  · next n _ =>
    have hread : d.SamePower (if decide (bs.length = 128) then (e.forceStep n l, true)
        else ((e.forceStep n l).touch l).checkLine n l q.ctx q.key).1 := by
      split
      · exact h.forceStep
      · exact h.forceStep.touch.checkLine
    dsimp only
    split
    · next he => rwa [he] at hread
    · next he =>
      rw [he] at hread
      exact .iteRes hread.setLine.setLatent.touch.setBytes (.iteRes hread hread.putLine)

theorem writeLines {q : Req} {fuel a : Nat} {bs : List Byte} : d.SamePower (e.writeLines q fuel a bs).dev := by
  induction fuel generalizing e a bs with
  | zero => exact h
  | succ fuel ih =>
    have hl : d.SamePower (e.writeLine q (a / 128) (a % 128) (bs.take (128 - a % 128))).dev := h.writeLine
    unfold Dev.writeLines
    dsimp only
    split
    · exact h
    · split
      · next he => exact ih (hl.of_ok he)
      · next he => exact hl.of_fail he

/-! ### Stripe rows (08 R232, R233, R235) -/

theorem writeHeld {p off : Nat} {bs : List Byte} : d.SamePower (e.writeHeld p off bs) := by
  have hw : d.SamePower (e.writeLines (engineReq p (e.holdKey p)) (bs.length / 128 + 2) (e.holdBase p + off) bs).dev := h.writeLines
  unfold Dev.writeHeld
  dsimp only
  split
  · exact h
  · split
    · next he => exact hw.of_ok he
    · next he => exact hw.of_fail he

theorem writeSlot {p k : Nat} : d.SamePower (e.writeSlot p k) := h.writeHeld.writeHeld

theorem sendStripe {p g a : Nat} {bs : List Byte} : d.SamePower (e.sendStripe p g a bs) := h.rollEpoch.setPl.send

theorem sendRecords {p k c : Nat} : d.SamePower (e.sendRecords p k c) := h.foldl (fun _ hc => hc.sendStripe) _

theorem commitIfReady {p k : Nat} : d.SamePower (e.commitIfReady p k) := .ite h.setPl.writeHeld.sendRecords h

theorem countIfCommitted {p k : Nat} : d.SamePower (e.countIfCommitted p k) := by
  unfold Dev.countIfCommitted
  dsimp only
  exact .ite h.setPl.writeSlot.setReg.setReg.raisePart h

theorem readyIfDone {p : Nat} : d.SamePower (e.readyIfDone p) := by
  unfold Dev.readyIfDone
  dsimp only
  split
  · exact h
  · exact .ite h.setPl.sendRecords.commitIfReady.countIfCommitted h

theorem readUnits {p : Nat} {us : List Nat} : d.SamePower (e.readUnits p us).dev := by
  induction us generalizing e with
  | nil => exact h
  | cons u us ih =>
    unfold Dev.readUnits
    split
    · have hrest := ih h
      split
      · next he => exact hrest.of_ok he
      · next he => exact hrest.of_fail he
    · next a k _ =>
      have hu : d.SamePower (e.read (engineReq p k) a 4096).dev := h.read
      split
      · next he => exact hu.of_fail he
      · next f _ he =>
        have hrest := ih (hu.of_ok he)
        split
        · next hf => exact hrest.of_ok hf
        · next hf => exact hrest.of_fail hf

theorem sendStripes {p k q j : Nat} {us : List (List Byte)} : d.SamePower (e.sendStripes p k q j us) := by
  induction us generalizing e j with
  | nil => exact h
  | cons u us ih => exact ih h.sendStripe

/-- Reads, grant and writes stand for themselves, as in `Dev.Accessed.takeRow`: written out, the kernel would evaluate them. -/
theorem takeRow {p q : Nat} : d.SamePower (e.takeRow p q) := by
  unfold Dev.takeRow
  obtain ⟨put, hput⟩ : ∃ put, put = @Dev.writeLines := ⟨_, rfl⟩
  obtain ⟨grant, hgrant⟩ : ∃ grant, grant = @Dev.grantAll := ⟨_, rfl⟩
  obtain ⟨units, hunits⟩ : ∃ units, units = @Dev.readUnits := ⟨_, rfl⟩
  rw [← hput, ← hgrant, ← hunits]
  have hread : d.SamePower (units e p (rangeFrom (7 * q) 7)).dev := hunits ▸ h.readUnits
  have hwrite {c : Dev} (hc : d.SamePower c) (q fuel a bs) : d.SamePower (put c q fuel a bs).dev := hput ▸ hc.writeLines
  dsimp only
  split
  · exact h
  · refine .ite h ?_
    split
    · next he => exact (hread.of_fail he).setPl
    · next he =>
      have hf := hread.of_ok he
      split
      · exact hf.sendStripes.bump.setPl
      · split
        · next hw => exact ((hwrite hf.sendStripes.bump ..).of_fail hw).setPl
        · next hw => exact ((hwrite hf.sendStripes.bump ..).of_ok hw).setPl.writeHeld.readyIfDone

theorem forceRow {a : Nat} : d.SamePower (e.forceRow a) := by
  unfold Dev.forceRow
  dsimp only
  split
  · exact .ite h h.takeRow.bump
  · exact h

theorem grantWrite {q : Req} {ls : List Nat} : d.SamePower (e.grantWrite q ls).dev := by
  unfold Dev.grantWrite
  split
  · exact h
  · exact .fail h.refuse
  · exact .fail h.refuse
  · exact h

theorem write {q : Req} {a : Nat} {bs : List Byte} : d.SamePower (e.write q a bs).dev := by
  have hg : d.SamePower (e.grantWrite q (linesOf a bs.length)).dev := h.grantWrite
  unfold Dev.write
  split
  · next he => exact writeLines ((hg.of_ok he).foldl (fun _ hc => hc.forceRow) _)
  · next he => exact hg.of_fail he

end Dev.SamePower

end Sys2Proof.Machine
end

section
/-! SUPPORT. The rest of what a tick looks at leaves the power state as it is: rings, P8 commands, staging copies, keys, rights
and waiting messages. -/

namespace Sys2Proof.Machine

namespace Dev.SamePower

variable {d e : Dev} (h : d.SamePower e)
include h

/-! ### Registers written, rings looked at (10 R290, R291) -/

theorem setKey {k : Nat} {x : KeySlot} : d.SamePower (e.setKey k x) := h

theorem setRtpPart {p : Nat} {x : RtpPart} : d.SamePower (e.setRtpPart p x) := h

theorem setSh {p : Nat} {x : ShPart} : d.SamePower (e.setSh p x) := h

theorem setBatten {n : Nat} {x : Batten} : d.SamePower (e.setBatten n x) := h

theorem hostCount {w : Bool} {k n : Nat} : d.SamePower (e.hostCount w k n) := h

theorem hostPut {k a : Nat} {bs : List Byte} : d.SamePower (e.hostPut k a bs) := h.same (by simp)

theorem dropLine {a : Nat} : d.SamePower (e.dropLine a) := h

theorem shareLine {a : Nat} : d.SamePower (e.shareLine a) := .ite h h

theorem recordReg {c o v : Nat} : d.SamePower (e.recordReg c o v) := h.record

theorem recordCtx {c k x y : Nat} : d.SamePower (e.recordCtx c k x y) := h.record

theorem onWrite {o v : Nat} {f : Dev → Dev} (hf : d.SamePower (f e)) : d.SamePower (e.onWrite o v f) :=
  .ite h (.ite h.recordReg hf)

theorem ringError {r : Nat} : d.SamePower (e.ringError r) := h.setRing.writeStatus.recordCtx

theorem readDoorbell {r : Nat} : d.SamePower (e.readDoorbell r) := by
  have hread {a : Nat} : d.SamePower ((e.hostCount false (ringCtx r) 64).shareLine a) := h.hostCount.shareLine
  exact .ite h (.ite hread.recordCtx (.ite hread.ringError hread.setRing))

theorem readDoorbells : d.SamePower e.readDoorbells := h.foldl (fun _ hc => hc.readDoorbell) _

theorem payStatus : d.SamePower e.payStatus := h.foldl (fun _ hc => hc.writeStatus) _

/-! ### P8 commands that wait (10 R310) -/

theorem moveCtx {k : Nat} {st : CtxState} : d.SamePower (e.moveCtx k st) := .ite h h.setCtx.raisePart

theorem holdCtx {k : Nat} {x : Ctx} : d.SamePower (e.holdCtx k x) :=
  recordCtx (e := (Dev.moveCtx (e.setCtx k _) k .opened).freeBroken (ctxPart k)) h.setCtx.moveCtx

theorem p8Rings {k : Nat} {img : List Byte} : d.SamePower (e.p8Rings k img) := by
  unfold Dev.p8Rings
  exact h.foldl (fun _ hc => ((hc.foldl (fun _ hb => hb.setReg) _).dropLine.setRing).setFld) _

theorem p8Take {k v : Nat} {img : List Byte} : d.SamePower (e.p8Take k v img) :=
  .ite h.recordReg (.ite h.recordReg h.holdCtx.p8Rings)

theorem p8Open {lc : LifeCycle} {c i : Nat} : d.SamePower (e.p8Open lc c i) :=
  h.onWrite (.ite h.recordReg (.ite h.setCtx h.hostCount.p8Take))

theorem enterResident {k : Nat} : d.SamePower (e.enterResident k) :=
  h.setCtx.foldl (fun _ hc => .ite hc.readDoorbell hc) _

theorem seatCtx {k : Nat} : d.SamePower (e.seatCtx k) := by
  unfold Dev.seatCtx
  refine .ite h.enterResident ?_
  split
  · exact .ite h h.setCtx.enterResident
  · exact h

theorem p8Waiting {lc : LifeCycle} : d.SamePower (e.p8Waiting lc) :=
  h.foldl (fun _ hc => .ite hc.seatCtx hc.setCtx.p8Open) _

/-! ### A new window of the regulators (10 R321, 11 R346) -/

theorem endStaging {p c st n : Nat} : d.SamePower (e.endStaging p c st n) := by
  have hset {x : Staging} : d.SamePower (e.setStaging (2 * p + c) x) := h
  exact raisePart (.ite hset.record hset)

theorem copyLines {p : Nat} {out : Bool} {a b k n : Nat} : d.SamePower (e.copyLines p out a b k n).1 := by
  induction k generalizing e a b n with
  | zero => exact h
  | succ k ih =>
    unfold Dev.copyLines
    split
    · have hread : d.SamePower (e.read (stagingReq p) b 64).dev := h.read
      split
      · next he => exact ih (hread.of_ok he).hostPut
      · next he => exact hread.of_fail he
    · have hwrite : d.SamePower (e.write (stagingReq p) b (e.hostBytes a 64)).dev := h.write
      split
      · next he => exact ih (hwrite.of_ok he).hostCount
      · next he => exact hwrite.of_fail he

theorem stagingRun {p c k : Nat} {last : Dev → Nat → Dev} (hlast : ∀ {f : Dev} n, d.SamePower f → d.SamePower (last f n)) :
    d.SamePower (e.stagingRun p c k last) := by
  unfold Dev.stagingRun
  dsimp only
  refine .ite h (.ite h.endStaging ?_)
  have hcopy {a b i n : Nat} {out : Bool} : d.SamePower (e.copyLines p out a b i n).1 := h.copyLines
  split
  · next he => exact endStaging (hcopy.same (congrArg (fun r => r.1.power) he.symm))
  · next he => exact hlast _ (hcopy.same (congrArg (fun r => r.1.power) he.symm))

theorem stagingAt {p c m : Nat} : d.SamePower (e.stagingAt p c m) := h

theorem stagingGoOn {p : Nat} : d.SamePower (e.stagingGoOn p) := by
  unfold Dev.stagingGoOn
  exact h.foldl (fun _ hc => hc.stagingRun fun _ hb => hb.stagingAt) _

theorem drainQueue : d.SamePower e.drainQueue :=
  foldl (e := { e with shuttle := { e.shuttle with queue := [] } }) h (fun _ hc => .ite hc.onPort hc.emit) _

theorem rollWindows : d.SamePower e.rollWindows := by
  have hstaging : d.SamePower ((List.range e.parts).foldl Dev.stagingGoOn e) := h.foldl (fun _ hc => hc.stagingGoOn) _
  exact payStatus (drainQueue hstaging)

/-! ### Expiry (15 R457) -/

theorem dropKey {k c : Nat} : d.SamePower (e.dropKey k c) := .ite h.setKey.record h

theorem invalidateOther {k : Nat} : d.SamePower (e.invalidateOther k) :=
  foldl (dropKey (e := { e with draws := e.draws + 1 }) h) (fun _ hc => hc.dropKey) _

theorem forgetJob {p : Nat} : d.SamePower (e.forgetJob p) := by
  have hkeys {ks : List Nat} {k : Nat} : d.SamePower (ks.foldl Dev.freeKey (e.invalidateOther k)) :=
    h.invalidateOther.foldl (fun _ hc => .ite hc hc.setKey) _
  exact record (setRtpPart (.ite hkeys h))

theorem jobExpire {p : Nat} : d.SamePower (e.jobExpire p) := by
  unfold Dev.jobExpire
  split
  · exact .ite h.forgetJob h
  · exact h

theorem noteRights {n : Nat} : d.SamePower (e.noteRights n) := h.record.lifeWrite

theorem closeRights {lc : LifeCycle} : d.SamePower (e.closeRights lc) := by
  refine .ite h (.noteRights ?_)
  exact h.same rfl

theorem expire {lc : LifeCycle} : d.SamePower (e.expire lc) := by
  have hjobs : d.SamePower ((List.range e.parts).foldl Dev.jobExpire e) := h.foldl (fun _ hc => hc.jobExpire) _
  have hkeys : d.SamePower ((List.range e.parts).foldl Dev.jobExpire e).releaseExpire := hjobs.foldl (fun _ hc => hc.invalidateOther) _
  exact .ite hkeys.closeRights hkeys

end Dev.SamePower

end Sys2Proof.Machine
end

section
/-! SUPPORT. The fencing of a unit, the picks that it abandons and the rest of the tick leave the power state as it is. -/

namespace Sys2Proof.Machine

namespace Dev.SamePower

variable {d e : Dev} (h : d.SamePower e)
include h

/-! ### A pick abandoned and replayed (10 R304, 09 R262, R263) -/

theorem unshadow {ls : List (Nat × Nat × List Byte)} : d.SamePower (e.unshadow ls) := by
  induction ls generalizing e with
  | nil => exact h
  | cons l ls ih => exact ih h.setLt

theorem keepLine {c l k : Nat} : d.SamePower (e.keepLine c l k) := h.recordC3

theorem restoreLine {c l n k : Nat} {bs : List Byte} : d.SamePower (e.restoreLine c l n k bs).dev := by
  have hread : d.SamePower (e.read (engineReq c (bits (e.asideWord c) 41 12)) (e.asideAddr c l n) 128).dev := h.read
  unfold Dev.restoreLine
  generalize e.read (engineReq c (bits (e.asideWord c) 41 12)) (e.asideAddr c l n) 128 = r at hread ⊢
  cases r with
  | fail f w => exact keepLine hread
  | ok f cs =>
    have hwrite : d.SamePower (f.write (engineReq c k) (128 * n) bs).dev := write hread
    rw [Res.elim]
    generalize f.write (engineReq c k) (128 * n) bs = x at hwrite ⊢
    cases x with
    | ok g u => exact hwrite
    | fail g w => exact .iteRes hwrite (keepLine hwrite)

theorem unaside {c l : Nat} {ls : List (Nat × Nat × List Byte)} : d.SamePower (e.unaside c l ls).1 := by
  induction ls generalizing e with
  | nil => exact h
  | cons x ls ih =>
    have hline : d.SamePower (e.restoreLine c l x.1 x.2.1 x.2.2).dev := h.restoreLine
    unfold Dev.unaside
    generalize e.restoreLine c l x.1 x.2.1 x.2.2 = r at hline ⊢
    cases r with
    | ok f u => exact ih hline
    | fail f w => exact hline

theorem setAside {c n : Nat} : d.SamePower (e.setAside c n) := h

theorem undoAside {l : Nat} : d.SamePower (e.undoAside l) := by
  unfold Dev.undoAside
  split
  · exact h
  · next u _ =>
    have hlines : d.SamePower (e.unaside u.ctx l u.lines).1 := h.unaside
    split
    · next he =>
      rw [he] at hlines
      exact setLt (setAside hlines)
    · next he =>
      rw [he] at hlines
      exact setLt hlines

theorem endAsk {c : Nat} {p : Pick} : d.SamePower (e.endAsk c p) := .ite h h.bump

theorem dropGets {c l n : Nat} : d.SamePower (e.dropGets c l n) := h.setSh

theorem closeMessages {c l t : Nat} {p : Pick} : d.SamePower (e.closeMessages c l t p) := h.foldl (fun _ hc => hc.send) _

theorem abandonPick {l : Nat} : d.SamePower (e.abandonPick l) := by
  unfold Dev.abandonPick
  split
  · exact h
  · split
    · exact h
    · dsimp only
      refine restState (account (account (bump (.ite ?_ (bump ?_)))))
      · exact h.setLt.unshadow.undoAside.endAsk.dropGets.closeMessages
      · exact h.setLt.unshadow.undoAside.endAsk.dropGets.closeMessages

theorem sendGets {c l n o u : Nat} {x : OpDesc} : d.SamePower (e.sendGets c l n o x u) :=
  h.foldl (fun _ hc => (hc.send).setSh) _

theorem runGets {c l n : Nat} {ps : List Piece} : d.SamePower (e.runGets c l n ps) :=
  h.foldl (fun _ hc => hc.foldl (fun _ hb => .ite hb.sendGets hb) _) _

theorem startRun {c l t : Nat} {r : Replay} : d.SamePower (e.startRun c l r t) := h.setLt.runGets

theorem startRuns {c l : Nat} {ts : List Nat} : d.SamePower (e.startRuns c l ts) := by
  refine h.foldl (fun t hc => ?_) ts
  split
  · exact hc.startRun
  · exact hc

theorem claim {a : Nat} : d.SamePower (e.claim a).1 := by
  unfold Dev.claim
  split
  · exact h
  · dsimp only
    split <;> exact h

theorem suspect {l c : Nat} : d.SamePower (e.suspect l c) := by
  unfold Dev.suspect
  split
  · dsimp only
    exact h.bump.abandonPick.claim.setLt.startRuns.showState
  · exact h

/-! ### What goes with a fenced unit (Table 09-3) -/

theorem markFenced {u : UnitType} {i r : Nat} : d.SamePower (e.markFenced u i r) := by
  have hentry {x : UnitRec} : d.SamePower ((e.setUnit u i x).record 2 0x0310 u i ((e.setUnit u i x).unitPart u i) r) :=
    h.setUnit.record
  have hlife {c : Prop} [Decidable c] {x : UnitRec} {bs : List Byte} :
      d.SamePower (if c then ((e.setUnit u i x).record 2 0x0310 u i ((e.setUnit u i x).unitPart u i) r).lifeWrite 2 bs
        else (e.setUnit u i x).record 2 0x0310 u i ((e.setUnit u i x).unitPart u i) r) := .ite hentry.lifeWrite hentry
  exact .ite h (.ite hlife.record hlife)

theorem loseRegions {k : Nat} : d.SamePower (e.loseRegions k) := h.foldl (fun _ hc => hc.setRegion) _

theorem dropBlocks {n : Nat} : d.SamePower (e.dropBlocks n) := by
  unfold Dev.dropBlocks
  dsimp only
  split <;> exact h

theorem loseBatten {n : Nat} : d.SamePower (e.loseBatten n) := h.dropBlocks.setBatten

theorem fenceBatten {n r : Nat} : d.SamePower (e.fenceBatten n r) := .ite h h.markFenced.loseBatten

theorem stackGone {k : Nat} : d.SamePower (e.stackGone k) := by
  unfold Dev.stackGone
  refine h.loseRegions.loseBatten.foldl (fun {c} _ hc => ?_) _
  have hdraw : d.SamePower c.draw.2 := hc
  exact hdraw.recordC3

theorem moveRun {t l : Nat} : d.SamePower (e.moveRun t l) := by
  unfold Dev.moveRun
  split
  · exact setLt (.ite h h.setTileState)
  · exact h

theorem setLeaving {t c : Nat} : d.SamePower (e.setLeaving t c) := h

theorem tileGone {t : Nat} : d.SamePower (e.tileGone t) := by
  unfold Dev.tileGone
  split
  · exact .ite h.setLeaving.suspect h.setLeaving
  · exact setTileState (h.foldl (fun _ hc => hc.moveRun) _)

theorem laneFault {n : Nat} : d.SamePower (e.laneFault n) := .ite h (.ite h.movePort (.ite h h))

theorem portFence {n : Nat} : d.SamePower (e.portFence n) := h.movePort.setFld

theorem dieGone {k : Nat} : d.SamePower (e.dieGone k) :=
  ((h.foldl (fun _ hc => hc.tileGone) _).foldl (fun _ hc => hc.stackGone) _).foldl (fun _ hc => hc.portFence) _

theorem audioLost {p : Nat} : d.SamePower (e.audioLost p) := by
  unfold Dev.audioLost
  refine .ite h ?_
  split
  · exact h
  · refine h.foldl (fun s hc => ?_) _
    split
    · exact hc
    · exact .ite hc (hc.same (by simp))

theorem fenceUnit {u : UnitType} {i r : Nat} : d.SamePower (e.fenceUnit u i r) := by
  refine .ite h ?_
  have hmark {v : UnitType} : d.SamePower (e.markFenced v i r) := h.markFenced
  cases u with
  | tile => exact hmark.tileGone
  | batten => exact h.fenceBatten
  | stack => exact hmark.stackGone
  | selvedge => exact .ite hmark.setUnit.stackGone hmark
  | die => exact hmark.dieGone
  | port => exact hmark.portFence
  | lane => exact hmark.laneFault
  | videoEngine => exact hmark
  | audioEngine =>
    dsimp only
    split
    · exact hmark.audioLost
    · exact hmark
  | hub => exact .ite (.ite h.setUnit.record h.setUnit) hmark
  | device => exact h
  | register => exact h
  | context => exact h
  | peer => exact h

/-! ### Strobes, copies, injections (09 R270, R280, R287) -/

theorem countCorrected {u : UnitType} {i : Nat} : d.SamePower (e.countCorrected u i) := .ite h.setUnit.fenceUnit h.setUnit

theorem classify {u : UnitType} {i : Nat} {c : ErrorCause} : d.SamePower (e.classify u i c) := by
  cases c with
  | corrected l => exact h.record.countCorrected
  | uncorrectable => exact h.fenceUnit

theorem pairBroken {u : UnitType} {i : Nat} : d.SamePower (e.pairBroken u i) := h.bump.fenceUnit

theorem strobe {x : StrobeReading} : d.SamePower (e.strobe x) := .ite h (.ite h.pairBroken (.ite h.classify h))

theorem flipCopy {x : CopyFlip} : d.SamePower (e.flipCopy x) := .ite h h

theorem setCopies {o : Nat} {x : Copies} : d.SamePower (e.setCopies o x) := h

theorem compareField {o : Nat} {f : Nat × Nat} : d.SamePower (e.compareField o f) :=
  .ite h (.ite h.setCopies.record (.ite h.setCopies.record h.record))

theorem compareCopies : d.SamePower e.compareCopies := h.foldl (fun _ hc => hc.foldl (fun _ hb => hb.compareField) _) _

theorem injected {u : UnitType} {i : Nat} : d.SamePower (e.injected u i) := h.record.setFld

theorem injectCopy {u : UnitType} {i : Nat} : d.SamePower (e.injectCopy u i) := by
  unfold Dev.injectCopy
  split
  · exact h
  · exact .ite h.injected.flipCopy h

theorem injectTick : d.SamePower e.injectTick := by
  unfold Dev.injectTick
  dsimp only
  split
  · exact h
  · refine .ite h (.ite h.injectCopy (.ite h (.ite ?_ (.ite h.injected.pairBroken (.ite h.injected.classify h)))))
    exact classify (e := (e.injected _ _).draw.2) (h.injected.same rfl)

theorem countStepping {p : Nat} : d.SamePower (e.countStepping p) := .ite (.ite h.setPl.setFld.raisePart h.setPl) h

end Dev.SamePower

end Sys2Proof.Machine
end

section
/-! SUPPORT. The CXL port and D3hot: what a link that goes or comes, a stream that fails, and the device's standing by leave
(11 R331 to R333, 15 R437). -/

namespace Sys2Proof.Machine

theorem exec_cxlLinkDown (s : State) : exec .cxlLinkDown s = s.after fun d => d.cxlDown := rfl

theorem exec_ideFailure (b : Bool) (n : Nat) (s : State) : exec (.ideFailure b n) s = s.after fun d => d.ideFails b n := rfl

theorem exec_d3hotEntry (s : State) : exec .d3hotEntry s = s.after fun d => d.d3hot := rfl

theorem exec_d0Return (s : State) : exec .d0Return s = s.after fun d => d.d0 := rfl

theorem exec_cxlLinkUp (width rate : Nat) (flit cache : Bool) (s : State) :
    exec (.cxlLinkUp width rate flit cache) s = s.after fun d => d.cxlTrained width rate flit cache := rfl

/-- Memory, tiles, fences and regions of `e` are those of `d`. -/
def Dev.SameWork (d e : Dev) : Prop := e.mem = d.mem ∧ e.tiles = d.tiles ∧ e.fences = d.fences ∧ e.regions = d.regions

/-- An entry below C4 makes nothing due. -/
theorem Dev.dues_record {d : Dev} {c : Nat} (hc : c ≠ 4) (k : Nat) (u : UnitType) (i : Nat) (p : Option Nat) (x : Nat) :
    (d.record c k u i p x).dues = d.dues := by
  simp [Dev.dues, hc]

/-! ### A C3 entry for each context of a list -/

theorem Dev.stopsDue_subset_recordC3 (d : Dev) (c k x : Nat) : d.stopsDue ⊆ (d.recordC3 c k x).stopsDue := by
  simp only [Dev.recordC3, Dev.logged, Dev.afterEntry, Dev.entryDue, Dev.newEntry]
  split
  · exact fun j hj => List.mem_append_left _ (by simpa using hj)
  · exact fun j hj => by simpa using hj

theorem Dev.stopsDue_subset_foldl_recordC3 (c : Nat) (x : Nat → Nat) (l : List Nat) (d : Dev) :
    d.stopsDue ⊆ (l.foldl (fun d k => d.recordC3 c k (x k)) d).stopsDue := by
  induction l generalizing d with
  | nil => exact fun _ h => h
  | cons j l ih => exact fun _ h => ih _ (d.stopsDue_subset_recordC3 c j (x j) h)

/-- The stop of every context of the list is due. -/
theorem Dev.subset_stopsDue_foldl_recordC3 (c : Nat) (x : Nat → Nat) (l : List Nat) (d : Dev) :
    l ⊆ (l.foldl (fun d k => d.recordC3 c k (x k)) d).stopsDue := by
  induction l generalizing d with
  | nil => exact List.nil_subset _
  | cons j l ih =>
    refine List.cons_subset.2 ⟨?_, ih _⟩
    exact Dev.stopsDue_subset_foldl_recordC3 c x l _ (d.mem_stopsDue_recordC3 c j (x j))

theorem Dev.foldl_recordC3_rest (c : Nat) (x : Nat → Nat) (l : List Nat) (d : Dev) :
    (l.foldl (fun d k => d.recordC3 c k (x k)) d).cxl = d.cxl ∧ d.SameWork (l.foldl (fun d k => d.recordC3 c k (x k)) d) :=
  ⟨foldl_keeps Dev.cxl (by simp) l d, foldl_keeps Dev.mem (by simp) l d, foldl_keeps Dev.tiles (by simp) l d,
    foldl_keeps Dev.fences (by simp) l d, foldl_keeps Dev.regions (by simp) l d⟩

/-! ### Link down and the failure of a stream -/

theorem Dev.cxlDown_of_not_due {d : Dev} (h : d.on = false ∨ d.cxl.up = false) : d.cxlDown = d := if_pos (by simpa using h)

theorem Dev.d3hot_of_not_due {d : Dev} (h : d.on = false ∨ d.power.d3 = true ∨ d.cxl.up = false) : d.d3hot = d :=
  if_pos (by simpa using h)

theorem Dev.d0_of_not_due {d : Dev} (h : d.on = false ∨ d.power.d3 = false ∨ d.cxl.up = false) : d.d0 = d := if_pos (by simpa using h)

/-- The secure streams of CXL.cache or of CXL.io. -/
def Cxl.streams (x : Cxl) (b : Bool) : List Nat := if b then x.ideCache else x.ideIo

theorem Dev.ideFails_of_not_due {d : Dev} {b : Bool} {n : Nat}
    (h : d.on = false ∨ d.cxl.up = false ∨ (d.cxl.streams b).contains n = false) : d.ideFails b n = d :=
  if_pos (by simpa [Cxl.streams] using h)

variable {s : State}

theorem exec_cxlLinkDown_up (hon : s.dev.on = true) (hup : s.dev.cxl.up = true) :
    ∃ f : Dev, exec .cxlLinkDown s = .next (s.withDev f.settle) ∧ f.cxl = Cxl.reset ∧ (∀ k ∈ s.dev.openCtxs, k ∈ f.stopsDue) ∧
      s.dev.SameWork f := by
  have hdue : s.dev.cxlDown = s.dev.openCtxs.foldl (fun d k => d.recordC3 0x0207 k (ctxId k)) { s.dev with cxl := Cxl.reset } :=
    if_neg (by simp [hon, hup])
  obtain ⟨hcxl, hkept⟩ := Dev.foldl_recordC3_rest 0x0207 ctxId s.dev.openCtxs { s.dev with cxl := Cxl.reset }
  exact ⟨_, exec_of_effect (exec_cxlLinkDown s) hdue, hcxl, fun _ hk => Dev.subset_stopsDue_foldl_recordC3 _ _ _ _ hk, hkept⟩

/-- The port after stream `n` has failed: it is no longer among the secure ones. -/
def Cxl.without (x : Cxl) (b : Bool) (n : Nat) : Cxl :=
  let m := (x.streams b).filter (· ≠ n)
  if b then { x with ideCache := m } else { x with ideIo := m }

theorem Cxl.not_mem_streams_without (x : Cxl) (b : Bool) (n : Nat) : n ∉ (x.without b n).streams b := by
  cases b <;> simp [Cxl.without, Cxl.streams]

theorem Cxl.up_without (x : Cxl) (b : Bool) (n : Nat) : (x.without b n).up = x.up := by cases b <;> rfl

theorem exec_ideFailure_secure (hon : s.dev.on = true) (hup : s.dev.cxl.up = true) {b : Bool} {n : Nat}
    (hn : (s.dev.cxl.streams b).contains n = true) :
    ∃ f : Dev, exec (.ideFailure b n) s = .next (s.withDev f.settle) ∧ n ∉ f.cxl.streams b ∧ f.cxl.up = true ∧
      (∀ k ∈ s.dev.openCtxs, k ∈ f.stopsDue) ∧ s.dev.SameWork f := by
  have hdue : s.dev.ideFails b n = s.dev.openCtxs.foldl
      (fun d k => d.recordC3 0x0208 k (b2n b + n % 256 * 16 + ctxId k * 65536)) { s.dev with cxl := s.dev.cxl.without b n } :=
    if_neg (by simpa [Cxl.streams, hon, hup] using hn)
  obtain ⟨hcxl, hkept⟩ := Dev.foldl_recordC3_rest 0x0208 (fun k => b2n b + n % 256 * 16 + ctxId k * 65536) s.dev.openCtxs
    { s.dev with cxl := s.dev.cxl.without b n }
  refine ⟨_, exec_of_effect (exec_ideFailure b n s) hdue, ?_, ?_, fun _ hk => Dev.subset_stopsDue_foldl_recordC3 _ _ _ _ hk, hkept⟩
  · rw [hcxl]
    exact s.dev.cxl.not_mem_streams_without b n
  · rw [hcxl, Cxl.up_without, hup]

/-! ### D3hot and D0 -/

theorem Dev.power_setPower (d : Dev) (p : PowerState) : (d.setPower p).power = { d.power with st := p } := by
  unfold Dev.setPower
  split
  · next h => subst h; rfl
  · simp

theorem Dev.setPower_rest (d : Dev) (p : PowerState) :
    d.SameWork (d.setPower p) ∧ (d.setPower p).regs = d.regs ∧ (d.setPower p).dues = d.dues := by
  unfold Dev.setPower
  split
  · exact ⟨⟨rfl, rfl, rfl, rfl⟩, rfl, rfl⟩
  · simp [Dev.SameWork, Dev.dues]

theorem exec_d3hotEntry_due (hq : s.dev.quiet = true) (hon : s.dev.on = true) (hup : s.dev.cxl.up = true) (hd0 : s.dev.power.d3 = false)
    (hctx : s.dev.openCtxs = []) :
    ∃ t, exec .d3hotEntry s = .next t ∧ t.dev.power.d3 = true ∧ t.dev.power.before = s.dev.power.st ∧
      t.dev.power.st = (if s.dev.power.st = .reduced ∨ s.dev.power.st = .full then .standby else s.dev.power.st) ∧
      s.dev.SameWork t.dev ∧ t.dev.regs = s.dev.regs := by
  have hdue : s.dev.d3hot = (if s.dev.power.st = .reduced ∨ s.dev.power.st = .full then
      (s.dev.setPw { s.dev.power with d3 := true, before := s.dev.power.st }).setPower .standby
      else s.dev.setPw { s.dev.power with d3 := true, before := s.dev.power.st }) := by
    rw [Dev.d3hot, if_neg (by simp [hon, hup, hd0]), hctx]
    rfl
  by_cases hst : s.dev.power.st = .reduced ∨ s.dev.power.st = .full
  · rw [if_pos hst] at hdue ⊢
    obtain ⟨hkept, hregs, hdues⟩ := (s.dev.setPw { s.dev.power with d3 := true, before := s.dev.power.st }).setPower_rest .standby
    exact ⟨_, exec_of_dues hq (exec_d3hotEntry s) hdue hdues, congrArg Power.d3 (Dev.power_setPower _ _),
      congrArg Power.before (Dev.power_setPower _ _), congrArg Power.st (Dev.power_setPower _ _), hkept, hregs⟩
  · rw [if_neg hst] at hdue ⊢
    exact ⟨_, exec_of_dues hq (exec_d3hotEntry s) hdue rfl, rfl, rfl, rfl, ⟨rfl, rfl, rfl, rfl⟩, rfl⟩

theorem exec_d0Return_due (hq : s.dev.quiet = true) (hon : s.dev.on = true) (hup : s.dev.cxl.up = true) (hd3 : s.dev.power.d3 = true) :
    ∃ t, exec .d0Return s = .next t ∧ t.dev.power.d3 = false ∧
      t.dev.power.st = (if s.dev.power.st = .standby then s.dev.power.before else s.dev.power.st) ∧
      s.dev.SameWork t.dev ∧ t.dev.regs = s.dev.regs := by
  have hdue : s.dev.d0 = (if s.dev.power.st = .standby then
      (s.dev.setPw { s.dev.power with d3 := false }).setPower s.dev.power.before
      else s.dev.setPw { s.dev.power with d3 := false }) := by
    rw [Dev.d0, if_neg (by simp [hon, hup, hd3])]
    rfl
  by_cases hst : s.dev.power.st = .standby
  · rw [if_pos hst] at hdue ⊢
    obtain ⟨hkept, hregs, hdues⟩ := (s.dev.setPw { s.dev.power with d3 := false }).setPower_rest s.dev.power.before
    exact ⟨_, exec_of_dues hq (exec_d0Return s) hdue hdues, congrArg Power.d3 (Dev.power_setPower _ _),
      congrArg Power.st (Dev.power_setPower _ _), hkept, hregs⟩
  · rw [if_neg hst] at hdue ⊢
    exact ⟨_, exec_of_dues hq (exec_d0Return s) hdue rfl, rfl, rfl, ⟨rfl, rfl, rfl, rfl⟩, rfl⟩

/-! ### Link up -/

/-- What `CXL_LINK_UP` asks for: a device that runs and is released, no link yet, and an offer of Table 11-1. -/
def Dev.canTrain (d : Dev) (width rate : Nat) (flit : Bool) : Prop :=
  d.on = true ∧ d.cxl.up = false ∧ d.power.perst = false ∧ (d.power.booted = true ∨ d.life.recovery = true) ∧
    width ∈ [1, 2, 4, 8] ∧ (rate = 5 ∨ rate = 6 ∧ flit = true)

theorem linkOffered_iff {width rate : Nat} {flit : Bool} :
    linkOffered width rate flit = true ↔ width ∈ [1, 2, 4, 8] ∧ (rate = 5 ∨ rate = 6 ∧ flit = true) := by
  simp [linkOffered, or_comm]

/-- The port as it trains, in firmware recovery with CXL.io alone. -/
def Dev.trainedPort (d : Dev) (width rate : Nat) (flit cache : Bool) : Cxl :=
  { up := true, width := width, rate := rate, flit256 := flit, cache := cache && !d.life.recovery, ideIo := [], ideCache := [], lines := [] }

/-- The device with its port trained, and entry 0x0206 for a link below the widest and fastest. -/
def Dev.trained (d : Dev) (width rate : Nat) (flit cache : Bool) : Dev :=
  let c := cache && !d.life.recovery
  let e := { d with cxl := d.trainedPort width rate flit cache }
  if width < 8 ∨ rate < 6 ∨ !c then e.record 1 0x0206 .hub 3 none (width + rate * 16 + b2n c * 256) else e

theorem Dev.trained_rest (d : Dev) (width rate : Nat) (flit cache : Bool) :
    (d.trained width rate flit cache).cxl = d.trainedPort width rate flit cache ∧ d.SameWork (d.trained width rate flit cache) ∧
      (d.trained width rate flit cache).dues = d.dues := by
  unfold Dev.trained
  dsimp only
  split
  · refine ⟨?_, ?_, Dev.dues_record (by decide) _ _ _ _ _⟩ <;> simp [Dev.SameWork]
  · exact ⟨rfl, ⟨rfl, rfl, rfl, rfl⟩, rfl⟩

theorem Dev.trained_seq (d : Dev) (width rate : Nat) (flit cache : Bool) : (d.trained width rate flit cache).log.seq =
    if width < 8 ∨ rate < 6 ∨ !(cache && !d.life.recovery) then d.log.seq + 1 else d.log.seq := by
  unfold Dev.trained
  dsimp only
  split
  · rw [Dev.record_log, FaultLog.push_seq]
  · rfl

theorem Dev.payStatus_rest (d : Dev) :
    d.payStatus.cxl = d.cxl ∧ d.payStatus.log = d.log ∧ d.SameWork d.payStatus ∧ d.payStatus.dues = d.dues := by
  unfold Dev.payStatus
  generalize (d.rings.filter fun e => e.2.owed).map Prod.fst = l
  exact ⟨foldl_keeps Dev.cxl (by simp) l d, foldl_keeps Dev.log (by simp) l d,
    ⟨foldl_keeps Dev.mem (by simp) l d, foldl_keeps Dev.tiles (by simp) l d, foldl_keeps Dev.fences (by simp) l d,
      foldl_keeps Dev.regions (by simp) l d⟩, foldl_keeps Dev.dues (by simp [Dev.dues]) l d⟩

theorem Dev.cxlTrained_of_not_due {d : Dev} {width rate : Nat} {flit : Bool} (h : ¬ d.canTrain width rate flit) (cache : Bool) :
    d.cxlTrained width rate flit cache = d := by
  refine if_pos (by_contra fun hc => h ?_)
  simp only [Bool.not_eq_true', not_or, Bool.not_eq_false, Bool.not_eq_true, Bool.or_eq_true] at hc
  obtain ⟨hon, hdown, hperst, hboot, hoffer⟩ := hc
  exact ⟨hon, hdown, hperst, hboot, linkOffered_iff.1 hoffer⟩

theorem exec_cxlLinkUp_due (hq : s.dev.quiet = true) {width rate : Nat} {flit : Bool} (h : s.dev.canTrain width rate flit) (cache : Bool) :
    ∃ t, exec (.cxlLinkUp width rate flit cache) s = .next t ∧ t.dev.cxl = s.dev.trainedPort width rate flit cache ∧
      (width = 8 → rate = 6 → cache = true → s.dev.life.recovery = false → t.dev.log.seq = s.dev.log.seq) ∧
      ((width ≠ 8 ∨ rate = 5 ∨ cache = false) → t.dev.log.seq = s.dev.log.seq + 1) ∧ s.dev.SameWork t.dev := by
  obtain ⟨hon, hdown, hperst, hboot, hoffer⟩ := h
  have hdue : s.dev.cxlTrained width rate flit cache = (s.dev.trained width rate flit cache).payStatus := by
    refine if_neg ?_
    rw [linkOffered_iff.2 hoffer]
    simpa [hon, hdown, hperst, or_iff_not_imp_left] using hboot
  obtain ⟨hcxl, hlog, ⟨hmem, htiles, hfences, hregions⟩, hdues⟩ := (s.dev.trained width rate flit cache).payStatus_rest
  obtain ⟨hport, ⟨hmem', htiles', hfences', hregions'⟩, hdues'⟩ := s.dev.trained_rest width rate flit cache
  have hseq := s.dev.trained_seq width rate flit cache
  have hwidth : width ≤ 8 := by
    have hw := hoffer.1
    simp only [List.mem_cons, List.not_mem_nil, or_false] at hw
    omega
  refine ⟨_, exec_of_dues hq (exec_cxlLinkUp width rate flit cache s) hdue (hdues.trans hdues'), hcxl.trans hport, ?_, ?_,
    hmem.trans hmem', htiles.trans htiles', hfences.trans hfences', hregions.trans hregions'⟩
  · rintro rfl rfl rfl hrec
    rw [hlog, hseq, if_neg (by simp [hrec])]
  · intro hbelow
    rw [hlog, hseq, if_pos]
    rcases hbelow with hw | hr | hc
    · exact .inl (by omega)
    · exact .inr (.inl (by omega))
    · exact .inr (.inr (by simp [hc]))

end Sys2Proof.Machine
end

section
/-! SUPPORT. Time: edges of time sync and their loss, the pins, the calendar (15 R453, R454, R458, R461), the supply of VBAT
(13 R412). -/

namespace Sys2Proof.Machine

theorem exec_syncEdge (s : State) : exec .syncEdge s = s.after fun d => d.syncEdge := rfl

theorem exec_syncLost (s : State) : exec .syncLost s = s.after fun d => d.syncLost := rfl

theorem exec_syncEnable (v : BitVec 32) (s : State) : exec (.syncEnable v) s = s.after fun d => d.syncControl v.toNat := rfl

theorem exec_uartRequest (v : BitVec 32) (s : State) : exec (.uartRequest v) s = s.after fun d => d.uartWrite v.toNat := rfl

theorem exec_calendarAdjust (v : Word64) (s : State) :
    exec (.calendarAdjust v) s = s.after fun d => d.calendarAdjust s.fuses.lc v := rfl

theorem exec_vbatLow (mv : Nat) (s : State) : exec (.vbatLow mv) s = s.after fun d => d.vbatLow mv := rfl

theorem Dev.fld_lt (d : Dev) (o lo w : Nat) : d.fld o lo w < 2 ^ w := bits_lt _ _ _

theorem Dev.power_setPw (d : Dev) (w : Power) : (d.setPw w).power = w := rfl

theorem b2n_lt_two (b : Bool) : b2n b < 2 ^ 1 := by cases b <;> decide

theorem bit_zero_eq (v : Nat) : bit v 0 = decide (bits v 0 1 = 1) := by
  rw [bit, bits, Nat.shiftRight_zero, pow_one, Nat.testBit_zero]

/-! ### A pending `PV_TIME_SET` -/

variable {d : Dev}

theorem Dev.applyTimeSet_none (h : d.power.timeSet = none) : d.applyTimeSet = d := by rw [Dev.applyTimeSet, h]

theorem Dev.applyTimeSet_ahead {v : Nat} (h : d.power.timeSet = some v) (hv : d.now ≤ v) :
    d.applyTimeSet = { d.setPw { d.power with timeSet := none } with timePs := v * 1000 } := by
  rw [Dev.applyTimeSet, h]
  exact if_pos hv

theorem Dev.applyTimeSet_behind {v : Nat} (h : d.power.timeSet = some v) (hv : v < d.now) : d.applyTimeSet =
    ((d.setPw { d.power with timeSet := none }).setFld 0x64 2 1 1).record 0 0x010A .device 0 none v := by
  rw [Dev.applyTimeSet, h]
  exact if_neg (not_le.2 hv)

/-- A time behind now is recorded, and `PV_SYNC_STATUS` says so. -/
theorem Dev.applyTimeSet_refused {v : Nat} (h : d.power.timeSet = some v) (hv : v < d.now) :
    d.applyTimeSet.fld 0x64 2 1 = 1 ∧ d.applyTimeSet.log.seq = d.log.seq + 1 := by
  rw [Dev.applyTimeSet_behind h hv, Dev.fld_record_none, Dev.fld_setFld _ (by decide), Dev.record_log, FaultLog.push_seq]
  exact ⟨rfl, rfl⟩

/-- Nothing else changes, but bit 2 of `PV_SYNC_STATUS`. -/
theorem Dev.applyTimeSet_rest (d : Dev) :
    d.SameWork d.applyTimeSet ∧ d.applyTimeSet.dues = d.dues ∧ d.applyTimeSet.power = { d.power with timeSet := none } ∧
      (∀ o, o ≠ 0x64 → d.applyTimeSet.reg o = d.reg o) ∧
      (∀ o lo w, lo + w ≤ 64 → lo + w ≤ 2 ∨ 3 ≤ lo → d.applyTimeSet.fld o lo w = d.fld o lo w) := by
  cases h : d.power.timeSet with
  | none =>
    rw [Dev.applyTimeSet_none h, ← h]
    exact ⟨⟨rfl, rfl, rfl, rfl⟩, rfl, rfl, fun _ _ => rfl, fun _ _ _ _ _ => rfl⟩
  | some v =>
    by_cases hv : d.now ≤ v
    · rw [Dev.applyTimeSet_ahead h hv]
      exact ⟨⟨rfl, rfl, rfl, rfl⟩, rfl, rfl, fun _ _ => rfl, fun _ _ _ _ _ => rfl⟩
    · rw [Dev.applyTimeSet_behind h (not_le.1 hv)]
      refine ⟨by simp [Dev.SameWork], Dev.dues_record (by decide) _ _ _ _ _, by simp [Dev.power_setPw], fun o ho => ?_, fun o lo w hw hlo => ?_⟩
      · rw [Dev.reg_record_none, Dev.reg_setFld_ne _ _ _ _ ho]
        rfl
      · rw [Dev.fld_record_none, Dev.fld_setFld_ne _ hw (.inr hlo)]
        rfl

/-- The timebase once the pending time has been looked at: it never moves backward. -/
def Dev.timeWithSet (d : Dev) : Nat :=
  match d.power.timeSet with
  | some v => if d.now ≤ v then v * 1000 else d.timePs
  | none => d.timePs

theorem Dev.timePs_applyTimeSet (d : Dev) : d.applyTimeSet.timePs = d.timeWithSet := by
  cases h : d.power.timeSet with
  | none => rw [Dev.applyTimeSet_none h, Dev.timeWithSet, h]
  | some v =>
    rw [Dev.timeWithSet, h]
    by_cases hv : d.now ≤ v
    · rw [Dev.applyTimeSet_ahead h hv]
      exact (if_pos hv).symm
    · rw [Dev.applyTimeSet_behind h (not_le.1 hv)]
      simp [hv]

/-! ### Edges and their loss -/

theorem edgeError_lt (t : Nat) : edgeError t < 2 ^ 16 := by
  unfold edgeError
  dsimp only
  split <;> omega

/-- The registers that an edge stamps, with error `e`, in range or not as `r` says. -/
def Dev.edgeRegs (d : Dev) (e r : Nat) : Dev := ((d.setReg 0x70 (BitVec.ofNat 64 d.now)).setFld 0x64 16 16 e).setFld 0x64 0 1 r

theorem Dev.edgeRegs_stamp (d : Dev) (e r : Nat) : (d.edgeRegs e r).reg 0x70 = BitVec.ofNat 64 d.now := by
  rw [Dev.edgeRegs, Dev.reg_setFld_ne _ _ _ _ (by decide), Dev.reg_setFld_ne _ _ _ _ (by decide), Dev.reg_setReg, if_pos rfl]

theorem Dev.edgeRegs_error (d : Dev) {e : Nat} (r : Nat) (he : e < 2 ^ 16) : (d.edgeRegs e r).fld 0x64 16 16 = e := by
  rw [Dev.edgeRegs, Dev.fld_setFld_ne _ (by decide) (by decide), Dev.fld_setFld _ (by decide), Nat.mod_eq_of_lt he]

theorem Dev.edgeRegs_inRange (d : Dev) (e : Nat) {r : Nat} (hr : r < 2 ^ 1) : (d.edgeRegs e r).fld 0x64 0 1 = r := by
  rw [Dev.edgeRegs, Dev.fld_setFld _ (by decide), Nat.mod_eq_of_lt hr]

/-- The device with an edge stamped at second `k`, before a pending time is looked at. -/
def Dev.edgeStamped (d : Dev) (k e r : Nat) : Dev :=
  (d.edgeRegs e r).setPw { d.power with edge := some k, slewing := decide (e ≠ 0),
                                        edges := if (d.edgeRegs e r).fld 0x60 1 1 = 1 then d.power.edges + 1 else d.power.edges }

theorem Dev.edgeStamped_rest (d : Dev) (k e r : Nat) : d.SameWork (d.edgeStamped k e r) ∧ (d.edgeStamped k e r).dues = d.dues ∧
    (d.edgeStamped k e r).timePs = d.timePs ∧ (d.edgeStamped k e r).log = d.log ∧
    (d.edgeStamped k e r).regs = (d.edgeRegs e r).regs ∧ (d.edgeStamped k e r).power.edge = some k ∧
    (d.edgeStamped k e r).power.timeSet = d.power.timeSet := by
  simp [Dev.edgeStamped, Dev.edgeRegs, Dev.SameWork, Dev.dues, Dev.power_setPw]

theorem Dev.syncEdge_of_not_due (h : d.on = false ∨ d.fld 0x60 0 1 = 0) : d.syncEdge = d := if_pos (by simpa using h)

theorem Dev.syncEdge_due (hon : d.on = true) (hsync : d.fld 0x60 0 1 = 1) : d.syncEdge =
    (d.edgeStamped (nearestEdge d.now) (edgeError d.now) (b2n (errorSize (edgeError d.now) ≤ 50))).applyTimeSet := by
  unfold Dev.syncEdge
  rw [if_neg (by simp [hon, hsync])]
  simp only [Dev.edgeStamped, Dev.edgeRegs, Dev.now, Dev.setFld_rest, Dev.setReg_rest]
  rfl

variable {s : State}

/-- What an edge leaves: stamp, error, range, the time set or refused. -/
theorem Dev.syncEdge_leaves (hon : d.on = true) (hsync : d.fld 0x60 0 1 = 1) : d.syncEdge.reg 0x70 = BitVec.ofNat 64 d.now ∧
    d.syncEdge.fld 0x64 16 16 = edgeError d.now ∧
    d.syncEdge.fld 0x64 0 1 = b2n (decide (errorSize (edgeError d.now) ≤ 50)) ∧
    d.syncEdge.power.edge = some (nearestEdge d.now) ∧ d.syncEdge.power.timeSet = none ∧
    d.syncEdge.timePs = d.timeWithSet ∧
    (∀ v, d.power.timeSet = some v → v < d.now → d.syncEdge.fld 0x64 2 1 = 1 ∧ d.syncEdge.log.seq = d.log.seq + 1) ∧
    d.SameWork d.syncEdge := by
  rw [Dev.syncEdge_due hon hsync]
  have he := edgeError_lt d.now
  have hr := b2n_lt_two (errorSize (edgeError d.now) ≤ 50)
  generalize edgeError d.now = e at he hr ⊢
  generalize b2n (decide (errorSize e ≤ 50)) = r at hr ⊢
  generalize nearestEdge d.now = k
  obtain ⟨⟨hmem, htiles, hfences, hregions⟩, -, htime, hlog, hregs, hedge, hset⟩ := d.edgeStamped_rest k e r
  obtain ⟨⟨hmem', htiles', hfences', hregions'⟩, -, hpower, hreg, hfld⟩ := (d.edgeStamped k e r).applyTimeSet_rest
  have hnow : (d.edgeStamped k e r).now = d.now := by rw [Dev.now, htime, Dev.now]
  refine ⟨?_, ?_, ?_, ?_, ?_, ?_, fun v hv hlate => ?_,
    hmem'.trans hmem, htiles'.trans htiles, hfences'.trans hfences, hregions'.trans hregions⟩
  · rw [hreg _ (by decide), Dev.reg, hregs, ← d.edgeRegs_stamp e r, Dev.reg]
  · rw [hfld _ _ _ (by decide) (by decide), Dev.fld_congr hregs, d.edgeRegs_error r he]
  · rw [hfld _ _ _ (by decide) (by decide), Dev.fld_congr hregs, d.edgeRegs_inRange e hr]
  · rw [hpower]
    exact hedge
  · rw [hpower]
  · rw [Dev.timePs_applyTimeSet, Dev.timeWithSet, hset, hnow, htime, Dev.timeWithSet]
  · obtain ⟨hstatus, hseq⟩ := Dev.applyTimeSet_refused (hset.trans hv) (hlate.trans_eq hnow.symm)
    exact ⟨hstatus, by rw [hseq, hlog]⟩

theorem Dev.dues_syncEdge (hon : d.on = true) (hsync : d.fld 0x60 0 1 = 1) : d.syncEdge.dues = d.dues := by
  rw [Dev.syncEdge_due hon hsync]
  generalize edgeError d.now = e
  generalize b2n (decide (errorSize e ≤ 50)) = r
  obtain ⟨-, hdues, -⟩ := d.edgeStamped_rest (nearestEdge d.now) e r
  obtain ⟨-, hdues', -⟩ := (d.edgeStamped (nearestEdge d.now) e r).applyTimeSet_rest
  exact hdues'.trans hdues

theorem exec_syncEdge_due (hq : s.dev.quiet = true) (hon : s.dev.on = true) (hsync : s.dev.fld 0x60 0 1 = 1) :
    exec .syncEdge s = .next (s.withDev s.dev.syncEdge) :=
  exec_of_dues hq (exec_syncEdge s) rfl (Dev.dues_syncEdge hon hsync)

theorem Dev.syncLost_of_not_due (h : d.on = false ∨ d.fld 0x60 0 1 = 0) : d.syncLost = d := by
  unfold Dev.syncLost
  split
  · exact if_pos (by simpa [or_assoc] using Or.inl h)
  · rfl

theorem Dev.syncLost_of_no_edge (h : d.power.edge = none) : d.syncLost = d := by rw [Dev.syncLost, h]

theorem Dev.syncLost_early {k : Nat} (h : d.power.edge = some k) (hk : d.now < (k + 3) * 1000000000) : d.syncLost = d := by
  rw [Dev.syncLost, h]
  exact if_pos (.inr (.inr hk))

/-- `LOST` is set and no edge is expected. -/
def Dev.lostSet (d : Dev) : Dev := (d.setPw { d.power with edge := none }).setFld 0x64 1 1 1

theorem Dev.syncLost_due {k : Nat} (h : d.power.edge = some k) (hon : d.on = true) (hsync : d.fld 0x60 0 1 = 1)
    (hk : (k + 3) * 1000000000 ≤ d.now) : d.syncLost = d.lostSet.record 1 0x0106 .device 0 none (d.lostSet.fld 0x64 16 16) := by
  rw [Dev.syncLost, h]
  exact if_neg (by simp [hon, hsync, hk])

theorem exec_syncLost_due (hq : s.dev.quiet = true) {k : Nat} (h : s.dev.power.edge = some k) (hon : s.dev.on = true)
    (hsync : s.dev.fld 0x60 0 1 = 1) (hk : (k + 3) * 1000000000 ≤ s.dev.now) :
    ∃ t, exec .syncLost s = .next t ∧ t.dev.fld 0x64 1 1 = 1 ∧ t.dev.power.edge = none ∧ t.dev.log.seq = s.dev.log.seq + 1 ∧
      t.dev.timePs = s.dev.timePs := by
  refine ⟨_, exec_of_dues hq (exec_syncLost s) (Dev.syncLost_due h hon hsync hk) (Dev.dues_record (by decide) _ _ _ _ _), ?_, ?_, ?_, ?_⟩
  · rw [Dev.fld_record_none, Dev.lostSet, Dev.fld_setFld _ (by decide), Nat.mod_eq_of_lt (by decide)]
  · simp [Dev.lostSet, Dev.power_setPw]
  · simp [Dev.lostSet]
  · simp [Dev.lostSet]

/-! ### Registers whose fields take every value -/

/-- No value is reserved in the field, and no lock guards it. -/
def RegField.takesAny (f : RegField) : Bool := f.acc = .rw1c || f.acc = .rw && f.least = 0 && 2 ^ f.w ≤ f.most + 1

theorem mergeField_takesAny {f : RegField} (h : f.takesAny = true) (lk : Bool) (lo w v : Nat) (m : Merge) :
    (mergeField lk lo w v m f).reserved = m.reserved ∧ (mergeField lk lo w v m f).locked = m.locked := by
  simp only [RegField.takesAny, Bool.or_eq_true, Bool.and_eq_true, decide_eq_true_eq] at h
  unfold mergeField
  split
  · exact ⟨rfl, rfl⟩
  · rcases h with hacc | ⟨⟨hacc, hleast⟩, hmost⟩
    · rw [hacc]
      exact ⟨rfl, rfl⟩
    · have hx := bits_lt (setBits m.value lo w (bits v lo w)) f.lo f.w
      simp only [hacc]
      rw [if_neg (by omega)]
      exact ⟨rfl, rfl⟩

theorem foldl_mergeField_takesAny {lk : Bool} {lo w v : Nat} {l : List RegField} (m : Merge) (h : ∀ f ∈ l, f.takesAny = true) :
    (l.foldl (mergeField lk lo w v) m).reserved = m.reserved ∧ (l.foldl (mergeField lk lo w v) m).locked = m.locked := by
  induction l generalizing m with
  | nil => exact ⟨rfl, rfl⟩
  | cons f l ih =>
    obtain ⟨hreserved, hlocked⟩ := mergeField_takesAny (h f List.mem_cons_self) lk lo w v m
    obtain ⟨hr, hl⟩ := ih (mergeField lk lo w v m f) fun g hg => h g (List.mem_cons_of_mem _ hg)
    exact ⟨hr.trans hreserved, hl.trans hlocked⟩

/-- The write of such a register records nothing. -/
theorem Dev.applyWrite_takesAny {r : RegSpec} (h : ∀ f ∈ r.fields, f.takesAny = true) (d : Dev) (o lo w v : Nat) :
    d.applyWrite r o lo w v = d.setReg o (BitVec.ofNat 64 (d.mergeWrite r o lo w v).value) := by
  have hm : (d.mergeWrite r o lo w v).reserved = false ∧ (d.mergeWrite r o lo w v).locked = false := by
    have hfold := foldl_mergeField_takesAny (lk := d.locked o) (lo := lo) (w := w) (v := v * 2 ^ lo)
      { value := (d.reg o).toNat, reserved := false, locked := false } h
    unfold Dev.mergeWrite
    dsimp only
    split
    · split <;> exact hfold
    · exact hfold
  obtain ⟨hreserved, hlocked⟩ := hm
  rw [Dev.applyWrite, hreserved, hlocked]
  rfl

/-- Nothing but the register itself is another after such a write. -/
theorem Dev.plainWrite_takesAny {o q : Nat} {r : RegSpec} (hr : regAt o = some (r, q)) (h : ∀ f ∈ r.fields, f.takesAny = true)
    (d : Dev) (v : Nat) : ∃ x, d.plainWrite o v = d.setReg o x :=
  ⟨_, (d.plainWrite_eq hr v).trans (d.applyWrite_takesAny h o 0 (8 * r.bytes) v)⟩

/-- An RW field of a register without a lock takes what is written. -/
theorem Dev.fld_plainWrite_rw {o q : Nat} {r : RegSpec} (hr : regAt o = some (r, q)) (hs : r.sound = true) (hl : lockAt o = none)
    {f : RegField} (hf : f ∈ r.fields) (hacc : f.acc = .rw) (hleast : f.least = 0) (hmost : 2 ^ f.w ≤ f.most + 1) (d : Dev) (v : Nat) :
    (d.plainWrite o v).fld o f.lo f.w = bits v f.lo f.w := by
  have hx := bits_lt v f.lo f.w
  rw [d.plainWrite_eq hr, d.fld_applyWrite hs hf (by simp [hl]), f.after_rw hacc _ _ (by omega)]

/-! ### `PV_SYNC_CTRL` -/

def syncSpec : RegSpec := ⟨0x00060, 1, 0x0, 1, 0x0, 4, [⟨0, 1, .rw, 0, 1⟩, ⟨1, 1, .rw, 0, 1⟩]⟩

theorem regAt_sync : regAt 0x60 = some (syncSpec, 0x60) := rfl

theorem Dev.fld_plainWrite_sync (d : Dev) (v : Nat) :
    (d.plainWrite 0x60 v).fld 0x60 0 1 = bits v 0 1 ∧ (d.plainWrite 0x60 v).fld 0x60 1 1 = bits v 1 1 :=
  ⟨Dev.fld_plainWrite_rw regAt_sync (by decide) (by decide) (f := ⟨0, 1, .rw, 0, 1⟩) (by decide) rfl rfl (by decide) d v,
    Dev.fld_plainWrite_rw regAt_sync (by decide) (by decide) (f := ⟨1, 1, .rw, 0, 1⟩) (by decide) rfl rfl (by decide) d v⟩

theorem Dev.syncControl_eq (h : d.takesWrite 0x60) (v : Nat) : d.syncControl v =
    if bits v 0 1 = d.fld 0x60 0 1 then d.plainWrite 0x60 v
    else if bits v 0 1 = 1 then (d.plainWrite 0x60 v).setPw
      { (d.plainWrite 0x60 v).power with uart := false, edge := some ((d.plainWrite 0x60 v).now / 1000000000) }
    else (d.plainWrite 0x60 v).setPw { (d.plainWrite 0x60 v).power with slewing := false, edge := none } := by
  rw [Dev.syncControl, Dev.onWrite_of_takesWrite _ h]
  dsimp only
  rw [(d.fld_plainWrite_sync v).1]

/-- Beside `PV_SYNC_CTRL` only the state of time sync and of the UART changes. -/
theorem Dev.syncControl_rest (h : d.takesWrite 0x60) (v : Nat) :
    (d.syncControl v).regs = (d.plainWrite 0x60 v).regs ∧ d.SameWork (d.syncControl v) ∧ (d.syncControl v).dues = d.dues := by
  obtain ⟨x, hx⟩ := Dev.plainWrite_takesAny regAt_sync (by decide) d v
  rw [Dev.syncControl_eq h, hx]
  split
  · exact ⟨rfl, ⟨rfl, rfl, rfl, rfl⟩, rfl⟩
  · split <;> exact ⟨rfl, ⟨rfl, rfl, rfl, rfl⟩, rfl⟩

theorem exec_syncEnable_taken (hq : s.dev.quiet = true) (v : BitVec 32) (h : s.dev.takesWrite 0x60) :
    ∃ t, exec (.syncEnable v) s = .next t ∧ t.dev.fld 0x60 0 1 = bits v.toNat 0 1 ∧ t.dev.fld 0x60 1 1 = bits v.toNat 1 1 ∧
      s.dev.SameWork t.dev ∧
      (s.dev.fld 0x60 0 1 = 0 → bits v.toNat 0 1 = 1 → t.dev.power.uart = false ∧ t.dev.power.edge = some (s.dev.now / 1000000000)) ∧
      (s.dev.fld 0x60 0 1 = 1 → bits v.toNat 0 1 = 0 → t.dev.power.slewing = false ∧ t.dev.power.edge = none) := by
  obtain ⟨hregs, hkept, hdues⟩ := Dev.syncControl_rest h v.toNat
  obtain ⟨henable, hcount⟩ := s.dev.fld_plainWrite_sync v.toNat
  obtain ⟨x, hx⟩ := Dev.plainWrite_takesAny regAt_sync (by decide) s.dev v.toNat
  refine ⟨_, exec_of_dues hq (exec_syncEnable v s) rfl hdues, (Dev.fld_congr hregs _ _ _).trans henable,
    (Dev.fld_congr hregs _ _ _).trans hcount, hkept, fun hoff hset => ?_, fun hset hoff => ?_⟩
  · dsimp only
    rw [Dev.syncControl_eq h, if_neg (by omega), if_pos hset, hx]
    exact ⟨rfl, rfl⟩
  · dsimp only
    rw [Dev.syncControl_eq h, if_neg (by omega), if_neg (by omega)]
    exact ⟨rfl, rfl⟩

/-! ### `PV_AUX` -/

def auxSpec : RegSpec := ⟨0x00088, 1, 0x0, 1, 0x0, 4, [⟨0, 1, .rw, 0, 1⟩, ⟨1, 1, .rw1c, 0, 1⟩]⟩

theorem regAt_aux : regAt 0x88 = some (auxSpec, 0x88) := rfl

theorem Dev.fld_plainWrite_aux (d : Dev) (v : Nat) :
    (d.plainWrite 0x88 v).fld 0x88 0 1 = bits v 0 1 ∧ (d.plainWrite 0x88 v).fld 0x60 0 1 = d.fld 0x60 0 1 := by
  obtain ⟨x, hx⟩ := Dev.plainWrite_takesAny regAt_aux (by decide) d v
  refine ⟨Dev.fld_plainWrite_rw regAt_aux (by decide) (by decide) (f := ⟨0, 1, .rw, 0, 1⟩) (by decide) rfl rfl (by decide) d v, ?_⟩
  rw [hx, Dev.fld, Dev.reg_setReg_ne _ _ (by decide), Dev.fld]

theorem Dev.uartWrite_eq (h : d.takesWrite 0x88) (v : Nat) : d.uartWrite v =
    if bits v 0 1 = 1 ∧ d.fld 0x60 0 1 = 1 then
      (((d.plainWrite 0x88 v).setFld 0x88 0 1 (d.fld 0x88 0 1)).setFld 0x88 1 1 1).record 0 0x0103 .device 0 none 0
    else (d.plainWrite 0x88 v).setPw { (d.plainWrite 0x88 v).power with uart := bit v 0 } := by
  rw [Dev.uartWrite, Dev.onWrite_of_takesWrite _ h]
  dsimp only
  rw [(d.fld_plainWrite_aux v).2]
  simp only [bit_zero_eq, decide_eq_true_eq]

theorem exec_uartRequest_refused (hq : s.dev.quiet = true) (v : BitVec 32) (h : s.dev.takesWrite 0x88) (hv : bits v.toNat 0 1 = 1)
    (hsync : s.dev.fld 0x60 0 1 = 1) :
    ∃ t, exec (.uartRequest v) s = .next t ∧ t.dev.power.uart = s.dev.power.uart ∧
      t.dev.fld 0x88 0 1 = s.dev.fld 0x88 0 1 ∧ t.dev.fld 0x88 1 1 = 1 ∧ t.dev.log.seq = s.dev.log.seq + 1 := by
  obtain ⟨x, hx⟩ := Dev.plainWrite_takesAny regAt_aux (by decide) s.dev v.toNat
  have hdue := Dev.uartWrite_eq h v.toNat
  rw [if_pos ⟨hv, hsync⟩, hx] at hdue
  refine ⟨_, exec_of_dues hq (exec_uartRequest v s) hdue (Dev.dues_record (by decide) _ _ _ _ _), ?_, ?_, ?_, ?_⟩
  · simp
  · rw [Dev.fld_record_none, Dev.fld_setFld_ne _ (by decide) (by decide), Dev.fld_setFld _ (by decide),
      Nat.mod_eq_of_lt (s.dev.fld_lt _ _ _)]
  · rw [Dev.fld_record_none, Dev.fld_setFld _ (by decide), Nat.mod_eq_of_lt (by decide)]
  · simp

theorem exec_uartRequest_granted (hq : s.dev.quiet = true) (v : BitVec 32) (h : s.dev.takesWrite 0x88)
    (hfree : bits v.toNat 0 1 = 0 ∨ s.dev.fld 0x60 0 1 = 0) :
    ∃ t, exec (.uartRequest v) s = .next t ∧ t.dev.power.uart = bit v.toNat 0 ∧ t.dev.fld 0x88 0 1 = bits v.toNat 0 1 ∧
      s.dev.SameWork t.dev := by
  obtain ⟨x, hx⟩ := Dev.plainWrite_takesAny regAt_aux (by decide) s.dev v.toNat
  have hdue := Dev.uartWrite_eq h v.toNat
  rw [if_neg (by omega)] at hdue
  refine ⟨_, exec_of_dues hq (exec_uartRequest v s) hdue ?_, rfl, (s.dev.fld_plainWrite_aux v.toNat).1, ?_⟩
  · rw [hx]; rfl
  · rw [hx]; exact ⟨rfl, rfl, rfl, rfl⟩

/-! ### The calendar -/

theorem exec_calendarAdjust_unfused (hq : s.dev.quiet = true) (v : Word64) (h : s.dev.takesWrite 0x80)
    (hlc : s.fuses.lc = .blank ∨ s.fuses.lc = .test) :
    exec (.calendarAdjust v) s = .next (s.withDev (s.dev.setReg 0x78 v)) := by
  refine exec_of_dues hq (exec_calendarAdjust v s) ?_ rfl
  rw [Dev.calendarAdjust, Dev.onWrite_of_takesWrite _ h, if_pos hlc]

theorem exec_calendarAdjust_forward (hq : s.dev.quiet = true) (v : Word64) (h : s.dev.takesWrite 0x80)
    (hlc : ¬ (s.fuses.lc = .blank ∨ s.fuses.lc = .test)) (hv : v.toNat < 2 ^ 63) :
    exec (.calendarAdjust v) s = .next (s.withDev (s.dev.setReg 0x78 (BitVec.ofNat 64 (s.dev.calendar + v.toNat)))) := by
  refine exec_of_dues hq (exec_calendarAdjust v s) ?_ rfl
  rw [Dev.calendarAdjust, Dev.onWrite_of_takesWrite _ h, if_neg hlc, if_pos hv]

/-- The backward changes of the last 24 hours. -/
def Dev.recentBack (d : Dev) : List (Nat × Nat) := d.power.backward.filter fun e => d.calendar < e.1 + 86400

/-- Their seconds, with those of a change under way. -/
def Dev.totalBack (d : Dev) (back : Nat) : Nat := d.recentBack.foldl (fun s e => s + e.2) back

theorem Dev.calendarAdjust_back (h : d.takesWrite 0x80) {lc : LifeCycle} (hlc : ¬ (lc = .blank ∨ lc = .test)) {v : Word64}
    (hv : 2 ^ 63 ≤ v.toNat) : d.calendarAdjust lc v =
      if d.totalBack (2 ^ 64 - v.toNat) ≤ 60 then
        (d.setReg 0x78 (BitVec.ofNat 64 (d.calendar - (2 ^ 64 - v.toNat)))).setPw
          { d.power with backward := (d.calendar - (2 ^ 64 - v.toNat), 2 ^ 64 - v.toNat) :: d.recentBack }
      else d.record 0 0x0108 .device 0 none v.toNat := by
  rw [Dev.calendarAdjust, Dev.onWrite_of_takesWrite _ h, if_neg hlc, if_neg (not_lt.2 hv)]
  rfl

theorem exec_calendarAdjust_back (hq : s.dev.quiet = true) (v : Word64) (h : s.dev.takesWrite 0x80)
    (hlc : ¬ (s.fuses.lc = .blank ∨ s.fuses.lc = .test)) (hv : 2 ^ 63 ≤ v.toNat) (ht : s.dev.totalBack (2 ^ 64 - v.toNat) ≤ 60) :
    ∃ t, exec (.calendarAdjust v) s = .next t ∧ t.dev.reg 0x78 = BitVec.ofNat 64 (s.dev.calendar - (2 ^ 64 - v.toNat)) ∧
      t.dev.power.backward = (s.dev.calendar - (2 ^ 64 - v.toNat), 2 ^ 64 - v.toNat) :: s.dev.recentBack := by
  refine ⟨_, exec_of_dues hq (exec_calendarAdjust v s) ((Dev.calendarAdjust_back h hlc hv).trans (if_pos ht)) rfl, ?_, rfl⟩
  exact (s.dev.reg_setReg 0x78 _ 0x78).trans (if_pos rfl)

theorem exec_calendarAdjust_refused (hq : s.dev.quiet = true) (v : Word64) (h : s.dev.takesWrite 0x80)
    (hlc : ¬ (s.fuses.lc = .blank ∨ s.fuses.lc = .test)) (hv : 2 ^ 63 ≤ v.toNat) (ht : 60 < s.dev.totalBack (2 ^ 64 - v.toNat)) :
    exec (.calendarAdjust v) s = .next (s.withDev (s.dev.record 0 0x0108 .device 0 none v.toNat)) :=
  exec_of_record hq (exec_calendarAdjust v s) ((Dev.calendarAdjust_back h hlc hv).trans (if_neg (not_le.2 ht)))

/-! ### VBAT -/

theorem Dev.vbatLow_of_off (h : d.on = false) (mv : Nat) : d.vbatLow mv = d := if_pos (by simp [h])

/-- The measurement noted, and an entry below 2600 mV. -/
theorem Dev.vbatLow_on (h : d.on = true) (mv : Nat) : d.vbatLow mv =
    if mv < 2600 then ({ d with rtp := { d.rtp with vbatLow := decide (mv < 2600) } } : Dev).record 1 0x0408 .hub 1 none mv
    else { d with rtp := { d.rtp with vbatLow := decide (mv < 2600) } } :=
  if_neg (by simp [h])

theorem exec_vbatLow_on (hq : s.dev.quiet = true) (h : s.dev.on = true) (mv : Nat) :
    ∃ t, exec (.vbatLow mv) s = .next t ∧ t.dev.rtp.vbatLow = decide (mv < 2600) ∧
      t.dev.log.seq = s.dev.log.seq + b2n (decide (mv < 2600)) ∧ s.dev.SameWork t.dev := by
  have hdue := Dev.vbatLow_on h mv
  by_cases hmv : mv < 2600
  · rw [if_pos hmv] at hdue
    refine ⟨_, exec_of_dues hq (exec_vbatLow mv s) hdue (Dev.dues_record (by decide) _ _ _ _ _), ?_, ?_, ?_⟩
    · simp
    · simp [b2n, hmv]
    · simp [Dev.SameWork]
  · rw [if_neg hmv] at hdue
    exact ⟨_, exec_of_dues hq (exec_vbatLow mv s) hdue rfl, rfl, by simp [b2n, hmv], rfl, rfl, rfl, rfl⟩

end Sys2Proof.Machine
end

section
/-! SUPPORT. The tick (15 R462) and a source's strobe (09 R280). -/

namespace Sys2Proof.Machine

theorem exec_privetTick (strobes : List StrobeReading) (flips : List CopyFlip) (s : State) :
    exec (.privetTick strobes flips) s = s.after fun d => d.tick s.fuses.lc strobes flips := rfl

variable {d : Dev} {s : State}

theorem Dev.tick_of_not_due (h : d.on = false ∨ d.now / 1000000 < d.power.ticks) (lc : LifeCycle) (strobes : List StrobeReading)
    (flips : List CopyFlip) : d.tick lc strobes flips = d :=
  if_pos (by simpa using h)

/-- What a due tick does once its window is taken. -/
def Dev.tickWork (d : Dev) (lc : LifeCycle) (strobes : List StrobeReading) (flips : List CopyFlip) : Dev :=
  let e := ((d.rollWindows.readDoorbells).p8Waiting lc).expire lc
  let f := ((flips.foldl Dev.flipCopy (strobes.foldl Dev.strobe e)).compareCopies).injectTick
  (List.range f.parts).foldl Dev.countStepping f

theorem Dev.tick_due (hon : d.on = true) (h : d.power.ticks ≤ d.now / 1000000) (lc : LifeCycle) (strobes : List StrobeReading)
    (flips : List CopyFlip) :
    d.tick lc strobes flips = (d.setPw { d.power with ticks := d.now / 1000000 + 1 }).tickWork lc strobes flips :=
  if_neg (by simp [hon, h])

/-- No part of a tick touches the state of power and time, the count of ticks among it. -/
theorem Dev.samePower_tickWork (d : Dev) (lc : LifeCycle) (strobes : List StrobeReading) (flips : List CopyFlip) :
    d.SamePower (d.tickWork lc strobes flips) := by
  have hself := Dev.SamePower.refl d
  have hrolled := hself.rollWindows.readDoorbells
  have hexpired : d.SamePower (((d.rollWindows.readDoorbells).p8Waiting lc).expire lc) := hrolled.p8Waiting.expire
  have hflipped := (hexpired.foldl (f := Dev.strobe) (fun _ hc => hc.strobe) strobes).foldl (f := Dev.flipCopy) (fun _ hc => hc.flipCopy) flips
  exact hflipped.compareCopies.injectTick.foldl (fun _ hc => hc.countStepping) _

/-- A tick is taken once in its window. -/
theorem exec_privetTick_due (hon : s.dev.on = true) (h : s.dev.power.ticks ≤ s.dev.now / 1000000) (strobes : List StrobeReading)
    (flips : List CopyFlip) :
    ∃ f : Dev, exec (.privetTick strobes flips) s = .next (s.withDev f.settle) ∧ f.power.ticks = s.dev.now / 1000000 + 1 :=
  ⟨_, exec_of_effect (exec_privetTick strobes flips s) (Dev.tick_due hon h _ _ _),
    congrArg Power.ticks ((s.dev.setPw _).samePower_tickWork s.fuses.lc strobes flips)⟩

/-! ### A source's pair at a tick -/

theorem PairState.ne_error_iff {p : PairState} : p ≠ .error ↔ p = .broken ∨ p = .quiet := by cases p <;> decide

/-- A whole pair is in error in the window, and after it in error or silent. -/
theorem strobeFails_iff {x : StrobeReading} : strobeFails x = true ↔ pairState x.in1 ≠ .error ∨ pairState x.in2 ≠ .error ∨
    pairState x.after1 = .broken ∨ pairState x.after2 = .broken := by
  simp only [strobeFails, PairState.ne_error_iff, Bool.or_eq_true, List.any_cons, List.any_nil, decide_eq_true_eq, Bool.or_false]
  tauto

theorem Dev.strobe_unheard {x : StrobeReading} (h : d.hearsSource x.unit x.id = false) : d.strobe x = d := if_pos (by simp [h])

theorem Dev.strobe_broken {x : StrobeReading} (h : d.hearsSource x.unit x.id = true) (hx : strobeFails x = true) :
    d.strobe x = d.pairBroken x.unit x.id := by
  rw [Dev.strobe, if_neg (by simp [h]), if_pos hx]

theorem Dev.strobe_whole {x : StrobeReading} (h : d.hearsSource x.unit x.id = true) (hx : strobeFails x = false) : d.strobe x =
    if pairState x.after1 = .error ∧ pairState x.after2 = .error then d.classify x.unit x.id x.cause else d := by
  rw [Dev.strobe, if_neg (by simp [h]), if_neg (by simp [hx])]

/-- The pair reads whole: an error in the window, and no broken sample after it. -/
theorem strobeFails_eq_false {x : StrobeReading} (h1 : pairState x.in1 = .error) (h2 : pairState x.in2 = .error)
    (h3 : pairState x.after1 ≠ .broken) (h4 : pairState x.after2 ≠ .broken) : strobeFails x = false := by
  rw [Bool.eq_false_iff, Ne, strobeFails_iff]
  tauto

theorem Dev.strobe_silent {x : StrobeReading} (h : d.hearsSource x.unit x.id = true) (h1 : pairState x.in1 = .error)
    (h2 : pairState x.in2 = .error) (h3 : pairState x.after1 = .quiet) (h4 : pairState x.after2 ≠ .broken) : d.strobe x = d := by
  rw [Dev.strobe_whole h (strobeFails_eq_false h1 h2 (by simp [h3]) h4), if_neg (by simp [h3])]

theorem Dev.strobe_error {x : StrobeReading} (h : d.hearsSource x.unit x.id = true) (h1 : pairState x.in1 = .error)
    (h2 : pairState x.in2 = .error) (h3 : pairState x.after1 = .error) (h4 : pairState x.after2 = .error) :
    d.strobe x = d.classify x.unit x.id x.cause := by
  rw [Dev.strobe_whole h (strobeFails_eq_false h1 h2 (by simp [h3]) (by simp [h4])), if_pos ⟨h3, h4⟩]

end Sys2Proof.Machine
end

section
/-! The link, D3hot and time (11 R331 to R333; 15 R437, R453, R454, R458, R461, R462; 13 R412). -/

namespace Sys2Proof

open Sys2Proof.Machine

/-- Settles O53: each command's clause is the equation of its effect when it is due, and the unchanged device when it is not. A
tick keeps the count of its window because no part of it touches the state of power and time. -/
theorem linkAndTime : Obligations.LinkAndTime := by
  unfold Obligations.LinkAndTime
  intro s hq
  dsimp only
  refine ⟨fun h => ?linkIdle, fun hon hup => ?linkUp, fun width rate flit cache => ?train, fun h => ?unsynced, ?edge, fun h => ?noEdge,
    fun k hk hon hsync => ?lost, ?pins, ?uart, fun v h => ?calendar, fun strobes flips => ?tick, fun e x => ?strobe, fun mv => ?vbat⟩
  case linkIdle =>
    exact ⟨exec_of_idle hq (exec_cxlLinkDown s) (Dev.cxlDown_of_not_due h),
      exec_of_idle hq (exec_d3hotEntry s) (Dev.d3hot_of_not_due (h.imp_right .inr)),
      exec_of_idle hq (exec_d0Return s) (Dev.d0_of_not_due (h.imp_right .inr)),
      fun b n => exec_of_idle hq (exec_ideFailure b n s) (Dev.ideFails_of_not_due (h.imp_right .inl))⟩
  case linkUp =>
    exact ⟨exec_cxlLinkDown_up hon hup,
      fun b n => ⟨fun h => exec_of_idle hq (exec_ideFailure b n s) (Dev.ideFails_of_not_due (.inr (.inr h))),
        exec_ideFailure_secure hon hup⟩,
      fun h => exec_of_idle hq (exec_d3hotEntry s) (Dev.d3hot_of_not_due (.inr (.inl h))),
      exec_d3hotEntry_due hq hon hup,
      fun h => exec_of_idle hq (exec_d0Return s) (Dev.d0_of_not_due (.inr (.inl h))),
      exec_d0Return_due hq hon hup⟩
  case train =>
    exact ⟨fun h => exec_of_idle hq (exec_cxlLinkUp width rate flit cache s) (Dev.cxlTrained_of_not_due h cache),
      fun h => exec_cxlLinkUp_due hq h cache⟩
  case unsynced =>
    exact ⟨exec_of_idle hq (exec_syncEdge s) (Dev.syncEdge_of_not_due h), exec_of_idle hq (exec_syncLost s) (Dev.syncLost_of_not_due h)⟩
  case edge => exact fun hon hsync => ⟨_, exec_syncEdge_due hq hon hsync, Dev.syncEdge_leaves hon hsync⟩
  case noEdge => exact exec_of_idle hq (exec_syncLost s) (Dev.syncLost_of_no_edge h)
  case lost =>
    exact ⟨fun hnow => exec_of_idle hq (exec_syncLost s) (Dev.syncLost_early hk hnow), exec_syncLost_due hq hk hon hsync⟩
  case pins => exact exec_syncEnable_taken hq
  case uart => exact fun v h => ⟨exec_uartRequest_refused hq v h, exec_uartRequest_granted hq v h⟩
  case calendar =>
    refine ⟨exec_calendarAdjust_unfused hq v h, fun hblank htest => ?_⟩
    have hlc := not_or.2 ⟨hblank, htest⟩
    exact ⟨exec_calendarAdjust_forward hq v h hlc, exec_calendarAdjust_back hq v h hlc, exec_calendarAdjust_refused hq v h hlc⟩
  case tick =>
    exact ⟨fun h => exec_of_idle hq (exec_privetTick strobes flips s) (Dev.tick_of_not_due h _ _ _),
      fun hon h => exec_privetTick_due hon h strobes flips⟩
  case strobe =>
    exact ⟨Dev.strobe_unheard, fun h h1 h2 => ⟨Dev.strobe_silent h h1 h2, Dev.strobe_error h h1 h2⟩,
      fun h hx => Dev.strobe_broken h (strobeFails_iff.2 hx)⟩
  case vbat =>
    exact ⟨fun h => exec_of_idle hq (exec_vbatLow mv s) (Dev.vbatLow_of_off h mv), fun h => exec_vbatLow_on hq h mv⟩

end Sys2Proof
end

section
/-! SUPPORT. Grants, reads and writes of Selvedge (12 R352, R353, R362, R363, R376): when an address is granted, what a granted write
stores, and what the lines of a read that succeeds have passed. -/

namespace Sys2Proof.Machine

variable {d : Dev}

/-! ### Grants -/

/-- What a requester's class adds to the conditions of a grant (Table 12-3). -/
def Dev.classMay (d : Dev) (q : Req) (n : Nat) (w : Bool) : Prop :=
  (q.cls = 0 → w = true → (d.region n).key = 0 → d.openOut (ctxPart q.ctx) = true ∧ d.floorAdmits (ctxPart q.ctx) = true) ∧
    (q.cls = 1 → q.key ≠ 0) ∧ (2 ≤ q.cls → (d.region n).key = 0)

/-- What key index and key slots add, whatever the class. -/
def Dev.keyMay (d : Dev) (q : Req) (n : Nat) : Prop :=
  (q.key = (d.region n).key ∨ ((d.region n).multi = true ∧ q.key ≠ 0 ∧ (d.key q.key).job = (d.key (d.region n).key).job)) ∧
    d.keyValid (ctxPart q.ctx) q.key = true ∧
    ((d.region n).key ≠ 0 → d.keyValid (ctxPart q.ctx) (d.region n).key = true ∧ d.fld 0x10000 0 1 ≠ 0)

theorem Dev.access_of_outside {q : Req} {a : Nat} (h : d.inWindow (ctxPart q.ctx) a = false) (w : Bool) :
    d.access q a w = .bounds := by simp [Dev.access, h]

theorem Dev.access_of_none {q : Req} {a : Nat} (h : d.inWindow (ctxPart q.ctx) a = true) (hr : d.regionOf a = none) (w : Bool) :
    d.access q a w = .refused := by simp [Dev.access, h, hr]

/-- Within a live region the answer turns on its owner, the keys and the class. -/
theorem Dev.access_of_region {q : Req} {a m : Nat} (h : d.inWindow (ctxPart q.ctx) a = true) (hr : d.regionOf a = some m) (w : Bool)
    (n : Nat) : d.access q a w = .granted n ↔ m = n ∧ d.regionPart m = ctxPart q.ctx ∧ d.keyMay q m ∧ d.classMay q m w := by
  simp only [Dev.access, h, hr, Dev.keyMay, Dev.classMay, Dev.regionPart]
  obtain ⟨ctx, cls, key⟩ := q
  rcases cls with _ | _ | cls <;> grind

theorem Dev.access_eq_granted_iff {q : Req} {a : Nat} (w : Bool) (n : Nat) :
    d.access q a w = .granted n ↔ d.inWindow (ctxPart q.ctx) a = true ∧ d.regionOf a = some n ∧ d.regionPart n = ctxPart q.ctx ∧
      d.keyMay q n ∧ d.classMay q n w := by
  cases hw : d.inWindow (ctxPart q.ctx) a with
  | false => simp [Dev.access_of_outside hw]
  | true =>
    cases hr : d.regionOf a with
    | none => simp [Dev.access_of_none hw hr]
    | some m =>
      rw [Dev.access_of_region hw hr]
      constructor
      · rintro ⟨rfl, h⟩; exact ⟨rfl, rfl, h⟩
      · rintro ⟨-, hm, h⟩; cases hm; exact ⟨rfl, h⟩

/-- A range with a line that is not granted is refused at its first such line. -/
theorem Dev.grantAll_of_refused {q : Req} {w : Bool} {ls : List Nat} (h : ∃ l ∈ ls, ∀ n, d.access q (128 * l) w ≠ .granted n) :
    ∃ x a, d.grantAll q w ls = some (x, a) ∧ ∀ n, x ≠ .granted n := by
  induction ls with
  | nil => obtain ⟨l, hl, -⟩ := h; cases hl
  | cons l ls ih =>
    unfold Dev.grantAll
    split
    · next n hn =>
      obtain ⟨k, hk, hno⟩ := h
      rcases List.mem_cons.1 hk with rfl | hk
      · exact absurd hn (hno n)
      · exact ih ⟨k, hk, hno⟩
    · next hn => exact ⟨_, _, rfl, hn⟩

theorem Dev.refuse_rest (q : Req) (a : Nat) (w f : Bool) : (d.refuse q a w f).mem = d.mem ∧ (d.refuse q a w f).lines = d.lines := by
  unfold Dev.refuse
  dsimp only
  split <;> simp

theorem Dev.write_of_refused {q : Req} {a : Nat} {bs : List Byte}
    (h : ∃ l ∈ linesOf a bs.length, ∀ n, d.access q (128 * l) true ≠ .granted n) :
    ∃ e w, d.write q a bs = .fail e w ∧ (w = .bounds ∨ w = .denied) ∧ e.mem = d.mem ∧ e.lines = d.lines := by
  obtain ⟨x, b, hx, hno⟩ := Dev.grantAll_of_refused h
  simp only [Dev.write, Dev.grantWrite, hx]
  cases x with
  | granted n => exact absurd rfl (hno n)
  | bounds => exact ⟨_, _, rfl, .inl rfl, rfl, rfl⟩
  | refused => exact ⟨_, _, rfl, .inr rfl, Dev.refuse_rest ..⟩
  | floor => exact ⟨_, _, rfl, .inr rfl, Dev.refuse_rest ..⟩

/-! ### Lines that are read -/

theorem Dev.regionOf_congr {e : Dev} (h : e.regions = d.regions) (a : Nat) : e.regionOf a = d.regionOf a := by
  rw [Dev.regionOf, h, Dev.regionOf]

theorem Dev.region_congr {e : Dev} (h : e.regions = d.regions) (n : Nat) : e.region n = d.region n := by
  rw [Dev.region, h, Dev.region]

theorem Dev.lineMeta_congr {e : Dev} (h : e.lines = d.lines) (x : Region) (l : Nat) : e.lineMeta x l = d.lineMeta x l := by
  rw [Dev.lineMeta, h, Dev.lineMeta]

theorem Dev.key_congr {e : Dev} (h : e.keys = d.keys) (k : Nat) : e.key k = d.key k := by rw [Dev.key, h, Dev.key]

/-- The region with one bad line more. -/
def Dev.badCounted (d : Dev) (n : Nat) : Dev := d.setRegion n { d.region n with bad := (d.region n).bad + 1 }

/-- A bad line is one more of its region; beside that it makes an entry. -/
theorem Dev.noted_badLine (n l c k : Nat) (e p : Bool) : (d.badCounted n).Noted (d.badLine n l c k e p) := by
  have hbump : (d.badCounted n).Noted ((d.badCounted n).bump (if e then 0x10020 else 0x10028) 1) := rfl
  unfold Dev.badLine
  exact .ite (hbump.trans (Dev.noted_record ..)) (hbump.trans (Dev.noted_recordC3 ..))

namespace Dev.Noted

variable {e : Dev} (h : d.Noted e)
include h

theorem lines : e.lines = d.lines := by unfold Dev.Noted at h; rw [h]

theorem regions : e.regions = d.regions := by unfold Dev.Noted at h; rw [h]

theorem keys : e.keys = d.keys := by unfold Dev.Noted at h; rw [h]

end Dev.Noted

/-- Line `l` of region `n` marked bad, by ECC or by MAC. -/
def Dev.markedLine (d : Dev) (n l : Nat) (ecc : Bool) : Dev :=
  d.setLine l (some { d.lineMeta (d.region n) l with bad := true, ecc := ecc })

/-- A line that is met passes, and lines and regions stand; or it is marked bad and counted. -/
theorem Dev.meetLine_leaves (n l c k : Nat) (f : LineFound) (p : Bool) :
    (d.meetLine n l c k f p).1.keys = d.keys ∧
    (((d.meetLine n l c k f p).2 = true ∧ (d.meetLine n l c k f p).1.lines = d.lines ∧ (d.meetLine n l c k f p).1.regions = d.regions) ∨
      ((d.meetLine n l c k f p).2 = false ∧ ∃ ecc, (d.meetLine n l c k f p).1.lines = (d.markedLine n l ecc).lines ∧
        (d.meetLine n l c k f p).1.regions = (d.badCounted n).regions)) := by
  have hbad (ecc : Bool) := Dev.noted_badLine (d := (d.setLatent l .good).markedLine n l ecc) n l c k ecc p
  cases f with
  | good => exact ⟨rfl, .inl ⟨rfl, rfl, rfl⟩⟩
  | corrected b => exact ⟨by simp [Dev.meetLine, Dev.setLatent], .inl (by simp [Dev.meetLine, Dev.setLatent])⟩
  | retried => exact ⟨by simp [Dev.meetLine, Dev.setLatent], .inl (by simp [Dev.meetLine, Dev.setLatent])⟩
  | badEcc => exact ⟨(hbad true).keys, .inr ⟨rfl, true, (hbad true).lines, (hbad true).regions⟩⟩
  | badMac =>
    unfold Dev.meetLine
    dsimp only
    split
    · exact ⟨rfl, .inl ⟨rfl, rfl, rfl⟩⟩
    · exact ⟨(hbad false).keys, .inr ⟨rfl, false, (hbad false).lines, (hbad false).regions⟩⟩

/-- Line `l` lies in a live region and passes its check under key index `k`. -/
def Dev.passes (d : Dev) (k l : Nat) : Prop :=
  ∃ r, d.regionOf (128 * l) = some r ∧ (d.lineMeta (d.region r) l).failsUnder (d.region r) l k (d.key k).secret = false

/-- `e` has the lines, regions and keys of `d`. -/
structure Dev.SameLines (d e : Dev) : Prop where
  lines : e.lines = d.lines
  regions : e.regions = d.regions
  keys : e.keys = d.keys

theorem Dev.SameLines.trans {e f : Dev} (h : d.SameLines e) (k : e.SameLines f) : d.SameLines f :=
  ⟨k.lines.trans h.lines, k.regions.trans h.regions, k.keys.trans h.keys⟩

theorem Dev.SameLines.passes {e : Dev} (h : d.SameLines e) {k l : Nat} (hp : e.passes k l) : d.passes k l := by
  obtain ⟨r, hr, hf⟩ := hp
  rw [Dev.regionOf_congr h.regions] at hr
  rw [Dev.lineMeta_congr h.lines, Dev.region_congr h.regions, Dev.key_congr h.keys] at hf
  exact ⟨r, hr, hf⟩

theorem Dev.readLine_passes {q : Req} {l : Nat} {e : Dev} {u : Unit} (h : d.readLine q l = .ok e u) : d.SameLines e ∧ d.passes q.key l := by
  unfold Dev.readLine at h
  split at h
  · cases h
  · next n hn =>
    split at h <;> cases h
    next hc =>
    unfold Dev.checkLine at hc
    dsimp only at hc
    split at hc
    · cases hc
    · next hf =>
      obtain ⟨hkeys, hleft⟩ := (d.touch l).meetLine_leaves n l q.ctx q.key ((d.touch l).latent l) false
      rw [hc] at hkeys hleft
      obtain ⟨-, hlines, hregions⟩ := hleft.resolve_right fun hno => Bool.noConfusion hno.1
      exact ⟨⟨hlines, hregions, hkeys⟩, n, hn, by simpa using hf⟩

theorem Dev.readLines_passes {q : Req} {ls : List Nat} {e : Dev} {u : Unit} (h : d.readLines q ls = .ok e u) :
    d.SameLines e ∧ ∀ l ∈ ls, d.passes q.key l := by
  induction ls generalizing d with
  | nil => cases h; exact ⟨⟨rfl, rfl, rfl⟩, fun _ hl => absurd hl List.not_mem_nil⟩
  | cons l ls ih =>
    unfold Dev.readLines at h
    split at h
    · next c _ hc =>
      obtain ⟨hsame, hpass⟩ := Dev.readLine_passes hc
      obtain ⟨hlater, hrest⟩ := ih h
      refine ⟨hsame.trans hlater, fun k hk => ?_⟩
      rcases List.mem_cons.1 hk with rfl | hk
      · exact hpass
      · exact hsame.passes (hrest k hk)
    · cases h

theorem Dev.read_passes {q : Req} {a n : Nat} {e : Dev} {bs : List Byte} (h : d.read q a n = .ok e bs) :
    d.SameLines e ∧ ∀ l ∈ linesOf a n, d.passes q.key l := by
  unfold Dev.read at h
  split at h <;> try cases h
  split at h
  · next hl => cases h; exact Dev.readLines_passes hl
  · cases h

/-! ### Lines that are written -/

/-- The counter that a write of a whole line takes: the line's next, or for a bad line the one above the region's high water (R376). -/
def Dev.nextCtr (d : Dev) (n l : Nat) : Nat :=
  let m := d.lineMeta (d.region n) l
  if m.bad = true ∨ (d.cached l = false ∧ (d.latent l = .badEcc ∨ d.latent l = .badMac)) then (d.region n).hw + 1 else m.ctr + 1

/-- A whole line of a live protected region is written without a read, under its next counter. -/
theorem Dev.writeLine_whole {q : Req} {l n : Nat} {bs : List Byte} (hb : bs.length = 128) (hr : d.regionOf (128 * l) = some n)
    (hs : (d.region n).st = .live) (hk : (d.region n).key ≠ 0) :
    d.writeLine q l 0 bs = if 0xFFFF < d.nextCtr n l then .fail d .wait else .ok (d.putLine n q.key l 0 (d.nextCtr n l) bs (d.cached l)) () := by
  have hn : d.forceStep n l = d := by simp [Dev.forceStep, hs]
  simp [Dev.writeLine, hr, hn, hb, hk, Dev.nextCtr]
  rfl

theorem Dev.line_setLine (l : Nat) (m : Option LineMeta) : Sparse.get (fun _ => none) (d.setLine l m).lines l = m :=
  Sparse.get_set_self ..

theorem Dev.lines_setLatent (l : Nat) (f : LineFound) : (d.setLatent l f).lines = d.lines := rfl

theorem Dev.lines_setBytes (bs : List Byte) (a : Nat) : (d.setBytes a bs).lines = d.lines := by
  induction bs generalizing d a with
  | nil => rfl
  | cons b bs ih => exact ih (d := d.setByte a b) (a + 1)

theorem foldl_units {f : Dev → Nat → Dev} (hf : ∀ c k, f c k = { c with units := (f c k).units }) (ks : List Nat) (c : Dev) :
    ks.foldl f c = { c with units := (ks.foldl f c).units } := by
  induction ks generalizing c with
  | nil => rfl
  | cons k ks ih =>
    rw [List.foldl_cons, ih, hf]

/-- Only the units under test differ once a re-encryption takes a lane (01 R24). -/
theorem Dev.stopLaneTests_eq (x : Region) : d.stopLaneTests x = { d with units := (d.stopLaneTests x).units } :=
  foldl_units (fun _ _ => by split <;> rfl) _ d

/-- The start of a re-encryption changes no byte and no line. -/
theorem Dev.startReencrypt_store (n : Nat) (sig : Option (Nat × Nat)) :
    (d.startReencrypt n sig).mem = d.mem ∧ (d.startReencrypt n sig).lines = d.lines ∧ (d.startReencrypt n sig).sv = d.sv := by
  unfold Dev.startReencrypt Dev.refuseRegion
  dsimp only
  split
  · simp
  · rw [Dev.stopLaneTests_eq]; exact ⟨rfl, rfl, rfl⟩

theorem Dev.lines_scheduleAt (n c : Nat) : (d.scheduleAt n c).lines = d.lines := by
  unfold Dev.scheduleAt
  dsimp only
  split
  · rfl
  · split
    · obtain ⟨-, hlines, -⟩ := d.startReencrypt_store n none
      exact hlines
    · split <;> rfl

/-- A line put is listed under the key that its writer used, at the epoch of its region. -/
theorem Dev.lines_putLine (n k l off c : Nat) (bs : List Byte) (known : Bool) :
    Sparse.get (fun _ => none) (d.putLine n k l off c bs known).lines l =
      some { key := k, secret := (d.key k).secret, epoch := (d.region n).epochOf l, ctr := c, bad := false, ecc := false } := by
  unfold Dev.putLine
  dsimp only
  rw [Dev.lines_scheduleAt]
  show Sparse.get _ (Dev.setBytes _ _ bs).lines l = _
  rw [Dev.lines_setBytes, Dev.lines_setLatent, Dev.line_setLine]
  split <;> rfl

theorem Dev.byte_putLine (n k l off c : Nat) (bs : List Byte) (known : Bool) (x : Nat) :
    (d.putLine n k l off c bs known).byte x = (d.setBytes (128 * l + off) bs).byte x := by
  unfold Dev.putLine
  dsimp only
  rw [((Dev.Wrote.refl (fun _ => False) _).scheduleAt).byte x not_false]
  show (Dev.setBytes _ _ bs).byte x = _
  rw [Dev.byte_setBytes, Dev.byte_setBytes]
  exact if_congr Iff.rfl rfl (by split <;> rfl)

theorem Res.eq_of_ite_fail {α : Type} {c : Prop} [Decidable c] {b f e : Dev} {w : MemFail} {x y : α}
    (h : (if c then Res.fail b w else .ok f x) = .ok e y) : f = e := by
  split at h <;> cases h
  rfl

/-- A line that is written holds the bytes written. -/
theorem Dev.byte_writeLine {q : Req} {l off : Nat} {bs : List Byte} {e : Dev} {u : Unit} (h : d.writeLine q l off bs = .ok e u) {b : Nat}
    (hlo : 128 * l + off ≤ b) (hhi : b < 128 * l + off + bs.length) : e.byte b = bs.getD (b - (128 * l + off)) 0 := by
  have hstored (c : Dev) : (c.setBytes (128 * l + off) bs).byte b = bs.getD (b - (128 * l + off)) 0 := by
    rw [Dev.byte_setBytes, if_pos ⟨hlo, hhi⟩]
  unfold Dev.writeLine at h
  split at h
  · cases h
  · dsimp only at h
    split at h
    · cases h
    · split at h
      · cases h; exact hstored _
      · rw [← Res.eq_of_ite_fail h, Dev.byte_putLine]
        exact hstored _

theorem Dev.byte_writeLines {q : Req} {fuel a : Nat} {bs : List Byte} {e : Dev} {u : Unit} (h : d.writeLines q fuel a bs = .ok e u)
    (hfuel : a % 128 + bs.length ≤ 128 * fuel) {b : Nat} (hlo : a ≤ b) (hhi : b < a + bs.length) : e.byte b = bs.getD (b - a) 0 := by
  induction fuel generalizing d a bs with
  | zero => omega
  | succ fuel ih =>
    unfold Dev.writeLines at h
    dsimp only at h
    split at h
    · next hnil => rw [List.isEmpty_iff] at hnil; subst hnil; simp at hhi; omega
    · split at h
      · next c _ hc =>
        by_cases hb : b < a + (128 - a % 128)
        · have hlater := ((Dev.Wrote.refl (fun x => a + (128 - a % 128) ≤ x) c).writeLines (q := q) (fuel := fuel)
            (bs := bs.drop (128 - a % 128)) fun _ hx _ => hx).of_ok h
          rw [hlater.byte b (by omega), Dev.byte_writeLine hc (by omega) (by rw [List.length_take]; omega),
            show 128 * (a / 128) + a % 128 = a by omega, List.getD_eq_getElem?_getD, List.getD_eq_getElem?_getD,
            List.getElem?_take_of_lt (by omega)]
        · rw [ih h (by rw [List.length_drop]; omega) (by omega) (by rw [List.length_drop]; omega), List.getD_eq_getElem?_getD,
            List.getD_eq_getElem?_getD, List.getElem?_drop, show 128 - a % 128 + (b - (a + (128 - a % 128))) = b - a by omega]
      · cases h

/-! ### Writes -/

/-- A write that succeeds is the write of its lines, the rows that it reaches taken first. -/
theorem Dev.write_eq_ok {q : Req} {a : Nat} {bs : List Byte} {e : Dev} {u : Unit} (h : d.write q a bs = .ok e u) :
    (d.forceRows (linesOf a bs.length)).writeLines q (bs.length / 128 + 2) a bs = .ok e u := by
  unfold Dev.write at h
  split at h
  · next hg => rw [Dev.grantWrite_eq_ok hg] at h; exact h
  · cases h

theorem Dev.bytes_write {q : Req} {a : Nat} {bs : List Byte} {e : Dev} {u : Unit} (h : d.write q a bs = .ok e u) :
    e.bytes a bs.length = bs := by
  refine List.ext_getElem (by simp [Dev.bytes]) fun i _ hi => ?_
  have hbyte : e.byte (a + i) = bs.getD (a + i - a) 0 := Dev.byte_writeLines (Dev.write_eq_ok h) (by omega) (by omega) (by omega)
  simpa [Dev.bytes, hi] using hbyte

theorem Dev.byte_write_outside {q : Req} {a : Nat} {bs : List Byte} {e : Dev} {u : Unit} (h : d.write q a bs = .ok e u) {b : Nat}
    (hb : b < a ∨ a + bs.length ≤ b) : e.byte b = (d.forceRows (linesOf a bs.length)).byte b :=
  (((Dev.Wrote.refl (fun x => a ≤ x ∧ x < a + bs.length) _).writeLines fun _ hlo hhi => ⟨hlo, hhi⟩).of_ok (Dev.write_eq_ok h)).byte b
    (by omega)

/-- Lines written to the end write no more. -/
theorem Dev.writeLines_nil (q : Req) (fuel a : Nat) : d.writeLines q fuel a [] = .ok d () := by cases fuel <;> rfl

/-- A whole-line write that succeeds is that of its one line. -/
theorem Dev.writeLines_whole {q : Req} {a fuel : Nat} {bs : List Byte} {e : Dev} {u : Unit} (ha : a % 128 = 0) (hb : bs.length = 128)
    (h : d.writeLines q (fuel + 1) a bs = .ok e u) : d.writeLine q (a / 128) 0 bs = .ok e u := by
  have hne : bs.isEmpty = false := by cases bs <;> simp_all
  have htake : bs.take 128 = bs := List.take_of_length_le (by omega)
  have hdrop : bs.drop 128 = [] := List.drop_of_length_le (by omega)
  simp only [Dev.writeLines, hne, ha, Nat.sub_zero, htake, hdrop, Dev.writeLines_nil, Bool.false_eq_true, if_false] at h
  split at h
  · next hl => cases h; exact hl
  · cases h

theorem Dev.line_write_whole {q : Req} {a n : Nat} {bs : List Byte} {e : Dev} {u : Unit} {d0 : Dev}
    (h0 : d.forceRows (linesOf a bs.length) = d0) (ha : a % 128 = 0) (hb : bs.length = 128) (hr : d0.regionOf a = some n)
    (hs : (d0.region n).st = .live) (hk : (d0.region n).key ≠ 0) (h : d.write q a bs = .ok e u) :
    Sparse.get (fun _ => none) e.lines (a / 128) =
      some { key := q.key, secret := (d0.key q.key).secret, epoch := (d0.region n).epoch, ctr := d0.nextCtr n (a / 128), bad := false,
             ecc := false } := by
  have hlines := Dev.write_eq_ok h
  rw [h0] at hlines
  have hline := Dev.writeLines_whole ha hb hlines
  rw [Dev.writeLine_whole hb (by rwa [show 128 * (a / 128) = a by omega]) hs hk] at hline
  split at hline <;> cases hline
  rw [Dev.lines_putLine, Region.epochOf, if_neg (by simp [hs])]

end Sys2Proof.Machine
end

section
/-! Accesses to device memory (12 R352, R353, R362, R363, R376). -/

namespace Sys2Proof

open Sys2Proof.Machine

/-- Settles O46: a grant is the conjunction of its rules; a write that succeeds is the write of its lines one after the other, of which
none touches a byte of another; a read changes no line, so each line passed its check in the state before. -/
theorem memoryAccess : Obligations.MemoryAccess := by
  unfold Obligations.MemoryAccess
  intro d q a
  dsimp only
  refine ⟨fun w n => ?grant, fun bs => ⟨fun e h => ?stored, Dev.write_of_refused, fun e n ha hb hr hs hk h => ?whole⟩, fun n e bs h => ?read⟩
  case grant =>
    rw [Dev.access_eq_granted_iff]
    simp only [Dev.keyMay, Dev.classMay, and_assoc]
  case stored => exact ⟨Dev.bytes_write h, fun b hb => Dev.byte_write_outside h hb⟩
  case whole => exact Dev.line_write_whole rfl ha hb hr hs hk h
  case read =>
    obtain ⟨hmem, hbytes⟩ := d.read_ok h
    obtain ⟨hsame, hpass⟩ := Dev.read_passes h
    exact ⟨hbytes, hmem, hsame.lines, hpass⟩

end Sys2Proof
end

section
/-! SUPPORT. Commands on the region that `SV_REG_SEL` names, and how an opening and a closing end (12 R360, R361, R365, R367). -/

namespace Sys2Proof.Machine

variable {d : Dev}

/-! ### Rows -/

theorem exec_regionOpen (sig : Bool) (f : BitVec 14) (s : State) :
    exec (.regionOpen sig f) s = s.after fun d => d.regionOpen sig f.toNat := rfl

theorem exec_regionClose (sig : Bool) (f : BitVec 14) (s : State) :
    exec (.regionClose sig f) s = s.after fun d => d.regionClose sig f.toNat := rfl

theorem exec_reencrypt (sig : Bool) (f : BitVec 14) (s : State) :
    exec (.reencrypt sig f) s = s.after fun d => d.reencrypt sig f.toNat := rfl

theorem exec_regionOpenDone (n : Nat) (s : State) : exec (.regionOpenDone n) s = s.after fun d => d.regionOpenDone n := rfl

theorem exec_regionCloseDone (n : Nat) (s : State) : exec (.regionCloseDone n) s = s.after fun d => d.regionCloseDone n := rfl

/-! ### What a command changes -/

/-- `e` is `d` with region `n` as `y`: no other region, no byte, no line, no fence and no entry of the log differs. -/
def Dev.regionChanged (d : Dev) (n : Nat) (e : Dev) (y : Region) : Prop :=
  e.region n = y ∧ (∀ m, m ≠ n → e.region m = d.region m) ∧ e.mem = d.mem ∧ e.lines = d.lines ∧ e.fences = d.fences ∧ e.log = d.log

theorem Dev.regionChanged_setRegion {n : Nat} (y : Region) {c : Dev} (hr : c.regions = d.regions) (hm : c.mem = d.mem)
    (hl : c.lines = d.lines) (hf : c.fences = d.fences) (hg : c.log = d.log) : d.regionChanged n (c.setRegion n y) y := by
  refine ⟨?_, fun m hne => ?_, hm, hl, hf, hg⟩
  · rw [Dev.region_setRegion, if_pos rfl]
  · rw [Dev.region_setRegion, if_neg hne, Dev.region_congr hr]

theorem Dev.nextEpoch_takeEpoch (k j : Nat) : (d.takeEpoch k).nextEpoch j = if j = k then d.nextEpoch k + 1 else d.nextEpoch j := by
  simp only [Dev.nextEpoch, Dev.takeEpoch, Sparse.get_set]

/-- A command that is refused leaves entry 0x0506 with its reason (Table 12-7). -/
theorem exec_of_refuseRegion {s : State} {i : Instr} {f : Dev → Dev} {n r : Nat} (hq : s.dev.quiet = true) (key : exec i s = s.after f)
    (e : f s.dev = s.dev.refuseRegion n r) :
    exec i s = .next (s.withDev (s.dev.record 0 0x0506 .selvedge 16 (some (s.dev.regionPart n)) (n + r * 2 ^ 12))) :=
  exec_of_record hq key e

/-! ### `OPEN` (R360) -/

theorem Dev.openReason_eq_zero_iff (n : Nat) (x : Region) :
    d.openReason n x = 0 ↔ (x.st = .closed ∧ d.granulesOk (d.regionPart n) x.base x.granules = true ∧ d.regionOverlaps n x = false ∧
      (x.key ≠ 0 → d.keyValid (d.regionPart n) x.key = true ∧
        (d.key x.key).job = d.fld (0x4110 + 0x100 * d.regionPart n) 0 12 ∧ d.nextEpoch x.key ≠ 0xFFFFFFFF) ∧
      (x.key = 0 → x.multi = false)) := by
  unfold Dev.openReason
  by_cases hk : x.key = 0 <;> simp [hk] <;> grind

/-- The slot's next epoch is taken; the open slot has none (R365). -/
def Dev.openEpoch (d : Dev) (k : Nat) : Dev := if k = 0 then d else d.takeEpoch k

theorem Dev.openEpoch_eq (k : Nat) : d.openEpoch k = { d with rtp := (d.openEpoch k).rtp } := by
  unfold Dev.openEpoch
  split <;> rfl

theorem Dev.nextEpoch_openEpoch (k j : Nat) :
    (d.openEpoch k).nextEpoch j = if k ≠ 0 ∧ j = k then d.nextEpoch j + 1 else d.nextEpoch j := by
  unfold Dev.openEpoch
  split
  · next hk => rw [if_neg (by simp [hk])]
  · next hk =>
    rw [Dev.nextEpoch_takeEpoch]
    by_cases hj : j = k
    · rw [if_pos hj, if_pos ⟨hk, hj⟩, hj]
    · rw [if_neg hj, if_neg fun h => hj h.2]

/-- A region as `OPEN` leaves it. -/
def Dev.openingRegion (d : Dev) (x : Region) (sig : Option (Nat × Nat)) : Region :=
  { x with st := .opening, secret := (d.key x.key).secret, epoch := if x.key = 0 then 0 else d.nextEpoch x.key,
           prior := 0, hw := 0, due := false, taken := [], bad := 0, sig := sig }

section
variable (ht : d.takesWrite 0x10120) (sig : Bool) (f : Nat)
include ht

theorem Dev.regionOpen_of_refused (h : d.openReason d.selRegion (d.region d.selRegion) ≠ 0) :
    d.regionOpen sig f = d.refuseRegion d.selRegion (d.openReason d.selRegion (d.region d.selRegion)) :=
  (d.onWrite_of_takesWrite ht _ _).trans (if_pos h)

theorem Dev.regionOpen_of_granted (h : d.openReason d.selRegion (d.region d.selRegion) = 0) :
    d.regionOpen sig f = (d.openEpoch (d.region d.selRegion).key).setRegion d.selRegion
      (d.openingRegion (d.region d.selRegion) ((d.region d.selRegion).due_ sig f)) := by
  refine (d.onWrite_of_takesWrite ht _ _).trans ((if_neg (not_not.2 h)).trans ?_)
  have hkey : (d.openEpoch (d.region d.selRegion).key).key = d.key := by rw [Dev.openEpoch_eq]; rfl
  unfold Dev.openingRegion
  rw [← hkey]
  rfl

/-! ### `CLOSE` (R361) and `REENCRYPT` (R367) -/

theorem Dev.regionClose_of_refused (h : (d.region d.selRegion).st = .closed ∨ (d.region d.selRegion).st = .closing) :
    d.regionClose sig f = d.refuseRegion d.selRegion 8 :=
  (d.onWrite_of_takesWrite ht _ _).trans (if_pos h)

theorem Dev.regionClose_of_granted (h : (d.region d.selRegion).st ≠ .closed) (h' : (d.region d.selRegion).st ≠ .closing) :
    d.regionClose sig f = d.setRegion d.selRegion { d.region d.selRegion with
      st := .closing, taken := [], due := false, sig := (d.region d.selRegion).due_ sig f } :=
  (d.onWrite_of_takesWrite ht _ _).trans (if_neg (not_or.2 ⟨h, h'⟩))

theorem Dev.reencrypt_of_refused (h : (d.region d.selRegion).st ≠ .live ∨ (d.region d.selRegion).key = 0) :
    d.reencrypt sig f = d.refuseRegion d.selRegion 7 :=
  (d.onWrite_of_takesWrite ht _ _).trans (if_pos h)

theorem Dev.reencrypt_of_live (h : (d.region d.selRegion).st = .live) (hk : (d.region d.selRegion).key ≠ 0) :
    d.reencrypt sig f = d.startReencrypt d.selRegion ((d.region d.selRegion).due_ sig f) :=
  (d.onWrite_of_takesWrite ht _ _).trans (if_neg (not_or.2 ⟨not_not.2 h, hk⟩))

end

theorem Dev.startReencrypt_of_used (n : Nat) (sig : Option (Nat × Nat)) (h : d.nextEpoch (d.region n).key = 0xFFFFFFFF) :
    d.startReencrypt n sig = d.refuseRegion n 6 := if_pos h

/-- A region as a re-encryption starts it. -/
def Dev.reencrypting (d : Dev) (x : Region) (sig : Option (Nat × Nat)) : Region :=
  { x with st := .reencrypting, epoch := d.nextEpoch x.key, prior := x.epoch, hw := 0, due := false, taken := [], sig := sig }

theorem Dev.startReencrypt_of_left (n : Nat) (sig : Option (Nat × Nat)) (h : d.nextEpoch (d.region n).key ≠ 0xFFFFFFFF) :
    d.startReencrypt n sig =
      { d.takeEpoch (d.region n).key with units := ((d.takeEpoch (d.region n).key).stopLaneTests (d.region n)).units }.setRegion n
        (d.reencrypting (d.region n) sig) := by
  rw [← Dev.stopLaneTests_eq]
  exact if_neg h

/-! ### The end of an opening and of a closing -/

theorem Dev.mem_zeroGranules (b n : Nat) : (d.zeroGranules b n).mem =
    Sparse.clearIf d.mem (b * granuleBytes) ((b + n) * granuleBytes) fun a => !d.fenced .stack (d.stackOf a) :=
  (foldl_keeps Dev.mem (fun _ _ => by split <;> rfl) _ _).trans rfl

/-- Every byte of the granules is 0 but those on a fenced stack. -/
theorem Dev.byte_zeroGranules (b n a : Nat) : (d.zeroGranules b n).byte a =
    if b * granuleBytes ≤ a ∧ a < (b + n) * granuleBytes ∧ d.fenced .stack (d.stackOf a) = false then 0 else d.byte a := by
  rw [Dev.byte, Dev.mem_zeroGranules, Sparse.clearIf, Sparse.get_filter_key (fun _ => 0)
    (fun x => !(decide (b * granuleBytes ≤ x) && decide (x < (b + n) * granuleBytes) && !d.fenced .stack (d.stackOf x)))]
  by_cases h : b * granuleBytes ≤ a ∧ a < (b + n) * granuleBytes ∧ d.fenced .stack (d.stackOf a) = false
  · rw [if_pos h, if_neg (by simp [h])]
  · rw [if_neg h]
    exact if_pos (by_contra fun hc => h (by simpa [and_assoc] using hc))

/-- A signal changes fences and what they set off, nothing of Selvedge. -/
theorem Dev.signal_store (k f v : Nat) (b : Bool) :
    (d.signal k f v b).1.mem = d.mem ∧ (d.signal k f v b).1.lines = d.lines ∧ (d.signal k f v b).1.regions = d.regions ∧
      (d.signal k f v b).1.keys = d.keys ∧ (d.signal k f v b).1.sv = d.sv := by
  unfold Dev.signal Dev.recordCtx Dev.applySignal
  dsimp only
  (repeat' split) <;> simp [Dev.setFence]

theorem Dev.engineSignal_store (k f v : Nat) :
    (d.engineSignal k f v).1.mem = d.mem ∧ (d.engineSignal k f v).1.lines = d.lines ∧ (d.engineSignal k f v).1.regions = d.regions ∧
      (d.engineSignal k f v).1.keys = d.keys ∧ (d.engineSignal k f v).1.sv = d.sv := by
  unfold Dev.engineSignal
  dsimp only
  split <;> exact Dev.signal_store ..

theorem Dev.regionSignal_store (n : Nat) (sig : Option (Nat × Nat)) :
    (d.regionSignal n sig).mem = d.mem ∧ (d.regionSignal n sig).lines = d.lines ∧ (d.regionSignal n sig).regions = d.regions ∧
      (d.regionSignal n sig).keys = d.keys ∧ (d.regionSignal n sig).sv = d.sv := by
  cases sig with
  | none => exact ⟨rfl, rfl, rfl, rfl, rfl⟩
  | some fv => exact Dev.engineSignal_store ..

theorem Dev.regionOpenDone_of_other {n : Nat} (h : (d.region n).st ≠ .opening) : d.regionOpenDone n = d := if_pos (by simp [h])

theorem Dev.regionCloseDone_of_other {n : Nat} (h : (d.region n).st ≠ .closing) : d.regionCloseDone n = d := if_pos (by simp [h])

/-- Region `n` zeroed, in state `st` from then on, its command signalled (R360, R361). -/
def Dev.zeroedRegion (d : Dev) (n : Nat) (st : RegionState) : Dev :=
  ((d.zeroGranules (d.region n).base (d.region n).granules).setRegion n { d.region n with st := st, sig := none }).regionSignal n
    (d.region n).sig

section
variable {n : Nat} (hs : d.serving = true) (hm : d.memReady (d.regionPart n) = true)
include hs hm

theorem Dev.regionOpenDone_of_fenced (h : (d.region n).st = .opening) (hf : d.onFencedStack (d.region n) = true) :
    d.regionOpenDone n = d.setRegion n { d.region n with st := .lost, sig := none } :=
  (if_neg (by simp [hs, hm, h])).trans (if_pos hf)

theorem Dev.regionOpenDone_of_unfenced (h : (d.region n).st = .opening) (hf : d.onFencedStack (d.region n) = false) :
    d.regionOpenDone n = d.zeroedRegion n .live :=
  (if_neg (by simp [hs, hm, h])).trans (if_neg (by simp [hf]))

theorem Dev.regionCloseDone_of_closing (h : (d.region n).st = .closing) : d.regionCloseDone n = d.zeroedRegion n .closed :=
  if_neg (by simp [hs, hm, h])

end

theorem Dev.region_zeroedRegion (n : Nat) (st : RegionState) :
    (d.zeroedRegion n st).region n = { d.region n with st := st, sig := none } := by
  obtain ⟨-, -, hregions, -⟩ := Dev.regionSignal_store (n := n) (sig := (d.region n).sig)
    (d := (d.zeroGranules (d.region n).base (d.region n).granules).setRegion n { d.region n with st := st, sig := none })
  exact (Dev.region_congr hregions n).trans ((Dev.region_setRegion ..).trans (if_pos rfl))

theorem Dev.byte_zeroedRegion (n : Nat) (st : RegionState) (a : Nat) : (d.zeroedRegion n st).byte a =
    if (d.region n).base * granuleBytes ≤ a ∧ a < ((d.region n).base + (d.region n).granules) * granuleBytes ∧
      d.fenced .stack (d.stackOf a) = false then 0 else d.byte a := by
  obtain ⟨hmem, -⟩ := Dev.regionSignal_store (n := n) (sig := (d.region n).sig)
    (d := (d.zeroGranules (d.region n).base (d.region n).granules).setRegion n { d.region n with st := st, sig := none })
  rw [← Dev.byte_zeroGranules, Dev.byte, Dev.zeroedRegion, hmem]
  rfl

/-- With no signal asked for, no fence changes. -/
theorem Dev.fences_zeroedRegion {n : Nat} (h : (d.region n).sig = none) (st : RegionState) : (d.zeroedRegion n st).fences = d.fences := by
  obtain ⟨-, -, hfences, -⟩ := d.zeroGranules_rest (d.region n).base (d.region n).granules
  unfold Dev.zeroedRegion
  rw [h]
  exact hfences

/-- Every byte of the granules of region `n` is 0 in `f` but those on a fenced stack; every other byte is as in `d`. -/
def Dev.zeroedIn (d : Dev) (n : Nat) (f : Dev) : Prop :=
  (∀ a, (d.region n).base * granuleBytes ≤ a → a < ((d.region n).base + (d.region n).granules) * granuleBytes →
    f.byte a = if d.fenced .stack (d.stackOf a) = true then d.byte a else 0) ∧
  ∀ a, a < (d.region n).base * granuleBytes ∨ ((d.region n).base + (d.region n).granules) * granuleBytes ≤ a → f.byte a = d.byte a

theorem Dev.zeroedIn_zeroedRegion (n : Nat) (st : RegionState) : d.zeroedIn n (d.zeroedRegion n st) := by
  constructor
  · intro a hlo hhi
    rw [Dev.byte_zeroedRegion]
    cases d.fenced .stack (d.stackOf a) <;> simp [hlo, hhi]
  · intro a ha
    rw [Dev.byte_zeroedRegion, if_neg (by omega)]

/-- How a row that zeroes region `n` ends. -/
theorem exec_of_zeroedRegion {s : State} {i : Instr} {f : Dev → Dev} {n : Nat} {st : RegionState} (key : exec i s = s.after f)
    (e : f s.dev = s.dev.zeroedRegion n st) : ∃ f : Dev, exec i s = .next (s.withDev f.settle) ∧
      f.region n = { s.dev.region n with st := st, sig := none } ∧ s.dev.zeroedIn n f ∧
      ((s.dev.region n).sig = none → f.fences = s.dev.fences) :=
  ⟨_, exec_of_effect key e, Dev.region_zeroedRegion n st, Dev.zeroedIn_zeroedRegion n st, fun h => Dev.fences_zeroedRegion h st⟩

end Sys2Proof.Machine
end

section
/-! The commands on a region and the end of an opening and of a closing (12 R360, R361, R365, R367). -/

namespace Sys2Proof

open Sys2Proof.Machine

/-- Settles O47: each command is refused with its entry, or changes the selected region alone, its epoch taken from the key's slot; an
opening and a closing that end zero the granules, and a signal touches no byte of them. -/
theorem regionCommands : Obligations.RegionCommands := by
  unfold Obligations.RegionCommands
  intro s sig fence hq
  dsimp only
  refine ⟨Dev.openReason_eq_zero_iff .., fun ht => ⟨fun h => ?openRefused, fun h => ?opened, fun h => ?closeRefused, fun h h' => ?closing,
    fun h => ?notLive, fun h hk he => ?usedUp, fun h hk he => ?reencrypting⟩, fun m => ⟨fun h => ?notOpening, fun h => ?notClosing,
    fun hs hm => ⟨fun h hf => ?lost, fun h hf => ?live, fun h => ?closed⟩⟩⟩
  case openRefused => exact exec_of_refuseRegion hq (exec_regionOpen ..) (Dev.regionOpen_of_refused ht _ _ h)
  case opened =>
    refine ⟨_, exec_of_dues hq (exec_regionOpen ..) (Dev.regionOpen_of_granted ht _ _ h) ?_, ?_, Dev.nextEpoch_openEpoch _⟩
    · rw [Dev.openEpoch_eq]; rfl
    · rw [Dev.openEpoch_eq]; exact Dev.regionChanged_setRegion _ rfl rfl rfl rfl rfl
  case closeRefused => exact exec_of_refuseRegion hq (exec_regionClose ..) (Dev.regionClose_of_refused ht _ _ h)
  case closing =>
    exact ⟨_, exec_of_dues hq (exec_regionClose ..) (Dev.regionClose_of_granted ht _ _ h h') rfl,
      Dev.regionChanged_setRegion _ rfl rfl rfl rfl rfl⟩
  case notLive => exact exec_of_refuseRegion hq (exec_reencrypt ..) (Dev.reencrypt_of_refused ht _ _ h)
  case usedUp =>
    exact exec_of_refuseRegion hq (exec_reencrypt ..) ((Dev.reencrypt_of_live ht _ _ h hk).trans (Dev.startReencrypt_of_used _ _ he))
  case reencrypting =>
    exact ⟨_, exec_of_dues hq (exec_reencrypt ..) ((Dev.reencrypt_of_live ht _ _ h hk).trans (Dev.startReencrypt_of_left _ _ he)) rfl,
      Dev.regionChanged_setRegion _ rfl rfl rfl rfl rfl, (Dev.nextEpoch_takeEpoch ..).trans (if_pos rfl)⟩
  case notOpening => exact exec_of_idle hq (exec_regionOpenDone ..) (Dev.regionOpenDone_of_other h)
  case notClosing => exact exec_of_idle hq (exec_regionCloseDone ..) (Dev.regionCloseDone_of_other h)
  case lost =>
    exact ⟨_, exec_of_dues hq (exec_regionOpenDone ..) (Dev.regionOpenDone_of_fenced hs hm h hf) rfl,
      (Dev.region_setRegion ..).trans (if_pos rfl), rfl⟩
  case live => exact exec_of_zeroedRegion (exec_regionOpenDone ..) (Dev.regionOpenDone_of_unfenced hs hm h hf)
  case closed => exact exec_of_zeroedRegion (exec_regionCloseDone ..) (Dev.regionCloseDone_of_closing hs hm h)

end Sys2Proof
end

section
/-! SUPPORT. Registers of Selvedge beside the entry counters of the partitions (09 Table 09-11, 12 Table 12-9): which entry leaves which
register, and what a bad line and a line that is met count. -/

namespace Sys2Proof.Machine

variable {d : Dev}

/-- An entry counts at the register of its class and partition alone. -/
theorem Dev.reg_logged (e : LogEntry) (stop : Option Nat) {x : Nat}
    (h : ∀ p, e.part = some p → 1 ≤ e.cls → e.cls ≤ 3 → x ≠ 0x8120 + 8 * e.cls + 0x80 * p) : (d.logged e stop).reg x = d.reg x := by
  have hcount (c : Dev) (p : Nat) (hp : e.part = some p) : (c.entryCount e.cls p).reg x = c.reg x := by
    have hne := h p hp
    unfold Dev.entryCount
    split
    · exact Dev.reg_setReg_ne _ _ (by omega)
    · split
      · exact Dev.reg_setReg_ne _ _ (by omega)
      · split
        · exact Dev.reg_setReg_ne _ _ (by omega)
        · rfl
  have hregs {a b : Dev} (hab : a.regs = b.regs) : a.reg x = b.reg x := by rw [Dev.reg, hab, Dev.reg]
  have hpart (c : Dev) : (c.entryPart e).reg x = c.reg x := by
    unfold Dev.entryPart
    split
    · next p hp =>
      split
      · exact (hregs (by simp)).trans (hcount c p hp)
      · exact hcount c p hp
    · rfl
  generalize hc : ({ d with log := d.log.push e } : Dev) = c
  have hreg : c.reg x = d.reg x := by rw [← hc]; rfl
  have hlife (c : Dev) : ((c.entryLife e).entryDue e stop).reg x = c.reg x := hregs (by simp [Dev.entryDue])
  unfold Dev.logged Dev.afterEntry
  rw [hc, ← hreg, hlife, hpart]
  exact hregs (by simp)

/-- An entry of class C0 counts nowhere. -/
theorem Dev.reg_record_zero (k : Nat) (u : UnitType) (i : Nat) (p : Option Nat) (y x : Nat) : (d.record 0 k u i p y).reg x = d.reg x :=
  Dev.reg_logged _ _ fun _ _ h => absurd h (Nat.not_succ_le_zero 0)

/-- The counters of entries of class C1 lie at 0x28 of a block of 0x80. -/
theorem Dev.reg_record_one (k : Nat) (u : UnitType) (i : Nat) (p : Option Nat) (y : Nat) {x : Nat} (hx : x % 0x80 ≠ 0x28) :
    (d.record 1 k u i p y).reg x = d.reg x :=
  Dev.reg_logged _ _ fun q _ _ _ => by show x ≠ 0x8120 + 8 * 1 + 0x80 * q; omega

/-- The counters of a partition that has a context lie below 0x8300. -/
theorem Dev.reg_record_ctxPart (c k : Nat) (u : UnitType) (i q y : Nat) {x : Nat} (hx : 0x8300 ≤ x) :
    (d.record c k u i (some (ctxPart q)) y).reg x = d.reg x := by
  refine Dev.reg_logged _ _ fun p hp _ h3 => ?_
  cases hp
  have hq := ctxPart_lt q
  show x ≠ 0x8120 + 8 * c + 0x80 * ctxPart q
  have hc : c ≤ 3 := h3
  omega

theorem Dev.reg_recordC3_high (k c y : Nat) {x : Nat} (hx : 0x8300 ≤ x) : (d.recordC3 k c y).reg x = d.reg x := by
  refine Dev.reg_logged _ _ fun p hp _ _ => ?_
  cases hp
  have hq := ctxPart_lt c
  show x ≠ 0x8120 + 8 * 3 + 0x80 * ctxPart c
  omega

/-- A bad line is counted by its cause (R375). -/
theorem Dev.reg_badLine_high (n l c k : Nat) (e p : Bool) {x : Nat} (hx : 0x8300 ≤ x) : (d.badLine n l c k e p).reg x =
    if x = (if e then 0x10020 else 0x10028) then d.reg x + 1 else d.reg x := by
  have hbump : ((d.badCounted n).bump (if e then 0x10020 else 0x10028) 1).reg x =
      if x = (if e then 0x10020 else 0x10028) then d.reg x + 1 else d.reg x := by
    generalize (if e then 0x10020 else 0x10028) = o
    rw [Dev.reg_bump]
    split
    · next h => rw [h]; rfl
    · rfl
  rw [← hbump]
  unfold Dev.badLine
  dsimp only
  split
  · exact Dev.reg_record_ctxPart _ _ _ _ _ _ hx
  · exact Dev.reg_recordC3_high _ _ _ hx

/-- Registers of Selvedge above those that reads count in. -/
def aboveReads (x : Nat) : Prop := 0x10030 < x ∧ x % 0x80 ≠ 0x28

theorem Dev.reg_meetLine_above (n l c k : Nat) (f : LineFound) (p : Bool) {x : Nat} (hx : aboveReads x) :
    (d.meetLine n l c k f p).1.reg x = d.reg x := by
  obtain ⟨hlt, hcount⟩ := hx
  have hbad (e : Bool) : (((d.setLatent l .good).markedLine n l e).badLine n l c k e p).reg x = d.reg x := by
    rw [Dev.reg_badLine_high _ _ _ _ _ _ (by omega), if_neg (by split <;> omega)]
    rfl
  cases f with
  | good => rfl
  | corrected b => exact (Dev.reg_record_one _ _ _ _ _ hcount).trans (Dev.reg_setReg_ne _ _ (by omega))
  | retried => exact (Dev.reg_record_one _ _ _ _ _ hcount).trans (Dev.reg_setReg_ne _ _ (by omega))
  | badEcc => exact hbad true
  | badMac =>
    unfold Dev.meetLine
    dsimp only
    split
    · rfl
    · exact hbad false

/-! ### The end of a re-encryption -/

theorem Dev.reg_signal (k f v : Nat) (b : Bool) {x : Nat} (hx : 0x8300 ≤ x) : (d.signal k f v b).1.reg x = d.reg x := by
  have happly : (d.applySignal f v).reg x = d.reg x := by
    simp [Dev.applySignal, Dev.reg, Dev.setFence]
  unfold Dev.signal
  dsimp only
  split
  · rfl
  · split
    · rfl
    · exact Dev.reg_record_ctxPart _ _ _ _ _ _ hx
    · generalize (if b = true then (d.fence f).remote else (d.fence f).maySignal k) = may
      split
      · rfl
      · split
        · exact Dev.reg_record_ctxPart _ _ _ _ _ _ hx
        · exact happly

theorem Dev.reg_regionSignal (n : Nat) (sig : Option (Nat × Nat)) {x : Nat} (hx : 0x8300 ≤ x) :
    (d.regionSignal n sig).reg x = d.reg x := by
  cases sig with
  | none => rfl
  | some fv =>
    unfold Dev.regionSignal Dev.engineSignal
    dsimp only
    split <;> exact Dev.reg_signal _ _ _ _ hx

theorem Dev.reg_startReencrypt (n : Nat) (sig : Option (Nat × Nat)) (x : Nat) : (d.startReencrypt n sig).reg x = d.reg x := by
  by_cases h : d.nextEpoch (d.region n).key = 0xFFFFFFFF
  · rw [Dev.startReencrypt_of_used _ _ h]
    exact Dev.reg_record_zero ..
  · rw [Dev.startReencrypt_of_left _ _ h]
    rfl

/-- Region `n` live again: its entry is made and its command signalled (R368). -/
def Dev.reencrypted (d : Dev) (n : Nat) : Dev :=
  ((d.setRegion n { d.region n with st := .live, taken := [], sig := none, due := false }).record 0 0x0508 .selvedge 16
    (some (d.regionPart n)) (n + (d.region n).epoch * 2 ^ 32)).regionSignal n (d.region n).sig

/-- The re-encryption of region `n` has taken every step. -/
def Dev.allTaken (d : Dev) (n : Nat) : Prop :=
  (d.region n).st = .reencrypting ∧ (d.region n).granules * 32 ≤ (d.region n).taken.length

theorem Dev.reencryptDone_of_open {n : Nat} (h : ¬ d.allTaken n) : d.reencryptDone n = d := if_neg h

theorem Dev.reencryptDone_of_all {n : Nat} (h : d.allTaken n) :
    d.reencryptDone n = if (d.region n).due then (d.reencrypted n).startReencrypt n none else d.reencrypted n := if_pos h

theorem Dev.reencrypted_store (n : Nat) :
    (d.reencrypted n).mem = d.mem ∧ (d.reencrypted n).lines = d.lines ∧ (d.reencrypted n).sv = d.sv := by
  obtain ⟨hmem, hlines, -, -, hsv⟩ := Dev.regionSignal_store (n := n) (sig := (d.region n).sig)
    (d := (d.setRegion n { d.region n with st := .live, taken := [], sig := none, due := false }).record 0 0x0508 .selvedge 16
      (some (d.regionPart n)) (n + (d.region n).epoch * 2 ^ 32))
  exact ⟨hmem.trans (by simp), hlines.trans (by simp), hsv.trans (by simp)⟩

theorem Dev.region_reencrypted (n : Nat) :
    (d.reencrypted n).region n = { d.region n with st := .live, taken := [], sig := none, due := false } := by
  obtain ⟨-, -, hregions, -⟩ := Dev.regionSignal_store (n := n) (sig := (d.region n).sig)
    (d := (d.setRegion n { d.region n with st := .live, taken := [], sig := none, due := false }).record 0 0x0508 .selvedge 16
      (some (d.regionPart n)) (n + (d.region n).epoch * 2 ^ 32))
  rw [Dev.reencrypted, Dev.region_congr hregions, Dev.region_congr (Dev.noted_record ..).regions, Dev.region_setRegion, if_pos rfl]

theorem Dev.reg_reencrypted (n : Nat) {x : Nat} (hx : 0x8300 ≤ x) : (d.reencrypted n).reg x = d.reg x :=
  (Dev.reg_regionSignal _ _ hx).trans (Dev.reg_record_zero ..)

/-- The entry 0x0508 is the only one where no signal is asked for. -/
theorem Dev.seq_reencrypted {n : Nat} (h : (d.region n).sig = none) : (d.reencrypted n).log.seq = d.log.seq + 1 := by
  unfold Dev.reencrypted
  rw [h]
  simp [Dev.regionSignal]

/-- The end of a re-encryption changes no byte, no line, no step buffer and no register of Selvedge. -/
theorem Dev.reencryptDone_store (n : Nat) :
    (d.reencryptDone n).mem = d.mem ∧ (d.reencryptDone n).lines = d.lines ∧ (d.reencryptDone n).sv = d.sv ∧
      ∀ x, 0x8300 ≤ x → (d.reencryptDone n).reg x = d.reg x := by
  by_cases h : d.allTaken n
  · rw [Dev.reencryptDone_of_all h]
    obtain ⟨hmem, hlines, hsv⟩ := d.reencrypted_store n
    obtain ⟨hmem', hlines', hsv'⟩ := (d.reencrypted n).startReencrypt_store n none
    split
    · exact ⟨hmem'.trans hmem, hlines'.trans hlines, hsv'.trans hsv, fun x hx => (Dev.reg_startReencrypt ..).trans (Dev.reg_reencrypted n hx)⟩
    · exact ⟨hmem, hlines, hsv, fun x hx => Dev.reg_reencrypted n hx⟩
  · rw [Dev.reencryptDone_of_open h]
    exact ⟨rfl, rfl, rfl, fun _ _ => rfl⟩

/-- A region that has every step taken has none taken any more: it is live, or its next re-encryption starts. -/
theorem Dev.taken_reencryptDone {n : Nat} (h : d.allTaken n) : ((d.reencryptDone n).region n).taken = [] := by
  have hregion := d.region_reencrypted n
  rw [Dev.reencryptDone_of_all h]
  split
  · by_cases he : (d.reencrypted n).nextEpoch ((d.reencrypted n).region n).key = 0xFFFFFFFF
    · rw [Dev.startReencrypt_of_used _ _ he, Dev.refuseRegion, Dev.region_congr (Dev.noted_record ..).regions, hregion]
    · rw [Dev.startReencrypt_of_left _ _ he, Dev.region_setRegion, if_pos rfl]
      rfl
  · rw [hregion]

end Sys2Proof.Machine
end

section
/-! SUPPORT. Re-encryption steps (12 R368 to R371): what the reads of a step and the drain of its buffer leave of the lines, within the
step and outside. -/

namespace Sys2Proof.Machine

/-! ### Tables -/

section
variable {α : Type}

theorem Sparse.mem_insert_of_ne {m : Sparse α} {k : Nat} {e : Nat × α} (v : α) (hk : e.1 ≠ k) : e ∈ Sparse.insert m k v ↔ e ∈ m := by
  refine ⟨fun h => (Sparse.mem_insert m k v e h).resolve_left fun he => hk (by rw [he]), fun h => ?_⟩
  induction m with
  | nil => cases h
  | cons a m ih =>
    obtain ⟨j, u⟩ := a
    unfold Sparse.insert
    split
    · exact List.mem_cons_of_mem _ h
    · rcases List.mem_cons.1 h with rfl | h
      · rw [if_neg fun hj => hk hj.symm]
        exact List.mem_cons_self
      · split
        · exact List.mem_cons_of_mem _ h
        · exact List.mem_cons_of_mem _ (ih h)

variable [DecidableEq α] {f : Nat → α}

theorem Sparse.mem_set {m : Sparse α} {k : Nat} {v : α} {e : Nat × α} (h : e ∈ Sparse.set f m k v) : (e = (k, v) ∧ v ≠ f k) ∨ e ∈ m := by
  unfold Sparse.set at h
  split at h
  · rw [Sparse.erase_eq_filter] at h
    exact .inr (List.mem_of_mem_filter h)
  · next hv => exact (Sparse.mem_insert m k v e h).imp_left fun he => ⟨he, hv⟩

theorem Sparse.mem_set_of_ne {m : Sparse α} {k : Nat} {e : Nat × α} (v : α) (hk : e.1 ≠ k) : e ∈ Sparse.set f m k v ↔ e ∈ m := by
  unfold Sparse.set
  split
  · rw [Sparse.erase_eq_filter, List.mem_filter, and_iff_left (by simpa using hk)]
  · exact Sparse.mem_insert_of_ne v hk

omit [DecidableEq α] in
/-- Entries put into a table one after the other: those put, and those there before. -/
theorem Sparse.mem_foldl_insert {bs m : Sparse α} {e : Nat × α} (h : e ∈ bs.foldl (fun s b => Sparse.insert s b.1 b.2) m) :
    e ∈ bs ∨ e ∈ m := by
  induction bs generalizing m with
  | nil => exact .inr h
  | cons b bs ih =>
    rcases ih h with hb | hm
    · exact .inl (List.mem_cons_of_mem _ hb)
    · rcases Sparse.mem_insert _ _ _ _ hm with rfl | hm
      · exact .inl List.mem_cons_self
      · exact .inr hm

omit [DecidableEq α] in
theorem Sparse.mem_foldl_insert_of_ne {bs m : Sparse α} {e : Nat × α} (h : ∀ b ∈ bs, e.1 ≠ b.1) :
    e ∈ bs.foldl (fun s b => Sparse.insert s b.1 b.2) m ↔ e ∈ m := by
  induction bs generalizing m with
  | nil => rfl
  | cons b bs ih =>
    rw [List.foldl_cons, ih fun c hc => h c (List.mem_cons_of_mem _ hc)]
    exact Sparse.mem_insert_of_ne _ (h b List.mem_cons_self)

end

theorem contains_insNat (x : Nat) (xs : List Nat) : (insNat x xs).contains x = true := by
  induction xs with
  | nil => simp [insNat]
  | cons y ys ih =>
    unfold insNat
    split
    · simp
    · split
      · next h => simp [h]
      · rw [List.contains_cons, ih, Bool.or_true]

variable {d e : Dev}

/-! ### The reads of a step -/

theorem Dev.lines_markedLine (n l : Nat) (ecc : Bool) :
    ∃ m : LineMeta, m.bad = true ∧ (d.markedLine n l ecc).lines = Sparse.set (fun _ => none) d.lines l (some m) := ⟨_, rfl, rfl⟩

/-- `e` is `d` after reads of lines from `first` on, 512 of them, of region `n`: other lines stand, and a line stands or is bad. -/
structure Dev.StepMet (n first : Nat) (d e : Dev) : Prop where
  mem : e.mem = d.mem
  reg : ∀ x, aboveReads x → e.reg x = d.reg x
  region : e.region n = { d.region n with bad := (e.region n).bad }
  outside : ∀ y : Nat × Option LineMeta, y.1 < first ∨ first + 512 ≤ y.1 → (y ∈ e.lines ↔ y ∈ d.lines)
  line : ∀ l, Sparse.get (fun _ => none) e.lines l = Sparse.get (fun _ => none) d.lines l ∨
    ∃ m, Sparse.get (fun _ => none) e.lines l = some m ∧ m.bad = true

theorem Dev.StepMet.meetLine {n first l : Nat} (h : d.StepMet n first e) (hlo : first ≤ l) (hhi : l < first + 512) (c k : Nat)
    (f : LineFound) (p : Bool) : d.StepMet n first (e.meetLine n l c k f p).1 := by
  have hreg (x : Nat) (hx : aboveReads x) := (Dev.reg_meetLine_above n l c k f p hx).trans (h.reg x hx)
  have hmem := (Dev.mem_meetLine e n l c k f p).trans h.mem
  obtain ⟨-, ⟨-, hlines, hregions⟩ | ⟨-, ecc, hlines, hregions⟩⟩ := e.meetLine_leaves n l c k f p
  · exact ⟨hmem, hreg, by rw [Dev.region_congr hregions]; exact h.region, by rw [hlines]; exact h.outside, by rw [hlines]; exact h.line⟩
  · obtain ⟨m, hbad, hmarked⟩ := e.lines_markedLine n l ecc
    rw [hmarked] at hlines
    refine ⟨hmem, hreg, ?_, fun y hy => ?_, fun j => ?_⟩
    · rw [Dev.region_congr hregions, Dev.badCounted, Dev.region_setRegion, if_pos rfl, h.region]
    · rw [hlines]
      have hne : y.1 ≠ l := by omega
      exact (Sparse.mem_set_of_ne _ hne).trans (h.outside y hy)
    · rw [hlines]
      by_cases hj : j = l
      · subst hj
        exact .inr ⟨m, Sparse.get_set_self .., hbad⟩
      · rw [Sparse.get_set_ne _ _ _ hj]
        exact h.line j

theorem Dev.stepMet_meetStep (n first : Nat) : d.StepMet n first (d.meetStep n first) := by
  have hfold : ∀ (ls : List Nat) (e : Dev), (∀ l ∈ ls, first ≤ l ∧ l < first + 512) → d.StepMet n first e → d.StepMet n first
      (ls.foldl (fun d l => (d.meetLine n l (d.regionPart n) (d.lineMeta (d.region n) l).key (d.latent l) false).1) e) := by
    intro ls
    induction ls with
    | nil => exact fun _ _ h => h
    | cons l ls ih =>
      intro e hls h
      obtain ⟨hlo, hhi⟩ := hls l List.mem_cons_self
      exact ih _ (fun j hj => hls j (List.mem_cons_of_mem _ hj)) (h.meetLine hlo hhi _ _ _ _)
  refine hfold _ d (fun l hl => ?_) ⟨rfl, fun _ _ => rfl, rfl, fun _ _ => Iff.rfl, fun _ => .inl rfl⟩
  simpa using (List.mem_filter.1 hl).2

/-- The reads of a step that find nothing change nothing. -/
theorem Dev.meetStep_of_good {n first : Nat} (h : ∀ l, first ≤ l → l < first + 512 → d.latent l = .good) : d.meetStep n first = d := by
  have hfold : ∀ ls : List Nat, (∀ l ∈ ls, first ≤ l ∧ l < first + 512) →
      ls.foldl (fun d l => (d.meetLine n l (d.regionPart n) (d.lineMeta (d.region n) l).key (d.latent l) false).1) d = d := by
    intro ls
    induction ls with
    | nil => exact fun _ => rfl
    | cons l ls ih =>
      intro hls
      obtain ⟨hlo, hhi⟩ := hls l List.mem_cons_self
      rw [List.foldl_cons, h l hlo hhi]
      exact ih fun j hj => hls j (List.mem_cons_of_mem _ hj)
  exact hfold _ fun l hl => by simpa using (List.mem_filter.1 hl).2

/-! ### The buffer of a step -/

/-- First line of step `i`. -/
def Region.stepFirst (x : Region) (i : Nat) : Nat := x.base * 16384 + i * 512

/-- A buffer lists lines of its step alone, each as re-encrypted. -/
theorem Dev.mem_restartLines {x : Region} {first : Nat} {y : Nat × Option LineMeta} (h : y ∈ d.restartLines x first) :
    y.2 = d.restartLine x y.1 ∧ y.2 ≠ none ∧ first ≤ y.1 ∧ y.1 < first + 512 := by
  have hfold : ∀ (ls : List Nat) (s : Sparse (Option LineMeta)), (∀ l ∈ ls, first ≤ l ∧ l < first + 512) →
      y ∈ ls.foldl (fun s l => Sparse.set (fun _ => none) s l (d.restartLine x l)) s →
      y ∈ s ∨ (y.2 = d.restartLine x y.1 ∧ y.2 ≠ none ∧ first ≤ y.1 ∧ y.1 < first + 512) := by
    intro ls
    induction ls with
    | nil => exact fun _ _ h => .inl h
    | cons l ls ih =>
      intro s hls h
      rcases ih _ (fun j hj => hls j (List.mem_cons_of_mem _ hj)) h with h | h
      · rcases Sparse.mem_set h with ⟨rfl, hv⟩ | h
        · exact .inr ⟨rfl, hv, hls l List.mem_cons_self⟩
        · exact .inl h
      · exact .inr h
  refine (hfold _ [] (fun l hl => ?_) h).resolve_left List.not_mem_nil
  split at hl
  · simpa using (List.mem_filter.1 hl).2
  · obtain ⟨i, hi, rfl⟩ := List.mem_map.1 hl
    have := List.mem_range.1 hi
    omega

/-- A line as re-encrypted: one that fails keeps what is kept of it, another has counter 0 under the new epoch or is as opened. -/
theorem Dev.restartLine_cases {x : Region} {l : Nat} {m : LineMeta} (h : d.restartLine x l = some m) :
    ((d.lineMeta x l).failsUnder x l (d.lineMeta x l).key (d.key (d.lineMeta x l).key).secret = true ∧ m = d.lineMeta x l) ∨
      ((d.lineMeta x l).failsUnder x l (d.lineMeta x l).key (d.key (d.lineMeta x l).key).secret = false ∧
        m = { d.lineMeta x l with epoch := x.epoch, ctr := 0 }) := by
  unfold Dev.restartLine at h
  dsimp only at h
  split at h
  · next hf => cases h; exact .inl ⟨hf, rfl⟩
  · next hf =>
    split at h <;> cases h
    exact .inr ⟨by simpa using hf, rfl⟩

/-- Stack `k` after the drain of buffer `b`, before the end of the re-encryption is looked at (R368). -/
def Dev.drained (d : Dev) (k : Nat) (b : StepBuf) : Dev :=
  let first := (d.region b.num).stepFirst b.step
  let c : Dev := { d.setBufs k ((d.stepBufs k).erase b) with
    lines := b.lines.foldl (fun s e => Sparse.insert s e.1 e.2) (Sparse.clear d.lines first (first + 512)) }
  (c.setRegion b.num { d.region b.num with taken := insNat b.step (d.region b.num).taken }).bump 0x10038 1

theorem Dev.drainBuf_of_reencrypting {k : Nat} {b : StepBuf} (h : (d.region b.num).st = .reencrypting) :
    d.drainBuf k b = (d.drained k b).reencryptDone b.num := if_neg (not_not.2 h)

theorem Dev.drainBuf_of_other {k : Nat} {b : StepBuf} (h : (d.region b.num).st ≠ .reencrypting) :
    d.drainBuf k b = d.setBufs k ((d.stepBufs k).erase b) := if_pos h

theorem Dev.region_drained (k : Nat) (b : StepBuf) :
    (d.drained k b).region b.num = { d.region b.num with taken := insNat b.step (d.region b.num).taken } :=
  (Dev.region_setRegion ..).trans (if_pos rfl)

theorem Dev.stepBufs_setBufs (k : Nat) (bs : List StepBuf) : (d.setBufs k bs).stepBufs k = bs := by simp [Dev.stepBufs, Dev.setBufs]

theorem Dev.stepBufs_drainBuf (k : Nat) (b : StepBuf) : (d.drainBuf k b).stepBufs k = (d.stepBufs k).erase b := by
  by_cases h : (d.region b.num).st = .reencrypting
  · obtain ⟨-, -, hsv, -⟩ := (d.drained k b).reencryptDone_store b.num
    rw [Dev.drainBuf_of_reencrypting h, Dev.stepBufs, hsv]
    exact Dev.stepBufs_setBufs ..
  · rw [Dev.drainBuf_of_other h, Dev.stepBufs_setBufs]

theorem Dev.mem_drainBuf (k : Nat) (b : StepBuf) : (d.drainBuf k b).mem = d.mem := by
  by_cases h : (d.region b.num).st = .reencrypting
  · obtain ⟨hmem, -⟩ := (d.drained k b).reencryptDone_store b.num
    rw [Dev.drainBuf_of_reencrypting h, hmem]
    rfl
  · rw [Dev.drainBuf_of_other h]
    rfl

section
variable {k : Nat} {b : StepBuf} (h : (d.region b.num).st = .reencrypting)
include h

theorem Dev.reg_drainBuf {x : Nat} (hx : 0x8300 ≤ x) :
    (d.drainBuf k b).reg x = if x = 0x10038 then d.reg 0x10038 + 1 else d.reg x := by
  obtain ⟨-, -, -, hreg⟩ := (d.drained k b).reencryptDone_store b.num
  rw [Dev.drainBuf_of_reencrypting h, hreg x hx]
  exact Dev.reg_bump ..

theorem Dev.lines_drainBuf {first : Nat} (hfirst : (d.region b.num).stepFirst b.step = first) : (d.drainBuf k b).lines =
    b.lines.foldl (fun s e => Sparse.insert s e.1 e.2) (Sparse.clear d.lines first (first + 512)) := by
  obtain ⟨-, hlines, -⟩ := (d.drained k b).reencryptDone_store b.num
  rw [Dev.drainBuf_of_reencrypting h, hlines, ← hfirst]
  rfl

/-- A step drained is taken, or with it every step is. -/
theorem Dev.taken_drainBuf : ((d.drainBuf k b).region b.num).taken.contains b.step = true ∨ ((d.drainBuf k b).region b.num).taken = [] := by
  rw [Dev.drainBuf_of_reencrypting h]
  by_cases hall : (d.drained k b).allTaken b.num
  · exact .inr (Dev.taken_reencryptDone hall)
  · rw [Dev.reencryptDone_of_open hall, Dev.region_drained]
    exact .inl (contains_insNat _ _)

end

/-! ### A step taken -/

/-- The device once the lines of step `i` have been read (R368). -/
def Dev.stepRead (d : Dev) (n i : Nat) : Dev :=
  (d.touchRun ((d.region n).stepFirst i) 512).meetStep n ((d.region n).stepFirst i)

/-- The buffer of step `i`. -/
def Dev.stepBuf (d : Dev) (n i : Nat) : StepBuf :=
  { num := n, step := i, lines := (d.stepRead n i).restartLines (d.region n) ((d.region n).stepFirst i) }

/-- The device with that buffer valid on stack `k`. -/
def Dev.stepHeld (d : Dev) (n i k : Nat) : Dev := (d.stepRead n i).setBufs k ((d.stepRead n i).stepBufs k ++ [d.stepBuf n i])

theorem Dev.stepMet_stepRead (n i : Nat) : d.StepMet n ((d.region n).stepFirst i) (d.stepRead n i) := by
  obtain ⟨hmem, hreg, hregion, houtside, hline⟩ :=
    Dev.stepMet_meetStep (d := d.touchRun ((d.region n).stepFirst i) 512) n ((d.region n).stepFirst i)
  exact ⟨hmem, hreg, hregion, houtside, hline⟩

/-- The reads of the step find nothing: the only changes are those of the re-encryption itself. -/
theorem Dev.stepRead_of_good {n i : Nat}
    (h : ∀ l, (d.region n).stepFirst i ≤ l → l < (d.region n).stepFirst i + 512 → d.latent l = .good) :
    d.stepRead n i = d.touchRun ((d.region n).stepFirst i) 512 :=
  Dev.meetStep_of_good (d := d.touchRun ((d.region n).stepFirst i) 512) h

/-- What a step taken leaves: `forced` of the steps counted as taken out of turn. -/
structure Dev.StepTaken (d : Dev) (n i forced : Nat) (f : Dev) : Prop where
  mem : f.mem = d.mem
  taken : f.reg 0x10038 = d.reg 0x10038 + 1
  forced : f.reg 0x10040 = d.reg 0x10040 + BitVec.ofNat 64 forced
  inside : ∀ e ∈ f.lines, (d.region n).stepFirst i ≤ e.1 → e.1 < (d.region n).stepFirst i + 512 →
    ∃ m, e.2 = some m ∧ (m.bad = true ∨ (m.ctr = 0 ∧ m.epoch = (d.region n).epoch) ∨ m = d.lineMeta (d.region n) e.1)
  outside : ∀ e, e.1 < (d.region n).stepFirst i ∨ (d.region n).stepFirst i + 512 ≤ e.1 → (e ∈ f.lines ↔ e ∈ d.lines)
  sound : (∀ l, (d.region n).stepFirst i ≤ l → l < (d.region n).stepFirst i + 512 → d.latent l = .good) →
    (∀ l, (d.region n).stepFirst i ≤ l → l < (d.region n).stepFirst i + 512 →
      (d.lineMeta (d.region n) l).failsUnder (d.region n) l (d.lineMeta (d.region n) l).key
        (d.key (d.lineMeta (d.region n) l).key).secret = false →
      Sparse.get (fun _ => none) f.lines l = none ∨
        Sparse.get (fun _ => none) f.lines l = some { d.lineMeta (d.region n) l with epoch := (d.region n).epoch, ctr := 0 }) ∧
    ((insNat i (d.region n).taken).length < (d.region n).granules * 32 →
      f.region n = { d.region n with taken := insNat i (d.region n).taken }) ∧
    ((d.region n).granules * 32 ≤ (insNat i (d.region n).taken).length → (d.region n).due = false → (d.region n).sig = none →
      f.region n = { d.region n with st := .live, taken := [], sig := none, due := false } ∧ f.log.seq = d.log.seq + 1)

/-- A step taken out of turn is counted (R369). -/
theorem Dev.StepTaken.bump {n i : Nat} {f : Dev} (h : d.StepTaken n i 0 f) : d.StepTaken n i 1 (f.bump 0x10040 1) := by
  refine ⟨h.mem, ?_, ?_, h.inside, h.outside, h.sound⟩
  · rw [Dev.reg_bump, if_neg (by decide), h.taken]
  · rw [Dev.reg_bump, if_pos rfl, h.forced]
    simp

section
variable {n i : Nat} (hst : (d.region n).st = .reencrypting)
include hst

theorem Dev.st_stepHeld (k : Nat) : ((d.stepHeld n i k).region n).st = .reencrypting := by
  show ((d.stepRead n i).region n).st = _
  rw [(Dev.stepMet_stepRead n i).region]
  exact hst

theorem Dev.lines_stepTaken (k : Nat) : ((d.stepHeld n i k).drainBuf k (d.stepBuf n i)).lines =
    (d.stepBuf n i).lines.foldl (fun s e => Sparse.insert s e.1 e.2)
      (Sparse.clear (d.stepRead n i).lines ((d.region n).stepFirst i) ((d.region n).stepFirst i + 512)) := by
  refine Dev.lines_drainBuf (d := d.stepHeld n i k) (Dev.st_stepHeld hst k) ?_
  show ((d.stepRead n i).region n).stepFirst i = _
  rw [(Dev.stepMet_stepRead n i).region]
  rfl

/-- A line listed within a step that is taken stands in its buffer. -/
theorem Dev.mem_lines_stepTaken {k : Nat} {e : Nat × Option LineMeta} (he : e ∈ ((d.stepHeld n i k).drainBuf k (d.stepBuf n i)).lines)
    (hlo : (d.region n).stepFirst i ≤ e.1) (hhi : e.1 < (d.region n).stepFirst i + 512) :
    e.2 = (d.stepRead n i).restartLine (d.region n) e.1 ∧ e.2 ≠ none := by
  rw [Dev.lines_stepTaken hst] at he
  rcases Sparse.mem_foldl_insert he with hb | hm
  · obtain ⟨heq, hne, -⟩ := Dev.mem_restartLines hb
    exact ⟨heq, hne⟩
  · have := (List.mem_filter.1 hm).2
    simp [hlo, hhi] at this

theorem Dev.line_stepTaken_inside {k : Nat} {e : Nat × Option LineMeta} (he : e ∈ ((d.stepHeld n i k).drainBuf k (d.stepBuf n i)).lines)
    (hlo : (d.region n).stepFirst i ≤ e.1) (hhi : e.1 < (d.region n).stepFirst i + 512) :
    ∃ m, e.2 = some m ∧ (m.bad = true ∨ (m.ctr = 0 ∧ m.epoch = (d.region n).epoch) ∨ m = d.lineMeta (d.region n) e.1) := by
  obtain ⟨heq, hne⟩ := Dev.mem_lines_stepTaken hst he hlo hhi
  obtain ⟨m, hm⟩ := Option.ne_none_iff_exists'.1 hne
  refine ⟨m, hm, ?_⟩
  rcases Dev.restartLine_cases (heq.symm.trans hm) with ⟨-, rfl⟩ | ⟨-, rfl⟩
  · rcases (Dev.stepMet_stepRead n i).line e.1 with hsame | ⟨m, hm, hbad⟩
    · exact .inr (.inr (by rw [Dev.lineMeta, hsame, Dev.lineMeta]))
    · exact .inl (by rw [Dev.lineMeta, hm]; exact hbad)
  · exact .inr (.inl ⟨rfl, rfl⟩)

theorem Dev.line_stepTaken_outside {k : Nat} {e : Nat × Option LineMeta}
    (he : e.1 < (d.region n).stepFirst i ∨ (d.region n).stepFirst i + 512 ≤ e.1) :
    e ∈ ((d.stepHeld n i k).drainBuf k (d.stepBuf n i)).lines ↔ e ∈ d.lines := by
  rw [Dev.lines_stepTaken hst, Sparse.mem_foldl_insert_of_ne, Sparse.clear, List.mem_filter, (Dev.stepMet_stepRead n i).outside e he]
  · exact and_iff_left (by simp; omega)
  · intro b hb
    obtain ⟨-, -, hlo, hhi⟩ := Dev.mem_restartLines hb
    omega

section
variable (hgood : ∀ l, (d.region n).stepFirst i ≤ l → l < (d.region n).stepFirst i + 512 → d.latent l = .good)
include hgood

/-- A line that the step can read is as opened, or has counter 0 under the new epoch. -/
theorem Dev.line_stepTaken_sound (k : Nat) {l : Nat} (hlo : (d.region n).stepFirst i ≤ l) (hhi : l < (d.region n).stepFirst i + 512)
    (hpass : (d.lineMeta (d.region n) l).failsUnder (d.region n) l (d.lineMeta (d.region n) l).key
      (d.key (d.lineMeta (d.region n) l).key).secret = false) :
    Sparse.get (fun _ => none) ((d.stepHeld n i k).drainBuf k (d.stepBuf n i)).lines l = none ∨
      Sparse.get (fun _ => none) ((d.stepHeld n i k).drainBuf k (d.stepBuf n i)).lines l =
        some { d.lineMeta (d.region n) l with epoch := (d.region n).epoch, ctr := 0 } := by
  by_cases hnone : Sparse.get (fun _ => none) ((d.stepHeld n i k).drainBuf k (d.stepBuf n i)).lines l = none
  · exact .inl hnone
  · obtain ⟨heq, hne⟩ := Dev.mem_lines_stepTaken hst (Sparse.mem_of_get_ne (fun _ => none) _ l hnone) hlo hhi
    obtain ⟨m, hm⟩ := Option.ne_none_iff_exists'.1 hne
    have hline := heq.symm.trans hm
    rw [Dev.stepRead_of_good hgood] at hline
    rcases Dev.restartLine_cases hline with ⟨hfails, -⟩ | ⟨-, rfl⟩
    · exact absurd (hpass.symm.trans hfails) Bool.false_ne_true
    · exact .inr hm

omit hst in
theorem Dev.region_stepDrained (k : Nat) :
    ((d.stepHeld n i k).drained k (d.stepBuf n i)).region n = { d.region n with taken := insNat i (d.region n).taken } := by
  have hregion : (d.stepHeld n i k).region n = d.region n := by
    show (d.stepRead n i).region n = _
    rw [Dev.stepRead_of_good hgood]
    rfl
  have hdrained := Dev.region_drained (d := d.stepHeld n i k) k (d.stepBuf n i)
  rw [show (d.stepBuf n i).num = n from rfl, hregion] at hdrained
  exact hdrained

theorem Dev.allTaken_stepDrained (k : Nat) : ((d.stepHeld n i k).drained k (d.stepBuf n i)).allTaken n ↔
    (d.region n).granules * 32 ≤ (insNat i (d.region n).taken).length := by
  rw [Dev.allTaken, Dev.region_stepDrained hgood]
  exact and_iff_right hst

theorem Dev.region_stepTaken_open (k : Nat) (h : (insNat i (d.region n).taken).length < (d.region n).granules * 32) :
    ((d.stepHeld n i k).drainBuf k (d.stepBuf n i)).region n = { d.region n with taken := insNat i (d.region n).taken } := by
  have hopen : ¬ ((d.stepHeld n i k).drained k (d.stepBuf n i)).allTaken n :=
    fun hall => Nat.not_le.2 h ((Dev.allTaken_stepDrained hst hgood k).1 hall)
  rw [Dev.drainBuf_of_reencrypting (Dev.st_stepHeld hst k), Dev.reencryptDone_of_open (n := (d.stepBuf n i).num) hopen]
  exact Dev.region_stepDrained hgood k

/-- With the last step the region is live again. -/
theorem Dev.region_stepTaken_last (k : Nat) (h : (d.region n).granules * 32 ≤ (insNat i (d.region n).taken).length)
    (hdue : (d.region n).due = false) (hsig : (d.region n).sig = none) :
    ((d.stepHeld n i k).drainBuf k (d.stepBuf n i)).region n =
        { d.region n with st := .live, taken := [], sig := none, due := false } ∧
      ((d.stepHeld n i k).drainBuf k (d.stepBuf n i)).log.seq = d.log.seq + 1 := by
  have hdrained := Dev.region_stepDrained hgood k
  have hdone : (d.stepHeld n i k).drainBuf k (d.stepBuf n i) = ((d.stepHeld n i k).drained k (d.stepBuf n i)).reencrypted n := by
    rw [Dev.drainBuf_of_reencrypting (Dev.st_stepHeld hst k)]
    exact (Dev.reencryptDone_of_all ((Dev.allTaken_stepDrained hst hgood k).2 h)).trans (if_neg (by rw [hdrained]; simp [hdue]))
  rw [hdone, Dev.region_reencrypted, hdrained, Dev.seq_reencrypted (by rw [hdrained]; exact hsig)]
  refine ⟨rfl, ?_⟩
  show (d.stepRead n i).log.seq + 1 = _
  rw [Dev.stepRead_of_good hgood]
  rfl

end

theorem Dev.stepTaken_drainBuf (k : Nat) : d.StepTaken n i 0 ((d.stepHeld n i k).drainBuf k (d.stepBuf n i)) := by
  have hmet : d.StepMet n ((d.region n).stepFirst i) (d.stepRead n i) := Dev.stepMet_stepRead n i
  have hheld : ((d.stepHeld n i k).region (d.stepBuf n i).num).st = .reencrypting := Dev.st_stepHeld hst k
  refine ⟨(Dev.mem_drainBuf ..).trans hmet.mem, ?_, ?_, fun _ => Dev.line_stepTaken_inside hst, fun _ => Dev.line_stepTaken_outside hst,
    fun hgood => ⟨fun l => Dev.line_stepTaken_sound hst hgood k, Dev.region_stepTaken_open hst hgood k,
      Dev.region_stepTaken_last hst hgood k⟩⟩
  · rw [Dev.reg_drainBuf hheld (by decide), if_pos rfl]
    exact congrArg (· + 1) (hmet.reg 0x10038 ⟨by decide, by decide⟩)
  · rw [Dev.reg_drainBuf hheld (by decide), if_neg (by decide)]
    exact (hmet.reg 0x10040 ⟨by decide, by decide⟩).trans (by simp)

end

end Sys2Proof.Machine
end

section
/-! SUPPORT. The rows of the re-encryption steps: in turn, out of turn, and after a reset (12 R368 to R370). -/

namespace Sys2Proof.Machine

variable {d : Dev}

theorem exec_reencryptStep (n k : Nat) (s : State) : exec (.reencryptStep n k) s = s.after fun d => d.reencryptStep n k := rfl

theorem exec_forcedStep (a : Nat) (s : State) : exec (.forcedStep a) s = s.after fun d => d.stepForced a := rfl

theorem exec_stepBufferRecovery (k : Nat) (s : State) :
    exec (.stepBufferRecovery k) s = s.after fun d => d.stepBufferRecovery k := rfl

/-! ### A step -/

theorem Dev.takeStep_of_other {n : Nat} (h : (d.region n).st ≠ .reencrypting) (i : Nat) : d.takeStep n i = d := if_pos (.inl h)

theorem Dev.stepTaken_takeStep {n i : Nat} (hst : (d.region n).st = .reencrypting) (ht : (d.region n).taken.contains i = false)
    (hi : i < (d.region n).granules * 32) (hk : d.keyValid (d.regionPart n) (d.region n).key = true) :
    d.StepTaken n i 0 (d.takeStep n i) := by
  have htake : d.takeStep n i = (d.stepHeld n i (d.stackOf (((d.region n).base + i / 32) * granuleBytes))).drainBuf
      (d.stackOf (((d.region n).base + i / 32) * granuleBytes)) (d.stepBuf n i) :=
    if_neg (by rw [ht, hk]; simp [hst, hi])
  rw [htake]
  exact Dev.stepTaken_drainBuf hst _

/-! ### In turn (R368) -/

theorem Dev.nextStep_of_some {x : Region} {k i : Nat} (h : d.nextStep x k = some i) : i < x.granules * 32 ∧ x.taken.contains i = false := by
  have hmem := List.mem_of_find?_eq_some h
  have hnext := List.find?_some h
  simp only [Bool.and_eq_true, Bool.not_eq_true'] at hnext
  exact ⟨List.mem_range.1 hmem, hnext.1⟩

section
variable {n k : Nat} (hs : d.serving = true) (hb : d.power.stepBufs.contains k = false) (hu : d.unready .stack k = false)
  (hf : d.fenced .stack k = false) (hv : d.fenced .selvedge k = false)
include hs hb hu hf hv

theorem Dev.reencryptStep_of_next {i : Nat} (h : d.nextStep (d.region n) k = some i) : d.reencryptStep n k = d.takeStep n i := by
  unfold Dev.reencryptStep
  rw [hs, hb, hu, hf, hv, h]
  rfl

theorem Dev.reencryptStep_of_none (h : d.nextStep (d.region n) k = none) : d.reencryptStep n k = d := by
  unfold Dev.reencryptStep
  rw [hs, hb, hu, hf, hv, h]
  rfl

theorem Dev.reencryptStep_of_other (h : (d.region n).st ≠ .reencrypting) : d.reencryptStep n k = d := by
  cases hn : d.nextStep (d.region n) k with
  | none => exact Dev.reencryptStep_of_none hs hb hu hf hv hn
  | some i => exact (Dev.reencryptStep_of_next hs hb hu hf hv hn).trans (Dev.takeStep_of_other h i)

end

/-! ### Out of turn (R369) -/

theorem Dev.stepForced_of_none {a : Nat} (h : d.regionOf a = none) : d.stepForced a = d := by
  unfold Dev.stepForced
  rw [h]

theorem Dev.stepForced_of_region {a n : Nat} (h : d.regionOf a = some n) (hs : d.servingIn (d.regionPart n) = true) :
    d.stepForced a = d.forceStep n (a / 128) := by
  unfold Dev.stepForced
  rw [h]
  exact if_pos hs

theorem Dev.forceStep_of_taken {n l : Nat} (h : (d.region n).st ≠ .reencrypting ∨ (d.region n).taken.contains ((d.region n).stepOf l) = true) :
    d.forceStep n l = d := if_neg (by rcases h with h | h <;> simp_all)

theorem Dev.forceStep_of_untaken {n l : Nat} (hst : (d.region n).st = .reencrypting)
    (ht : (d.region n).taken.contains ((d.region n).stepOf l) = false) :
    d.forceStep n l = (d.takeStep n ((d.region n).stepOf l)).bump 0x10040 1 := if_pos ⟨hst, by rw [ht]; rfl⟩

/-! ### After a reset (R370) -/

/-- Stack `k` has no step buffer to recover any more. -/
def Dev.bufsRecovered (d : Dev) (k : Nat) : Dev :=
  { d with power := { d.power with stepBufs := d.power.stepBufs.filter (· ≠ k) } }

theorem Dev.stepBufferRecovery_of_due {k : Nat} (hs : d.serving = true) (hu : d.unready .stack k = false) (hk : k ∈ d.power.stepBufs) :
    d.stepBufferRecovery k = (d.stepBufs k).foldl (fun d b => d.drainBuf k b) (d.bufsRecovered k) :=
  if_neg (by simp [hs, hu, hk])

/-- The one buffer of a stack that is recovered. -/
theorem Dev.recovered_drainBuf {k : Nat} {b : StepBuf} (hb : d.stepBufs k = [b]) :
    ((d.bufsRecovered k).drainBuf k b).stepBufs k = [] ∧ ((d.bufsRecovered k).drainBuf k b).mem = d.mem ∧
      ((d.region b.num).st = .reencrypting → ((d.bufsRecovered k).drainBuf k b).reg 0x10038 = d.reg 0x10038 + 1 ∧
        ((((d.bufsRecovered k).drainBuf k b).region b.num).taken.contains b.step = true ∨
          (((d.bufsRecovered k).drainBuf k b).region b.num).taken = [])) := by
  have hbufs : (d.bufsRecovered k).stepBufs k = [b] := hb
  refine ⟨?_, Dev.mem_drainBuf .., fun h => ⟨?_, Dev.taken_drainBuf (d := d.bufsRecovered k) h⟩⟩
  · rw [Dev.stepBufs_drainBuf, hbufs, List.erase_cons_head]
  · exact (Dev.reg_drainBuf (d := d.bufsRecovered k) h (by decide)).trans (if_pos rfl)

end Sys2Proof.Machine
end

section
/-! SUPPORT. Patrol (12 R374, R375, R377): what a read of a line counts and marks, and the count of a corrected line against its stack
once the step is settled (09 R275). -/

namespace Sys2Proof.Machine

variable {d : Dev}

theorem exec_patrolRead (a : Nat) (f : LineFound) (s : State) : exec (.patrolRead a f) s = s.after fun d => d.patrol a f := rfl

theorem Dev.patrol_of_other {a : Nat} (f : LineFound)
    (h : d.regionOf a = none ∨ d.populated a = false ∨ ∀ n, d.regionOf a = some n → (d.region n).st ≠ .live) : d.patrol a f = d := by
  unfold Dev.patrol
  split
  · next n hn =>
    refine if_neg ?_
    rintro ⟨-, hp, hl⟩
    rcases h with h | h | h
    · exact absurd (hn.symm.trans h) (Option.some_ne_none n)
    · exact absurd (h.symm.trans hp) Bool.false_ne_true
    · exact h n hn hl
  · rfl

/-- A patrol read of line `l` is counted. -/
def Dev.patrolled (d : Dev) (l : Nat) : Dev := (d.bump 0x10050 1).touch l

theorem Dev.reg_patrolled (l x : Nat) : (d.patrolled l).reg x = if x = 0x10050 then d.reg 0x10050 + 1 else d.reg x :=
  Dev.reg_bump d 0x10050 1 x

theorem Dev.reg_patrolled_ne (l : Nat) {x : Nat} (h : x ≠ 0x10050) : (d.patrolled l).reg x = d.reg x :=
  (Dev.reg_patrolled l x).trans (if_neg h)

theorem Dev.patrol_of_live {a n : Nat} (f : LineFound) (hr : d.regionOf a = some n) (hs : d.servingIn (d.regionPart n) = true)
    (hp : d.populated a = true) (hl : (d.region n).st = .live) : d.patrol a f = (d.patrolled (a / 128)).patrolFinds n (a / 128) f := by
  unfold Dev.patrol
  rw [hr]
  exact if_pos ⟨hs, hp, hl⟩

/-- Line `l` of region `n` as patrol judges it: under the key and secret that it was written with. -/
def Dev.lineFails (d : Dev) (n l : Nat) : Bool :=
  (d.lineMeta (d.region n) l).failsUnder (d.region n) l (d.lineMeta (d.region n) l).key (d.key (d.lineMeta (d.region n) l).key).secret

theorem Dev.patrolFinds_of_failing {n l : Nat} (h : d.lineFails n l = true) (f : LineFound) :
    d.patrolFinds n l f = d.badLine n l (d.regionPart n) (d.lineMeta (d.region n) l).key
      ((d.lineMeta (d.region n) l).bad && (d.lineMeta (d.region n) l).ecc) true := if_pos h

theorem Dev.patrolFinds_of_passing {n l : Nat} (h : d.lineFails n l = false) (f : LineFound) :
    d.patrolFinds n l f = (d.meetLine n l (d.regionPart n) (d.lineMeta (d.region n) l).key (if f = .good then d.latent l else f) true).1 :=
  if_neg (by rw [Dev.lineFails] at h; simp [h])

theorem Dev.patrolFinds_rest (n l : Nat) (f : LineFound) :
    (d.patrolFinds n l f).mem = d.mem ∧ (d.patrolFinds n l f).reg 0x10050 = d.reg 0x10050 := by
  cases h : d.lineFails n l with
  | true =>
    rw [Dev.patrolFinds_of_failing h]
    refine ⟨Dev.mem_badLine .., (Dev.reg_badLine_high _ _ _ _ _ _ (by decide)).trans (if_neg ?_)⟩
    split <;> decide
  | false =>
    rw [Dev.patrolFinds_of_passing h]
    exact ⟨Dev.mem_meetLine .., Dev.reg_meetLine_above _ _ _ _ _ _ ⟨by decide, by decide⟩⟩

/-- What a patrol read of a line of a live region leaves to be settled: no byte changes and the read is counted. -/
theorem exec_patrolRead_live {s : State} {a n : Nat} (f : LineFound) (hr : s.dev.regionOf a = some n)
    (hs : s.dev.servingIn (s.dev.regionPart n) = true) (hp : s.dev.populated a = true) (hl : (s.dev.region n).st = .live) {e : Dev}
    (he : (s.dev.patrolled (a / 128)).patrolFinds n (a / 128) f = e) :
    exec (.patrolRead a f) s = .next (s.withDev e.settle) ∧ e.mem = s.dev.mem ∧ e.reg 0x10050 = s.dev.reg 0x10050 + 1 := by
  obtain ⟨hmem, hreg⟩ := (s.dev.patrolled (a / 128)).patrolFinds_rest n (a / 128) f
  subst he
  exact ⟨exec_of_effect (exec_patrolRead ..) (Dev.patrol_of_live f hr hs hp hl), hmem, hreg.trans ((Dev.reg_patrolled ..).trans (if_pos rfl))⟩

/-! ### Lines met -/

/-- A line that fails already is counted again by its cause (R375). -/
theorem Dev.badLine_leaves (n l c k : Nat) (ecc p : Bool) : (d.badLine n l c k ecc p).lines = d.lines ∧
    (d.badLine n l c k ecc p).region n = { d.region n with bad := (d.region n).bad + 1 } ∧
    (d.badLine n l c k ecc p).reg (if ecc then 0x10020 else 0x10028) = d.reg (if ecc then 0x10020 else 0x10028) + 1 := by
  have hnoted : (d.badCounted n).Noted (d.badLine n l c k ecc p) := d.noted_badLine n l c k ecc p
  refine ⟨hnoted.lines, ?_, (Dev.reg_badLine_high _ _ _ _ _ _ ?_).trans (if_pos rfl)⟩
  · rw [Dev.region_congr hnoted.regions, Dev.badCounted, Dev.region_setRegion, if_pos rfl]
  · split <;> decide

/-- A line found bad is marked by its cause, and counted by it. -/
def Dev.lineMarked (d : Dev) (n l : Nat) (ecc : Bool) (f : Dev) : Prop :=
  f.reg (if ecc then 0x10020 else 0x10028) = d.reg (if ecc then 0x10020 else 0x10028) + 1 ∧
    f.region n = { d.region n with bad := (d.region n).bad + 1 } ∧
    Sparse.get (fun _ => none) f.lines l = some { d.lineMeta (d.region n) l with bad := true, ecc := ecc }

theorem Dev.lineMarked.of_patrolled {n l j : Nat} {ecc : Bool} {f : Dev} (h : (d.patrolled j).lineMarked n l ecc f) :
    d.lineMarked n l ecc f := by
  obtain ⟨hreg, hregion, hline⟩ := h
  refine ⟨hreg.trans ?_, hregion, hline⟩
  rw [Dev.reg_patrolled_ne]
  split <;> decide

theorem Dev.lineMarked_badLine (n l c k : Nat) (ecc p : Bool) :
    d.lineMarked n l ecc (((d.setLatent l .good).markedLine n l ecc).badLine n l c k ecc p) := by
  obtain ⟨hlines, hregion, hreg⟩ := ((d.setLatent l .good).markedLine n l ecc).badLine_leaves n l c k ecc p
  refine ⟨hreg, hregion, ?_⟩
  rw [hlines]
  exact Dev.line_setLine ..

theorem Dev.lineMarked_badEcc (n l c k : Nat) (p : Bool) : d.lineMarked n l true (d.meetLine n l c k .badEcc p).1 :=
  Dev.lineMarked_badLine n l c k true p

theorem Dev.lineMarked_badMac {n : Nat} (h : (d.region n).key ≠ 0) (l c k : Nat) (p : Bool) :
    d.lineMarked n l false (d.meetLine n l c k .badMac p).1 := by
  have hmeet : d.meetLine n l c k .badMac p = (((d.setLatent l .good).markedLine n l false).badLine n l c k false p, false) := if_neg h
  rw [hmeet]
  exact Dev.lineMarked_badLine n l c k false p

/-- An open region has no MAC to fail (R356). -/
theorem Dev.meetLine_badMac_open {n : Nat} (h : (d.region n).key = 0) (l c k : Nat) (p : Bool) :
    d.meetLine n l c k .badMac p = (d, true) := if_pos h

theorem Dev.meetLine_retried (n l c k : Nat) (p : Bool) : (d.meetLine n l c k .retried p).1.reg 0x10018 = d.reg 0x10018 + 1 ∧
    (d.meetLine n l c k .retried p).1.lines = d.lines :=
  ⟨(Dev.reg_record_one _ _ _ _ _ (by decide)).trans ((Dev.reg_bump ..).trans (if_pos rfl)), (Dev.noted_record ..).lines⟩

theorem Dev.meetLine_corrected (n l c k b : Nat) (p : Bool) :
    (d.meetLine n l c k (.corrected b) p).1.reg 0x10010 = d.reg 0x10010 + 1 ∧ (d.meetLine n l c k (.corrected b) p).1.lines = d.lines :=
  ⟨(Dev.reg_record_one _ _ _ _ _ (by decide)).trans ((Dev.reg_bump ..).trans (if_pos rfl)),
    (Dev.noted_record ((d.setLatent l .good).bump 0x10010 1) ..).lines⟩

/-! ### A corrected line is counted against its stack -/

/-- `e` owes the count of one corrected line of stack `k` and nothing else; units and clock are those of `d`. -/
structure Dev.OwesLine (k : Nat) (d e : Dev) : Prop where
  sigsDue : e.sigsDue = []
  stopsDue : e.stopsDue = []
  fatalDue : e.fatalDue = false
  errs : e.sv.errs = [k]
  units : e.units = d.units
  timePs : e.timePs = d.timePs

theorem Dev.owesLine_corrected (hq : d.quiet = true) (n l c k b : Nat) (p : Bool) :
    d.OwesLine (d.stackOf (128 * l)) (d.meetLine n l c k (.corrected b) p).1 := by
  obtain ⟨hsigs, hstops, hfatal, herrs⟩ := d.quiet_iff.1 hq
  constructor <;> simp [Dev.meetLine, Dev.setLatent, hsigs, hstops, hfatal, herrs]

theorem Dev.settleFrom_of_quiet (h : d.quiet = true) (n : Nat) : Dev.settleFrom (n + 1) d = d := by
  obtain ⟨hsigs, hstops, hfatal, herrs⟩ := d.quiet_iff.1 h
  simp only [Dev.settleFrom, hsigs, hstops, herrs, hfatal, Bool.false_eq_true, if_false]

theorem Dev.OwesLine.settleFrom {k : Nat} {e : Dev} (h : d.OwesLine k e) (n : Nat) :
    Dev.settleFrom (n + 1) e = Dev.settleFrom n (e.countLine k []) := by
  simp only [Dev.settleFrom, h.sigsDue, h.stopsDue, h.errs]

theorem Dev.OwesLine.settle {k : Nat} {e : Dev} (h : d.OwesLine k e) (hq : (e.countLine k []).quiet = true) :
    e.settle = e.countLine k [] := by
  have hnot : e.quiet = false := by simp [Dev.quiet, h.errs]
  have hbound : 4096 + e.sigsDue.length + e.stopsDue.length + e.sv.errs.length = 4095 + 1 + 1 := by
    rw [h.sigsDue, h.stopsDue, h.errs]
    rfl
  rw [Dev.settle, hnot, hbound]
  exact (h.settleFrom _).trans (Dev.settleFrom_of_quiet hq _)

/-- Up to the 16th of an hour a corrected line is counted and fences no stack. -/
theorem Dev.OwesLine.corrected {k : Nat} {e : Dev} (h : d.OwesLine k e) (hn : d.correctedNow .stack k ≤ 16) :
    (e.settle.unit .stack k).corrected = d.correctedNow .stack k := by
  have hcount : e.countLine k [] = { e with sv := { e.sv with errs := [] } }.setUnit .stack k
      { d.unit .stack k with hour := d.hour, corrected := d.correctedNow .stack k } := by
    have hunit : ({ e with sv := { e.sv with errs := [] } } : Dev).unit .stack k = d.unit .stack k := Dev.unit_congr h.units _ _
    have hhour : ({ e with sv := { e.sv with errs := [] } } : Dev).hour = d.hour := by
      show e.timePs / 1000 / _ = _
      rw [h.timePs]
      rfl
    unfold Dev.countLine Dev.countCorrected
    dsimp only
    rw [hunit, hhour]
    exact if_neg (Nat.not_lt.2 hn)
  rw [h.settle ((Dev.quiet_iff _).2 (by rw [hcount]; exact ⟨h.sigsDue, h.stopsDue, h.fatalDue, rfl⟩)), hcount, Dev.unit_setUnit]

/-- An address and the start of its line lie on one stack. -/
theorem Dev.stackOf_line (a : Nat) : d.stackOf (128 * (a / 128)) = d.stackOf a := by
  unfold Dev.stackOf Dev.window granuleBytes
  rcases d.parts_cases with h | h | h <;> rw [h] <;> omega

theorem Dev.stackOf_patrolled (l a : Nat) : (d.patrolled l).stackOf a = d.stackOf a := by
  have hparts : (d.patrolled l).parts = d.parts := Dev.parts_of_reg (Dev.reg_patrolled_ne l (by decide))
  rw [Dev.stackOf, Dev.window, hparts]
  rfl

/-! ### Patrol of a line that passes -/

section
variable {s : State} {a n : Nat} (hr : s.dev.regionOf a = some n) (hs : s.dev.servingIn (s.dev.regionPart n) = true)
  (hp : s.dev.populated a = true) (hl : (s.dev.region n).st = .live) (hpass : s.dev.lineFails n (a / 128) = false)
include hr hs hp hl hpass

/-- The row told of a find other than a good line: the line of the counted read is met with it. -/
theorem exec_patrolRead_found {f : LineFound} (hf : f ≠ .good) : ∃ c k e,
    ((s.dev.patrolled (a / 128)).meetLine n (a / 128) c k f true).1 = e ∧
      exec (.patrolRead a f) s = .next (s.withDev e.settle) ∧ e.mem = s.dev.mem ∧ e.reg 0x10050 = s.dev.reg 0x10050 + 1 := by
  have hpassed : (s.dev.patrolled (a / 128)).lineFails n (a / 128) = false := hpass
  have hfinds := Dev.patrolFinds_of_passing hpassed f
  rw [if_neg hf] at hfinds
  exact ⟨_, _, _, hfinds.symm, exec_patrolRead_live f hr hs hp hl rfl⟩

/-- The row told of nothing: with no error in store the read is counted and no more. -/
theorem exec_patrolRead_good (hgood : s.dev.latent (a / 128) = .good) :
    exec (.patrolRead a .good) s = .next (s.withDev (s.dev.patrolled (a / 128)).settle) ∧
      (s.dev.patrolled (a / 128)).mem = s.dev.mem ∧ (s.dev.patrolled (a / 128)).reg 0x10050 = s.dev.reg 0x10050 + 1 := by
  have hpassed : (s.dev.patrolled (a / 128)).lineFails n (a / 128) = false := hpass
  refine exec_patrolRead_live .good hr hs hp hl ?_
  rw [Dev.patrolFinds_of_passing hpassed, if_pos rfl, show (s.dev.patrolled (a / 128)).latent (a / 128) = .good from hgood]
  rfl

end

/-- The row at a line marked bad: it is counted again by its cause. -/
theorem exec_patrolRead_bad {s : State} {a n : Nat} (f : LineFound) (hr : s.dev.regionOf a = some n)
    (hs : s.dev.servingIn (s.dev.regionPart n) = true) (hp : s.dev.populated a = true) (hl : (s.dev.region n).st = .live)
    (hbad : (s.dev.lineMeta (s.dev.region n) (a / 128)).bad = true) : ∃ c k e,
    (s.dev.patrolled (a / 128)).badLine n (a / 128) c k (s.dev.lineMeta (s.dev.region n) (a / 128)).ecc true = e ∧
      exec (.patrolRead a f) s = .next (s.withDev e.settle) ∧ e.mem = s.dev.mem ∧ e.reg 0x10050 = s.dev.reg 0x10050 + 1 := by
  have hfails : (s.dev.patrolled (a / 128)).lineFails n (a / 128) = true := Bool.or_eq_true_iff.2 (.inl hbad)
  have hmeta : ((s.dev.patrolled (a / 128)).lineMeta ((s.dev.patrolled (a / 128)).region n) (a / 128)).bad = true := hbad
  have hfinds := Dev.patrolFinds_of_failing hfails f
  rw [hmeta, Bool.true_and] at hfinds
  exact ⟨_, _, _, hfinds.symm, exec_patrolRead_live f hr hs hp hl rfl⟩

end Sys2Proof.Machine
end

section
/-! Re-encryption steps and patrol (12 R368 to R370, R373 to R377). -/

namespace Sys2Proof

open Sys2Proof.Machine

/-- Settles O48: a step's lines are those of its buffer, which lists each as re-encrypted; the end of a re-encryption touches neither
bytes nor lines. Patrol is the read of one line, judged under the key that it was written with. -/
theorem stepsAndPatrol : Obligations.StepsAndPatrol := by
  unfold Obligations.StepsAndPatrol
  intro s hq
  dsimp only
  refine ⟨fun n k hs hb hu hf hv => ⟨fun h => ?noStep, fun h => ?notReencrypting, fun i h hst hk => ?step⟩,
    fun a => ⟨fun h => ?noRegion, fun n hr hs => ⟨fun h => ?stepStands, fun hst ht hi hk => ?forced⟩⟩,
    fun k hs hu => ⟨fun hk hb => ?noBuffer, fun b hk hb => ?buffer⟩, fun a f h => ?elsewhere,
    fun a n hr hs hp hl => ⟨fun hbad f => ?bad, fun hpass => ⟨fun hgood => ?good, fun b hn => ?corrected, ?retried, ?badEcc, fun hk => ?badMac,
      fun hk => ?openMac⟩⟩⟩
  case noStep => exact exec_of_idle hq (exec_reencryptStep ..) (Dev.reencryptStep_of_none hs hb hu hf hv h)
  case notReencrypting => exact exec_of_idle hq (exec_reencryptStep ..) (Dev.reencryptStep_of_other hs hb hu hf hv h)
  case step =>
    obtain ⟨hi, ht⟩ := Dev.nextStep_of_some h
    have htaken := Dev.stepTaken_takeStep hst ht hi hk
    exact ⟨_, exec_of_effect (exec_reencryptStep ..) (Dev.reencryptStep_of_next hs hb hu hf hv h), htaken.mem, htaken.taken,
      htaken.forced, htaken.inside, htaken.outside, htaken.sound⟩
  case noRegion => exact exec_of_idle hq (exec_forcedStep ..) (Dev.stepForced_of_none h)
  case stepStands => exact exec_of_idle hq (exec_forcedStep ..) ((Dev.stepForced_of_region hr hs).trans (Dev.forceStep_of_taken h))
  case forced =>
    have htaken := (Dev.stepTaken_takeStep hst ht hi hk).bump
    exact ⟨_, exec_of_effect (exec_forcedStep ..) ((Dev.stepForced_of_region hr hs).trans (Dev.forceStep_of_untaken hst ht)), htaken.mem,
      htaken.taken, htaken.forced, htaken.inside, htaken.outside, htaken.sound⟩
  case noBuffer =>
    refine exec_of_dues hq (exec_stepBufferRecovery ..) ((Dev.stepBufferRecovery_of_due hs hu hk).trans ?_) rfl
    rw [hb]
    rfl
  case buffer =>
    refine ⟨_, exec_of_effect (exec_stepBufferRecovery ..) ((Dev.stepBufferRecovery_of_due hs hu hk).trans ?_), Dev.recovered_drainBuf hb⟩
    rw [hb]
    rfl
  case elsewhere => exact exec_of_idle hq (exec_patrolRead ..) (Dev.patrol_of_other f h)
  case bad =>
    obtain ⟨c, k, e, rfl, hread⟩ := exec_patrolRead_bad f hr hs hp hl hbad
    obtain ⟨hlines, -, hreg⟩ := (s.dev.patrolled (a / 128)).badLine_leaves n (a / 128) c k
      (s.dev.lineMeta (s.dev.region n) (a / 128)).ecc true
    refine ⟨_, hread, hlines, ?_⟩
    rw [hreg, Dev.reg_patrolled_ne]
    split <;> decide
  case good => exact ⟨_, exec_patrolRead_good hr hs hp hl hpass hgood, rfl, rfl⟩
  case corrected =>
    obtain ⟨c, k, e, rfl, hread⟩ := exec_patrolRead_found hr hs hp hl hpass (f := .corrected b) (by simp)
    obtain ⟨hreg, hlines⟩ := (s.dev.patrolled (a / 128)).meetLine_corrected n (a / 128) c k b true
    have howes := Dev.owesLine_corrected (d := s.dev.patrolled (a / 128)) hq n (a / 128) c k b true
    rw [Dev.stackOf_patrolled, Dev.stackOf_line] at howes
    have hle : s.dev.correctedNow .stack (s.dev.stackOf a) ≤ 16 := by
      unfold Dev.correctedNow
      split <;> omega
    exact ⟨_, hread, by rw [hreg, Dev.reg_patrolled_ne _ (by decide)], hlines, howes.corrected hle⟩
  case retried =>
    obtain ⟨c, k, e, rfl, hread⟩ := exec_patrolRead_found hr hs hp hl hpass (f := .retried) (by simp)
    obtain ⟨hreg, hlines⟩ := (s.dev.patrolled (a / 128)).meetLine_retried n (a / 128) c k true
    exact ⟨_, hread, by rw [hreg, Dev.reg_patrolled_ne _ (by decide)], hlines⟩
  case badEcc =>
    obtain ⟨c, k, e, rfl, hread⟩ := exec_patrolRead_found hr hs hp hl hpass (f := .badEcc) (by simp)
    obtain ⟨hreg, hmarked⟩ := ((s.dev.patrolled (a / 128)).lineMarked_badEcc n (a / 128) c k true).of_patrolled
    exact ⟨_, hread, hreg, hmarked⟩
  case badMac =>
    obtain ⟨c, k, e, rfl, hread⟩ := exec_patrolRead_found hr hs hp hl hpass (f := .badMac) (by simp)
    obtain ⟨hreg, hmarked⟩ := (Dev.lineMarked_badMac (d := s.dev.patrolled (a / 128)) hk (a / 128) c k true).of_patrolled
    exact ⟨_, hread, hreg, hmarked⟩
  case openMac =>
    obtain ⟨c, k, e, he, hread⟩ := exec_patrolRead_found hr hs hp hl hpass (f := .badMac) (by simp)
    rw [Dev.meetLine_badMac_open (d := s.dev.patrolled (a / 128)) hk] at he
    subst he
    exact ⟨_, hread, rfl, rfl⟩

end Sys2Proof
end

section
/-! SUPPORT. Chunks of mailbox commands (13 R410) whose `OP` is reserved (00 R14). -/

namespace Sys2Proof.Machine

theorem exec_mailboxChunk (v : BitVec 32) (s : State) : exec (.mailboxChunk v) s = s.after fun d => d.chunk v.toNat := rfl

/-- An entry of class C0 does not go to the life log. -/
@[simp] theorem Dev.life_record_zero (d : Dev) (k : Nat) (u : UnitType) (i : Nat) (p : Option Nat) (x : Nat) :
    (d.record 0 k u i p x).life = d.life := by
  have hvectors (a : Dev) (e : LogEntry) : (a.entryVectors e).life = a.life := by
    unfold Dev.entryVectors
    split <;> split <;> simp
  have hcount (a : Dev) (c q : Nat) : (a.entryCount c q).life = a.life := by
    unfold Dev.entryCount
    (repeat' split) <;> simp
  have hpart (a : Dev) (e : LogEntry) : (a.entryPart e).life = a.life := by
    unfold Dev.entryPart
    (repeat' split) <;> simp [hcount]
  simp [Dev.record, Dev.logged, Dev.afterEntry, Dev.entryLife, Dev.entryDue, Dev.newEntry, hvectors, hpart]

/-- A reserved `OP` is recorded also where nothing is delivered: without `GO`, or with the RTP down. -/
theorem Dev.chunk_of_reserved {d : Dev} {v : Nat} (hw : d.takesWrite 0xC008) (hb : d.rtp.busy = false)
    (hstay : d.rtpUp = false ∨ bit v 31 = false) (h0 : bits v 0 8 ≠ 0) (hop : mailOpcodes.contains (bits v 0 8) = false) :
    d.chunk v = (d.setFld 0xC008 0 26 (d.chunkValue v)).record 0 0x0001 .register (0xC008 / 4) none v := by
  have hres : (!(decide (bits v 0 8 = 0) || mailOpcodes.contains (bits v 0 8))) = true := by rw [hop, decide_eq_false h0]; rfl
  have hup : ((d.setFld rtCmdReg 0 26 (d.chunkValue v)).recordReg 0x0001 rtCmdReg v).rtpUp = d.rtpUp := by
    simp [Dev.rtpUp, Dev.on, Dev.recordReg]
  unfold Dev.chunk
  refine (Dev.onWrite_of_takesWrite d hw v _).trans ?_
  dsimp only
  rw [if_neg (by simp [hb]), if_pos hres, if_pos (by rw [hup]; simpa using hstay)]
  rfl

/-- Such a write leaves one entry more in the log. -/
theorem seq_of_reservedChunk {s t : State} {v : BitVec 32} (hq : s.dev.quiet = true) (hw : s.dev.takesWrite 0xC008)
    (hb : s.dev.rtp.busy = false) (hstay : s.dev.rtpUp = false ∨ bit v.toNat 31 = false) (h0 : bits v.toNat 0 8 ≠ 0)
    (hop : mailOpcodes.contains (bits v.toNat 0 8) = false) (h : exec (.mailboxChunk v) s = .next t) :
    t.dev.log.seq = s.dev.log.seq + 1 := by
  have hreal := exec_of_quiet (exec_mailboxChunk v s) (Dev.chunk_of_reserved hw hb hstay h0 hop) hq (by simp) (by simp) (by simp) (by simp)
  cases hreal.symm.trans h
  simp

/-- The state after reset takes the write of `RT_CMD`, and its RTP is not up. -/
theorem State.reset_takesChunk : State.reset.dev.quiet = true ∧ State.reset.dev.takesWrite 0xC008 ∧ State.reset.dev.rtp.busy = false ∧
    State.reset.dev.rtpUp = false := by
  unfold Dev.takesWrite
  decide +kernel

end Sys2Proof.Machine
end

section
namespace Sys2Proof
open Sys2Proof.Machine

/-- Refutes O55: a write of `RT_CMD` with a reserved `OP` adds entry 0x0001 (00 R14), whether or not a chunk is delivered; the clause on
a write that delivers none has the field set and nothing else. After reset, with `OP` 0xFF and without `GO`, the log grows. -/
theorem not_rtpMessages : ¬ Obligations.RtpMessages := by
  intro h
  obtain ⟨hq, hw, hb, hup⟩ := State.reset_takesChunk
  obtain ⟨hchunk, -⟩ := h State.reset hq
  have hclaim := (hchunk 0xFF hw).2.1 hb (.inl hup)
  have hseq := seq_of_reservedChunk hq hw hb (.inl hup) (by decide) (by decide) hclaim
  simp only [Dev.setFld_rest] at hseq
  exact Nat.succ_ne_self _ hseq.symm

end Sys2Proof
end

section
/-! SUPPORT. SPDM (13 R395, R396; 11 R333): when the RTP answers a request, and with what. -/

namespace Sys2Proof.Machine

variable (s : State)

theorem exec_getVersion : exec .getVersion s = s.after fun d => d.spdmVersionRow s.fuses.lc := rfl

theorem exec_getCapabilities : exec .getCapabilities s = s.after fun d => d.spdmCapabilitiesRow s.fuses.lc := rfl

theorem exec_negotiateAlgorithms : exec .negotiateAlgorithms s = s.after fun d => d.spdmNegotiateRow s.fuses.lc := rfl

theorem exec_getDigests : exec .getDigests s = s.after fun d => d.spdmDigestsRow s.fuses.lc := rfl

theorem exec_getCertificate : exec .getCertificate s = s.after fun d => d.spdmCertificateRow s.fuses.lc := rfl

theorem exec_challenge (nonce : Nat) : exec (.challenge nonce) s = s.after fun d => d.spdmChallengeRow s.fuses.lc nonce := rfl

theorem exec_getMeasurements (nonce : Nat) :
    exec (.getMeasurements nonce) s = s.after fun d => d.spdmMeasurementsRow s.fuses.lc nonce := rfl

theorem exec_keyExchange : exec .keyExchange s = s.after fun d => d.spdmKeyExchangeRow s.fuses.lc := rfl

theorem exec_finish (ok : Bool) : exec (.finish ok) s = s.after fun d => d.spdmFinishRow s.fuses.lc ok := rfl

theorem exec_endSession : exec .endSession s = s.after fun d => d.spdmEndRow s.fuses.lc := rfl

theorem exec_ideKm (cache : Bool) (n : Nat) (install : Bool) :
    exec (.ideKm cache n install) s = s.after fun d => d.ideKm s.fuses.lc cache n install := rfl

/-! ### When a request is served -/

/-- The RTP is up, and SPDM is enabled over I3C or over data object exchange. -/
def Dev.spdmUp (d : Dev) : Prop := d.rtpUp = true ∧ (d.fld 0xC000 0 1 ≠ 0 ∨ d.fld 0xC000 1 1 ≠ 0)

section
variable {d : Dev} {lc : LifeCycle} {ready : Bool} {f : Dev → Dev}

theorem Dev.spdm_of_down (h : ¬ d.spdmUp) : d.spdm lc ready f = d := by
  refine if_pos ?_
  by_contra hn
  simp only [not_or, not_and_or, Bool.not_eq_true', Bool.not_eq_false] at hn
  exact h hn

theorem Dev.spdm_of_up (h : d.spdmUp) :
    d.spdm lc ready f = if d.life.recovery ∨ lc = .blank ∨ !ready then d.spdmSay 0x7F [] else f d := by
  obtain ⟨hup, hport⟩ := h
  refine if_neg ?_
  simp only [not_or, not_and_or, hup]
  exact ⟨by decide, hport⟩

theorem Dev.spdm_of_refused (h : d.spdmUp) (hr : d.life.recovery = true ∨ lc = .blank ∨ ready = false) :
    d.spdm lc ready f = d.spdmSay 0x7F [] :=
  (Dev.spdm_of_up h).trans (if_pos (by simpa using hr))

theorem Dev.spdm_of_served (h : d.spdmUp) (hrec : d.life.recovery = false) (hlc : lc ≠ .blank) (hr : ready = true) :
    d.spdm lc ready f = f d :=
  (Dev.spdm_of_up h).trans (if_neg (by simp [hrec, hlc, hr]))

end

/-! ### What an answer leaves -/

/-- `e` is `d` with one response more, of code `code`; keys, jobs, memory, the log and what is due are as before. -/
def Dev.Responds (d : Dev) (code : Nat) (e : Dev) : Prop :=
  ∃ data, e.rtp.spdmOut = d.rtp.spdmOut ++ [(code, data)] ∧ d.sameKeys e ∧ e.log = d.log ∧ e.dues = d.dues

/-- A response to a device that differs from `d` in the exchange's own state, IDE streams and free values. -/
theorem Dev.responds_say {d e : Dev} (hout : e.rtp.spdmOut = d.rtp.spdmOut) (hkeys : d.sameKeys e) (hlog : e.log = d.log)
    (hdues : e.dues = d.dues) (code : Nat) (data : List Nat) : d.Responds code (e.spdmSay code data) :=
  ⟨data, congrArg (· ++ [(code, data)]) hout, hkeys, hlog, hdues⟩

theorem Dev.sameKeys_refl (d : Dev) : d.sameKeys d := ⟨rfl, rfl, rfl, rfl, rfl, rfl, rfl⟩

/-- The certificate's rows: without a certificate an error response. -/
theorem Dev.responds_certificate (d : Dev) (lc : LifeCycle) (code c : Nat) :
    d.Responds (if d.hasCert lc then code else 0x7F)
      (if d.draw.2.hasCert lc then d.draw.2.spdmSay code [c] else d.draw.2.spdmSay 0x7F [0x0B]) := by
  have hcert : d.draw.2.hasCert lc = d.hasCert lc := rfl
  rw [hcert]
  split
  · exact Dev.responds_say rfl d.sameKeys_refl rfl rfl code _
  · exact Dev.responds_say rfl d.sameKeys_refl rfl rfl 0x7F _

/-- Command `c` is an SPDM request that may come where `ready`, and is answered with code `code`. -/
def SpdmRequest (s : State) (x : Instr × Bool × Nat) : Prop :=
  ∃ f g, exec x.1 s = s.after f ∧ f s.dev = s.dev.spdm s.fuses.lc x.2.1 g ∧ s.dev.Responds x.2.2 (g s.dev)

/-- The requests of an SPDM exchange (13 R395): where each may come, and the code of its answer. -/
def spdmRequests (d : Dev) (lc : LifeCycle) (nonce n : Nat) (b i ok : Bool) : List (Instr × Bool × Nat) :=
  let neg := d.rtp.spdmNegotiated
  let signs := neg && d.rtp.rsPresent && !d.rtp.tampered
  [(.getVersion, true, 0x04), (.getCapabilities, d.rtp.spdmVersion, 0x61), (.negotiateAlgorithms, d.rtp.spdmVersion, 0x63),
   (.getDigests, neg, if d.hasCert lc then 0x01 else 0x7F), (.getCertificate, neg, if d.hasCert lc then 0x02 else 0x7F),
   (.challenge nonce, signs, 0x03), (.getMeasurements nonce, signs, 0x60), (.keyExchange, signs, 0x64),
   (.finish ok, d.rtp.spdmKex && ok, 0x65), (.endSession, d.rtp.spdmSession, 0x6C), (.ideKm b n i, d.rtp.spdmSession, 0x7E)]

theorem Dev.signs_eq (d : Dev) : (d.rtp.spdmNegotiated && d.rtp.rsPresent && !d.rtp.tampered) = (d.rtp.spdmNegotiated && d.canSign) :=
  Bool.and_assoc ..

variable {s}

theorem spdmRequest_getMeasurements (nonce : Nat) :
    SpdmRequest s (.getMeasurements nonce, s.dev.rtp.spdmNegotiated && s.dev.canSign, 0x60) := by
  refine ⟨_, _, exec_getMeasurements s nonce, rfl, ?_⟩
  dsimp only
  split
  · exact Dev.responds_say rfl s.dev.sameKeys_refl rfl rfl 0x60 _
  · exact Dev.responds_say rfl s.dev.sameKeys_refl rfl rfl 0x60 _

theorem spdmRequest_ideKm (b i : Bool) (n : Nat) : SpdmRequest s (.ideKm b n i, s.dev.rtp.spdmSession, 0x7E) :=
  ⟨_, _, exec_ideKm s b n i, rfl, Dev.responds_say rfl s.dev.sameKeys_refl rfl rfl 0x7E _⟩

theorem spdmRequest_of_mem {nonce n : Nat} {b i ok : Bool} :
    ∀ x ∈ spdmRequests s.dev s.fuses.lc nonce n b i ok, SpdmRequest s x := by
  have hsame := s.dev.sameKeys_refl
  unfold spdmRequests
  simp only [s.dev.signs_eq, List.forall_mem_cons]
  exact ⟨⟨_, _, exec_getVersion s, rfl, Dev.responds_say rfl hsame rfl rfl 0x04 _⟩,
    ⟨_, _, exec_getCapabilities s, rfl, Dev.responds_say rfl hsame rfl rfl 0x61 _⟩,
    ⟨_, _, exec_negotiateAlgorithms s, rfl, Dev.responds_say rfl hsame rfl rfl 0x63 _⟩,
    ⟨_, _, exec_getDigests s, rfl, s.dev.responds_certificate s.fuses.lc 0x01 _⟩,
    ⟨_, _, exec_getCertificate s, rfl, s.dev.responds_certificate s.fuses.lc 0x02 _⟩,
    ⟨_, _, exec_challenge s nonce, rfl, Dev.responds_say rfl hsame rfl rfl 0x03 _⟩, spdmRequest_getMeasurements nonce,
    ⟨_, _, exec_keyExchange s, rfl, Dev.responds_say rfl hsame rfl rfl 0x64 _⟩,
    ⟨_, _, exec_finish s ok, rfl, Dev.responds_say rfl hsame rfl rfl 0x65 _⟩,
    ⟨_, _, exec_endSession s, rfl, Dev.responds_say rfl hsame rfl rfl 0x6C _⟩, spdmRequest_ideKm b i n,
    fun _ h => absurd h List.not_mem_nil⟩

/-- A request that is served leaves just its own effect. -/
theorem exec_of_spdm {c : Instr} {f g : Dev → Dev} {ready : Bool} (hq : s.dev.quiet = true) (key : exec c s = s.after f)
    (hup : s.dev.spdmUp) (hrec : s.dev.life.recovery = false) (hlc : s.fuses.lc ≠ .blank) (hr : ready = true)
    (e : f s.dev = s.dev.spdm s.fuses.lc ready g) (hdues : (g s.dev).dues = s.dev.dues) :
    exec c s = .next (s.withDev (g s.dev)) :=
  exec_of_dues hq key (e.trans (Dev.spdm_of_served hup hrec hlc hr)) hdues

theorem mem_insNat (x : Nat) (xs : List Nat) : x ∈ insNat x xs := List.contains_iff_mem.1 (contains_insNat x xs)

end Sys2Proof.Machine
end

section
namespace Sys2Proof
open Sys2Proof.Machine

/-- Settles O56: every row is a request of one shape (`SpdmRequest`), ignored, refused or served by the same three cases; what the
served ones do to the exchange is each row's own effect. -/
theorem spdmRows : Obligations.SpdmRows := by
  unfold Obligations.SpdmRows
  intro s hq
  dsimp only
  refine ⟨fun nonce n b i ok x hx => ?row, fun hup hrec hlc => ?effect⟩
  case row =>
    obtain ⟨f, g, key, e, data, hout, hsame, hlog, hdues⟩ := spdmRequest_of_mem (s := s) x hx
    exact ⟨fun hdown => exec_of_idle hq key (e.trans (Dev.spdm_of_down hdown)),
      fun hup hr => exec_of_dues hq key (e.trans (Dev.spdm_of_refused hup hr)) rfl,
      fun hup hrec hlc hr => ⟨_, data, exec_of_spdm hq key hup hrec hlc hr e hdues, hout, hsame, hlog⟩⟩
  case effect =>
    have served {c : Instr} {f g : Dev → Dev} {ready : Bool} (key : exec c s = s.after f) (hr : ready = true)
        (e : f s.dev = s.dev.spdm s.fuses.lc ready g) (hdues : (g s.dev).dues = s.dev.dues) :
        exec c s = .next (s.withDev (g s.dev)) := exec_of_spdm hq key hup hrec hlc hr e hdues
    refine ⟨⟨_, served (exec_getVersion s) rfl rfl rfl, rfl, rfl, rfl⟩,
      fun hv => ⟨_, served (exec_negotiateAlgorithms s) hv rfl rfl, rfl⟩,
      fun hs => ⟨_, served (exec_keyExchange s) (s.dev.signs_eq ▸ hs) rfl rfl, rfl⟩,
      fun hk => ⟨_, served (exec_finish s true) (Bool.and_eq_true_iff.2 ⟨hk, rfl⟩) rfl rfl, rfl, rfl⟩,
      fun hses => ⟨⟨_, served (exec_endSession s) hses rfl rfl, rfl⟩, fun n => ⟨?_, ?_, ?_, ?_⟩⟩⟩
    · exact ⟨_, served (exec_ideKm s false n true) hses rfl rfl, mem_insNat n _, rfl⟩
    · exact ⟨_, served (exec_ideKm s true n true) hses rfl rfl, mem_insNat n _, rfl⟩
    · exact ⟨_, served (exec_ideKm s false n false) hses rfl rfl, fun h => by simpa using List.of_mem_filter h⟩
    · exact ⟨_, served (exec_ideKm s true n false) hses rfl rfl, fun h => by simpa using List.of_mem_filter h⟩

end Sys2Proof
end

section
/-! SUPPORT. The mailbox (13 R410, R411): what its register shows of a command, what a reply leaves, and the gates before a command
is looked at. -/

namespace Sys2Proof.Machine

variable {d : Dev}

/-! ### What the RTP holds, key slots and memory of a device -/

theorem Dev.rtpPart_congr {a b : Dev} (h : a.rtp.parts = b.rtp.parts) (p : Nat) : a.rtpPart p = b.rtpPart p := by
  rw [Dev.rtpPart, h, Dev.rtpPart]

theorem Dev.rtpPart_setRtpPart (d : Dev) (p : Nat) (x : RtpPart) (q : Nat) :
    (d.setRtpPart p x).rtpPart q = if q = p then x else d.rtpPart q := by
  simp [Dev.rtpPart, Dev.setRtpPart, Sparse.get_set]

@[simp] theorem Dev.key_setRtpPart (d : Dev) (p : Nat) (x : RtpPart) (k : Nat) : (d.setRtpPart p x).key k = d.key k := rfl

@[simp] theorem Dev.rtpPart_record (d : Dev) (c k : Nat) (u : UnitType) (i : Nat) (o : Option Nat) (x p : Nat) :
    (d.record c k u i o x).rtpPart p = d.rtpPart p := Dev.rtpPart_congr (by simp) p

@[simp] theorem Dev.key_record (d : Dev) (c k : Nat) (u : UnitType) (i : Nat) (o : Option Nat) (x n : Nat) :
    (d.record c k u i o x).key n = d.key n := Dev.key_congr (by simp) n

/-! ### The command shows in `RT_CMD` -/

/-- The device when command `op` for partition `p` is looked at: one delivered by its row shows in `RT_CMD` (log 82). -/
def Dev.shown (d : Dev) (op p : Nat) : Dev := if d.rtp.busy then d else d.showCommand op p

section
variable (d) (op p : Nat)

@[simp] theorem Dev.shown_rest : (d.shown op p).rtp = d.rtp ∧ (d.shown op p).keys = d.keys ∧ (d.shown op p).mem = d.mem ∧
    (d.shown op p).log = d.log ∧ (d.shown op p).life = d.life ∧ (d.shown op p).power = d.power ∧ (d.shown op p).ctxs = d.ctxs ∧
    (d.shown op p).shuttle = d.shuttle ∧ (d.shown op p).dues = d.dues := by
  unfold Dev.shown
  split
  · simp
  · simp [Dev.showCommand, Dev.dues]

theorem Dev.rtp_shown : (d.shown op p).rtp = d.rtp := by simp

theorem Dev.keys_shown : (d.shown op p).keys = d.keys := by simp

theorem Dev.life_shown : (d.shown op p).life = d.life := by simp

theorem Dev.log_shown : (d.shown op p).log = d.log := by simp

theorem Dev.dues_shown : (d.shown op p).dues = d.dues := by simp

theorem Dev.reg_shown {o : Nat} (h : o ≠ 0xC008) : (d.shown op p).reg o = d.reg o := by
  unfold Dev.shown
  split
  · rfl
  · exact Dev.reg_setFld_ne _ _ _ _ h

theorem Dev.fld_shown {o : Nat} (h : o ≠ 0xC008) (lo w : Nat) : (d.shown op p).fld o lo w = d.fld o lo w :=
  congrArg (fun v : Word64 => bits v.toNat lo w) (d.reg_shown op p h)

@[simp] theorem Dev.rtpPart_shown (q : Nat) : (d.shown op p).rtpPart q = d.rtpPart q := Dev.rtpPart_congr (by simp) q

@[simp] theorem Dev.key_shown (k : Nat) : (d.shown op p).key k = d.key k := Dev.key_congr (by simp) k

@[simp] theorem Dev.parts_shown : (d.shown op p).parts = d.parts := Dev.parts_of_reg (d.reg_shown op p (by decide))

@[simp] theorem Dev.calendar_shown : (d.shown op p).calendar = d.calendar :=
  congrArg BitVec.toNat (d.reg_shown op p (by decide))

@[simp] theorem Dev.sliceId_shown (q : Nat) : (d.shown op p).sliceId q = d.sliceId q :=
  d.fld_shown op p (by unfold sliceReg; omega) 0 12

@[simp] theorem Dev.sliceFor_shown (q : Nat) (m : Manifest) : (d.shown op p).sliceFor q m = d.sliceFor q m := by
  have hvalid : (d.shown op p).sliceValid q = d.sliceValid q := by
    rw [Dev.sliceValid, d.fld_shown op p (by unfold sliceReg; omega), Dev.sliceValid]
  rw [Dev.sliceFor, hvalid, Dev.sliceId_shown, Dev.sliceFor]

@[simp] theorem Dev.slotRefusal_shown (q k : Nat) : (d.shown op p).slotRefusal q k = d.slotRefusal q k := by
  simp only [Dev.slotRefusal, Dev.parts_shown, Dev.key_shown]

@[simp] theorem Dev.slotsRefusal_shown (q : Nat) (ks : List Nat) : (d.shown op p).slotsRefusal q ks = d.slotsRefusal q ks := by
  induction ks with
  | nil => rfl
  | cons k ks ih => simp only [Dev.slotsRefusal, Dev.slotRefusal_shown, ih]

@[simp] theorem Dev.keyValid_shown (q k : Nat) : (d.shown op p).keyValid q k = d.keyValid q k := by
  simp only [Dev.keyValid, Dev.parts_shown, Dev.key_shown]

@[simp] theorem Dev.jobIs_shown (q mh : Nat) : (d.shown op p).jobIs q mh = d.jobIs q mh := by
  simp only [Dev.jobIs, Dev.rtpPart_shown]

@[simp] theorem Dev.imageAdmitted_shown (m : Manifest) : (d.shown op p).imageAdmitted m = d.imageAdmitted m := by
  simp only [Dev.imageAdmitted, Dev.shown_rest]

@[simp] theorem Dev.released_shown (mh n : Nat) : (d.shown op p).released mh n = d.released mh n := by
  simp only [Dev.released, Dev.shown_rest]

@[simp] theorem Dev.holders_shown (mh : Nat) : (d.shown op p).holders mh = d.holders mh := by
  simp only [Dev.holders, Dev.parts_shown, Dev.jobIs_shown]

@[simp] theorem Dev.freeSlot_shown (q : Nat) : (d.shown op p).freeSlot q = d.freeSlot q := by
  simp only [Dev.freeSlot, Dev.parts_shown, Dev.key_shown]

@[simp] theorem Dev.turnedAway_shown (lc : LifeCycle) (n q : Nat) : (d.shown op p).turnedAway lc n q = d.turnedAway lc n q := by
  have hunserved : (d.shown op p).unserved n = d.unserved n := by simp only [Dev.unserved, Dev.shown_rest]
  have hserved : (d.shown op p).keysServed lc = d.keysServed lc := by simp only [Dev.keysServed, Dev.shown_rest]
  have hctx : (d.shown op p).ctx q = d.ctx q := Dev.ctx_congr (by simp) q
  simp only [Dev.turnedAway, hunserved, hserved, hctx, Dev.parts_shown, Dev.shown_rest]

@[simp] theorem Dev.evidenceBody_shown (lc : LifeCycle) (q n : Nat) : (d.shown op p).evidenceBody lc q n = d.evidenceBody lc q n := by
  unfold Dev.evidenceBody
  rw [Dev.rtpPart_shown, Dev.life_shown, Dev.sliceId_shown, Dev.calendar_shown]

end

/-! ### The next hop of a message -/

/-- The next hop is read from the torus registers, the hole list and the ports. -/
theorem Dev.nextHop_congr {a b : Dev} (hr : ∀ o, 0x14000 ≤ o → a.reg o = b.reg o) (hs : a.shuttle = b.shuttle) (g : Coord) :
    a.nextHop g = b.nextHop g := by
  have htorus : a.torus = b.torus := by simp only [Dev.torus, Dev.fld, hr _ (show 0x14000 ≤ 0x1400C by decide)]
  have hhere : a.here = b.here := by simp only [Dev.here, Dev.fld, hr _ (show 0x14000 ≤ 0x14008 by decide)]
  have hhole : a.hole = b.hole := funext fun i => congrArg BitVec.toNat (hr _ (by omega))
  have hport : a.port = b.port := funext fun n => by rw [Dev.port, hs, Dev.port]
  have husable (c : Coord) (n : Nat) : a.usable c n = b.usable c n := by
    simp only [Dev.usable, Dev.live, Dev.deadLink, Dev.deadDevice, Dev.holeAny, htorus, hhere, hhole, hport]
  simp only [Dev.nextHop, htorus, hhere, husable]

@[simp] theorem Dev.nextHop_shown (d : Dev) (op p : Nat) (g : Coord) : (d.shown op p).nextHop g = d.nextHop g :=
  Dev.nextHop_congr (fun _ ho => d.reg_shown op p (by omega)) (by simp) g

/-! ### Replies -/

theorem leBytes_leNat (bs : List Byte) : leBytes bs.length (leNat bs) = bs := by
  induction bs with
  | nil => rfl
  | cons b bs ih =>
    have hb := b.isLt
    have hdiv : (b.toNat + 256 * leNat bs) / 256 = leNat bs := by omega
    rw [List.length_cons, leNat, leBytes, hdiv, ih]
    congr 1
    exact BitVec.eq_of_toNat_eq (by rw [BitVec.toNat_ofNat]; omega)

theorem leNat_lt (bs : List Byte) : leNat bs < 256 ^ bs.length := by
  induction bs with
  | nil => decide
  | cons b bs ih =>
    have hb := b.isLt
    rw [leNat, List.length_cons, Nat.pow_succ]
    omega

/-- The writes of chunks of `RT_BUF` from place `i`. -/
def Dev.putChunks (d : Dev) (cs : List (List Byte)) (i : Nat) : Dev :=
  (cs.zipIdx i).foldl (fun d e => d.setFld (0xE000 + 8 * e.2) 0 (8 * e.1.length) (leNat e.1)) d

theorem Dev.putChunks_cons (d : Dev) (c : List Byte) (cs : List (List Byte)) (i : Nat) :
    d.putChunks (c :: cs) i = (d.setFld (0xE000 + 8 * i) 0 (8 * c.length) (leNat c)).putChunks cs (i + 1) := rfl

theorem Dev.putChunks_eq (d : Dev) (cs : List (List Byte)) (i : Nat) : ∃ r, d.putChunks cs i = { d with regs := r } := by
  induction cs generalizing d i with
  | nil => exact ⟨d.regs, rfl⟩
  | cons c cs ih =>
    obtain ⟨r, hr⟩ := ih (d.setFld (0xE000 + 8 * i) 0 (8 * c.length) (leNat c)) (i + 1)
    exact ⟨r, hr⟩

/-- Registers before those chunks are as before. -/
theorem Dev.reg_putChunks_before (d : Dev) (cs : List (List Byte)) {i o : Nat} (h : o < 0xE000 + 8 * i) :
    (d.putChunks cs i).reg o = d.reg o := by
  induction cs generalizing d i with
  | nil => rfl
  | cons c cs ih => rw [Dev.putChunks_cons, ih _ (by omega), Dev.reg_setFld_ne _ _ _ _ (by omega)]

/-- Eight bytes written are read back. -/
theorem Dev.reg_setFld_whole (d : Dev) (o : Nat) {c : List Byte} (h : c.length = 8) :
    leBytes 8 ((d.setFld o 0 (8 * c.length) (leNat c)).reg o).toNat = c := by
  have hlt := leNat_lt c
  have hbits : ((d.setFld o 0 64 (leNat c)).reg o).toNat = leNat c := by
    have hall (v : Word64) : v.toNat = bits v.toNat 0 64 := by
      rw [bits, Nat.shiftRight_zero, Nat.mod_eq_of_lt v.isLt]
    rw [hall, show bits _ 0 64 = (d.setFld o 0 64 (leNat c)).fld o 0 64 from rfl, Dev.fld_setFld d (by decide)]
    rw [h] at hlt
    exact Nat.mod_eq_of_lt (by omega)
  rw [h, hbits]
  exact h ▸ leBytes_leNat c

/-- Whole chunks are read back. -/
theorem Dev.bytes_putChunks (m fuel : Nat) (hm : m ≤ fuel) (d : Dev) (bs : List Byte) (hl : 8 * m ≤ bs.length) (i : Nat) :
    ((List.range m).flatMap fun j => leBytes 8 ((d.putChunks (chunksOf 8 fuel bs) i).reg (0xE000 + 8 * (i + j))).toNat) =
      bs.take (8 * m) := by
  induction m generalizing fuel d bs i with
  | zero => rfl
  | succ m ih =>
    obtain ⟨fuel, rfl⟩ := Nat.exists_eq_add_of_le' (show 1 ≤ fuel by omega)
    have hne : bs.isEmpty = false := by cases bs <;> simp at hl ⊢
    have h8 : (bs.take 8).length = 8 := by rw [List.length_take]; omega
    rw [chunksOf, hne, if_neg (by decide), Dev.putChunks_cons, List.range_succ_eq_map, List.flatMap_cons, List.flatMap_map]
    have hrest := ih fuel (by omega) (d.setFld (0xE000 + 8 * i) 0 (8 * (bs.take 8).length) (leNat (bs.take 8))) (bs.drop 8)
      (by rw [List.length_drop]; omega) (i + 1)
    simp only [Nat.add_assoc, Nat.add_comm 1] at hrest
    rw [hrest, Nat.add_zero i, Dev.reg_putChunks_before _ _ (by omega), Dev.reg_setFld_whole _ _ h8, ← List.take_add,
      show 8 + 8 * m = 8 * (m + 1) by omega]

theorem Dev.putBuf_eq (d : Dev) (bs : List Byte) : ∃ r, d.putBuf bs = { d with regs := r } := d.putChunks_eq _ 0

/-- What is put into `RT_BUF` is read back, by whole registers. -/
theorem Dev.getBuf_putBuf (d : Dev) {bs : List Byte} {m : Nat} (hl : 8 * m ≤ bs.length) (hm : m ≤ 1025) :
    (d.putBuf bs).getBuf (8 * m) = bs.take (8 * m) := by
  have hdiv : ceilDiv (8 * m) 8 = m := by rw [ceilDiv, if_neg (by decide)]; omega
  have hb := Dev.bytes_putChunks m 1025 hm d bs hl 0
  simp only [Nat.zero_add] at hb
  rw [Dev.getBuf, hdiv]
  refine (congrArg (List.take (8 * m)) hb).trans ?_
  rw [List.take_take, Nat.min_self]

section
variable (d) (st : Nat) (bs : List Byte)

@[simp] theorem Dev.reply_rest : (d.reply st bs).keys = d.keys ∧ (d.reply st bs).mem = d.mem ∧ (d.reply st bs).log = d.log ∧
    (d.reply st bs).life = d.life ∧ (d.reply st bs).dues = d.dues ∧
    (d.reply st bs).rtp = { d.rtp with busy := false, cmd := none, asm := [], status := st, replyLen := min bs.length 8192,
                                       more := bs.drop 8192 } := by
  obtain ⟨r, hr⟩ := d.putBuf_eq (bs.take 8192)
  unfold Dev.reply
  rw [hr]
  simp [Dev.dues]

theorem Dev.log_reply : (d.reply st bs).log = d.log := by simp

theorem Dev.revoked_reply : (d.reply st bs).rtp.revoked = d.rtp.revoked := by simp

@[simp] theorem Dev.rtpPart_reply (p : Nat) : (d.reply st bs).rtpPart p = d.rtpPart p := Dev.rtpPart_congr (by simp) p

@[simp] theorem Dev.key_reply (k : Nat) : (d.reply st bs).key k = d.key k := Dev.key_congr (by simp) k

theorem Dev.reg_reply_before {o : Nat} (h : o < 0xE000) : (d.reply st bs).reg o = d.reg o := by
  refine (Dev.reg_congr (b := d.putBuf (bs.take 8192)) ?_ o).trans (d.reg_putChunks_before _ (by omega))
  simp [Dev.reply]

theorem Dev.getBuf_reply {m : Nat} (hl : 8 * m ≤ bs.length) (hm : m ≤ 1024) : (d.reply st bs).getBuf (8 * m) = bs.take (8 * m) := by
  have hregs : (d.reply st bs).regs = (d.putBuf (bs.take 8192)).regs := by simp [Dev.reply]
  have hbuf : (d.reply st bs).getBuf (8 * m) = (d.putBuf (bs.take 8192)).getBuf (8 * m) := by
    simp only [Dev.getBuf, Dev.reg_congr hregs]
  rw [hbuf, Dev.getBuf_putBuf d (by rw [List.length_take]; omega) (by omega), List.take_take, Nat.min_eq_left (by omega)]

end

/-! ### How a command completes -/

variable {s : State} {c : Instr} {f : Dev → Dev} {g : Dev} {st : Nat} {P : Dev → Prop}

theorem completes_of_reply {bs : List Byte} (key : exec c s = s.after f) (e : f s.dev = g.reply st bs) (hP : P (g.reply st bs)) :
    Completes c s st P :=
  ⟨_, exec_of_effect key e, by simp, by simp, by simp, hP⟩

theorem completes_of_answer (key : exec c s = s.after f) (e : f s.dev = g.answer st) (hP : P (g.reply st [])) : Completes c s st P :=
  completes_of_reply key e hP

theorem Dev.sameKeys_of_eq {a b : Dev} (hkeys : b.keys = a.keys) (hparts : b.rtp.parts = a.rtp.parts)
    (hrevoked : b.rtp.revoked = a.rtp.revoked) (hlife : b.life = a.life) (hmem : b.mem = a.mem) : a.sameKeys b :=
  ⟨hkeys, hparts, hrevoked, congrArg Life.cert hlife, congrArg Life.image hlife, congrArg Life.rights hlife, hmem⟩

/-- A command that is answered with a bare status changes no key or job. -/
theorem completes_of_refusal {op p : Nat} (key : exec c s = s.after f) (e : f s.dev = (s.dev.shown op p).answer st) :
    Completes c s st s.dev.sameKeys :=
  completes_of_answer key e (Dev.sameKeys_of_eq (by simp) (by simp) (by simp) (by simp) (by simp))

/-- `f` has one failed verification more than `d`, with its entry, and the same keys and jobs. -/
abbrev Dev.sigCounted (d f : Dev) : Prop := d.sameKeys f ∧ f.reg 0xC150 = d.reg 0xC150 + 1 ∧ f.log.seq = d.log.seq + 1

/-- An object that does not verify is counted and recorded (R392). -/
theorem completes_of_sigFail {op p n : Nat} {x : DualSig} (key : exec c s = s.after f)
    (e : f s.dev = (s.dev.shown op p).sigFail n x) :
    Completes c s 2 s.dev.sigCounted := by
  refine completes_of_answer key e ⟨Dev.sameKeys_of_eq (by simp) (by simp) (by simp) (by simp) (by simp), ?_, by simp⟩
  rw [Dev.reg_reply_before _ _ _ (by decide), Dev.reg_record_none, Dev.reg_bump, if_pos rfl, Dev.reg_shown _ _ _ (by decide)]
  rfl

/-! ### Gates -/

/-- Another command is in progress. -/
def Dev.inProgress (d : Dev) (op p : Nat) : Prop := d.rtp.busy = true ∧ d.rtp.cmd.map (fun c => (c.op, c.part)) ≠ some (op, p)

section
variable {lc : LifeCycle} {op p : Nat} {run : Dev → Dev}

theorem Dev.mailbox_of_down (h : d.mailboxUp = false) : d.mailbox lc op p run = d := if_pos (by simp [h])

theorem Dev.mailbox_of_inProgress (h : d.mailboxUp = true) (hp : d.inProgress op p) :
    d.mailbox lc op p run = d.recordReg 0x0003 rtCmdReg (op + 2 ^ 31) :=
  (if_neg (by simp [h])).trans (if_pos hp)

theorem Dev.mailbox_of_free (h : d.mailboxUp = true) (hp : ¬ d.inProgress op p) : d.mailbox lc op p run =
    (d.turnedAway lc op p).elim (run (d.shown op p)) (d.shown op p).answer := by
  have ht := d.turnedAway_shown op p lc op p
  refine ((if_neg (by simp [h])).trans (if_neg hp)).trans ?_
  unfold Dev.shown at ht ⊢
  dsimp only
  rw [ht]
  cases d.turnedAway lc op p <;> rfl

theorem Dev.mailbox_of_turnedAway (h : d.mailboxUp = true) (hb : d.rtp.busy = false) (ht : d.turnedAway lc op p = some st) :
    d.mailbox lc op p run = (d.shown op p).answer st := by
  rw [Dev.mailbox_of_free h (fun hp => Bool.false_ne_true (hb.symm.trans hp.1)), ht, Option.elim_some]

/-- A command that is looked at runs. -/
theorem Dev.mailbox_of_looksAt (h : d.looksAt lc op p) : d.mailbox lc op p run = run (d.shown op p) := by
  obtain ⟨hup, hfree, hgate⟩ := h
  rw [Dev.mailbox_of_free hup, hgate, Option.elim_none]
  rintro ⟨hb, hc⟩
  rcases hfree with hfree | hfree
  · rw [hb] at hfree; cases hfree
  · exact hc hfree

end

/-! ### A command that is looked at completes -/

section
variable {op p : Nat} {run : Dev → Dev} (h : s.dev.looksAt s.fuses.lc op p)
  (key : exec c s = s.after fun d => d.mailbox s.fuses.lc op p run)
include h key

theorem completes_of_run {bs : List Byte} (e : run (s.dev.shown op p) = g.reply st bs) (hP : P (g.reply st bs)) : Completes c s st P :=
  completes_of_reply key ((Dev.mailbox_of_looksAt h).trans e) hP

theorem answered_of_run (e : run (s.dev.shown op p) = g.answer st) (hP : P (g.reply st [])) : Completes c s st P :=
  completes_of_run h key e hP

theorem refused_of_run (e : run (s.dev.shown op p) = (s.dev.shown op p).answer st) : Completes c s st s.dev.sameKeys :=
  completes_of_refusal key ((Dev.mailbox_of_looksAt h).trans e)

theorem failed_of_run {n : Nat} {x : DualSig} (e : run (s.dev.shown op p) = (s.dev.shown op p).sigFail n x) :
    Completes c s 2 s.dev.sigCounted :=
  completes_of_sigFail key ((Dev.mailbox_of_looksAt h).trans e)

end

/-- Row `c` delivers mailbox command `op` for partition `p`. -/
def MailRow (s : State) (p : Nat) (e : Nat × Instr) : Prop :=
  ∃ run, exec e.2 s = s.after fun d => d.mailbox s.fuses.lc e.1 p run

/-- The gates of every mailbox command (log 83). -/
theorem MailRow.gates {p : Nat} {e : Nat × Instr} (h : MailRow s p e) (hq : s.dev.quiet = true) :
    (s.dev.mailboxUp = false → exec e.2 s = .next s) ∧
    (s.dev.mailboxUp = true → s.dev.rtp.busy = true → s.dev.rtp.cmd.map (fun c => (c.op, c.part)) ≠ some (e.1, p) →
      exec e.2 s = .next (s.withDev (s.dev.record 0 0x0003 .register (0xC008 / 4) none (e.1 + 2 ^ 31)))) ∧
    (s.dev.mailboxUp = true → s.dev.rtp.busy = false → ∀ st, s.dev.turnedAway s.fuses.lc e.1 p = some st →
      Completes e.2 s st s.dev.sameKeys) := by
  obtain ⟨run, key⟩ := h
  exact ⟨fun hdown => exec_of_idle hq key (Dev.mailbox_of_down hdown),
    fun hup hb hc => exec_of_record hq key (Dev.mailbox_of_inProgress hup ⟨hb, hc⟩),
    fun hup hb st ht => completes_of_refusal key (Dev.mailbox_of_turnedAway hup hb ht)⟩

end Sys2Proof.Machine
end

section
/-! SUPPORT. Key slots and jobs as the RTP changes them (13 R387 to R391, R397 to R400). -/

namespace Sys2Proof.Machine

/-! ### Folds -/

/-- What one step of a fold brings about and no step undoes holds after it. -/
theorem foldl_of_mem {α β : Type} {P : α → Prop} {f : α → β → α} {b : β} (hset : ∀ a, P (f a b))
    (hkeep : ∀ a c, P a → P (f a c))
    {l : List β} (h : b ∈ l) (a : α) : P (l.foldl f a) := by
  suffices hall : ∀ (l : List β) (a : α), b ∈ l ∨ P a → P (l.foldl f a) from hall l a (.inl h)
  intro l
  induction l with
  | nil => exact fun a h => h.resolve_left List.not_mem_nil
  | cons c l ih =>
    intro a h
    refine ih _ ?_
    rcases h with h | h
    · rcases List.mem_cons.1 h with rfl | h
      · exact .inr (hset a)
      · exact .inl h
    · exact .inr (hkeep a c h)

/-- What no step of a fold undoes holds after it. -/
theorem foldl_preserves {α β : Type} {P : α → Prop} {f : α → β → α} (hkeep : ∀ a c, P a → P (f a c)) (l : List β) {a : α}
    (h : P a) : P (l.foldl f a) :=
  List.foldlRecOn l f h fun a ha c _ => hkeep a c ha

variable {d : Dev}

/-! ### Slots that stop being valid, or are freed -/

@[simp] theorem Dev.rtp_dropKey (d : Dev) (k c : Nat) : (d.dropKey k c).rtp = d.rtp ∧ (d.dropKey k c).mem = d.mem := by
  unfold Dev.dropKey
  split <;> simp

@[simp] theorem Dev.rtp_invalidate (d : Dev) (k c : Nat) : (d.invalidate k c).rtp = d.rtp ∧ (d.invalidate k c).mem = d.mem :=
  ⟨(foldl_keeps Dev.rtp (fun _ _ => (Dev.rtp_dropKey ..).1) _ _).trans (d.rtp_dropKey k c).1,
    (foldl_keeps Dev.mem (fun _ _ => (Dev.rtp_dropKey ..).2) _ _).trans (d.rtp_dropKey k c).2⟩

@[simp] theorem Dev.rtp_invalidateOther (d : Dev) (k : Nat) : (d.invalidateOther k).rtp = d.rtp ∧ (d.invalidateOther k).mem = d.mem :=
  Dev.rtp_invalidate ..

@[simp] theorem Dev.rtp_freeKey (d : Dev) (k : Nat) : (d.freeKey k).rtp = d.rtp ∧ (d.freeKey k).mem = d.mem := by
  unfold Dev.freeKey
  split <;> simp

theorem Dev.key_freeKey (d : Dev) {k : Nat} (hk : k ≠ 0) : (d.freeKey k).key k = KeySlot.reset k := by
  rw [Dev.freeKey, if_neg hk, Dev.key_setKey, if_pos rfl]

theorem Dev.key_freeKey_of_reset {j : Nat} (h : d.key j = KeySlot.reset j) (k : Nat) : (d.freeKey k).key j = KeySlot.reset j := by
  unfold Dev.freeKey
  split
  · exact h
  · rw [Dev.key_setKey]
    split
    · next hj => rw [hj]
    · exact h

theorem Dev.valid_dropKey_of_invalid {j : Nat} (h : (d.key j).valid = false) (k c : Nat) : ((d.dropKey k c).key j).valid = false := by
  unfold Dev.dropKey
  split
  · rw [Dev.key_record, Dev.key_setKey]
    split
    · rfl
    · exact h
  · exact h

theorem Dev.valid_dropKey (d : Dev) {k : Nat} (hk : k ≠ 0) (c : Nat) : ((d.dropKey k c).key k).valid = false := by
  unfold Dev.dropKey
  split
  · rw [Dev.key_record, Dev.key_setKey, if_pos rfl]
  · next h => exact Bool.eq_false_iff.2 fun hv => h ⟨hk, hv⟩

/-- A slot invalid after the first drop stays so through the drops of what it carried. -/
theorem Dev.valid_invalidate_of_dropped {j k c : Nat} (h : ((d.dropKey k c).key j).valid = false) :
    ((d.invalidate k c).key j).valid = false :=
  foldl_preserves (P := fun a : Dev => (a.key j).valid = false) (fun _ _ ha => Dev.valid_dropKey_of_invalid ha _ _) _ h

/-! ### A job comes to a slot, and its record to user flash -/

theorem Dev.key_takeJob (d : Dev) (p k : Nat) (m : Manifest) (x o a j : Nat) :
    (d.takeJob p k m x o a).key j = if j = k then jobSlot k m x else d.key j := by
  have hkeys : (d.takeJob p k m x o a).keys = (d.setKey k (jobSlot k m x)).keys := by simp [Dev.takeJob, Dev.newSeries]
  rw [Dev.key_congr hkeys, Dev.key_setKey]

theorem Dev.rtpPart_takeJob (d : Dev) (p k : Nat) (m : Manifest) (x o a : Nat) : (d.takeJob p k m x o a).rtpPart p =
    { d.rtpPart p with held := true, slot := k, secret := x, origin := o, admitter := a } := by
  have hrtp : (d.takeJob p k m x o a).rtp = (d.setRtpPart p
      { d.rtpPart p with held := true, slot := k, secret := x, origin := o, admitter := a }).rtp := by
    simp [Dev.takeJob, Dev.newSeries, Dev.setRtpPart]
  rw [Dev.rtpPart_congr (congrArg Rtp.parts hrtp), Dev.rtpPart_setRtpPart, if_pos rfl]

theorem Dev.key_sealJob (d : Dev) (p k : Nat) : (d.sealJob p).key k = d.key k := by
  unfold Dev.sealJob
  dsimp only
  split <;> rfl

theorem Dev.rtpPart_sealJob {p : Nat} {m : Manifest} (hm : (d.rtpPart p).manifest = some m) : (d.sealJob p).rtpPart p =
    { d.rtpPart p with sealedRec := some { mh := m.mh, secret := (d.rtpPart p).secret, keys := d.dataSlots p, ctrs := (d.rtpPart p).ctrs,
                                           tpX := (d.rtpPart p).tpX, tpM := (d.rtpPart p).tpM } } := by
  unfold Dev.sealJob
  simp only [hm, Dev.rtpPart_setRtpPart, if_pos]

theorem Dev.ctrs_sealJob (d : Dev) (p : Nat) : ((d.sealJob p).rtpPart p).ctrs = (d.rtpPart p).ctrs := by
  cases hm : (d.rtpPart p).manifest with
  | none => simp only [Dev.sealJob, hm]
  | some m => rw [Dev.rtpPart_sealJob hm]

/-- Slots that a resumption does not name are as before. -/
theorem Dev.key_resumeKeys (d : Dev) (j k : Nat) {l : List (Nat × KeySlot)} (h : k ∉ l.map Prod.fst) :
    (d.resumeKeys j l).key k = d.key k := by
  induction l generalizing d with
  | nil => rfl
  | cons e l ih =>
    simp only [List.map_cons, List.mem_cons, not_or] at h
    rw [Dev.resumeKeys, ih _ h.2, Dev.key_setKey, if_neg h.1]

theorem Dev.rtp_resumeKeys (d : Dev) (j : Nat) (l : List (Nat × KeySlot)) : (d.resumeKeys j l).rtp = d.rtp := by
  induction l generalizing d with
  | nil => rfl
  | cons e l ih => rw [Dev.resumeKeys, ih]; rfl

/-! ### A job forgotten (R394) -/

theorem Dev.rtpPart_forgetJob (d : Dev) (p : Nat) : (d.forgetJob p).rtpPart p = RtpPart.reset := by
  simp [Dev.forgetJob, Dev.rtpPart_setRtpPart]

theorem Dev.mem_forgetJob (d : Dev) (p : Nat) : (d.forgetJob p).mem = d.mem := by
  simp only [Dev.forgetJob, Dev.record_rest, Dev.setRtpPart_rest]
  split
  · exact (foldl_keeps Dev.mem (fun _ _ => (Dev.rtp_freeKey ..).2) _ _).trans (d.rtp_invalidateOther _).2
  · rfl

/-- Every slot that the job names is free. -/
theorem Dev.key_forgetJob {p : Nat} {e : Nat × KeySlot} (hheld : (d.rtpPart p).held = true) (he : e ∈ d.keys)
    (hjob : e.2.job = (d.rtpPart p).slot) (h0 : e.1 ≠ 0) : (d.forgetJob p).key e.1 = KeySlot.reset e.1 := by
  simp only [Dev.forgetJob, Dev.key_record, Dev.key_setRtpPart, hheld, if_pos]
  refine foldl_of_mem (P := fun a : Dev => a.key e.1 = KeySlot.reset e.1) (fun a => a.key_freeKey h0)
    (fun _ k ha => Dev.key_freeKey_of_reset ha k) (List.mem_map.2 ⟨e, List.mem_filter.2 ⟨he, ?_⟩, rfl⟩) _
  simp [hjob, h0]

/-! ### Messages between RTPs (R399) -/

theorem Dev.sendRtp_eq (d : Dev) (dest : Nat) (b : RtpBody) :
    d.sendRtp dest b = { d with rtp := { d.rtp with relayed := d.relays dest b } } := by
  unfold Dev.sendRtp Dev.relays
  cases d.nextHop (Coord.ofNat dest) with
  | none => simp
  | some n => rfl

@[simp] theorem Dev.sendRtp_rest (d : Dev) (dest : Nat) (b : RtpBody) :
    (d.sendRtp dest b).rtp.parts = d.rtp.parts ∧ (d.sendRtp dest b).rtp.busy = d.rtp.busy ∧
    (d.sendRtp dest b).rtp.relayed = d.relays dest b ∧ (d.sendRtp dest b).keys = d.keys ∧ (d.sendRtp dest b).dues = d.dues := by
  rw [Dev.sendRtp_eq]
  exact ⟨rfl, rfl, rfl, rfl, rfl⟩

end Sys2Proof.Machine
end

section
/-! SUPPORT. Mailbox commands on manifests, jobs and slots (13 R388, R391, R393, R394, R397 to R400): what each is answered with, and
what it leaves. -/

namespace Sys2Proof.Machine

variable (s : State) (p : Nat)

theorem exec_manifestLoad (m : Manifest) (x : DualSig) :
    exec (.manifestLoad p m x) s = s.after fun d => d.manifestLoad s.fuses.lc p m x := rfl

theorem exec_jobCreate (k x : Nat) : exec (.jobCreate p k x) s = s.after fun d => d.jobCreate s.fuses.lc p k x := rfl

theorem exec_jobJoin (c k : Nat) (ks : List Nat) : exec (.jobJoin p c k ks) s = s.after fun d => d.jobJoin s.fuses.lc p c k ks := rfl

theorem exec_jobResume (k : Nat) (ks : List Nat) (ok : Bool) :
    exec (.jobResume p k ks ok) s = s.after fun d => d.jobResume s.fuses.lc p k ks ok := rfl

theorem exec_jobForget : exec (.jobForget p) s = s.after fun d => d.jobForget s.fuses.lc p := rfl

theorem exec_jobExpire : exec (.jobExpire p) s = s.after fun d => d.jobExpire p := rfl

theorem exec_slotAlloc (k j : Nat) (b : Bool) : exec (.slotAlloc p k j b) s = s.after fun d => d.slotAlloc s.fuses.lc p k j b := rfl

theorem exec_slotFree (k : Nat) : exec (.slotFree p k) s = s.after fun d => d.slotFree s.fuses.lc p k := rfl

variable {s} {p}

/-! ### `MANIFEST_LOAD` -/

/-- A manifest loaded is its partition's; key slots and other partitions are as before. -/
theorem Dev.loadManifest_leaves (d : Dev) (p : Nat) (m : Manifest) : ((d.loadManifest p m).rtpPart p).manifest = some m ∧
    (∀ q, q ≠ p → (d.loadManifest p m).rtpPart q = d.rtpPart q) ∧ (d.loadManifest p m).keys = d.keys := by
  refine ⟨?_, fun q hq => (Dev.rtpPart_setRtpPart ..).trans (if_neg hq), rfl⟩
  rw [Dev.loadManifest, Dev.rtpPart_setRtpPart, if_pos rfl]

section
variable (h : s.dev.looksAt s.fuses.lc 1 p) {m : Manifest} {x : DualSig}
include h

theorem manifestLoad_unfit (hm : manifestFits m = false) : Completes (.manifestLoad p m x) s 1 s.dev.sameKeys :=
  refused_of_run h (exec_manifestLoad s p m x) (by simp [hm])

theorem manifestLoad_unsigned (hm : manifestFits m = true) (hx : manifestSigned m = false ∨ sigOk x = false) :
    Completes (.manifestLoad p m x) s 2 s.dev.sigCounted :=
  failed_of_run h (exec_manifestLoad s p m x) ((if_neg (by simp [hm])).trans (if_pos (by simpa using hx)))

theorem manifestLoad_expired (hm : manifestFits m = true) (hall : manifestSigned m = true) (hx : sigOk x = true)
    (he : manifestExpired m s.dev.calendar = true) : Completes (.manifestLoad p m x) s 9 s.dev.sameKeys :=
  refused_of_run h (exec_manifestLoad s p m x) (by simp [hm, hall, hx, he])

theorem manifestLoad_good (hm : manifestFits m = true) (hall : manifestSigned m = true) (hx : sigOk x = true)
    (he : manifestExpired m s.dev.calendar = false) : Completes (.manifestLoad p m x) s 0 fun f =>
      (f.rtpPart p).manifest = some m ∧ f.keys = s.dev.keys ∧ ∀ q, q ≠ p → f.rtpPart q = s.dev.rtpPart q := by
  obtain ⟨hpart, hother, hkeys⟩ := (s.dev.shown 1 p).loadManifest_leaves p m
  refine answered_of_run (g := (s.dev.shown 1 p).loadManifest p m) h (exec_manifestLoad s p m x)
    (by simp [hm, hall, hx, he]) ⟨?_, ?_, fun q hq => ?_⟩
  · rw [Dev.rtpPart_reply, hpart]
  · simp [hkeys]
  · rw [Dev.rtpPart_reply, hother q hq, Dev.rtpPart_shown]

end

/-! ### `JOB_CREATE` -/

section
variable (h : s.dev.looksAt s.fuses.lc 2 p) {m : Manifest} {k x : Nat}
include h

theorem jobCreate_unmanifested (hm : (s.dev.rtpPart p).manifest = none) : Completes (.jobCreate p k x) s 5 s.dev.sameKeys :=
  refused_of_run h (exec_jobCreate s p k x) (by simp [hm])

variable (hm : (s.dev.rtpPart p).manifest = some m)
include hm

theorem jobCreate_expired (he : manifestExpired m s.dev.calendar = true) : Completes (.jobCreate p k x) s 9 s.dev.sameKeys :=
  refused_of_run h (exec_jobCreate s p k x) (by simp [hm, he])

variable (he : manifestExpired m s.dev.calendar = false)
include he

theorem jobCreate_otherSlice (hs : s.dev.sliceFor p m = false) : Completes (.jobCreate p k x) s 0x0B s.dev.sameKeys :=
  refused_of_run h (exec_jobCreate s p k x) (by simp [hm, he, hs])

variable (hs : s.dev.sliceFor p m = true)
include hs

theorem jobCreate_badSlot {st : Nat} (hk : s.dev.slotRefusal p k = some st) : Completes (.jobCreate p k x) s st s.dev.sameKeys :=
  refused_of_run h (exec_jobCreate s p k x) (by simp [hm, he, hs, hk])

variable (hk : s.dev.slotRefusal p k = none)
include hk

theorem jobCreate_held (hh : (s.dev.rtpPart p).held = true) : Completes (.jobCreate p k x) s 7 s.dev.sameKeys :=
  refused_of_run h (exec_jobCreate s p k x) (by simp [hm, he, hs, hk, hh])

theorem jobCreate_good (hh : (s.dev.rtpPart p).held = false) : Completes (.jobCreate p k x) s 0 fun f =>
    f.key k = jobSlot k m x ∧ (∀ j, j ≠ k → f.key j = s.dev.key j) ∧ (f.rtpPart p).held = true ∧ (f.rtpPart p).slot = k ∧
      (f.rtpPart p).origin = 1 ∧ (f.rtpPart p).sealedRec.map Sealed.secret = some x := by
  have hjob := (s.dev.shown 2 p).rtpPart_takeJob p k m x 1 0
  have hloaded : (((s.dev.shown 2 p).takeJob p k m x 1 0).rtpPart p).manifest = some m := by
    rw [hjob, Dev.rtpPart_shown]
    exact hm
  have hseal := Dev.rtpPart_sealJob hloaded
  refine answered_of_run (g := ((s.dev.shown 2 p).takeJob p k m x 1 0).sealJob p) h (exec_jobCreate s p k x)
    (by simp [hm, he, hs, hk, hh]) ⟨?_, fun j hj => ?_, ?_⟩
  · rw [Dev.key_reply, Dev.key_sealJob, Dev.key_takeJob, if_pos rfl]
  · rw [Dev.key_reply, Dev.key_sealJob, Dev.key_takeJob, if_neg hj, Dev.key_shown]
  · rw [Dev.rtpPart_reply, hseal, hjob]
    exact ⟨rfl, rfl, rfl, rfl⟩

end

/-! ### `JOB_JOIN` -/

/-- The device once a join toward `dest` is under way. -/
def Dev.joinBegun (d : Dev) (p dest k : Nat) (ks : List Nat) : Dev :=
  let d := d.setRtpPart p { d.rtpPart p with joining := some (dest, k, ks) }
  { d with rtp := { d.rtp with busy := true, cmd := some { op := 3, part := p, bytes := [] } } }

theorem Dev.joinBegun_leaves (d : Dev) (p dest k : Nat) (ks : List Nat) : (d.joinBegun p dest k ks).rtp.busy = true ∧
    ((d.joinBegun p dest k ks).rtpPart p).joining = some (dest, k, ks) ∧ (d.joinBegun p dest k ks).rtp.relayed = d.rtp.relayed ∧
    (d.joinBegun p dest k ks).keys = d.keys ∧ (d.joinBegun p dest k ks).dues = d.dues ∧
    ∀ g, (d.joinBegun p dest k ks).nextHop g = d.nextHop g :=
  ⟨rfl, congrArg RtpPart.joining ((Dev.rtpPart_setRtpPart ..).trans (if_pos rfl)), rfl, rfl, rfl,
    Dev.nextHop_congr (a := d.joinBegun p dest k ks) (fun _ _ => rfl) rfl⟩

section
variable (h : s.dev.looksAt s.fuses.lc 3 p) {m : Manifest} {dest k : Nat} {ks : List Nat}
  (hm : (s.dev.rtpPart p).manifest = some m) (hr : s.dev.rtp.revoked.contains m.mh = false)
  (he : manifestExpired m s.dev.calendar = false) (hk : s.dev.slotsRefusal p (k :: ks) = none)
  (hh : (s.dev.rtpPart p).held = false) (hj : (s.dev.rtpPart p).joining = none)
include h hm hr he hk hh hj

theorem jobJoin_eq :
    s.dev.jobJoin s.fuses.lc p dest k ks = ((s.dev.shown 3 p).joinBegun p dest k ks).sendRtp dest (.request m.mh) := by
  have hrev : m.mh ∉ s.dev.rtp.revoked := by simpa using hr
  refine (Dev.mailbox_of_looksAt h).trans ?_
  unfold Dev.joinBegun
  simp only [Dev.rtpPart_shown, hm, Dev.slotsRefusal_shown, hk, Dev.rtp_shown, Dev.calendar_shown, hr, he, hh, hj]
  rfl

theorem jobJoin_good (hq : s.dev.quiet = true) :
    ∃ t, exec (.jobJoin p dest k ks) s = .next t ∧ t.dev.rtp.busy = true ∧ (t.dev.rtpPart p).joining = some (dest, k, ks) ∧
      t.dev.rtp.relayed = s.dev.relays dest (.request m.mh) ∧ t.dev.keys = s.dev.keys := by
  let e := (s.dev.shown 3 p).joinBegun p dest k ks
  obtain ⟨hparts, hbusy, hrelayed, hkeys, hdues⟩ := e.sendRtp_rest dest (.request m.mh)
  obtain ⟨hbusy', hjoining, hrelayed', hkeys', hdues', hhop⟩ := (s.dev.shown 3 p).joinBegun_leaves p dest k ks
  refine ⟨_, exec_of_dues hq (exec_jobJoin s p dest k ks) (jobJoin_eq h hm hr he hk hh hj)
    (hdues.trans (hdues'.trans (s.dev.dues_shown 3 p))), hbusy.trans hbusy', ?_, ?_, hkeys.trans (hkeys'.trans (s.dev.keys_shown 3 p))⟩
  · exact (congrArg RtpPart.joining (Dev.rtpPart_congr hparts p)).trans hjoining
  · rw [hrelayed, Dev.relays, hrelayed', hhop, Dev.rtp_shown, Dev.nextHop_shown, Dev.relays]

end

/-! ### `JOB_RESUME` -/

/-- The data keys of a record that no reset ended (R390). -/
def Sealed.kept (x : Sealed) : List KeySlot := (x.keys.map Prod.snd).filter fun y => !y.expireRst

/-- The job of record `x` in slot `k`, its data keys in slots `ks`. -/
def Dev.jobRestored (d : Dev) (p k : Nat) (ks : List Nat) (m : Manifest) (x : Sealed) : Dev :=
  let d := (d.takeJob p k m x.secret 3 0).resumeKeys k (ks.zip x.kept)
  d.setRtpPart p { d.rtpPart p with ctrs := x.ctrs, tpX := x.tpX, tpM := x.tpM }

theorem Dev.jobRestored_leaves (d : Dev) (p k : Nat) (ks : List Nat) (m : Manifest) (x : Sealed) :
    (k ∉ ks → (d.jobRestored p k ks m x).key k = jobSlot k m x.secret) ∧ (d.jobRestored p k ks m x).rtpPart p =
      { d.rtpPart p with held := true, slot := k, secret := x.secret, origin := 3, admitter := 0, ctrs := x.ctrs,
                         tpX := x.tpX, tpM := x.tpM } := by
  refine ⟨fun hnot => ?_, ?_⟩
  · have hout : k ∉ (ks.zip x.kept).map Prod.fst := fun hmem => by
      obtain ⟨y, hy, hy1⟩ := List.mem_map.1 hmem
      exact hnot (hy1 ▸ (List.of_mem_zip hy).1)
    rw [Dev.jobRestored, Dev.key_setRtpPart, Dev.key_resumeKeys _ _ _ hout, Dev.key_takeJob, if_pos rfl]
  · rw [Dev.jobRestored, Dev.rtpPart_setRtpPart, if_pos rfl, Dev.rtpPart_congr (congrArg Rtp.parts (Dev.rtp_resumeKeys ..)),
      Dev.rtpPart_takeJob]

section
variable (h : s.dev.looksAt s.fuses.lc 4 p) {m : Manifest} {x : Sealed} {k : Nat} {ks : List Nat}
  (hm : (s.dev.rtpPart p).manifest = some m) (hx : (s.dev.rtpPart p).sealedRec = some x) (hmh : x.mh = m.mh)
include h hm hx hmh

theorem jobResume_badTag : Completes (.jobResume p k ks false) s 5 fun f => (f.rtpPart p).sealedRec = none ∧ f.keys = s.dev.keys := by
  refine answered_of_run (g := (s.dev.shown 4 p).setRtpPart p { s.dev.rtpPart p with sealedRec := none }) h
    (exec_jobResume s p k ks false) (by simp [hm, hx, hmh]) ⟨?_, by simp⟩
  rw [Dev.rtpPart_reply, Dev.rtpPart_setRtpPart, if_pos rfl]

variable (hr : s.dev.rtp.revoked.contains m.mh = false) (hi : s.dev.imageAdmitted m = true)
  (he : manifestExpired m s.dev.calendar = false) (hk : s.dev.slotsRefusal p (k :: ks) = none)
  (hh : (s.dev.rtpPart p).held = false) (hl : (x.keys.filter fun y => !y.2.expireRst).length ≤ ks.length)
include hr hi he hk hh hl

theorem jobResume_eq : s.dev.jobResume s.fuses.lc p k ks true = ((s.dev.shown 4 p).jobRestored p k ks m x).answer 0 := by
  have hadmit : ¬ ((s.dev.shown 4 p).rtp.revoked.contains m.mh = true ∨ (!(s.dev.shown 4 p).imageAdmitted m) = true) := by
    rw [Dev.rtp_shown, Dev.imageAdmitted_shown, hr, hi]
    decide
  have hlive : ¬ manifestExpired m (s.dev.shown 4 p).calendar = true := by simp [he]
  have hlen : ¬ ks.length < x.kept.length := by
    simp only [Sealed.kept, List.filter_map, List.length_map, not_lt]
    exact hl
  refine (Dev.mailbox_of_looksAt h).trans ?_
  dsimp only
  rw [Dev.rtpPart_shown, hm, hx]
  refine (if_neg (not_not.2 hmh)).trans ((if_neg (by decide)).trans ((if_neg hadmit).trans ((if_neg hlive).trans ((if_neg hlen).trans ?_))))
  rw [Dev.slotsRefusal_shown, hk]
  exact if_neg (by simp [hh])

theorem jobResume_good : Completes (.jobResume p k ks true) s 0 fun f => (k ∉ ks → f.key k = jobSlot k m x.secret) ∧
    (f.rtpPart p).held = true ∧ (f.rtpPart p).secret = x.secret ∧ (f.rtpPart p).ctrs = x.ctrs ∧ (f.rtpPart p).origin = 3 := by
  obtain ⟨hkey, hpart⟩ := (s.dev.shown 4 p).jobRestored_leaves p k ks m x
  refine completes_of_answer (exec_jobResume s p k ks true) (jobResume_eq h hm hx hmh hr hi he hk hh hl) ⟨fun hnot => ?_, ?_⟩
  · rw [Dev.key_reply, hkey hnot]
  · rw [Dev.rtpPart_reply, hpart]
    exact ⟨rfl, rfl, rfl, rfl⟩

end

/-! ### `JOB_FORGET` and `JOB_EXPIRE` -/

section
variable (h : s.dev.looksAt s.fuses.lc 5 p)
include h

theorem jobForget_absent (hm : (s.dev.rtpPart p).manifest = none) (hx : (s.dev.rtpPart p).sealedRec = none) :
    Completes (.jobForget p) s 5 s.dev.sameKeys :=
  refused_of_run h (exec_jobForget s p) (by simp [hm, hx])

theorem jobForget_good (hm : (s.dev.rtpPart p).manifest ≠ none ∨ (s.dev.rtpPart p).sealedRec ≠ none) :
    Completes (.jobForget p) s 0 fun f => f.rtpPart p = RtpPart.reset ∧
      ((s.dev.rtpPart p).held = true → (s.dev.rtpPart p).slot ≠ 0 → ∀ e ∈ s.dev.keys, (s.dev.key e.1).job = (s.dev.rtpPart p).slot →
        e.1 ≠ 0 → e.2 = s.dev.key e.1 → f.key e.1 = KeySlot.reset e.1) := by
  refine answered_of_run (g := (s.dev.shown 5 p).forgetJob p) h (exec_jobForget s p)
    (if_neg ?_) ⟨?_, fun hh _ e he hj h0 heq => ?_⟩
  · simp only [Dev.rtpPart_shown, Option.isNone_iff_eq_none, not_and_or]
    exact hm
  · rw [Dev.rtpPart_reply, Dev.rtpPart_forgetJob]
  · rw [Dev.key_reply]
    exact Dev.key_forgetJob (by simpa using hh) (by simpa using he) (by rw [heq, hj, Dev.rtpPart_shown]) h0

end

theorem jobExpire_due {m : Manifest} (hm : (s.dev.rtpPart p).manifest = some m) (hup : s.dev.rtpUp = true)
    (he : manifestExpired m s.dev.calendar = true) :
    ∃ f : Dev, exec (.jobExpire p) s = .next (s.withDev f.settle) ∧ f.rtpPart p = RtpPart.reset ∧ f.mem = s.dev.mem :=
  ⟨_, exec_of_effect (exec_jobExpire s p) (d := s.dev.forgetJob p) (by simp [Dev.jobExpire, hm, hup, he]),
    s.dev.rtpPart_forgetJob p, s.dev.mem_forgetJob p⟩

theorem jobExpire_idle (hq : s.dev.quiet = true) (h : (s.dev.rtpPart p).manifest = none ∨ s.dev.rtpUp = false ∨
    ∃ m, (s.dev.rtpPart p).manifest = some m ∧ manifestExpired m s.dev.calendar = false) : exec (.jobExpire p) s = .next s := by
  refine exec_of_idle hq (exec_jobExpire s p) ?_
  rcases h with hm | hup | ⟨m, hm, he⟩
  · simp [Dev.jobExpire, hm]
  · cases hm : (s.dev.rtpPart p).manifest <;> simp [Dev.jobExpire, hm, hup]
  · simp [Dev.jobExpire, hm, he]

/-! ### `SLOT_ALLOC` -/

/-- The slot of a work key of the job in slot `j`. -/
def workSlot (j : Nat) (b : Bool) (secret : Nat) : KeySlot :=
  { KeySlot.reset 1 with typ := 3, valid := true, job := j, expireRst := b, secret := secret }

section
variable (h : s.dev.looksAt s.fuses.lc 6 p) {k j : Nat} {b : Bool}
include h

theorem slotAlloc_badSlot {st : Nat} (hk : s.dev.slotRefusal p k = some st) : Completes (.slotAlloc p k j b) s st s.dev.sameKeys :=
  refused_of_run h (exec_slotAlloc s p k j b) (by simp [hk])

theorem slotAlloc_noJob (hk : s.dev.slotRefusal p k = none) (hj : s.dev.keyValid p j = false ∨ (s.dev.key j).typ ≠ 2) :
    Completes (.slotAlloc p k j b) s 5 s.dev.sameKeys :=
  refused_of_run h (exec_slotAlloc s p k j b) (by
    simp only [Dev.slotRefusal_shown, hk, Dev.keyValid_shown, Dev.key_shown]
    exact if_pos (by simpa using hj))

theorem slotAlloc_good (hk : s.dev.slotRefusal p k = none) (hv : s.dev.keyValid p j = true) (ht : (s.dev.key j).typ = 2) :
    Completes (.slotAlloc p k j b) s 0 fun f => (f.key k).typ = 3 ∧ (f.key k).valid = true ∧ (f.key k).job = j ∧
      (f.key k).expireRst = b ∧ (∀ i, i ≠ k → f.key i = s.dev.key i) ∧ f.rtp.parts = s.dev.rtp.parts := by
  have hkey (i : Nat) : (((s.dev.shown 6 p).secret.2.setKey k (workSlot j b (s.dev.shown 6 p).secret.1)).reply 0 []).key i =
      if i = k then workSlot j b (s.dev.shown 6 p).secret.1 else s.dev.key i := by
    rw [Dev.key_reply, Dev.key_setKey]
    exact congrArg (ite _ _) (Dev.key_shown ..)
  refine answered_of_run (g := (s.dev.shown 6 p).secret.2.setKey k (workSlot j b (s.dev.shown 6 p).secret.1)) h
    (exec_slotAlloc s p k j b) (by simp [hk, hv, ht, workSlot]) ?_
  simp only [hkey, if_pos]
  exact ⟨rfl, rfl, rfl, rfl, fun i hi => if_neg hi, by simp [Dev.secret]⟩

end

/-! ### `SLOT_FREE` -/

section
variable (h : s.dev.looksAt s.fuses.lc 7 p) {k : Nat}
include h

theorem slotFree_outside (hk : k = 0 ∨ 4096 ≤ k ∨ rangePart s.dev.parts 4096 k ≠ p) :
    Completes (.slotFree p k) s 8 s.dev.sameKeys :=
  refused_of_run h (exec_slotFree s p k) (if_pos (by simpa using hk))

variable (h0 : k ≠ 0) (hlt : k < 4096) (hp : rangePart s.dev.parts 4096 k = p)
include h0 hlt hp

theorem slotFree_free (ht : (s.dev.key k).typ = 0) : Completes (.slotFree p k) s 1 s.dev.sameKeys :=
  refused_of_run h (exec_slotFree s p k) (by simp [h0, Nat.not_le.2 hlt, hp, ht])

theorem slotFree_good (ht : (s.dev.key k).typ ≠ 0) : Completes (.slotFree p k) s 0 fun f => f.key k = KeySlot.reset k ∧
    ((s.dev.rtpPart p).held = true → (s.dev.rtpPart p).slot = k → (f.rtpPart p).held = false) := by
  let e := ((s.dev.shown 7 p).invalidateOther k).freeKey k
  let job : Bool := (s.dev.rtpPart p).held && (s.dev.rtpPart p).slot = k
  refine answered_of_run (g := if job then e.setRtpPart p { e.rtpPart p with held := false } else e) h (exec_slotFree s p k)
    (by simp [h0, Nat.not_le.2 hlt, hp, ht, e, job]) ⟨?_, fun hh hslot => ?_⟩
  · rw [Dev.key_reply, apply_ite (fun a : Dev => a.key k), Dev.key_setRtpPart, ite_self, Dev.key_freeKey _ h0]
  · have hjob : job = true := by simp [job, hh, hslot]
    rw [Dev.rtpPart_reply, if_pos hjob, Dev.rtpPart_setRtpPart, if_pos rfl]

end

end Sys2Proof.Machine
end

section
/-! SUPPORT. Owners' keys (13 R402, R403) and evidence (R396): what the commands of the owners are answered with, and what they leave. -/

namespace Sys2Proof.Machine

variable (s : State) (p : Nat)

/-- The row that delivers transport `x`. -/
abbrev keyTransportRow (p k ln : Nat) (x : Transport) (sig : DualSig) : Instr :=
  .keyTransport p k ln x.toTransportHead x.mh x.idh x.env sig

/-- The row that delivers update `x`. -/
abbrev keyUpdateRow (p ln : Nat) (x : KeyUpdate) (sig : DualSig) : Instr :=
  .keyUpdate p ln x.toUpdateHead x.mh x.idh x.counter x.keyId x.uses sig

theorem exec_keyTransport (k ln : Nat) (x : Transport) (sig : DualSig) :
    exec (keyTransportRow p k ln x sig) s = s.after fun d => d.keyTransport s.fuses.lc p k ln x sig := rfl

theorem exec_keyUpdate (ln : Nat) (x : KeyUpdate) (sig : DualSig) :
    exec (keyUpdateRow p ln x sig) s = s.after fun d => d.keyUpdate s.fuses.lc p ln x sig := rfl

theorem exec_evidence (n : Nat) : exec (.evidence p n) s = s.after fun d => d.evidence s.fuses.lc p n := rfl

variable {s} {p}

/-! ### `KEY_TRANSPORT` -/

/-- A transport of the length, magic and form of Table 13-7. -/
def transportFormed (x : Transport) (ln : Nat) : Prop :=
  ln = 4761 ∧ x.magic = 0x10B34B01 ∧ x.rsvd = 0 ∧ x.env.body.length = 48

theorem transportFormed_iff {x : Transport} {ln : Nat} :
    transportFormed x ln ↔ ¬ (ln ≠ 4761 ∨ x.magic ≠ 0x10B34B01 ∨ x.rsvd ≠ 0 ∨ x.env.body.length ≠ 48) := by
  unfold transportFormed
  tauto

section
variable (h : s.dev.looksAt s.fuses.lc 8 p) {k ln : Nat} {x : Transport} {sig : DualSig}
include h

theorem keyTransport_unformed (hx : ¬ transportFormed x ln) :
    Completes (keyTransportRow p k ln x sig) s 1 s.dev.sameKeys :=
  refused_of_run h (exec_keyTransport s p k ln x sig) (if_pos (not_not.1 (mt transportFormed_iff.2 hx)))

variable (hx : transportFormed x ln)
include hx

theorem keyTransport_noJob (hj : s.dev.jobIs p x.mh = none) :
    Completes (keyTransportRow p k ln x sig) s 5 s.dev.sameKeys :=
  refused_of_run h (exec_keyTransport s p k ln x sig) ((if_neg (transportFormed_iff.1 hx)).trans (by simp [hj]))

variable {m : Manifest} (hj : s.dev.jobIs p x.mh = some m)
include hj

theorem keyTransport_otherDevice (hi : x.idh ≠ ownIdh s.fuses.lc) :
    Completes (keyTransportRow p k ln x sig) s 4 s.dev.sameKeys :=
  refused_of_run h (exec_keyTransport s p k ln x sig) ((if_neg (transportFormed_iff.1 hx)).trans (by simp [hj, hi]))

variable (hi : x.idh = ownIdh s.fuses.lc) (ho : x.owner < m.n)
include hi ho

theorem keyTransport_unsigned (hsig : sigOk sig = false) :
    Completes (keyTransportRow p k ln x sig) s 2 s.dev.sigCounted :=
  failed_of_run (n := 8) (x := sig) h (exec_keyTransport s p k ln x sig)
    ((if_neg (transportFormed_iff.1 hx)).trans (by simp [hj, hi, Nat.not_le.2 ho, hsig]))

variable (hsig : sigOk sig = true)
include hsig

theorem keyTransport_sealed
    (hopen : openUnder ((s.dev.rtpPart p).hybridFrom transportLabel x.mh (ownIdh s.fuses.lc) x.env.eph x.env.ct) x.env.body = none) :
    Completes (keyTransportRow p k ln x sig) s 1 s.dev.sameKeys :=
  refused_of_run h (exec_keyTransport s p k ln x sig)
    ((if_neg (transportFormed_iff.1 hx)).trans (by simp [hj, hi, Nat.not_le.2 ho, hsig, unwrapped, hopen]))

theorem keyTransport_good {bs : List Byte}
    (hopen : openUnder ((s.dev.rtpPart p).hybridFrom transportLabel x.mh (ownIdh s.fuses.lc) x.env.eph x.env.ct) x.env.body = some bs)
    (hk : s.dev.slotRefusal p k = none) :
    Completes (keyTransportRow p k ln x sig) s 0 fun f =>
      f.key k = dataSlot (s.dev.rtpPart p).slot { dk := leNat bs, owner := x.owner, uses := x.uses, expireRst := x.expireRst } ∧
      (∀ i, i ≠ k → f.key i = s.dev.key i) ∧ f.rtp.parts = s.dev.rtp.parts ∧ f.rtp.replyLen = 16 ∧
      f.getBuf 16 = leBytes 16 (keyFingerprint (leNat bs)) := by
  let y : DataKey := { dk := leNat bs, owner := x.owner, uses := x.uses, expireRst := x.expireRst }
  refine completes_of_run (g := (s.dev.shown 8 p).setKey k (dataSlot (s.dev.rtpPart p).slot y))
    (bs := leBytes 16 (keyFingerprint (leNat bs))) h (exec_keyTransport s p k ln x sig)
    ((if_neg (transportFormed_iff.1 hx)).trans (by simp [hj, hi, Nat.not_le.2 ho, hsig, unwrapped, hopen, hk, y]))
    ⟨?_, fun i hik => ?_, by simp, by simp, ?_⟩
  · rw [Dev.key_reply, Dev.key_setKey, if_pos rfl]
  · rw [Dev.key_reply, Dev.key_setKey, if_neg hik, Dev.key_shown]
  · refine (Dev.getBuf_reply (m := 2) _ _ _ (by simp) (by decide)).trans (List.take_of_length_le (by simp))

end

/-! ### `KEY_UPDATE` -/

/-- An update of the length, magic and form of Table 13-8. -/
def updateFormed (x : KeyUpdate) (ln : Nat) : Prop := ln = 3509 ∧ x.magic = 0x10B35501 ∧ x.rsvd = 0

theorem updateFormed_iff {x : KeyUpdate} {ln : Nat} :
    updateFormed x ln ↔ ¬ (ln ≠ 3509 ∨ x.magic ≠ 0x10B35501 ∨ x.rsvd ≠ 0) := by
  unfold updateFormed
  tauto

/-- The counter that an owner's next update carries (R403). -/
def Dev.nextCounter (d : Dev) (p owner : Nat) : Nat := Sparse.get (fun _ => 0) (d.rtpPart p).ctrs owner + 1

/-- The owner's counter is taken. -/
def Dev.counterTaken (d : Dev) (p owner n : Nat) : Dev :=
  d.setRtpPart p { d.rtpPart p with ctrs := Sparse.set (fun _ => 0) (d.rtpPart p).ctrs owner n }

/-- The update's operation on every slot that it names. -/
def Dev.updated (d : Dev) (p : Nat) (x : KeyUpdate) : Dev :=
  (d.slotsOf p x.keyId x.owner).foldl (fun d k => d.applyUpdate x.op x.uses k) d

theorem Dev.mem_slotsOf {d : Dev} {p k owner keyId : Nat} {y : KeySlot} (hy : (k, y) ∈ d.keys)
    (hp : rangePart d.parts 4096 k = p) (ht : y.typ = 4) (ho : y.owner = owner) (hf : keyFingerprint y.secret = keyId) :
    k ∈ d.slotsOf p keyId owner :=
  List.mem_map.2 ⟨(k, y), List.mem_filter.2 ⟨hy, by simp [hp, ht, ho, hf]⟩, rfl⟩

theorem Dev.rtp_applyUpdate (d : Dev) (op uses k : Nat) : (d.applyUpdate op uses k).rtp = d.rtp := by
  unfold Dev.applyUpdate
  split
  · exact (d.rtp_invalidate k 1).1
  · rfl
  · rfl

theorem Dev.rtp_updated (d : Dev) (p : Nat) (x : KeyUpdate) : (d.updated p x).rtp = d.rtp :=
  foldl_keeps Dev.rtp (fun _ _ => Dev.rtp_applyUpdate ..) _ _

section
variable {d : Dev} {x : KeyUpdate} {k : Nat} (hk : k ∈ d.slotsOf p x.keyId x.owner)
include hk

theorem Dev.valid_updated (h0 : k ≠ 0) (hop : x.op = 1) : ((d.updated p x).key k).valid = false := by
  refine foldl_of_mem (P := fun a : Dev => (a.key k).valid = false) (fun a => ?_) (fun a j ha => ?_) hk d
  · rw [hop]
    exact a.valid_invalidate_of_dropped (a.valid_dropKey h0 1)
  · rw [hop]
    exact a.valid_invalidate_of_dropped (Dev.valid_dropKey_of_invalid ha j 1)

theorem Dev.uses_updated (hop : x.op = 2) : ((d.updated p x).key k).uses = x.uses % 2 ^ 32 := by
  have hkey (a : Dev) (j : Nat) : (a.applyUpdate x.op x.uses j).key k =
      if k = j then { a.key j with uses := x.uses % 2 ^ 32 } else a.key k := by
    rw [hop]
    exact Dev.key_setKey ..
  refine foldl_of_mem (P := fun a : Dev => (a.key k).uses = x.uses % 2 ^ 32) (fun a => ?_) (fun a j ha => ?_) hk d
  · rw [hkey, if_pos rfl]
  · rw [hkey]
    split
    · rfl
    · exact ha

theorem Dev.expireRst_updated (hop : x.op = 3) : ((d.updated p x).key k).expireRst = decide (x.uses % 2 = 1) := by
  have hkey (a : Dev) (j : Nat) : (a.applyUpdate x.op x.uses j).key k =
      if k = j then { a.key j with expireRst := decide (x.uses % 2 = 1) } else a.key k := by
    rw [hop]
    exact Dev.key_setKey ..
  refine foldl_of_mem (P := fun a : Dev => (a.key k).expireRst = decide (x.uses % 2 = 1)) (fun a => ?_) (fun a j ha => ?_) hk d
  · rw [hkey, if_pos rfl]
  · rw [hkey]
    split
    · rfl
    · exact ha

end

section
variable (h : s.dev.looksAt s.fuses.lc 9 p) {ln : Nat} {x : KeyUpdate} {sig : DualSig}
include h

theorem keyUpdate_unformed (hx : ¬ updateFormed x ln) :
    Completes (keyUpdateRow p ln x sig) s 1 s.dev.sameKeys :=
  refused_of_run h (exec_keyUpdate s p ln x sig) (if_pos (not_not.1 (mt updateFormed_iff.2 hx)))

variable (hx : updateFormed x ln)
include hx

theorem keyUpdate_noJob (hj : s.dev.jobIs p x.mh = none) :
    Completes (keyUpdateRow p ln x sig) s 5 s.dev.sameKeys :=
  refused_of_run h (exec_keyUpdate s p ln x sig) ((if_neg (updateFormed_iff.1 hx)).trans (by simp [hj]))

variable {m : Manifest} (hj : s.dev.jobIs p x.mh = some m) (h1 : 1 ≤ x.op) (h3 : x.op ≤ 3) (ho : x.owner < m.n)
  (hi : x.idh = ownIdh s.fuses.lc)
include hj h1 h3 ho hi

/-- What is left of the row once its first gates are passed. -/
theorem keyUpdate_eq : s.dev.keyUpdate s.fuses.lc p ln x sig =
    if x.counter ≠ s.dev.nextCounter p x.owner then
      ((s.dev.shown 9 p).record 0 0x0403 .hub 1 (some p) (x.owner + x.counter * 2 ^ 8)).answer 0x03
    else if !sigOk sig then (s.dev.shown 9 p).sigFail 9 sig
    else ((((s.dev.shown 9 p).counterTaken p x.owner x.counter).updated p x).sealJob p).answer 0 := by
  have hgate : ¬ (x.op = 0 ∨ 3 < x.op ∨ m.n ≤ x.owner) := by omega
  refine (Dev.mailbox_of_looksAt h).trans ((if_neg (updateFormed_iff.1 hx)).trans ?_)
  rw [Dev.jobIs_shown, hj]
  refine (if_neg hgate).trans ((if_neg (not_not.2 hi)).trans ?_)
  rw [Dev.nextCounter, ← s.dev.rtpPart_shown 9 p p]
  rfl

theorem keyUpdate_outOfOrder (hc : x.counter ≠ s.dev.nextCounter p x.owner) :
    Completes (keyUpdateRow p ln x sig) s 3 fun f =>
      s.dev.sameKeys f ∧ f.log.seq = s.dev.log.seq + 1 :=
  completes_of_answer (exec_keyUpdate s p ln x sig) ((keyUpdate_eq h hx hj h1 h3 ho hi).trans (if_pos hc))
    ⟨Dev.sameKeys_of_eq (by simp) (by simp) (by simp) (by simp) (by simp), by simp⟩

variable (hc : x.counter = s.dev.nextCounter p x.owner)
include hc

theorem keyUpdate_unsigned (hsig : sigOk sig = false) :
    Completes (keyUpdateRow p ln x sig) s 2 s.dev.sigCounted :=
  completes_of_sigFail (exec_keyUpdate s p ln x sig)
    ((keyUpdate_eq h hx hj h1 h3 ho hi).trans ((if_neg (not_not.2 hc)).trans (if_pos (by simp [hsig]))))

theorem keyUpdate_good (hsig : sigOk sig = true) :
    Completes (keyUpdateRow p ln x sig) s 0 fun f =>
      Sparse.get (fun _ => 0) (f.rtpPart p).ctrs x.owner = x.counter ∧
      ∀ k, (s.dev.key k).typ = 4 → keyFingerprint (s.dev.key k).secret = x.keyId → (s.dev.key k).owner = x.owner →
        rangePart s.dev.parts 4096 k = p → (k, s.dev.key k) ∈ s.dev.keys → k ≠ 0 → (x.op = 1 → (f.key k).valid = false) ∧
          (x.op = 2 → (f.key k).uses = x.uses % 2 ^ 32) ∧ (x.op = 3 → (f.key k).expireRst = decide (x.uses % 2 = 1)) := by
  let e := (s.dev.shown 9 p).counterTaken p x.owner x.counter
  refine completes_of_answer (g := (e.updated p x).sealJob p) (exec_keyUpdate s p ln x sig)
    ((keyUpdate_eq h hx hj h1 h3 ho hi).trans ((if_neg (not_not.2 hc)).trans (if_neg (by simp [hsig])))) ⟨?_, ?_⟩
  · rw [Dev.rtpPart_reply, Dev.ctrs_sealJob, Dev.rtpPart_congr (congrArg Rtp.parts (e.rtp_updated p x))]
    simp only [e, Dev.counterTaken, Dev.rtpPart_setRtpPart, if_pos, Sparse.get_set_self]
  · intro k ht hf howner hp hmem h0
    have hparts : e.parts = s.dev.parts := s.dev.parts_shown 9 p
    have hkeys : e.keys = s.dev.keys := s.dev.keys_shown 9 p
    have hk : k ∈ e.slotsOf p x.keyId x.owner := Dev.mem_slotsOf (hkeys ▸ hmem) (hparts ▸ hp) ht howner hf
    rw [Dev.key_reply, Dev.key_sealJob]
    exact ⟨Dev.valid_updated hk h0, Dev.uses_updated hk, Dev.expireRst_updated hk⟩

end

/-! ### `EVIDENCE` -/

theorem Dev.length_evidenceBody (d : Dev) (lc : LifeCycle) (p n : Nat) : (d.evidenceBody lc p n).length = 1536 := by
  unfold Dev.evidenceBody
  simp only [List.length_append, leBytes_length]
  rfl

theorem evidence_good (h : s.dev.looksAt s.fuses.lc 0x0B p) (n : Nat) : Completes (.evidence p n) s 0 fun f =>
    f.rtp.replyLen = 4909 ∧ f.getBuf 1536 = s.dev.evidenceBody s.fuses.lc p n ∧ s.dev.sameKeys f := by
  have hbody : (s.dev.shown 0x0B p).draw.2.evidenceBody s.fuses.lc p n = s.dev.evidenceBody s.fuses.lc p n :=
    s.dev.evidenceBody_shown 0x0B p s.fuses.lc p n
  have hlen := s.dev.length_evidenceBody s.fuses.lc p n
  refine completes_of_run (g := (s.dev.shown 0x0B p).draw.2)
    (bs := (s.dev.shown 0x0B p).draw.2.evidenceBody s.fuses.lc p n ++ leBytes 3373 (s.dev.shown 0x0B p).draw.1) h (exec_evidence s p n) rfl
    ⟨?_, ?_, Dev.sameKeys_of_eq (by simp) (by simp) (by simp) (by simp) (by simp)⟩
  · simp only [Dev.reply_rest, List.length_append, Dev.length_evidenceBody, leBytes_length]
    decide
  · rw [hbody]
    refine (Dev.getBuf_reply (m := 192) _ _ _ (by simp [hlen]) (by decide)).trans ?_
    exact List.take_left' hlen

end Sys2Proof.Machine
end

section
/-! SUPPORT. Quorum release (13 R406 to R408): the gates, the slots of a release of kind 1, what a revocation leaves. -/

namespace Sys2Proof.Machine

/-- The row that delivers release `x`. -/
abbrev quorumReleaseRow (p : Nat) (x : Release) : Instr :=
  .quorumRelease p x.kind x.mh x.release x.step x.notAfter x.toReleaseForm x.entries

theorem exec_quorumRelease (s : State) (p : Nat) (x : Release) :
    exec (quorumReleaseRow p x) s =
      s.after fun d => d.quorumRelease s.fuses.lc p x := rfl

variable {d : Dev}

/-! ### Releases accepted before -/

/-- The device has accepted release `l` of job `mh`, in some partition. -/
def Dev.accepted (d : Dev) (mh l : Nat) : Prop :=
  ∃ e ∈ d.rtp.parts, e.2.manifest.map Manifest.mh = some mh ∧ e.2.lastRelease = some l

theorem Dev.released_iff {mh n : Nat} : d.released mh n = true ↔ ∃ l, d.accepted mh l ∧ n ≤ l := by
  simp only [Dev.released, Dev.accepted, List.any_eq_true, Bool.and_eq_true, decide_eq_true_eq]
  constructor
  · rintro ⟨e, he, hm, hl⟩
    cases hr : e.2.lastRelease with
    | none => rw [hr] at hl; cases hl
    | some l =>
      rw [hr] at hl
      exact ⟨l, ⟨e, he, hm, hr⟩, of_decide_eq_true hl⟩
  · rintro ⟨l, ⟨e, he, hm, hr⟩, hl⟩
    exact ⟨e, he, hm, by rw [hr]; exact decide_eq_true hl⟩

/-! ### Free slots -/

theorem Dev.rangePart_of_freeSlot {q k : Nat} (h : d.freeSlot q = some k) : rangePart d.parts 4096 k = q := by
  obtain ⟨i, hi, rfl⟩ := List.mem_map.1 (List.mem_of_find?_eq_some h)
  have hlt := List.mem_range.1 hi
  rw [rangePart, Nat.mul_comm, Nat.mul_add_div (Nat.zero_lt_of_lt hlt), Nat.div_eq_of_lt hlt, Nat.add_zero]

theorem Dev.nodup_holders (d : Dev) (mh : Nat) : (d.holders mh).Nodup := List.nodup_range.filter _

/-- The free slot of a partition depends on the slots of its range. -/
theorem Dev.freeSlot_congr {a b : Dev} {q : Nat} (hp : a.parts = b.parts)
    (hk : ∀ k, rangePart b.parts 4096 k = q → a.key k = b.key k) : a.freeSlot q = b.freeSlot q := by
  unfold Dev.freeSlot
  rw [hp]
  refine List.find?_congr fun k hmem => ?_
  obtain ⟨i, hi, rfl⟩ := List.mem_map.1 hmem
  have hlt := List.mem_range.1 hi
  rw [hk]
  rw [rangePart, Nat.mul_comm, Nat.mul_add_div (Nat.zero_lt_of_lt hlt), Nat.div_eq_of_lt hlt, Nat.add_zero]

theorem Dev.freeSlot_setKey_other {q j : Nat} (hj : rangePart d.parts 4096 j ≠ q) (x : KeySlot) :
    (d.setKey j x).freeSlot q = d.freeSlot q :=
  Dev.freeSlot_congr rfl fun k hk => by
    rw [Dev.key_setKey, if_neg]
    rintro rfl
    exact hj hk

/-! ### The slots of a release -/

section
variable (secret release step notAfter : Nat)

theorem exportKey_fields (job : Nat) : (exportKey job secret release step notAfter).typ = 5 ∧
    (exportKey job secret release step notAfter).valid = true ∧ (exportKey job secret release step notAfter).uses = 1 ∧
    (exportKey job secret release step notAfter).link = release ∧ (exportKey job secret release step notAfter).notAfter = notAfter ∧
    (exportKey job secret release step notAfter).secret = secret :=
  ⟨rfl, rfl, rfl, rfl, rfl, rfl⟩

/-- Slots outside the ranges of the holding partitions are as before. -/
theorem Dev.key_installExport_other (d : Dev) {k : Nat} {qs : List Nat} (h : rangePart d.parts 4096 k ∉ qs) :
    (d.installExport secret release step notAfter qs).key k = d.key k := by
  induction qs generalizing d with
  | nil => rfl
  | cons q qs ih =>
    simp only [List.mem_cons, not_or] at h
    rw [Dev.installExport]
    split
    · next j hj =>
      have hne : k ≠ j := by
        rintro rfl
        exact h.1 (Dev.rangePart_of_freeSlot hj)
      exact (ih (d.setKey j _) h.2).trans ((Dev.key_setKey ..).trans (if_neg hne))
    · exact ih d h.2

/-- Each holding partition gets the release's key in the lowest free slot of its range. -/
theorem Dev.key_installExport (d : Dev) {q k : Nat} {qs : List Nat} (hn : qs.Nodup) (hq : q ∈ qs)
    (hk : d.freeSlot q = some k) :
    ∃ job, (d.installExport secret release step notAfter qs).key k = exportKey job secret release step notAfter := by
  induction qs generalizing d with
  | nil => cases hq
  | cons r qs ih =>
    obtain ⟨hr, hn⟩ := List.nodup_cons.1 hn
    rw [Dev.installExport]
    rcases List.mem_cons.1 hq with rfl | hq
    · rw [hk]
      have hout : rangePart d.parts 4096 k ∉ qs := (Dev.rangePart_of_freeSlot hk).symm ▸ hr
      exact ⟨_, (Dev.key_installExport_other _ _ _ _ (d.setKey k _) hout).trans ((Dev.key_setKey ..).trans (if_pos rfl))⟩
    · split
      · next j hj =>
        refine ih (d.setKey j _) hn hq ?_
        rw [Dev.freeSlot_setKey_other, hk]
        rw [Dev.rangePart_of_freeSlot hj]
        rintro rfl
        exact hr hq
      · exact ih d hn hq hk

theorem Dev.installExport_rest (d : Dev) (qs : List Nat) : (d.installExport secret release step notAfter qs).rtp = d.rtp ∧
    (d.installExport secret release step notAfter qs).log = d.log := by
  induction qs generalizing d with
  | nil => exact ⟨rfl, rfl⟩
  | cons q qs ih =>
    rw [Dev.installExport]
    split
    · exact ih (d.setKey _ _)
    · exact ih d

end

/-! ### The release is noted -/

/-- The release becomes the last that partition `q` has accepted. -/
def Dev.noteRelease (n : Nat) (d : Dev) (q : Nat) : Dev := d.setRtpPart q { d.rtpPart q with lastRelease := some n }

/-- The release becomes the last of every holding partition, entry 0x0407. -/
def Dev.releaseNoted (d : Dev) (p : Nat) (x : Release) (qs : List Nat) : Dev :=
  (qs.foldl (Dev.noteRelease x.release) d).record 0 0x0407 .hub 1 (some p) (x.release % 2 ^ 32 + x.kind * 2 ^ 32)

theorem Dev.releaseNoted_rest (d : Dev) (p : Nat) (x : Release) (qs : List Nat) : (d.releaseNoted p x qs).keys = d.keys ∧
    (d.releaseNoted p x qs).rtp.drawn = d.rtp.drawn ∧ (d.releaseNoted p x qs).parts = d.parts ∧
    (d.releaseNoted p x qs).log.seq = d.log.seq + 1 := by
  have hkeys : (qs.foldl (Dev.noteRelease x.release) d).keys = d.keys :=
    foldl_keeps Dev.keys (f := Dev.noteRelease x.release) (fun _ _ => rfl) qs d
  have hdrawn : (qs.foldl (Dev.noteRelease x.release) d).rtp.drawn = d.rtp.drawn :=
    foldl_keeps (fun a : Dev => a.rtp.drawn) (f := Dev.noteRelease x.release) (fun _ _ => rfl) qs d
  have hparts : (qs.foldl (Dev.noteRelease x.release) d).parts = d.parts :=
    foldl_keeps Dev.parts (f := Dev.noteRelease x.release) (fun _ _ => rfl) qs d
  have hseq : (qs.foldl (Dev.noteRelease x.release) d).log.seq = d.log.seq :=
    foldl_keeps (fun a : Dev => a.log.seq) (f := Dev.noteRelease x.release) (fun _ _ => rfl) qs d
  unfold Dev.releaseNoted
  refine ⟨by simp [hkeys], by simp [hdrawn], (Dev.parts_of_reg (Dev.reg_record_zero ..)).trans hparts, by simp [hseq]⟩

theorem Dev.lastRelease_releaseNoted (d : Dev) (p : Nat) (x : Release) {q : Nat} {qs : List Nat} (hq : q ∈ qs) :
    ((d.releaseNoted p x qs).rtpPart q).lastRelease = some x.release := by
  rw [Dev.releaseNoted, Dev.rtpPart_record]
  refine foldl_of_mem (P := fun a : Dev => (a.rtpPart q).lastRelease = some x.release) (fun a => ?_) (fun a r ha => ?_) hq d
  · rw [Dev.noteRelease, Dev.rtpPart_setRtpPart, if_pos rfl]
  · rw [Dev.noteRelease, Dev.rtpPart_setRtpPart]
    split
    · rfl
    · exact ha

/-- The hybrid key depends on the secrets drawn before. -/
theorem Dev.hybridTo_congr {a b : Dev} (h : a.rtp.drawn = b.rtp.drawn) (l : List Nat) (mh idh x m : Nat) :
    (a.hybridTo l mh idh x m).1 = (b.hybridTo l mh idh x m).1 := by
  simp only [Dev.hybridTo, Dev.secret, h]

/-- The hybrid key of a release toward its recipient (R407). -/
def Dev.exportHybrid (d : Dev) (lc : LifeCycle) (x : Release) : Hybrid :=
  (d.hybridTo (exportLabel x.release x.step) x.mh (ownIdh lc) x.rX x.rM).1

/-- The device with the slots of a release in each holding partition. -/
def Dev.exported (d : Dev) (lc : LifeCycle) (x : Release) (qs : List Nat) : Dev :=
  (d.hybridTo (exportLabel x.release x.step) x.mh (ownIdh lc) x.rX x.rM).2.installExport (d.exportHybrid lc x).key x.release x.step
    x.notAfter qs

theorem Dev.releaseExport_eq (d : Dev) (lc : LifeCycle) (x : Release) (qs : List Nat) : d.releaseExport lc x qs =
    ((d.exported lc x qs).recipientHeader lc x.release x.step (d.exportHybrid lc x)).2.reply 0
      ((d.exported lc x qs).recipientHeader lc x.release x.step (d.exportHybrid lc x)).1 := rfl

theorem Dev.recipientHeader_rest (d : Dev) (lc : LifeCycle) (n step : Nat) (y : Hybrid) :
    (d.recipientHeader lc n step y).2.keys = d.keys ∧ (d.recipientHeader lc n step y).2.rtp = d.rtp ∧
    (d.recipientHeader lc n step y).2.log = d.log :=
  ⟨rfl, rfl, rfl⟩

theorem Dev.exported_rest (d : Dev) (lc : LifeCycle) (x : Release) (qs : List Nat) :
    (d.exported lc x qs).rtp.parts = d.rtp.parts ∧ (d.exported lc x qs).log = d.log := by
  obtain ⟨hrtp, hlog⟩ := Dev.installExport_rest (d.exportHybrid lc x).key x.release x.step x.notAfter
    (d.hybridTo (exportLabel x.release x.step) x.mh (ownIdh lc) x.rX x.rM).2 qs
  exact ⟨(congrArg Rtp.parts hrtp).trans rfl, hlog⟩

/-- Each holding partition gets the hybrid key in the lowest free slot of its range. -/
theorem Dev.key_exported (d : Dev) (lc : LifeCycle) (x : Release) {q k : Nat} {qs : List Nat} (hn : qs.Nodup) (hq : q ∈ qs)
    (hk : d.freeSlot q = some k) :
    ∃ job, (d.exported lc x qs).key k = exportKey job (d.exportHybrid lc x).key x.release x.step x.notAfter :=
  Dev.key_installExport _ _ _ _ _ hn hq ((Dev.freeSlot_congr (b := d) rfl fun _ _ => rfl).trans hk)

/-! ### A job revoked -/

/-- Partition `q` loses the job: its job slot and what that carried, and its record. -/
def Dev.endJob (d : Dev) (q : Nat) : Dev :=
  let d := d.invalidate (d.rtpPart q).slot 5
  d.setRtpPart q { d.rtpPart q with held := false, sealedRec := none }

theorem Dev.rtpPart_endJob (d : Dev) (r q : Nat) :
    (d.endJob r).rtpPart q = if q = r then { d.rtpPart r with held := false, sealedRec := none } else d.rtpPart q := by
  have hpart (i : Nat) : (d.invalidate (d.rtpPart r).slot 5).rtpPart i = d.rtpPart i :=
    Dev.rtpPart_congr (congrArg Rtp.parts (d.rtp_invalidate _ 5).1) i
  rw [Dev.endJob, Dev.rtpPart_setRtpPart, hpart, hpart]

theorem Dev.rtpPart_revoke (d : Dev) (mh : Nat) {q : Nat} {qs : List Nat} (hq : q ∈ qs) :
    ((d.revoke mh qs).rtpPart q).held = false ∧ ((d.revoke mh qs).rtpPart q).sealedRec = none := by
  have hended : ((qs.foldl Dev.endJob d).rtpPart q).held = false ∧ ((qs.foldl Dev.endJob d).rtpPart q).sealedRec = none := by
    refine foldl_of_mem (P := fun a : Dev => (a.rtpPart q).held = false ∧ (a.rtpPart q).sealedRec = none) (fun a => ?_)
      (fun a r ha => ?_) hq d
    · rw [Dev.rtpPart_endJob, if_pos rfl]
      exact ⟨rfl, rfl⟩
    · rw [Dev.rtpPart_endJob]
      split
      · exact ⟨rfl, rfl⟩
      · exact ha
  have hread : (d.revoke mh qs).rtpPart q = ((qs.foldl Dev.endJob d).rtpPart q).unsealed mh :=
    Sparse.get_map (fun _ => RtpPart.reset) (fun r : RtpPart => r.unsealed mh) (qs.foldl Dev.endJob d).rtp.parts q rfl
  rw [hread, RtpPart.unsealed, hended.2]
  exact hended

theorem Dev.mem_revoked_revoke (d : Dev) (mh : Nat) (qs : List Nat) : mh ∈ (d.revoke mh qs).rtp.revoked := mem_insNat mh _

/-! ### `QUORUM_RELEASE` -/

/-- A release of the magic and form of Table 13-9. -/
def releaseFormed (x : Release) : Prop :=
  x.magic = 0x10B35201 ∧ x.rsvd = 0 ∧ (x.kind = 1 ∨ x.kind = 2) ∧ x.entries ≠ [] ∧ x.entries.length ≤ 255

theorem releaseFormed_iff {x : Release} : releaseFormed x ↔
    ¬ (x.magic ≠ 0x10B35201 ∨ x.rsvd ≠ 0 ∨ (x.kind ≠ 1 ∧ x.kind ≠ 2) ∨ x.entries = [] ∨ 255 < x.entries.length) := by
  simp only [releaseFormed, not_or, not_and_or, not_not, not_lt, ne_eq]

variable {s : State} {p : Nat}

section
variable (h : s.dev.looksAt s.fuses.lc 0x0A p) {x : Release}
include h

theorem quorumRelease_unformed (hx : ¬ releaseFormed x) :
    Completes (quorumReleaseRow p x) s 1 s.dev.sameKeys :=
  refused_of_run h (exec_quorumRelease s p x) (if_pos (not_not.1 (mt releaseFormed_iff.2 hx)))

variable (hx : releaseFormed x)
include hx

theorem quorumRelease_noJob (hj : s.dev.jobIs p x.mh = none) :
    Completes (quorumReleaseRow p x) s 5 s.dev.sameKeys :=
  refused_of_run h (exec_quorumRelease s p x) ((if_neg (releaseFormed_iff.1 hx)).trans (by simp [hj]))

variable {m : Manifest} (hj : s.dev.jobIs p x.mh = some m)
include hj

theorem quorumRelease_old {l : Nat} (hl : s.dev.accepted x.mh l) (hle : x.release ≤ l) :
    Completes (quorumReleaseRow p x) s 0x0D s.dev.sameKeys :=
  refused_of_run h (exec_quorumRelease s p x)
    ((if_neg (releaseFormed_iff.1 hx)).trans (by simp [hj, Dev.released_iff.2 ⟨l, hl, hle⟩]))

variable (hnew : ∀ l, s.dev.accepted x.mh l → l < x.release)
include hnew

/-- What is left of the row once its first gates are passed. -/
theorem quorumRelease_eq : s.dev.quorumRelease s.fuses.lc p x =
    if x.notAfter < s.dev.calendar then (s.dev.shown 0x0A p).answer 9
    else if (signersOf m x.entries).length < m.t then (s.dev.shown 0x0A p).sigFail 0x0A (entriesSig x.entries)
    else if x.kind = 1 ∧ (s.dev.holders x.mh).any fun q => (s.dev.freeSlot q).isNone then (s.dev.shown 0x0A p).answer 7
    else if x.kind = 2 then (((s.dev.shown 0x0A p).releaseNoted p x (s.dev.holders x.mh)).revoke x.mh (s.dev.holders x.mh)).answer 0
    else ((s.dev.shown 0x0A p).releaseNoted p x (s.dev.holders x.mh)).releaseExport s.fuses.lc x (s.dev.holders x.mh) := by
  have hrel : ¬ (s.dev.shown 0x0A p).released x.mh x.release = true := by
    rw [Dev.released_shown, Dev.released_iff]
    rintro ⟨l, hl, hle⟩
    exact absurd (hnew l hl) (Nat.not_lt.2 hle)
  refine (Dev.mailbox_of_looksAt h).trans ((if_neg (releaseFormed_iff.1 hx)).trans ?_)
  rw [Dev.jobIs_shown, hj]
  refine (if_neg hrel).trans ?_
  simp only [Dev.calendar_shown, Dev.holders_shown, Dev.freeSlot_shown]
  rfl

theorem quorumRelease_late (hl : x.notAfter < s.dev.calendar) :
    Completes (quorumReleaseRow p x) s 9 s.dev.sameKeys :=
  completes_of_refusal (exec_quorumRelease s p x) ((quorumRelease_eq h hx hj hnew).trans (if_pos hl))

variable (hl : s.dev.calendar ≤ x.notAfter)
include hl

theorem quorumRelease_few (ht : (signersOf m x.entries).length < m.t) :
    Completes (quorumReleaseRow p x) s 2 s.dev.sigCounted :=
  completes_of_sigFail (exec_quorumRelease s p x)
    ((quorumRelease_eq h hx hj hnew).trans ((if_neg (Nat.not_lt.2 hl)).trans (if_pos ht)))

variable (ht : m.t ≤ (signersOf m x.entries).length)
include ht

theorem quorumRelease_full (hk : x.kind = 1) (hfull : ∃ q ∈ s.dev.holders x.mh, s.dev.freeSlot q = none) :
    Completes (quorumReleaseRow p x) s 7 s.dev.sameKeys :=
  completes_of_refusal (exec_quorumRelease s p x) ((quorumRelease_eq h hx hj hnew).trans
    ((if_neg (Nat.not_lt.2 hl)).trans ((if_neg (Nat.not_lt.2 ht)).trans (if_pos ⟨hk, by simpa using hfull⟩))))

theorem quorumRelease_revokes (hk : x.kind = 2) :
    Completes (quorumReleaseRow p x) s 0 fun f =>
      x.mh ∈ f.rtp.revoked ∧ ∀ q ∈ s.dev.holders x.mh, (f.rtpPart q).held = false ∧ (f.rtpPart q).sealedRec = none := by
  refine completes_of_answer (g := ((s.dev.shown 0x0A p).releaseNoted p x (s.dev.holders x.mh)).revoke x.mh (s.dev.holders x.mh))
    (exec_quorumRelease s p x) ((quorumRelease_eq h hx hj hnew).trans
    ((if_neg (Nat.not_lt.2 hl)).trans ((if_neg (Nat.not_lt.2 ht)).trans ((if_neg (by simp [hk])).trans (if_pos hk))))) ⟨?_, fun q hq => ?_⟩
  · rw [Dev.revoked_reply]
    exact Dev.mem_revoked_revoke ..
  · rw [Dev.rtpPart_reply]
    exact Dev.rtpPart_revoke _ _ hq

theorem quorumRelease_exports (hk : x.kind = 1) (hfree : ∀ q ∈ s.dev.holders x.mh, s.dev.freeSlot q ≠ none) :
    Completes (quorumReleaseRow p x) s 0 fun f =>
      f.log.seq = s.dev.log.seq + 1 ∧
      ∀ q ∈ s.dev.holders x.mh, (f.rtpPart q).lastRelease = some x.release ∧ ∃ k, s.dev.freeSlot q = some k ∧
        (f.key k).typ = 5 ∧ (f.key k).valid = true ∧ (f.key k).uses = 1 ∧ (f.key k).link = x.release ∧
        (f.key k).notAfter = x.notAfter ∧
        (f.key k).secret = (s.dev.hybridTo (exportLabel x.release x.step) x.mh (ownIdh s.fuses.lc) x.rX x.rM).1.key := by
  let qs := s.dev.holders x.mh
  let e := (s.dev.shown 0x0A p).releaseNoted p x qs
  obtain ⟨hkeys, hdrawn, hparts, hseq⟩ := (s.dev.shown 0x0A p).releaseNoted_rest p x qs
  obtain ⟨hexported, hlog⟩ := e.exported_rest s.fuses.lc x qs
  obtain ⟨hheader, hrtp, hlogged⟩ :=
    (e.exported s.fuses.lc x qs).recipientHeader_rest s.fuses.lc x.release x.step (e.exportHybrid s.fuses.lc x)
  have hgate : ¬ (x.kind = 1 ∧ (qs.any fun q => (s.dev.freeSlot q).isNone) = true) := by
    rintro ⟨-, hany⟩
    obtain ⟨q, hq, hnone⟩ := List.any_eq_true.1 hany
    exact hfree q hq (Option.isNone_iff_eq_none.1 hnone)
  have hrow : s.dev.quorumRelease s.fuses.lc p x = e.releaseExport s.fuses.lc x qs :=
    (quorumRelease_eq h hx hj hnew).trans ((if_neg (Nat.not_lt.2 hl)).trans ((if_neg (Nat.not_lt.2 ht)).trans
      ((if_neg hgate).trans (if_neg (by rw [hk]; decide)))))
  refine completes_of_reply (exec_quorumRelease s p x) (hrow.trans (e.releaseExport_eq ..)) ⟨?_, fun q hq => ⟨?_, ?_⟩⟩
  · rw [Dev.log_reply, hlogged, hlog, hseq, Dev.log_shown]
  · rw [Dev.rtpPart_reply, Dev.rtpPart_congr (congrArg Rtp.parts hrtp), Dev.rtpPart_congr hexported,
      Dev.lastRelease_releaseNoted _ p x hq]
  · obtain ⟨k, hk⟩ := Option.ne_none_iff_exists'.1 (hfree q hq)
    have hslot : e.freeSlot q = some k :=
      (Dev.freeSlot_congr (b := s.dev) (hparts.trans (s.dev.parts_shown 0x0A p)) fun i _ =>
        Dev.key_congr (d := s.dev) (hkeys.trans (s.dev.keys_shown 0x0A p)) i).trans hk
    obtain ⟨job, hkey⟩ := e.key_exported s.fuses.lc x (s.dev.nodup_holders x.mh) hq hslot
    have hhybrid : e.exportHybrid s.fuses.lc x = s.dev.exportHybrid s.fuses.lc x :=
      Dev.hybridTo_congr (hdrawn.trans (congrArg Rtp.drawn (s.dev.rtp_shown 0x0A p))) _ _ _ _ _
    refine ⟨k, hk, ?_⟩
    rw [Dev.key_reply, Dev.key_congr hheader, hkey, hhybrid]
    exact exportKey_fields ..

end

end Sys2Proof.Machine
end

section
namespace Sys2Proof
open Sys2Proof.Machine

/-- Every row of the statement's list delivers a mailbox command of its opcode. -/
theorem mailRows (s : State) (p : Nat) (m : Manifest) (sig : DualSig) (k x dest : Nat) (ks : List Nat) (ok : Bool) (j : Nat) (b : Bool)
    (ln : Nat) (tr : Transport) (up : KeyUpdate) (rl : Release) (nc : Nat) :
    ∀ e ∈ ([(1, .manifestLoad p m sig), (2, .jobCreate p k x), (3, .jobJoin p dest k ks), (4, .jobResume p k ks ok), (5, .jobForget p),
      (6, .slotAlloc p k j b), (7, .slotFree p k), (8, .keyTransport p k ln tr.toTransportHead tr.mh tr.idh tr.env sig),
      (9, .keyUpdate p ln up.toUpdateHead up.mh up.idh up.counter up.keyId up.uses sig),
      (0x0A, .quorumRelease p rl.kind rl.mh rl.release rl.step rl.notAfter rl.toReleaseForm rl.entries), (0x0B, .evidence p nc)] :
        List (Nat × Instr)), MailRow s p e := by
  simp only [List.forall_mem_cons]
  exact ⟨⟨_, exec_manifestLoad s p m sig⟩, ⟨_, exec_jobCreate s p k x⟩, ⟨_, exec_jobJoin s p dest k ks⟩, ⟨_, exec_jobResume s p k ks ok⟩,
    ⟨_, exec_jobForget s p⟩, ⟨_, exec_slotAlloc s p k j b⟩, ⟨_, exec_slotFree s p k⟩, ⟨_, exec_keyTransport s p k ln tr sig⟩,
    ⟨_, exec_keyUpdate s p ln up sig⟩, ⟨_, exec_quorumRelease s p rl⟩, ⟨_, exec_evidence s p nc⟩, fun _ h => absurd h List.not_mem_nil⟩

/-- Settles O54: every row is a command behind one set of gates (`MailRow`); a command that is looked at runs on the device in which it
shows (`Dev.shown`), of which the RTP reads what it read before, and one lemma for each branch of the command says what it leaves. -/
theorem mailboxCommands : Obligations.MailboxCommands := by
  unfold Obligations.MailboxCommands
  intro p s hq
  dsimp only
  refine ⟨fun m sig k x dest ks ok j b ln tr up rl nc e he => (mailRows s p m sig k x dest ks ok j b ln tr up rl nc e he).gates hq,
    fun h m sig => ?manifestLoad, fun h k x => ?jobCreate,
    fun h hb m dest k ks hm hr he hk hh hj => jobJoin_good h hm hr he hk hh hj hq, fun h m x k ks hm hx hmh => ?jobResume,
    fun h => ⟨fun hm hx => jobForget_absent h hm hx, fun hm => jobForget_good h hm⟩,
    fun m hm hup he => jobExpire_due hm hup he, fun h => jobExpire_idle hq h, fun h k j b => ?slotAlloc, fun h k => ?slotFree,
    fun h k ln x sig => ?keyTransport, fun h ln x sig => ?keyUpdate, fun h x => ?quorumRelease, fun h n => evidence_good h n⟩
  case manifestLoad =>
    exact ⟨fun hm => manifestLoad_unfit h hm, fun hm hx => manifestLoad_unsigned h hm hx,
      fun hm hall hx => ⟨fun he => manifestLoad_expired h hm hall hx he, fun he => manifestLoad_good h hm hall hx he⟩⟩
  case jobCreate =>
    exact ⟨fun hm => jobCreate_unmanifested h hm, fun m hm he => jobCreate_expired h hm he,
      fun m hm he => ⟨fun hs => jobCreate_otherSlice h hm he hs, fun st hs hk => jobCreate_badSlot h hm he hs hk,
        fun hs hk hh => jobCreate_held h hm he hs hk hh, fun hs hk hh => jobCreate_good h hm he hs hk hh⟩⟩
  case jobResume =>
    exact ⟨jobResume_badTag h hm hx hmh, fun hr hi he hk hh hl => jobResume_good h hm hx hmh hr hi he hk hh hl⟩
  case slotAlloc =>
    exact ⟨fun st hk => slotAlloc_badSlot h hk, fun hk hj => slotAlloc_noJob h hk hj, fun hk hv ht => slotAlloc_good h hk hv ht⟩
  case slotFree =>
    exact ⟨fun hk => slotFree_outside h hk, fun h0 hlt hp ht => slotFree_free h h0 hlt hp ht,
      fun h0 hlt hp ht => slotFree_good h h0 hlt hp ht⟩
  case keyTransport =>
    exact ⟨fun hx => keyTransport_unformed h hx, fun hx hj => keyTransport_noJob h hx hj,
      fun m hx hj => ⟨fun hi => keyTransport_otherDevice h hx hj hi, fun hi ho => ⟨fun hs => keyTransport_unsigned h hx hj hi ho hs,
        fun hs => ⟨fun hopen => keyTransport_sealed h hx hj hi ho hs hopen,
          fun bs hopen hk => keyTransport_good h hx hj hi ho hs hopen hk⟩⟩⟩⟩
  case keyUpdate =>
    exact ⟨fun hx => keyUpdate_unformed h hx, fun hx hj => keyUpdate_noJob h hx hj,
      fun m hx hj h1 h3 ho hi => ⟨fun hc => keyUpdate_outOfOrder h hx hj h1 h3 ho hi hc,
        fun hc hs => keyUpdate_unsigned h hx hj h1 h3 ho hi hc hs, fun hc hs => keyUpdate_good h hx hj h1 h3 ho hi hc hs⟩⟩
  case quorumRelease =>
    exact ⟨fun hx => quorumRelease_unformed h hx, fun hx hj => quorumRelease_noJob h hx hj,
      fun m hx hj => ⟨fun l hl hle => quorumRelease_old h hx hj hl hle, fun hnew => ⟨fun hl => quorumRelease_late h hx hj hnew hl,
        fun hl ht => quorumRelease_few h hx hj hnew hl ht, fun hl ht => ⟨fun hk hfull => quorumRelease_full h hx hj hnew hl ht hk hfull,
          fun hk hfree => quorumRelease_exports h hx hj hnew hl ht hk hfree,
          fun hk => quorumRelease_revokes h hx hj hnew hl ht hk⟩⟩⟩⟩

end Sys2Proof
end
